-- ==== Sys2Proof/Word.lean ====
section
/-! DEFINITION. The word and byte types, and the sparse table that holds every memory, register file and slot array. -/

namespace Sys2Proof

/-- The 32-bit word of packets, registers and memories (R5: little-endian). -/
abbrev Word := BitVec 32

/-- A byte. -/
abbrev Byte := BitVec 8

/-- A sparse table: entries by index, indices strictly rising, no entry equal to what an unlisted index reads as. -/
abbrev Tbl (α : Type) := List (Nat × α)

end Sys2Proof
end

