-- ==== Sys2Proof/Config.lean ====
section
/-! DEFINITION. What an implementation fixes, and the free values: constants without a body, so that nothing can be proved
about which value they have. -/

namespace Sys2Proof.Config

/-- SERIAL of this part (Table 02-27): fixed at manufacture, a different value in every device. -/
opaque serial : BitVec 64

/-- The hub's firmware key (Table 19-6): held in the die, readable by nothing. -/
opaque fwKey : List Byte

/-- The signature that the running image holds for a logic slice of a die revision (R415): revision, slice. The spec gives only a fold over
all of them. -/
opaque sliceSig : Nat → Nat → BitVec 64

/-- The n-th word the spec leaves open: nothing constrains it. -/
opaque freeWord : Nat → Word

/-- The n-th truth value the spec leaves open. -/
opaque freeBool : Nat → Bool

/-- The n-th natural number the spec leaves open. -/
opaque freeNat : Nat → Nat

/-- The n-th byte the hub's true random number generator draws (R374). -/
opaque randomByte : Nat → Byte

/-- The points that solver PUBLISH writes for a subproblem (R140), and the entry of its output that each takes: the spec names no such
mapping. -/
opaque publishMap : Nat → List (Nat × Nat)

/-- How many boundary cells the TAP has (R433): the spec names the pins that have cells, not how many cells or their order. -/
opaque boundaryCells : Nat

end Sys2Proof.Config
end

