-- ==== Sys2Proof/Machine/Types.lean ====
section
/-! DEFINITION. The plain data the device is made of: one type per enumeration and one structure per register block, table
entry, frame or queue of the spec, every field at the value it holds at reset. Written from the field tables of spec/;
INVENTORY.md's '## State' lists every field with its width, its rule and its retention class. -/

namespace Sys2Proof.Machine

/-- Table 01-4: the four host transports. -/
inductive Transport where
  | pcie | spi | eth | relay
  deriving DecidableEq, Repr, Inhabited

/-- Table 01-14 STATE. -/
inductive FrameState where
  | stopped | running | stopping
  deriving DecidableEq, Repr, Inhabited

/-- Table 01-14 PHASE. -/
inductive FramePhase where
  | snapshot | assemble | solve | coordinate | publish | checkpoint | done
  deriving DecidableEq, Repr, Inhabited

/-- Table 01-9. -/
inductive Severity where
  | info | warn | crit
  deriving DecidableEq, Repr, Inhabited

/-- A control link or a field link of Table 01-1. -/
structure Link where
  /-- false after the hub declared the link down (R15). -/
  up : Bool := true
  /-- instant the link was declared down (R15,Table 01-11). -/
  downAt : Nat := 0
  /-- attempts to retrain it since (R15). -/
  tries : Nat := 0
  deriving DecidableEq, Repr, Inhabited

/-- The monitor of one credit queue (Tables 01-4 to 01-7). -/
structure QMon where
  /-- items in the queue now (R18,Table 01-6). -/
  level : Nat := 0
  /-- highest LEVEL since last read (Table 01-6). -/
  highWater : Nat := 0
  /-- microseconds the producer held an item (Table 01-7). -/
  stallUs : BitVec 32 := 0
  /-- items the producer holds for lack of credit (R18). -/
  held : Nat := 0
  deriving DecidableEq, Repr, Inhabited

/-- One event (R22): what a unit hands to the router. -/
structure EventRec where
  /-- [15:8] unit class, [7:0] event number (R22). -/
  code : BitVec 16 := 0
  /-- [15:8] unit class, [7:0] instance (R22). -/
  source : BitVec 16 := 0
  /-- severity (R22,Table 01-9). -/
  sev : Severity := .info
  /-- event data (Table 01-11). -/
  data : BitVec 64 := 0
  /-- repeats absorbed while the event was held (R24). -/
  reps : Nat := 0
  /-- address of the device it was forwarded from, none for an own event (R165). -/
  origin : Option (BitVec 8) := none
  deriving DecidableEq, Repr, Inhabited

/-- The next event a unit holds while the router queue is full (R24). -/
structure HeldEvent where
  /-- the held event (R24). -/
  ev : EventRec := {}
  /-- later events of the same code, source and data absorbed (R24). -/
  repeats : Nat := 0
  deriving DecidableEq, Repr, Inhabited

/-- HUB_EVR_ROUTE_c (Table 01-10). -/
structure EvRoute where
  /-- MSI-X vector (Table 01-10). -/
  vector : BitVec 5 := 0
  /-- signals VECTOR (Table 01-10). -/
  msixEn : Bool := false
  /-- asserts IRQ0_N (Table 01-10). -/
  irq0En : Bool := false
  /-- asserts IRQ1_N (Table 01-10). -/
  irq1En : Bool := false
  /-- forwards events up (Table 01-10). -/
  fwdUp : Bool := false
  /-- least severity notified (Table 01-10). -/
  minSev : BitVec 2 := 2
  deriving DecidableEq, Repr, Inhabited

/-- The event router of the hub. -/
structure EvRouter where
  /-- events waiting for the recorder, oldest first (R23). -/
  queue : List EventRec := []
  /-- event each unit holds while the queue is full, keyed by source (R24). -/
  held : Tbl HeldEvent := []
  /-- events lost since the queue was last full (R24). -/
  lost : Nat := 0
  /-- HUB_EVR_ROUTE_c by unit class c (Table 01-10). -/
  routes : Tbl EvRoute := []
  /-- IRQ0_N asserted by an event until the host reads the recorder past it (Table 01-10). -/
  irq0 : Bool := false
  /-- IRQ1_N, as irq0 (Table 01-10). -/
  irq1 : Bool := false
  /-- SEQUENCE of the newest record that asserted IRQ0_N (R371). -/
  irqSeq0 : BitVec 32 := 0
  /-- the same for IRQ1_N (R371). -/
  irqSeq1 : BitVec 32 := 0
  deriving DecidableEq, Repr, Inhabited

/-- A frame schedule (R25): length and anchor. -/
structure Sched where
  /-- FRAME_LEN in 10 ms units (R25). -/
  len : Nat := 100
  /-- ANCHOR, corrected nanoseconds with era (R25). -/
  anchor : Nat := 0
  /-- ANCHOR_FRAME (R25). -/
  anchorFrame : Nat := 0
  deriving DecidableEq, Repr, Inhabited

/-- The control frame and its schedule. -/
structure FrameCtl where
  /-- schedule in force (R25). -/
  sched : Sched := {}
  /-- STATE (Table 01-14). -/
  state : FrameState := .stopped
  /-- newest frame N (Table 01-14). -/
  frameNum : Nat := 0
  /-- a frame has run since POR (Table 01-14). -/
  everRun : Bool := false
  /-- phase of frame N (Table 01-14). -/
  phase : FramePhase := .done
  /-- T_N of the newest frame (Table 01-14). -/
  tN : Nat := 0
  /-- accepted FRAME_SET awaiting its anchor (R31). -/
  pendingSet : Option Sched := none
  /-- STOP_FRAME of a waiting FRAME_STOP (R32). -/
  stopFrame : Option Nat := none
  /-- global iterations of the last committed frame (Table 01-14). -/
  globalIter : Nat := 0
  /-- commit of the last committed frame relative to its next boundary (Table 01-14). -/
  commitLagUs : BitVec 32 := 0
  /-- frames committed at their deadline (Table 01-14). -/
  deadlineCnt : Nat := 0
  /-- jobs issued with WARM_FROM_OLDER in the last committed frame (Table 01-14). -/
  olderCnt : Nat := 0
  /-- the same count of the frame being solved (R28). -/
  olderRun : Nat := 0
  /-- newest committed frame (R27). -/
  committedFrame : Nat := 0
  /-- newest frame whose CHECKPOINT completed (R28,Table 01-12). -/
  checkpointed : Nat := 0
  /-- largest frame number run since the last POR (R31). -/
  maxFrameRun : Nat := 0
  /-- newest frame whose generation was committed (Table 01-12). -/
  genCommitted : Nat := 0
  /-- corrected instant before which no boundary starts a frame after a takeover (R288). -/
  resumeAt : Nat := 0
  /-- no frame starts until the relayed FRAME_SET arrives after a large backward step (R318). -/
  awaitSet : Bool := false
  /-- first frame of the unbroken run of frames up to N (R133). -/
  firstRun : Nat := 0
  deriving DecidableEq, Repr, Inhabited

/-- Die links, clocks and credit queues of chapter 01. -/
structure Fabric where
  /-- control links, 0 CTLA, 1 CTLB (R14,R15). -/
  ctlLink : Tbl Link := []
  /-- field links FLD0-FLD3 (R14,R15). -/
  fldLink : Tbl Link := []
  /-- hub PLL locked and XREF_IN present (R17). -/
  hubPll : Bool := true
  /-- control-die PLL lost lock (R17). -/
  ctlPll : Tbl Bool := []
  /-- HUB_QMON_SEL: QKIND [7:0] 0x01, INSTANCE [15:8] 0 (Table 01-5). -/
  hubQSel : BitVec 16 := 1
  /-- CTL_QMON_SEL: QKIND 0x10, INSTANCE 0 (Table 01-5). -/
  ctlQSel : BitVec 16 := 0x10
  /-- monitors of the hub queues, keyed kind*256+instance (Tables 01-3,01-6,01-7). -/
  hubQ : Tbl QMon := []
  /-- monitors of the control-die queues, not restored at takeover (Tables 01-3,01-6,01-7). -/
  ctlQ : Tbl QMon := []
  /-- how often the registers of the active control die (key 0) and of field die k (key 16 + k) have returned to default: a captured page is valid only within one such span (the model's own) (R80). -/
  epochs : Tbl Nat := []
  /-- RW words of the standby control die's page that a write has changed, by offset (Table 02-19). -/
  coldRegs : Tbl Word := []
  deriving DecidableEq, Repr, Inhabited

/-- A command packet (Tables 02-1, 02-2) with the transport that delivered it. -/
structure Packet where
  /-- the transport it arrived on (R35). -/
  transport : Transport := .pcie
  /-- Ethernet port of an Ethernet packet (R56). -/
  port : Nat := 0
  /-- source IPv4 address of an Ethernet packet (R56,R57). -/
  srcAddr : BitVec 32 := 0
  /-- source UDP port the reply goes to (R56). -/
  srcPort : Nat := 0
  /-- 802.1Q tag of the request, repeated in the reply (R56). -/
  vlan : Option (BitVec 16) := none
  /-- submission index of a PCIe packet (Table 02-13). -/
  sqIndex : BitVec 9 := 0
  /-- reply buffer address of a PCIe packet (Table 02-12). -/
  rplAddr : Nat := 0
  /-- reply buffer capacity in words (Table 02-12). -/
  rplCap : Nat := 0
  /-- length the transport framed, in words (R35). -/
  framedWords : Nat := 0
  /-- header, parameters and tag as received (R34). -/
  words : List Word := []
  /-- what the host memory that its parameters name returns to a DMA read, none where it cannot be read (R72). -/
  dma : Option (List Word) := some []
  deriving DecidableEq, Repr, Inhabited

/-- An accepted packet that has passed checks 1 to 6 of R40 and awaits execution. -/
structure QPacket where
  /-- the packet (R46). -/
  pkt : Packet := {}
  /-- the sequence number it verified with (R43). -/
  seq : BitVec 32 := 0
  /-- its reply is tagged (R45). -/
  tagged : Bool := false
  /-- it waits with AT_SNAPSHOT (R47). -/
  waitsSnap : Bool := false
  /-- it has started and its reply comes later (R46). -/
  started : Bool := false
  /-- the capture it waited for has happened (R47). -/
  snapDone : Bool := false
  /-- the key it verified under, which tags its reply (R45,R386). -/
  key : List Byte := []
  /-- die that was active when it arrived (R48). -/
  die : Option Nat := none
  deriving DecidableEq, Repr, Inhabited

/-- The PCIe rings and registers (Tables 02-5 to 02-11). -/
structure PcieRing where
  /-- RING_EN (Table 02-6). -/
  ringEn : Bool := false
  /-- PAUSE (Table 02-6). -/
  pause : Bool := false
  /-- SUSPENDED (Table 02-7). -/
  suspended : Bool := false
  /-- LOST_CPL (Table 02-7). -/
  lostCpl : Nat := 0
  /-- HUB_SQ_BASE (Table 02-8). -/
  sqBase : BitVec 64 := 0
  /-- HUB_CQ_BASE (Table 02-8). -/
  cqBase : BitVec 64 := 0
  /-- HUB_SQ_TAIL (Table 02-9). -/
  sqTail : BitVec 9 := 0
  /-- HUB_SQ_HEAD (Table 02-9). -/
  sqHead : BitVec 9 := 0
  /-- HUB_CQ_TAIL (Table 02-9). -/
  cqTail : BitVec 9 := 0
  /-- HUB_CQ_HEAD (Table 02-9). -/
  cqHead : BitVec 9 := 0
  /-- HUB_CQ_IRQ VECTOR (Table 02-10). -/
  irqVector : BitVec 5 := 0
  /-- MSIX_EN (Table 02-10). -/
  irqMsixEn : Bool := false
  /-- COUNT (Table 02-10). -/
  irqCount : Nat := 1
  /-- TIME_US (Table 02-10). -/
  irqTimeUs : Nat := 0
  /-- completions not yet signalled (Table 02-10). -/
  unsignalled : Nat := 0
  /-- instant of the oldest of them (Table 02-10). -/
  unsigAt : Nat := 0
  /-- SQ_OVERRUN (Table 02-11). -/
  sqOverrun : Bool := false
  /-- CQ_HEAD_ERR (Table 02-11). -/
  cqHeadErr : Bool := false
  /-- DMA_ERR (Table 02-11). -/
  dmaErr : Bool := false
  deriving DecidableEq, Repr, Inhabited

/-- The quad-SPI port. -/
structure SpiPort where
  /-- LAST_CRC_ERR (Table 02-15/R54). -/
  lastCrcErr : Bool := false
  /-- LAST_REFUSED (R54). -/
  lastRefused : Bool := false
  /-- LAST_LEN_ERR (R54). -/
  lastLenErr : Bool := false
  /-- ACCEPT_CNT (R54). -/
  acceptCnt : BitVec 16 := 0
  /-- reply queue, oldest first (R55). -/
  replies : List (List Word) := []
  deriving DecidableEq, Repr, Inhabited

/-- HOST_CONFIG values (Table 02-16). -/
structure HostCfg where
  /-- PCIE_AUTH_REQ (Table 02-16). -/
  pcieAuthReq : Bool := false
  /-- SPI_EN (Table 02-16). -/
  spiEn : Bool := true
  /-- SPI_IRQ (Table 02-16). -/
  spiIrq : BitVec 2 := 1
  /-- ETH_CMD_MASK (Table 02-16). -/
  ethCmdMask : BitVec 3 := 0
  /-- CMD_UDP_PORT (Table 02-16). -/
  cmdUdpPort : Nat := 47638
  /-- CMD_SRC_ADDR (Table 02-16). -/
  cmdSrcAddr : BitVec 32 := 0
  /-- CMD_SRC_MASK (Table 02-16). -/
  cmdSrcMask : BitVec 32 := 0
  deriving DecidableEq, Repr, Inhabited

/-- ETH_IF_CONFIG values of one MAC (Table 02-17). -/
structure EthIf where
  /-- ENABLE (Table 02-17). -/
  enable : Bool := false
  /-- SGMII (Table 02-17). -/
  sgmii : Bool := false
  /-- SPEED (Table 02-17). -/
  speed : BitVec 2 := 0
  /-- PHY_ADDR (Table 02-17). -/
  phyAddr : BitVec 5 := 0
  /-- IPV4_ADDR (Table 02-17). -/
  ipv4 : BitVec 32 := 0
  /-- NETMASK (Table 02-17). -/
  netmask : BitVec 32 := 0
  /-- GATEWAY (Table 02-17). -/
  gateway : BitVec 32 := 0
  /-- VID (Table 02-17). -/
  vid : BitVec 12 := 0
  /-- PCP (Table 02-17). -/
  pcp : BitVec 3 := 0
  /-- MAC address; 0 selects the default address (DESIGN CHOICE reset 0) (Table 02-17,R58). -/
  mac : BitVec 48 := 0
  deriving DecidableEq, Repr, Inhabited

/-- A relay whose replies this device awaits (R60, R61): one it originated, or one with SUBTREE that it passes on. -/
structure RelayWait where
  /-- this device originated it (R61). -/
  origin : Bool := true
  /-- the outer packet of a relay it originated (R59). -/
  pkt : QPacket := {}
  /-- first words of the inner packet, which a gathered reply repeats (R60). -/
  head : List Word := []
  /-- DOWN ports whose reply is awaited (R59,R60). -/
  ports : List Nat := []
  /-- this device's own execution of the inner packet is awaited (R60). -/
  own : Bool := false
  /-- SUBTREE (R60). -/
  subtree : Bool := false
  /-- instant at which TIMEOUT_MS expires (R61). -/
  deadline : Nat := 0
  /-- words gathered for SUBTREE (R60). -/
  answers : List Word := []
  /-- its reply is still awaited (a late one is recognised by this record) (R61). -/
  awaited : Bool := true
  /-- TAG of the inner packet, by which its reply is recognised (R60). -/
  innerTag : BitVec 16 := 0
  deriving DecidableEq, Repr, Inhabited

/-- The command interpreter and its transports. -/
structure HostPort where
  /-- PCIe rings (R49-R53). -/
  ring : PcieRing := {}
  /-- quad-SPI port (R54,R55). -/
  spi : SpiPort := {}
  /-- HOST_CONFIG (R57). -/
  cfg : HostCfg := {}
  /-- ETH_IF_CONFIG per MAC (R58). -/
  eth : Tbl EthIf := []
  /-- L per transport and key slot, keyed transport*64+slot, default 0 (R43). -/
  lastSeq : Tbl (BitVec 32) := []
  /-- accepted packets not yet completed, in arrival order (R46,Table 01-3). -/
  queue : List QPacket := []
  /-- submission credits held per transport (R437). -/
  creditsUsed : Tbl Nat := []
  /-- PCIE/SPI/ETH/RELAY_ACCEPTED (Table 02-28). -/
  accepted : Tbl (BitVec 32) := []
  /-- AUTH_FAIL_CNT (Table 02-28). -/
  authFailCnt : Nat := 0
  /-- REFUSED_CNT (Table 02-28). -/
  refusedCnt : Nat := 0
  /-- ETH_DISCARDED (Table 02-28). -/
  ethDiscarded : Nat := 0
  /-- SPI_CRC_ERR (Table 02-28). -/
  spiCrcErr : Nat := 0
  /-- relays awaiting their reply (R59,R61). -/
  relays : List RelayWait := []
  /-- SERIAL, fixed per part (Table 02-27). -/
  serial : BitVec 64 := Config.serial
  /-- HUB die revision (Table 02-25). -/
  revHub : BitVec 8 := 0xA1
  /-- CTLA revision (Table 02-25). -/
  revCtlA : BitVec 8 := 0xB0
  /-- CTLB revision (Table 02-25). -/
  revCtlB : BitVec 8 := 0xB0
  /-- field-die revision (Table 02-25). -/
  revFld : BitVec 8 := 0xA2
  deriving DecidableEq, Repr, Inhabited

/-- One entry of the point store (Table 03-1). -/
structure PointEntry where
  /-- VALUE (R66). -/
  value : Word := 0x7FC00000
  /-- TIME (R66). -/
  time : Word := 0
  /-- FRAME_TAG (R66). -/
  frameTag : BitVec 16 := 0
  /-- QUALITY (R66). -/
  quality : BitVec 8 := 0xFF
  /-- SOURCE (R66). -/
  source : BitVec 8 := 0
  /-- SEQUENCE (R66). -/
  sequence : BitVec 16 := 0
  deriving DecidableEq, Repr, Inhabited

/-- The last write landed on a point in the current base tick (R68). -/
structure LandMark where
  /-- base tick of the last landing (R68). -/
  tick : Nat := 0
  /-- its precedence (R68). -/
  prec : Nat := 0
  /-- its source (R68). -/
  source : BitVec 8 := 0
  /-- the entry as it stood before that base tick (R171). -/
  before : PointEntry := {}
  deriving DecidableEq, Repr, Inhabited

/-- A write on its way to the store. -/
structure PointWrite where
  /-- point ID (R68). -/
  id : Nat := 0
  /-- VALUE (R68). -/
  value : Word := 0
  /-- TIME (Table 03-4). -/
  time : Word := 0
  /-- carried tag, or newest frame number at landing (Table 03-4). -/
  frameTag : Option (BitVec 16) := none
  /-- TIME is the landing instant (Table 03-4). -/
  landTime : Bool := false
  /-- supplied quality (R67). -/
  quality : BitVec 8 := 0
  /-- source code (Table 03-3). -/
  source : BitVec 8 := 0
  /-- last record of a point frame, whose landing frees its place in the ingest queue (R75). -/
  last : Bool := false
  deriving DecidableEq, Repr, Inhabited

/-- A held generation (R76, R77). -/
structure Generation where
  /-- generation number (R76). -/
  gen : BitVec 16 := 0
  /-- requested, not a frame capture (R76). -/
  requested : Bool := false
  /-- Piste assembles from it (R77). -/
  pinned : Bool := false
  /-- capture time and era (Table 03-13). -/
  time : Nat := 0
  /-- shadow copies it holds (R77). -/
  copies : Tbl PointEntry := []
  /-- which part of the pool each copy's slot came from (0 unreserved, 1 local-sample reserve, 2 loop/PUBLISH reserve) (R77). -/
  copyKind : Tbl Nat := []
  /-- IDs whose content at its capture was lost to an uncorrectable memory error (R67, R78). -/
  eccBad : List Nat := []
  deriving DecidableEq, Repr, Inhabited

/-- A pending SNAPSHOT_AT (R79). -/
structure SnapReq where
  /-- generation it will take (R79). -/
  gen : BitVec 16 := 0
  /-- requested corrected time (R79). -/
  time : Nat := 0
  deriving DecidableEq, Repr, Inhabited

/-- PFRAME_CONFIG of one MAC (Table 03-8). -/
structure PFrameCfg where
  /-- ENABLE (Table 03-8). -/
  enable : Bool := false
  /-- RECORD_TIME (Table 03-8). -/
  recordTime : Bool := false
  /-- KEY_SLOT (Table 03-8). -/
  keySlot : BitVec 6 := 0
  /-- UDP_PORT (Table 03-8). -/
  udpPort : Nat := 47639
  /-- SRC_ADDR (Table 03-8). -/
  srcAddr : BitVec 32 := 0
  /-- SRC_MASK (Table 03-8). -/
  srcMask : BitVec 32 := 0
  /-- ID_LOW (Table 03-8). -/
  idLow : Nat := 0
  /-- ID_HIGH (Table 03-8). -/
  idHigh : Nat := 0xFFFFF
  deriving DecidableEq, Repr, Inhabited

/-- Point-frame ingest of one MAC. -/
structure PFrameState where
  /-- settings (R73). -/
  cfg : PFrameCfg := {}
  /-- last accepted SEQ (R74). -/
  lastSeq : BitVec 32 := 0
  /-- datagrams held in the ingest queue (R75). -/
  ingest : Nat := 0
  /-- PF_ACCEPTED (Table 03-15). -/
  accepted : BitVec 32 := 0
  /-- PF_REJECTED (Table 03-15). -/
  rejected : Nat := 0
  /-- PF_DISCARDED (Table 03-15). -/
  discarded : Nat := 0
  deriving DecidableEq, Repr, Inhabited

/-- The point store. -/
structure PointStore where
  /-- live entries by ID (R66). -/
  live : Tbl PointEntry := []
  /-- last landing per point, for same-tick collisions (R68). -/
  marks : Tbl LandMark := []
  /-- held generations, newest first (R77). -/
  gens : List Generation := []
  /-- pending requests, earliest first (R79). -/
  reqs : List SnapReq := []
  /-- request count (R76). -/
  reqCount : Nat := 0
  /-- writes waiting for a pool slot, by source in order (R70,R77). -/
  waiting : List PointWrite := []
  /-- COLLIDE_CNT (Table 03-15). -/
  collideCnt : Nat := 0
  /-- FREE_LOW (Table 03-15). -/
  freeLow : Nat := 1048576
  /-- POOL_STALL_US (Table 03-15). -/
  poolStallUs : BitVec 32 := 0
  /-- point-frame ingest per MAC (R73-R75). -/
  pframe : Tbl PFrameState := []
  deriving DecidableEq, Repr, Inhabited

/-- An element record (Table 04-2). -/
structure Element where
  /-- KIND (Table 04-2). -/
  kind : BitVec 4 := 0
  /-- SUBPROBLEM (Table 04-2). -/
  subproblem : Nat := 0
  /-- PSET (Table 04-2). -/
  pset : Nat := 0
  /-- POINT_BASE (Table 04-2). -/
  pointBase : Nat := 0
  /-- A_COUPLED (Table 04-2). -/
  aCoupled : Bool := false
  /-- B_COUPLED (Table 04-2). -/
  bCoupled : Bool := false
  /-- NODE_A (Table 04-2). -/
  nodeA : Nat := 0
  /-- NODE_B (Table 04-2). -/
  nodeB : Nat := 0
  deriving DecidableEq, Repr, Inhabited

/-- A subproblem entry (Table 04-7). -/
structure Subproblem where
  /-- JOB_KIND (Table 04-7). -/
  jobKind : BitVec 8 := 6
  /-- PRECISION (Table 04-7). -/
  precision : BitVec 2 := 0
  /-- ENABLE (Table 04-7). -/
  enable : Bool := false
  /-- ENGINE (Table 04-7). -/
  engine : BitVec 8 := 0xFF
  /-- H (Table 04-7). -/
  horizon : Nat := 1
  /-- STEP_S (Table 04-7). -/
  stepS : Nat := 900
  /-- ITER_CAP (Table 04-7). -/
  iterCap : Nat := 0
  /-- EPS_ABS (Table 04-7). -/
  epsAbs : Word := 0
  /-- EPS_REL (Table 04-7). -/
  epsRel : Word := 0
  /-- RHO (Table 04-7). -/
  rho : Word := 0
  /-- COUPLE_RHO (Table 04-7). -/
  coupleRho : Word := 0x3F800000
  /-- P_MIN (Table 04-7). -/
  pMin : Word := 0x358637BD
  /-- PIV_EPS (Table 04-7). -/
  pivEps : BitVec 8 := 0
  deriving DecidableEq, Repr, Inhabited

/-- A substitution rule (Table 04-8). -/
structure SubstRule where
  /-- MODE (Table 04-8). -/
  mode : BitVec 2 := 0
  /-- THEN (Table 04-8). -/
  thenMode : BitVec 2 := 3
  /-- UNCERTAIN_BAD (Table 04-8). -/
  uncertainBad : Bool := false
  /-- MAX_AGE (Table 04-8). -/
  maxAge : Nat := 40
  /-- CONST (Table 04-8). -/
  const : Word := 0
  /-- STALE_FRAMES (Table 04-8). -/
  staleFrames : Nat := 0
  deriving DecidableEq, Repr, Inhabited

/-- The four parts and the header of a model image (R83). -/
structure Model where
  /-- MODEL_REV (R83). -/
  modelRev : BitVec 16 := 0
  /-- PARAM_EDITION (R83). -/
  paramEdition : BitVec 16 := 0
  /-- ELEM_COUNT (R83). -/
  elemCount : Nat := 0
  /-- PARAM_WORDS (R83). -/
  paramWords : Nat := 0
  /-- element-section words (Table 04-1). -/
  elemWords : Tbl Word := []
  /-- parameter pool (Table 04-1). -/
  pool : Tbl Word := []
  /-- subproblem table (Table 04-1). -/
  subs : Tbl Subproblem := []
  /-- substitution rules, keyed kind*4+role (Table 04-1). -/
  substs : Tbl SubstRule := []
  deriving DecidableEq, Repr, Inhabited

/-- One last-good entry (R94). -/
structure LastGood where
  /-- value (R94). -/
  value : Word := 0
  /-- frame it was good in (R94). -/
  frame : Nat := 0
  deriving DecidableEq, Repr, Inhabited

/-- A MODEL_COMMIT in progress or pending (R96). -/
structure Commit where
  /-- the committed model (R96). -/
  model : Model := {}
  /-- frame of activation (R96). -/
  effective : Nat := 0
  /-- signatures by subproblem (R91). -/
  sigs : Tbl Word := []
  /-- the MODEL_COMMIT command (R96). -/
  pkt : QPacket := {}
  deriving DecidableEq, Repr, Inhabited

/-- Descriptor and result flags of a job (Tables 06-3, 06-7). -/
structure JobFlags where
  /-- RETAIN (Table 06-3). -/
  retain : Bool := false
  /-- USE_FACTOR (Table 06-3). -/
  useFactor : Bool := false
  /-- NO_WARM (Table 06-3). -/
  noWarm : Bool := false
  /-- NOTIFY (Table 06-3). -/
  notify : Bool := false
  /-- WARM_FROM_OLDER (Table 06-3). -/
  older : Bool := false
  /-- SUBST_APPLIED (Table 06-3). -/
  substApplied : Bool := false
  /-- SUBST_FAILED (Table 06-3). -/
  substFailed : Bool := false
  /-- WARM_REJECTED (Table 06-7). -/
  rejected : Bool := false
  /-- COLD_START (Table 06-7). -/
  cold : Bool := false
  /-- PIVOT_REGULARISED (Table 06-7). -/
  pivReg : Bool := false
  /-- INERTIA_MISMATCH (Table 06-7). -/
  inertia : Bool := false
  /-- SHIFTED (Table 06-7). -/
  shifted : Bool := false
  /-- NO_ACCEPTED (Table 06-7). -/
  noAccepted : Bool := false
  /-- FACTOR_REUSED (Table 06-7). -/
  factorReused : Bool := false
  /-- RETAIN_MISSED (Table 06-7). -/
  retainMissed : Bool := false
  /-- DEADLINE (Table 06-7). -/
  deadline : Bool := false
  /-- STEP_LIMITED (Table 06-7). -/
  stepLimited : Bool := false
  deriving DecidableEq, Repr, Inhabited

/-- The stamped data of a job in its precision (R85, R135). -/
structure Qp where
  /-- diagonal of P (R85). -/
  p : List Nat := []
  /-- columns of E: (row, value), ascending (R87). -/
  e : List (List (Nat × Nat)) := []
  /-- q (R85). -/
  q : List Nat := []
  /-- lower bounds (R85). -/
  l : List Nat := []
  /-- upper bounds (R85). -/
  u : List Nat := []
  /-- right-hand side (R85). -/
  b : List Nat := []
  deriving DecidableEq, Repr, Inhabited

/-- A branch or injection record of a NETBAL stamp (Table 04-6). -/
structure Branch where
  /-- element kind (Table 04-6). -/
  kind : BitVec 4 := 0
  /-- unknown of terminal A (Table 04-6). -/
  a : Nat := 0
  /-- unknown of terminal B (Table 04-6). -/
  b : Option Nat := none
  /-- parameters and point values in the job's precision (Table 04-6). -/
  par : List Nat := []
  /-- DISABLE_ELEMENT (R94). -/
  disabled : Bool := false
  deriving DecidableEq, Repr, Inhabited

/-- Table 06-8 BASIS. -/
inductive Basis where
  | none | accepted | carried
  deriving DecidableEq, Repr, Inhabited

/-- Table 06-6. -/
inductive JobStatus where
  | converged | capFallback | numericFault | infeasPrimal | infeasDual | notSolved | abandoned | cancelled
  deriving DecidableEq, Repr, Inhabited

/-- A warm-start record (Table 06-8). -/
structure WarmRec where
  /-- SUBPROBLEM (Table 06-8). -/
  sub : Nat := 0
  /-- PRECISION (Table 06-8). -/
  fp64 : Bool := false
  /-- BASIS (Table 06-8). -/
  basis : Basis := .none
  /-- producing frame (its tag is the low 16 bits) (Table 06-8). -/
  frame : Nat := 0
  /-- SIG (Table 06-8). -/
  sig : Word := 0
  /-- REF_NS and REF_ERA (Table 06-8). -/
  ref : Nat := 0
  /-- STATUS (Table 06-8). -/
  status : JobStatus := .converged
  /-- N (Table 06-8). -/
  n : Nat := 0
  /-- M (Table 06-8). -/
  m : Nat := 0
  /-- H (Table 06-8). -/
  h : Nat := 1
  /-- STEP_S (Table 06-8). -/
  stepS : Nat := 900
  /-- its CRC matches (R132). -/
  crcOk : Bool := true
  /-- z (QP) or h (NETBAL), in the job's precision (Table 06-8). -/
  z : List Nat := []
  /-- w (Table 06-8). -/
  w : List Nat := []
  /-- y (Table 06-8). -/
  y : List Nat := []
  deriving DecidableEq, Repr, Inhabited

/-- A job on an engine (Tables 06-2, 06-3). -/
structure Job where
  /-- JOB_KIND (Table 06-2). -/
  kind : BitVec 8 := 6
  /-- PRECISION (Table 06-2). -/
  fp64 : Bool := false
  /-- engine or lead (Table 06-2). -/
  engine : Nat := 0
  /-- gang or chain size (R119). -/
  gangLog2 : Nat := 0
  /-- JOB_NUM of a host job (R129). -/
  host : Option Nat := none
  /-- FLAGS (Table 06-3). -/
  flags : JobFlags := {}
  /-- frame (Table 06-2). -/
  frame : Nat := 0
  /-- SUBPROBLEM (Table 06-2). -/
  sub : Nat := 0
  /-- SIG (Table 06-2). -/
  sig : Word := 0
  /-- N (Table 06-2). -/
  n : Nat := 0
  /-- M (Table 06-2). -/
  m : Nat := 0
  /-- H of the subproblem (Table 04-7). -/
  horizon : Nat := 1
  /-- STEP_S of the subproblem (Table 04-7). -/
  stepS : Nat := 900
  /-- resolved ITER_CAP (Table 06-2). -/
  iterCap : Nat := 200
  /-- resolved EPS_ABS in the job's precision (Table 06-2). -/
  epsAbs : Nat := 0
  /-- resolved EPS_REL (Table 06-2). -/
  epsRel : Nat := 0
  /-- resolved RHO (Table 06-2). -/
  rho : Nat := 0
  /-- resolved REG_DELTA (Table 06-2). -/
  regDelta : Nat := 0
  /-- resolved PIV_EPS (Table 06-2). -/
  pivEps : Int := -20
  /-- ROUND (Table 06-2). -/
  round : Nat := 0
  /-- coupling copies: (coupling ID, place within a step's variables), ascending (R87). -/
  couple : List (Nat × Nat) := []
  /-- COUPLE_RHO in the job's precision (Table 04-7). -/
  coupleRho : Nat := 0
  /-- T of its frame (R134). -/
  tN : Nat := 0
  /-- MAT_H (Table 06-2). -/
  matH : Word := 0
  /-- VEC_H (Table 06-2). -/
  vecH : Word := 0
  /-- SOL_H (Table 06-2). -/
  solH : Word := 0
  /-- WARM_H (Table 06-2). -/
  warmH : Word := 0
  /-- FACT_H (Table 06-2). -/
  factH : Word := 0
  /-- stamp of a Piste QP job (R103). -/
  qp : Qp := {}
  /-- stamp of a NETBAL job (Table 04-6). -/
  branches : List Branch := []
  /-- warm start taken at issue (R133). -/
  warm : Option WarmRec := none
  /-- S (Table 05-6). -/
  stampBytes : Nat := 0
  /-- W (Table 05-6). -/
  workBytes : Nat := 0
  /-- first byte of its stamp in the Work region (R100). -/
  stampAt : Nat := 0
  /-- first byte of its footprint (R100). -/
  workAt : Nat := 0
  deriving DecidableEq, Repr, Inhabited

/-- Piste of the active control die. -/
structure Piste where
  /-- active model (R83). -/
  active : Option Model := none
  /-- eMRAM image, none when its CRC fails (DESIGN CHOICE: a shipped part holds none) (R83). -/
  image : Option Model := none
  /-- image copy in the checkpoint store (R83). -/
  imageCopy : Option Model := none
  /-- staged model (Table 04-1). -/
  staging : Option Model := none
  /-- commit in progress (R96). -/
  commit : Option Commit := none
  /-- commit whose eMRAM write has ended, pending activation (R96). -/
  pend : Option Commit := none
  /-- signatures of the active model (R91). -/
  sigs : Tbl Word := []
  /-- last-good table (R94). -/
  lg : Tbl LastGood := []
  /-- frame of activation (Table 04-13). -/
  activeSince : Nat := 0
  /-- reason of the last rejected commit (Table 04-13). -/
  errReason : BitVec 8 := 0
  /-- index named by errReason (Table 04-13). -/
  errIndex : Nat := 0
  /-- next subproblem to stamp; none when no assembly runs (R92). -/
  cursor : Option Nat := none
  /-- frame being assembled (Table 04-11). -/
  asmFrame : Nat := 0
  /-- subproblems stamped (Table 04-11). -/
  doneCnt : Nat := 0
  /-- span of the last ASSEMBLE (Table 04-11). -/
  asmNs : Nat := 0
  /-- start of the running ASSEMBLE (Table 04-11). -/
  asmStart : Nat := 0
  /-- job that pipeline 0 holds; PIPE0_STALL while there is one (Table 04-11,R18). -/
  held0 : Option Job := none
  /-- the same for pipeline 1 (Table 04-11,R18). -/
  held1 : Option Job := none
  /-- SUBST_CNT (Table 04-11). -/
  substCnt : Nat := 0
  /-- FAIL_CNT (Table 04-11). -/
  failCnt : Nat := 0
  /-- STALL_NS (Table 04-11). -/
  stallNs : BitVec 32 := 0
  /-- SIG_SEL (Table 04-11). -/
  sigSel : Nat := 0
  deriving DecidableEq, Repr, Inhabited

/-- Table 05-12. -/
inductive EngState where
  | off | idle | busy | draining | parked | halted
  deriving DecidableEq, Repr, Inhabited

/-- Table 05-4 STATE. -/
inductive ObjState where
  | raw | factored | failed
  deriving DecidableEq, Repr, Inhabited

/-- An object of engine local memory (Tables 05-4, 05-5). -/
structure MemObj where
  /-- its handle (Table 05-3). -/
  handle : Word := 0
  /-- FORMAT (Table 05-4). -/
  format : BitVec 3 := 0
  /-- PRECISION (Table 05-4). -/
  fp64 : Bool := false
  /-- STATE (Table 05-4). -/
  state : ObjState := .raw
  /-- jobs referencing it; IN_USE is non-zero (Table 05-4). -/
  inUse : Nat := 0
  /-- RETAINED (Table 05-4). -/
  retained : Bool := false
  /-- GANG_LOG2 (Table 05-4). -/
  gangLog2 : Nat := 0
  /-- LEAD (Table 05-4). -/
  lead : Nat := 0
  /-- N (Table 05-4). -/
  n : Nat := 0
  /-- NPOS (Table 05-4). -/
  npos : Nat := 0
  /-- B (Table 05-4). -/
  b : Nat := 0
  /-- NNZ (Table 05-4). -/
  nnz : Nat := 0
  /-- PIV_FIRST (Table 05-4). -/
  pivFirst : Option Nat := none
  /-- PIV_COUNT (Table 05-4). -/
  pivCount : Nat := 0
  /-- WRONG_SIGN (Table 05-4). -/
  wrongSign : Nat := 0
  /-- NEG_COUNT (Table 05-4). -/
  negCount : Nat := 0
  /-- TAU (Table 05-4). -/
  tau : Word := 0
  /-- DMIN (Table 05-4). -/
  dmin : Word := 0
  /-- SIG (Table 05-4). -/
  sig : Word := 0
  /-- SUBPROBLEM (Table 05-4). -/
  subproblem : Nat := 0
  /-- FRAME (Table 05-4). -/
  frame : BitVec 16 := 0
  /-- frame that made a retained factorisation (R109). -/
  madeIn : Nat := 0
  /-- data words after the header (Table 05-5). -/
  data : Tbl Word := []
  /-- bytes it occupies, whole granules (Table 05-5). -/
  bytes : Nat := 0
  /-- its first byte within its region (R100). -/
  place : Nat := 0
  deriving DecidableEq, Repr, Inhabited

/-- One solver engine SEk of the active die. -/
structure Engine where
  /-- STATE (Table 05-12). -/
  state : EngState := .idle
  /-- Piste queue, head first (R104,Table 01-3). -/
  queue : List Job := []
  /-- round queue (R105). -/
  round : List Job := []
  /-- problems in flight (R104). -/
  flight : List Job := []
  /-- results waiting for coordinator credit (Table 01-3). -/
  results : Nat := 0
  /-- objects, oldest first (R100). -/
  objs : List MemObj := []
  /-- CHECK of each handle slot (Table 05-3). -/
  checks : Tbl Nat := []
  /-- jobs of the Piste queue that stood in it at the park order and still run (R122). -/
  drain : Nat := 0
  /-- the same for the round queue (R122). -/
  drainRound : Nat := 0
  /-- GANG_WAIT (Table 05-17). -/
  gangWait : Bool := false
  /-- JOBS_DONE (Table 05-17). -/
  jobsDone : BitVec 32 := 0
  /-- BUSY_US (Table 05-17). -/
  busyUs : BitVec 32 := 0
  /-- UTIL (Table 05-17). -/
  util : Nat := 0
  /-- PIVREG_CNT (Table 05-17). -/
  pivregCnt : Nat := 0
  /-- INERTIA_CNT (Table 05-17). -/
  inertiaCnt : Nat := 0
  /-- NUMERIC_CNT (Table 05-17). -/
  numericCnt : Nat := 0
  /-- COMPACT_CNT (Table 05-17). -/
  compactCnt : Nat := 0
  /-- ECC_CORR (Table 05-17). -/
  eccCorr : Nat := 0
  /-- RETAIN_MISS (Table 05-17). -/
  retainMiss : Nat := 0
  /-- ISSUE_WAIT_US (Table 05-17). -/
  issueWaitUs : BitVec 32 := 0
  deriving DecidableEq, Repr, Inhabited

/-- SOLVER_CONFIG block of one precision (Table 05-15). -/
structure SolverPrec where
  /-- ITER_CAP (Table 05-15). -/
  iterCap : Nat := 200
  /-- EPS_ABS (Table 05-15). -/
  epsAbs : Word := 0x38D1B717
  /-- EPS_REL (Table 05-15). -/
  epsRel : Word := 0x3A83126F
  /-- RHO (Table 05-15). -/
  rho : Word := 0x3DCCCCCD
  /-- PIV_EPS (Table 05-15). -/
  pivEps : BitVec 8 := 0xEC
  /-- REG_DELTA (Table 05-15). -/
  regDelta : Word := 0x33D6BF95
  deriving DecidableEq, Repr, Inhabited

/-- SOLVER_CONFIG (Table 05-15). -/
structure SolverCfg where
  /-- HOST_UNITS (Table 05-15). -/
  hostUnits : Nat := 4
  /-- RETAIN_UNITS (Table 05-15). -/
  retainUnits : Nat := 4
  /-- PIV_EVENT (Table 05-15). -/
  pivEvent : Bool := false
  /-- GANG_MIN_LOG2 (Table 05-15). -/
  gangMinLog2 : Nat := 2
  /-- FP32 block (Table 05-15). -/
  p32 : SolverPrec := {}
  /-- FP64 block (1e-7 0x33D6BF95, 1e-6 0x358637BD, 0.1, 0xD8, 1e-14 0x283424DC) (Table 05-15). -/
  p64 : SolverPrec := { epsAbs := 0x33D6BF95, epsRel := 0x358637BD, pivEps := 0xD8, regDelta := 0x283424DC }
  deriving DecidableEq, Repr, Inhabited

/-- The sixteen engines and their configuration. -/
structure Solver where
  /-- engines by number (Table 05-17). -/
  eng : Tbl Engine := []
  /-- SOLVER_CONFIG (R126). -/
  cfg : SolverCfg := {}
  /-- HOST_UNITS in effect (R126). -/
  sizesHost : Nat := 4
  /-- RETAIN_UNITS in effect (R126). -/
  sizesRetain : Nat := 4
  deriving DecidableEq, Repr, Inhabited

/-- A result record (Table 06-5) with its output. -/
structure JobResult where
  /-- STATUS (Table 06-5). -/
  status : JobStatus := .converged
  /-- FLAGS (Table 06-7). -/
  flags : JobFlags := {}
  /-- ITERATIONS (Table 06-5). -/
  iterations : Nat := 0
  /-- CAUSE (Table 06-5). -/
  cause : Nat := 0
  /-- ELAPSED (units of 1,024 cycles) (Table 06-5). -/
  elapsed : Nat := 0
  /-- PIV_FIRST (Table 06-5). -/
  pivFirst : Option Nat := none
  /-- PIV_COUNT (Table 06-5). -/
  pivCount : Nat := 0
  /-- PRES (Table 06-5). -/
  pres : Word := 0
  /-- DRES (Table 06-5). -/
  dres : Word := 0
  /-- OBJECTIVE (Table 06-5). -/
  objective : Word := 0
  /-- SOL_H (Table 06-5). -/
  solH : Word := 0
  /-- FACT_H (Table 06-5). -/
  factH : Word := 0
  /-- the output (z, w, y) with its basis and reference (R139). -/
  out : WarmRec := {}
  deriving DecidableEq, Repr, Inhabited

/-- One entry of the host job table (R130). -/
structure HostJob where
  /-- JOB_NUM (R129). -/
  num : Nat := 0
  /-- result, none while the job runs (R130). -/
  result : Option JobResult := none
  deriving DecidableEq, Repr, Inhabited

/-- Output of one subproblem in the frame in coordination (R141). -/
structure SubOut where
  /-- the round-0 job (stamp kept for later rounds) (R141). -/
  job : Job := {}
  /-- result of its newest ended round (R141). -/
  res : Option JobResult := none
  /-- a job of it is held, queued or in flight (R141). -/
  busy : Bool := false
  /-- SUBST_FAILED: no job was issued (R94). -/
  failed : Bool := false
  /-- newest round that converged in this frame (R139). -/
  converged : Option JobResult := none
  /-- retained factorisation (R109). -/
  factH : Word := 0
  deriving DecidableEq, Repr, Inhabited

/-- Jobs, results and warm starts. -/
structure Jobs where
  /-- host job table (R129). -/
  table : List HostJob := []
  /-- accepted host jobs (R129). -/
  hostCount : Nat := 0
  /-- outputs of the frame in coordination (R141). -/
  outs : Tbl SubOut := []
  /-- subproblems of the frame that is assembled while another is in coordination (R26). -/
  nextOuts : Tbl SubOut := []
  /-- warm-start records of bank 0 (R132,Table 01-16). -/
  bank0 : Tbl WarmRec := []
  /-- warm-start records of bank 1 (R132,Table 01-16). -/
  bank1 : Tbl WarmRec := []
  /-- F_CONVERGED (Table 06-9). -/
  fConverged : Nat := 0
  /-- F_FALLBACK (Table 06-9). -/
  fFallback : Nat := 0
  /-- F_INFEASIBLE (Table 06-9). -/
  fInfeasible : Nat := 0
  /-- F_REJECTED (Table 06-9). -/
  fRejected : Nat := 0
  /-- F_NO_ACCEPTED (Table 06-9). -/
  fNoAccepted : Nat := 0
  /-- F_SHIFTED (Table 06-9). -/
  fShifted : Nat := 0
  /-- WS_BYTES (Table 06-9). -/
  wsBytes : Nat := 0
  /-- WS_CRC_CNT (Table 06-9). -/
  wsCrcCnt : Nat := 0
  /-- FRAME the counts describe (Table 06-9). -/
  countsFrame : Nat := 0
  /-- frame outputs of committed frames that no CHECKPOINT has written yet (R132). -/
  toCkpt : List (Nat × Tbl WarmRec) := []
  /-- CTL_WS_OVERFLOW raised for coordination state since the model was activated (R33). -/
  csOverflow : Bool := false
  /-- CTL_WS_OVERFLOW raised since the model was activated (R132). -/
  wsOverflowRaised : Bool := false
  deriving DecidableEq, Repr, Inhabited

/-- Table 07-11 STATE. -/
inductive CoordPhase where
  | idle | solving | waitReports | waitDown | committed
  deriving DecidableEq, Repr, Inhabited

/-- Table 07-12 LINK. -/
inductive JlLink where
  | off | noSignal | training | hello | up | refused
  deriving DecidableEq, Repr, Inhabited

/-- Table 07-10 ROLE. -/
inductive JlRole where
  | off | up | down
  deriving DecidableEq, Repr, Inhabited

/-- One entry of a COORD_UP report (Table 07-5). -/
structure UpEntry where
  /-- coupling ID (Table 07-5). -/
  id : Nat := 0
  /-- H (Table 07-5). -/
  h : Nat := 1
  /-- STEP_S (Table 07-5). -/
  stepS : Nat := 900
  /-- W (FP32) (Table 07-5). -/
  w : Word := 0
  /-- S (FP32) (Table 07-5). -/
  sums : List Word := []
  deriving DecidableEq, Repr, Inhabited

/-- A COORD_UP message (Table 07-5). -/
structure UpMsg where
  /-- FRAME (Table 07-5). -/
  frame : Nat := 0
  /-- ROUND (Table 07-5). -/
  round : Nat := 0
  /-- SENDER (Table 07-5). -/
  sender : BitVec 8 := 0
  /-- RP_SUB (Table 07-5). -/
  rp : Word := 0
  /-- RD_SUB (Table 07-5). -/
  rd : Word := 0
  /-- SP_SUB (Table 07-5). -/
  sp : Word := 0
  /-- SD_SUB (Table 07-5). -/
  sd : Word := 0
  /-- entries, ascending ID (Table 07-5). -/
  entries : List UpEntry := []
  deriving DecidableEq, Repr, Inhabited

/-- One entry of a COORD_DOWN message (Table 07-6). -/
structure DownEntry where
  /-- coupling ID (Table 07-6). -/
  id : Nat := 0
  /-- H (Table 07-6). -/
  h : Nat := 1
  /-- FROZEN (Table 07-6). -/
  frozen : Bool := false
  /-- mu (FP32) (Table 07-6). -/
  mu : List Word := []
  /-- y (FP32) (Table 07-6). -/
  y : List Word := []
  deriving DecidableEq, Repr, Inhabited

/-- A COORD_DOWN message (Table 07-6). -/
structure DownMsg where
  /-- FRAME (Table 07-6). -/
  frame : Nat := 0
  /-- ROUND (Table 07-6). -/
  round : Nat := 0
  /-- COMMIT (Table 07-6). -/
  commit : Bool := false
  /-- DEADLINE (Table 07-6). -/
  deadline : Bool := false
  /-- H (Table 07-6). -/
  h : Nat := 1
  /-- FROZEN (Table 07-6). -/
  frozen : Bool := false
  /-- S_NEXT (its low 32 bits travel) (Table 07-6). -/
  sNext : Nat := 0
  /-- GLOBAL_CAP (Table 07-6). -/
  cap : Nat := 64
  /-- ROUND_WAIT_US (Table 07-6). -/
  waitUs : Nat := 2000
  /-- ROUND0_WAIT_MS (Table 07-6). -/
  wait0Ms : Nat := 50
  /-- FREEZE_FRAMES (Table 07-6). -/
  freezeFrames : Nat := 4
  /-- entries, ascending ID (Table 07-6). -/
  entries : List DownEntry := []
  deriving DecidableEq, Repr, Inhabited

/-- COORD_CONFIG settings (Table 07-9). -/
structure CoordCfg where
  /-- GLOBAL_CAP (Table 07-9). -/
  cap : Nat := 64
  /-- ROUND_WAIT_US (Table 07-9). -/
  waitUs : Nat := 2000
  /-- ROUND0_WAIT_MS (Table 07-9). -/
  wait0Ms : Nat := 50
  /-- FREEZE_FRAMES (Table 07-9). -/
  freezeFrames : Nat := 4
  /-- G_EPS_ABS (Table 07-9). -/
  epsAbs : Word := 0x3C23D70A
  /-- G_EPS_REL (Table 07-9). -/
  epsRel : Word := 0x3A83126F
  /-- SCOPE by coupling ID, true UP (Table 07-9). -/
  upScope : Tbl Bool := []
  deriving DecidableEq, Repr, Inhabited

/-- The coordinator's view of a DOWN port. -/
structure DownPort where
  /-- accepted report of the running round (R148). -/
  cur : Option UpMsg := none
  /-- last accepted report, used frozen (R154). -/
  last : Option UpMsg := none
  /-- report of a round that this device has not begun (R151). -/
  next : Option UpMsg := none
  /-- T of the frame that produced the last report (R146). -/
  ref : Nat := 0
  /-- frozen in the last step (R154). -/
  late : Bool := false
  /-- consecutive frames without an accepted report (R155). -/
  missed : Nat := 0
  /-- a report counted in this frame (R155). -/
  gotInFrame : Bool := false
  /-- DROPPED (R155). -/
  dropped : Bool := false
  /-- LOST (R155). -/
  lost : Bool := false
  /-- report deadline of this round passed (R148). -/
  deadlinePassed : Bool := false
  deriving DecidableEq, Repr, Inhabited

/-- Committed state of one coupling ID (R145). -/
structure CoupleState where
  /-- price (R145). -/
  y : List Nat := []
  /-- last step mu (R145). -/
  mu : List Nat := []
  /-- T of the producing frame (R146). -/
  ref : Nat := 0
  /-- horizon (R146). -/
  h : Nat := 1
  /-- step length (R146). -/
  stepS : Nat := 900
  /-- aggregate carried FROZEN in the last step (R157). -/
  frozen : Bool := false
  /-- excluded by a mismatch (R143). -/
  excluded : Bool := false
  deriving DecidableEq, Repr, Inhabited

/-- Target of one copy (R145). -/
structure TargetState where
  /-- targets (R145). -/
  z : List Nat := []
  /-- copy values of the previous step (R147). -/
  xPrev : List Nat := []
  deriving DecidableEq, Repr, Inhabited

/-- The coordinator. -/
structure Coord where
  /-- STATE (Table 07-11). -/
  phase : CoordPhase := .idle
  /-- ISLANDED (Table 07-11). -/
  islanded : Bool := false
  /-- the UP link has returned and the device rejoins at the next boundary (R156). -/
  islandEnding : Bool := false
  /-- settings in force (R166). -/
  cfg : CoordCfg := {}
  /-- settings accepted, in force from the next boundary (R166). -/
  cfgNext : Option CoordCfg := none
  /-- in this frame the device decides by itself: it has no UP port, or its UP link was not up (R144,R149). -/
  asTop : Bool := true
  /-- GLOBAL_CAP of the top manager (R148). -/
  treeCap : Nat := 64
  /-- its ROUND_WAIT_US (R148). -/
  treeWaitUs : Nat := 2000
  /-- its ROUND0_WAIT_MS (R148). -/
  treeWait0Ms : Nat := 50
  /-- its FREEZE_FRAMES (R148). -/
  treeFreeze : Nat := 4
  /-- frame in coordination (Table 07-11). -/
  frame : Nat := 0
  /-- current round (Table 07-11). -/
  round : Nat := 0
  /-- S_k (R148). -/
  roundStart : Nat := 0
  /-- RP (Table 07-11). -/
  rp : Word := 0
  /-- RD (Table 07-11). -/
  rd : Word := 0
  /-- SP (Table 07-11). -/
  sp : Word := 0
  /-- SD (Table 07-11). -/
  sd : Word := 0
  /-- LATE_CNT (Table 07-11). -/
  lateCnt : Nat := 0
  /-- CAP_CNT (Table 07-11). -/
  capCnt : Nat := 0
  /-- MISMATCH_CNT (Table 07-11). -/
  mismatchCnt : Nat := 0
  /-- ISLAND_FRAMES (Table 07-11). -/
  islandFrames : BitVec 32 := 0
  /-- frames of the present islanding (Table 07-13). -/
  islandRun : Nat := 0
  /-- STEP_NS (Table 07-11). -/
  stepNs : Nat := 0
  /-- DOWN ports (R154). -/
  ports : Tbl DownPort := []
  /-- by coupling ID (R145). -/
  couples : Tbl CoupleState := []
  /-- prices that this device's step has formed and DOWN has not yet closed (R149). -/
  stepped : Tbl CoupleState := []
  /-- by subproblem*65536+ID (R145). -/
  targets : Tbl TargetState := []
  /-- newest COORD_DOWN received while the own round is solving (R151). -/
  committedDown : Option DownMsg := none
  /-- frame in coordination has committed (R149). -/
  committed : Bool := true
  /-- round jobs held for lack of round-queue credit (R105). -/
  toPlace : List Job := []
  /-- T of the frame in coordination (R25). -/
  tN : Nat := 0
  /-- its deadline D_N (R29). -/
  dN : Nat := 0
  /-- RP_SUB, RD_SUB, SP_SUB, SD_SUB of the last step (R147). -/
  subMax : List Word := [0, 0, 0, 0]
  deriving DecidableEq, Repr, Inhabited

/-- JL_PORT_CONFIG of one port (Table 07-10). -/
structure JlCfg where
  /-- ROLE (Table 07-10). -/
  role : JlRole := .off
  /-- ENC (Table 07-10). -/
  enc : Bool := true
  /-- TX_PRESET (Table 07-10). -/
  txPreset : BitVec 3 := 0
  /-- KEY_SLOT (Table 07-10). -/
  keySlot : BitVec 6 := 0
  /-- EXP_FIRST (Table 07-10). -/
  expFirst : Nat := 0
  /-- EXP_COUNT (Table 07-10). -/
  expCount : Nat := 0
  /-- IMP_BASE (Table 07-10). -/
  impBase : Nat := 0
  /-- IMP_COUNT (Table 07-10). -/
  impCount : Nat := 0
  deriving DecidableEq, Repr, Inhabited

/-- A Jalow link frame (Table 07-2). -/
structure JlFrame where
  /-- TYPE (Table 07-3). -/
  ftype : BitVec 4 := 0
  /-- FIRST (Table 07-2). -/
  first : Bool := true
  /-- LAST (Table 07-2). -/
  last : Bool := true
  /-- ENC (Table 07-2). -/
  enc : Bool := false
  /-- SEQ (Table 07-2). -/
  seq : BitVec 8 := 0
  /-- ACK (Table 07-2). -/
  ack : BitVec 8 := 0
  /-- CREDITS (Table 07-2). -/
  credits : Nat := 0
  /-- RELAY_FREE (Table 07-2). -/
  relayFree : Nat := 0
  /-- MSG (Table 07-2). -/
  msg : BitVec 16 := 0
  /-- payload (Table 07-2). -/
  payload : List Word := []
  /-- GCM tag when ENC is 1 (Table 07-2). -/
  tag : List Word := []
  /-- CRC as received or sent (Table 07-2). -/
  crc : Word := 0
  deriving DecidableEq, Repr, Inhabited

/-- One Jalow port. -/
structure JlPort where
  /-- configuration (R167). -/
  cfg : JlCfg := {}
  /-- LINK (Table 07-12). -/
  link : JlLink := .off
  /-- ENC_ACTIVE (Table 07-12). -/
  encActive : Bool := false
  /-- REFUSE (Table 07-12). -/
  refuse : BitVec 8 := 0
  /-- PARTNER_ADDRESS (Table 07-12). -/
  partnerAddr : BitVec 8 := 0
  /-- PARTNER_SERIAL (Table 07-12). -/
  partnerSerial : BitVec 64 := 0
  /-- CRC_ERR (Table 07-12). -/
  crcErr : Nat := 0
  /-- AUTH_ERR (Table 07-12). -/
  authErr : Nat := 0
  /-- RESENT (Table 07-12). -/
  resent : BitVec 32 := 0
  /-- TX_FRAMES (Table 07-12). -/
  txFrames : BitVec 32 := 0
  /-- RX_FRAMES (Table 07-12). -/
  rxFrames : BitVec 32 := 0
  /-- DOWN_CNT (Table 07-12). -/
  downCnt : Nat := 0
  /-- IMP_DISCARD (Table 07-12). -/
  impDiscard : Nat := 0
  /-- TX_CREDITS (Table 07-12). -/
  txCredits : Nat := 0
  /-- PARTNER_RELAY_FREE (Table 07-12). -/
  partnerRelayFree : Nat := 0
  /-- next transmit SEQ (R159). -/
  txSeq : BitVec 8 := 0
  /-- next expected SEQ (R159). -/
  rxSeq : BitVec 8 := 0
  /-- data frames kept until an ACK covers them (R159). -/
  unacked : List JlFrame := []
  /-- frames waiting for credit, in priority order (R160). -/
  waitTx : List JlFrame := []
  /-- payload of the message being received (R159). -/
  rxPart : List Word := []
  /-- next message number per TYPE (Table 07-2). -/
  msgNo : Tbl (BitVec 16) := []
  /-- consecutive resends of one frame (R159). -/
  resends : Nat := 0
  /-- consecutive GCM tag failures (R159). -/
  tagFails : Nat := 0
  /-- discarding until the expected SEQ arrives (R159). -/
  discarding : Bool := false
  /-- session key of frames sent towards UP (R163). -/
  sessUp : List (BitVec 8) := []
  /-- session key of frames sent towards DOWN (R163). -/
  sessDown : List (BitVec 8) := []
  /-- data frames sent in the session (R163). -/
  txCount : Nat := 0
  /-- data frames received in the session (R163). -/
  rxCount : Nat := 0
  /-- receive credits not yet returned (R160). -/
  owed : Nat := 0
  /-- instant of the last HELLO sent, or at which the port went down or was refused (R162). -/
  hsAt : Nat := 0
  /-- instant of the last valid frame received (R159). -/
  heardAt : Nat := 0
  /-- instant of the last frame sent (R158). -/
  sentAt : Nat := 0
  /-- instant from which the oldest unacknowledged frame waits for its ACK (R159). -/
  ackAt : Nat := 0
  /-- the partner's HELLO of this attempt has arrived (R162). -/
  gotHello : Bool := false
  /-- NONCE of this link-up attempt (Table 07-4). -/
  nonce : List (BitVec 8) := []
  deriving DecidableEq, Repr, Inhabited

/-- The four Jalow ports. -/
structure Jalow where
  /-- ports JL0-JL3 (Table 07-12). -/
  port : Tbl JlPort := []
  /-- OWN_ADDRESS (0x00 with no UP port, 0xFF while not joined) (R153). -/
  ownAddr : BitVec 8 := 0
  deriving DecidableEq, Repr, Inhabited

/-- R182 MODE. -/
inductive LoopMode where
  | off | manual | auto
  deriving DecidableEq, Repr, Inhabited

/-- Table 08-10 STATE. -/
inductive LoopState where
  | off | manual | auto | tracking | held | supervised
  deriving DecidableEq, Repr, Inhabited

/-- Coefficients and form of one section (Table 08-3). -/
structure Section where
  /-- FORM: DELTA (Table 08-5). -/
  delta : Bool := false
  /-- b0 or beta0 (DESIGN CHOICE reset 0) (Table 08-5). -/
  b0 : Word := 0
  /-- b1 or beta1 (DESIGN CHOICE reset 0) (Table 08-5). -/
  b1 : Word := 0
  /-- b2 or beta2 (DESIGN CHOICE reset 0) (Table 08-5). -/
  b2 : Word := 0
  /-- a1 or alpha1 (DESIGN CHOICE reset 0) (Table 08-5). -/
  a1 : Word := 0
  /-- a2 or alpha2 (DESIGN CHOICE reset 0) (Table 08-5). -/
  a2 : Word := 0
  deriving DecidableEq, Repr, Inhabited

/-- States of one section (R178). -/
structure SecState where
  /-- s1 (R178). -/
  s1 : Word := 0
  /-- s2 (R178). -/
  s2 : Word := 0
  deriving DecidableEq, Repr, Inhabited

/-- LOOP_CONFIG of one slot (Table 08-6). -/
structure LoopCfg where
  /-- PERIOD_M (Table 08-6). -/
  periodM : Nat := 100
  /-- SECTIONS (Table 08-6). -/
  sections : Nat := 0
  /-- INT_SEC (Table 08-6). -/
  intSec : Nat := 15
  /-- PHASE (Table 08-6). -/
  phase : Nat := 0
  /-- REVERSE (Table 08-6). -/
  reverse : Bool := false
  /-- INT_DIR (Table 08-6). -/
  intDir : Bool := false
  /-- SP_TRACK (Table 08-6). -/
  spTrack : Bool := false
  /-- MOGUL_EN (Table 08-6). -/
  mogulEn : Bool := false
  /-- START_MODE (Table 08-6). -/
  startMode : LoopMode := .off
  /-- IN_TYPE (Table 08-6). -/
  inType : BitVec 2 := 0
  /-- IN_ID (Table 08-6). -/
  inId : Nat := 0
  /-- STALE_LIMIT (Table 08-6). -/
  staleLimit : Nat := 3
  /-- IN_WIN_US (Table 08-6). -/
  inWinUs : Nat := 100
  /-- SP_SRC (Table 08-6). -/
  spSrc : BitVec 2 := 0
  /-- SP_ID (Table 08-6). -/
  spId : Nat := 0
  /-- SP_CONST (Table 08-6). -/
  spConst : Word := 0
  /-- RAMP_UP (Table 08-6). -/
  rampUp : Word := 0
  /-- RAMP_DN (Table 08-6). -/
  rampDn : Word := 0
  /-- UMIN (Table 08-6). -/
  uMin : Word := 0
  /-- UMAX (Table 08-6). -/
  uMax : Word := 0
  /-- RATE_UP (Table 08-6). -/
  rateUp : Word := 0
  /-- RATE_DN (Table 08-6). -/
  rateDn : Word := 0
  /-- BIAS (Table 08-6). -/
  bias : Word := 0
  /-- OUT_TYPE (Table 08-6). -/
  outType : BitVec 3 := 0
  /-- OUT_ID (Table 08-6). -/
  outId : Nat := 0
  /-- MAN_SRC (Table 08-6). -/
  manSrc : BitVec 2 := 0
  /-- MAN_ID (Table 08-6). -/
  manId : Nat := 0
  /-- MAN_OUT as configured (Table 08-6). -/
  manOut : Word := 0
  deriving DecidableEq, Repr, Inhabited

/-- A tagged sample or point value a loop can take. -/
structure Sample where
  /-- value (R170). -/
  value : Word := 0
  /-- conversion start, corrected (R170). -/
  time : Nat := 0
  /-- arrival at the loop engine (R170). -/
  arrived : Nat := 0
  /-- QUALITY (R170). -/
  quality : BitVec 8 := 0
  deriving DecidableEq, Repr, Inhabited

/-- One loop slot. -/
structure LoopSlot where
  /-- configuration in force (R191). -/
  cfg : LoopCfg := {}
  /-- accepted, not yet in effect (R191). -/
  cfgNext : Option LoopCfg := none
  /-- earliest instant of the tick at which it takes effect (R191). -/
  cfgAt : Nat := 0
  /-- sections in force (R192). -/
  sec : Tbl Section := []
  /-- sections accepted, not yet in effect (R192). -/
  secNext : Tbl Section := []
  /-- earliest instant of their tick (R192). -/
  secAt : Nat := 0
  /-- sections whose FORM changed and start from steady state (R192). -/
  secForm : List Nat := []
  /-- the next tick runs TRACK(u_prev) (R191,R192). -/
  retrack : Bool := false
  /-- MODE (R182). -/
  mode : LoopMode := .off
  /-- requested mode not yet in effect (R182). -/
  modeNext : Option LoopMode := none
  /-- earliest instant of its first tick (R182). -/
  modeAt : Nat := 0
  /-- cause the mode change will report (Table 08-11). -/
  modeCause : Nat := 0
  /-- MAN_OUT carried by LOOP_MODE with SET_MAN (R193). -/
  setMan : Option Word := none
  /-- STATE (Table 08-10). -/
  state : LoopState := .off
  /-- section states (R178). -/
  st : Tbl SecState := []
  /-- r_prev (SP register) (R177). -/
  rPrev : Word := 0
  /-- u_prev (R177). -/
  uPrev : Word := 0
  /-- last output sent (Table 08-10). -/
  out : Word := 0
  /-- MAN_OUT in force (R182). -/
  manOut : Word := 0
  /-- set-point target (R177). -/
  rt : Word := 0
  /-- input value used (R170). -/
  y : Word := 0
  /-- uc of the last tick (R177). -/
  uc : Word := 0
  /-- e of the last tick (R177). -/
  e : Word := 0
  /-- Mogul contribution of the last tick (R177). -/
  m : Word := 0
  /-- outputs of the sections at the last tick (Table 09-3). -/
  secOut : List Word := []
  /-- SAMPLE_NS (Table 08-8). -/
  sampleNs : Word := 0
  /-- samples received since the last tick, newest first (R170). -/
  samples : List Sample := []
  /-- targets from the outer loop and the instants from which they hold, earliest first (R188). -/
  outerTarget : List (Nat × Word) := []
  /-- INT_FROZEN (Table 08-10). -/
  intFrozen : Bool := false
  /-- STALE (Table 08-10). -/
  stale : Bool := false
  /-- consecutive stale ticks (R186). -/
  staleRun : Nat := 0
  /-- consecutive numeric-fault ticks (R187). -/
  numRun : Nat := 0
  /-- SP_BAD (Table 08-10). -/
  spBad : Bool := false
  /-- DEST_HELD (Table 08-10). -/
  destHeld : Bool := false
  /-- CLAMP_HI (Table 08-10). -/
  clampHi : Bool := false
  /-- CLAMP_LO (Table 08-10). -/
  clampLo : Bool := false
  /-- OVERRUN (Table 08-10). -/
  overrun : Nat := 0
  /-- STALE_CNT (Table 08-10). -/
  staleCnt : Nat := 0
  /-- NUMERIC_CNT (Table 08-10). -/
  numericCnt : Nat := 0
  /-- TRANSFERS (Table 08-10). -/
  transfers : BitVec 16 := 0
  /-- t_k of the last computed tick (LAST_TICK_NS is its low word) (Table 08-10). -/
  lastTick : Nat := 0
  /-- earliest instant of the next tick (moved by a step of corrected time) (R169,R319). -/
  nextTick : Option Nat := none
  /-- HELD because its input is stale (R186). -/
  heldIn : Bool := false
  /-- the next tick is the loop's first after takeover or start-up (R185,R196). -/
  entry : Bool := false
  /-- the next tick runs TRACK(present value) after a supervision release (R202). -/
  superRelease : Bool := false
  /-- the rate limiter starts at the next tick from the output the field die holds, after an APPLY overrun (R173). -/
  applyResync : Bool := false
  /-- present value of the destination at the last tick (R182). -/
  present : Word := 0
  deriving DecidableEq, Repr, Inhabited

/-- OVERRIDE_CONFIG of one group (Table 08-9). -/
structure OvrCfg where
  /-- ENABLE (Table 08-9). -/
  enable : Bool := false
  /-- SELECT (Table 08-9). -/
  selMax : Bool := false
  /-- SW_EVENT (Table 08-9). -/
  swEvent : Bool := false
  /-- M0 onward (Table 08-9). -/
  members : List Nat := []
  /-- OUT_TYPE (Table 08-9). -/
  outType : BitVec 3 := 0
  /-- OUT_ID (Table 08-9). -/
  outId : Nat := 0
  deriving DecidableEq, Repr, Inhabited

/-- An override group. -/
structure OvrGroup where
  /-- configuration in force (R190). -/
  cfg : OvrCfg := {}
  /-- accepted, not yet in effect (R190). -/
  cfgNext : Option OvrCfg := none
  /-- earliest instant of its first tick (R190). -/
  cfgAt : Nat := 0
  /-- SELECTED (Table 08-10). -/
  selected : Nat := 0
  /-- SWITCHES (Table 08-10). -/
  switches : BitVec 16 := 0
  /-- the first tick after forming has passed (R190). -/
  formed : Bool := false
  deriving DecidableEq, Repr, Inhabited

/-- A loop output on its way to a point (R174). -/
structure PointOut where
  /-- point (R174). -/
  id : Nat := 0
  /-- value (R174). -/
  value : Word := 0
  /-- instant it lands, t_k+1 (R174). -/
  due : Nat := 0
  /-- QUALITY (R174). -/
  quality : BitVec 8 := 0
  deriving DecidableEq, Repr, Inhabited

/-- The loop engine. -/
structure LoopEngine where
  /-- slots (R169). -/
  slot : Tbl LoopSlot := []
  /-- override groups (R190). -/
  group : Tbl OvrGroup := []
  /-- TICK_CNT (Table 08-10). -/
  tickCnt : BitVec 32 := 0
  /-- OVERRUN_SUM (Table 08-10). -/
  overrunSum : Nat := 0
  /-- STALE_SUM (Table 08-10). -/
  staleSum : Nat := 0
  /-- MIN_SLACK (Table 08-10). -/
  minSlack : Nat := 65535
  /-- base tick last served (Table 08-10). -/
  lastBase : Nat := 0
  /-- outputs to points not yet landed (R174). -/
  ptOut : List PointOut := []
  /-- corrected instant at which the engine is free again (R172). -/
  busy : Nat := 0
  deriving DecidableEq, Repr, Inhabited

/-- Table 09-2. -/
inductive SupAction where
  | none | event | hold | fallback | safe
  deriving DecidableEq, Repr, Inhabited

/-- SUPERV_CONFIG (Table 09-6). -/
structure SupCfg where
  /-- ENABLE (Table 09-6). -/
  enable : Bool := false
  /-- ACTION (Table 09-6). -/
  action : SupAction := .event
  /-- LATCH (Table 09-6). -/
  latch : Bool := false
  /-- MODEL_EN (Table 09-6). -/
  modelEn : Bool := false
  /-- RANGE_EN (Table 09-6). -/
  rangeEn : Bool := false
  /-- RATE_EN (Table 09-6). -/
  rateEn : Bool := false
  /-- DELAY (Table 09-6). -/
  delay : Nat := 2
  /-- A1 (Table 09-6). -/
  a1 : Word := 0
  /-- A2 (Table 09-6). -/
  a2 : Word := 0
  /-- B1 (Table 09-6). -/
  b1 : Word := 0
  /-- B2 (Table 09-6). -/
  b2 : Word := 0
  /-- C0 (Table 09-6). -/
  c0 : Word := 0
  /-- FILT_K (Table 09-6). -/
  filtK : Word := 0x3F800000
  /-- THRESH (Table 09-6). -/
  thresh : Word := 0x3F800000
  /-- PERSIST (Table 09-6). -/
  persist : Nat := 10
  /-- CLEAR_TICKS (Table 09-6). -/
  clearTicks : Nat := 100
  /-- YMIN (Table 09-6). -/
  yMin : Word := 0
  /-- YMAX (Table 09-6). -/
  yMax : Word := 0x3F800000
  /-- YRATE (Table 09-6). -/
  yRate : Word := 0x3F800000
  /-- FB_OUT (Table 09-6). -/
  fbOut : Word := 0
  deriving DecidableEq, Repr, Inhabited

/-- The supervisor of one loop. -/
structure Superv where
  /-- configuration in force (R212). -/
  cfg : SupCfg := {}
  /-- accepted, not yet in effect (R212). -/
  cfgNext : Option SupCfg := none
  /-- earliest instant of its tick (R191). -/
  cfgAt : Nat := 0
  /-- IN_FORCE (Table 09-9). -/
  inForce : Bool := false
  /-- LATCHED (Table 09-9). -/
  latched : Bool := false
  /-- CAUSE (Table 09-9). -/
  cause : BitVec 3 := 0
  /-- PAUSED (Table 09-9). -/
  paused : Bool := false
  /-- the model is re-initialised at the next tick (R203). -/
  reinit : Bool := true
  /-- FILT (Table 09-9). -/
  f : Word := 0
  /-- yhat1 (PRED) (R198). -/
  yhat1 : Word := 0
  /-- yhat2 (R198). -/
  yhat2 : Word := 0
  /-- y_last (R198). -/
  yLast : Word := 0
  /-- H history, newest first (R198). -/
  hist : List Word := []
  /-- N_RES (Table 09-9). -/
  nRes : Nat := 0
  /-- N_RANGE (Table 09-9). -/
  nRange : Nat := 0
  /-- N_RATE (Table 09-9). -/
  nRate : Nat := 0
  /-- QUIET (Table 09-9). -/
  quiet : Nat := 0
  /-- FAIL_CNT (Table 09-9). -/
  failCnt : Nat := 0
  /-- FAIL_NS and FAIL_ERA (Table 09-9). -/
  failTime : Nat := 0
  /-- y - yhat of the last evaluation (Table 09-3). -/
  res : Word := 0
  /-- the tick that awaits its evaluation is counted (R198). -/
  counted : Bool := false
  /-- an accepted ACK that has not yet taken effect (R212). -/
  ackNext : Bool := false
  /-- an accepted RESTART_MODEL that has not yet taken effect (R212). -/
  restartNext : Bool := false
  /-- earliest instant of their tick (R191). -/
  opAt : Nat := 0
  /-- a tick of the loop awaits its evaluation (R197). -/
  due : Bool := false
  /-- the one point write of HOLD or SAFE has been made (R200). -/
  pointWritten : Bool := false
  deriving DecidableEq, Repr, Inhabited

/-- MOGUL_CONFIG (Table 09-7). -/
structure MogulCfg where
  /-- FREEZE (Table 09-7). -/
  freeze : Bool := false
  /-- N (Table 09-7). -/
  n : Nat := 0
  /-- PAGE_BASE (Table 09-7). -/
  pageBase : Nat := 0
  /-- P_LEAD (Table 09-7). -/
  pLead : Nat := 0
  /-- L (Table 09-7). -/
  l : Word := 0
  /-- Q (Table 09-7). -/
  q : Word := 0
  /-- MLIM (Table 09-7). -/
  mlim : Word := 0x3F800000
  deriving DecidableEq, Repr, Inhabited

/-- The learner of one loop. -/
structure Mogul where
  /-- configuration in force (R208). -/
  cfg : MogulCfg := {}
  /-- accepted, not yet in effect (R208). -/
  cfgNext : Option MogulCfg := none
  /-- the waiting change zeroes the pages (R208). -/
  cfgClear : Bool := false
  /-- earliest instant of its tick (R208). -/
  cfgAt : Nat := 0
  /-- w1 valid (R206). -/
  v1 : Bool := false
  /-- w2 valid (R206). -/
  v2 : Bool := false
  /-- w1 (R206). -/
  w1 : Word := 0
  /-- w2 (R206). -/
  w2 : Word := 0
  /-- wa of the last tick, 0.0 when frozen (Table 09-3). -/
  wa : Word := 0
  /-- FROZEN (Table 09-10). -/
  frozen : Bool := false
  /-- FREEZE_WHY (Table 09-10). -/
  freezeWhy : BitVec 7 := 0
  /-- refill ticks still to come (R207). -/
  refill : Nat := 0
  /-- POS (Table 09-10). -/
  pos : Nat := 0
  /-- UPDATES (Table 09-10). -/
  updates : BitVec 32 := 0
  /-- FROZEN_TICKS (Table 09-10). -/
  frozenTicks : BitVec 32 := 0
  deriving DecidableEq, Repr, Inhabited

/-- Table 09-11 STATE. -/
inductive TraceState where
  | idle | armed | triggered | done | aborted
  deriving DecidableEq, Repr, Inhabited

/-- TRACE_CONFIG (Table 09-8). -/
structure TraceCfg where
  /-- LOOP (Table 09-8). -/
  loop : Nat := 0
  /-- NODE0 onward, NCOUNT of them (Table 09-8). -/
  nodes : List (BitVec 8) := [0]
  /-- BASE_BLK (Table 09-8). -/
  baseBlk : Nat := 0
  /-- BLOCKS (Table 09-8). -/
  blocks : Nat := 1
  /-- PRE (Table 09-8). -/
  pre : Nat := 0
  /-- DECIM (Table 09-8). -/
  decim : Nat := 1
  /-- TRIG_SRC (Table 09-8). -/
  trigSrc : BitVec 3 := 5
  /-- EDGE (Table 09-8). -/
  edge : BitVec 2 := 0
  /-- TRIG_NODE (Table 09-8). -/
  trigNode : Nat := 0
  /-- TRIG_ARG (Table 09-8). -/
  trigArg : BitVec 8 := 0
  /-- LEVEL (Table 09-8). -/
  level : Word := 0
  /-- TRIG_NS and TRIG_ERA (Table 09-8). -/
  trigTime : Nat := 0
  deriving DecidableEq, Repr, Inhabited

/-- One trace unit. -/
structure TraceUnit where
  /-- configuration (R212). -/
  cfg : TraceCfg := {}
  /-- a TRACE_CONFIG has given the unit a region (DESIGN CHOICE: default regions do not count as overlapping) (R212). -/
  configured : Bool := false
  /-- STATE (Table 09-11). -/
  state : TraceState := .idle
  /-- records written, newest first, at most DEPTH (R209). -/
  recs : List (List Word) := []
  /-- records written since arming (R209). -/
  written : Nat := 0
  /-- post-trigger records still to write (R210). -/
  post : Nat := 0
  /-- number of the trigger record since arming (R210). -/
  trigAt : Nat := 0
  /-- FORCE: the next record triggers (R210). -/
  force : Bool := false
  /-- grid ticks since the last record (R209). -/
  tickDiv : Nat := 0
  /-- FIRST_NS/FIRST_ERA (Table 09-11). -/
  firstTime : Nat := 0
  /-- TRIG_NS/TRIG_ERA (Table 09-11). -/
  trigTime : Nat := 0
  /-- CAPTURES (Table 09-11). -/
  captures : BitVec 32 := 0
  /-- the loop raised the trigger event since the previous record (Table 09-4). -/
  evSeen : Bool := false
  /-- the named unit triggered since the previous record (Table 09-4). -/
  unitSeen : Bool := false
  deriving DecidableEq, Repr, Inhabited

/-- Supervision, learning and traces of the loop engine. -/
structure LoopAux where
  /-- supervisors (Table 09-9). -/
  sup : Tbl Superv := []
  /-- learners (Table 09-10). -/
  mogul : Tbl Mogul := []
  /-- Mogul memory by page*1024+sample, reset 0.0 (R204). -/
  mem : Tbl Word := []
  /-- trace units (Table 09-11). -/
  trace : Tbl TraceUnit := []
  deriving DecidableEq, Repr, Inhabited

/-- PWR_CAP_SET and BUDGET_CONFIG values (Table 10-5). -/
structure BudgetCfg where
  /-- CAP_DW in 0.1 W (Table 10-4). -/
  capDw : Nat := 400
  /-- THERM_START (Table 10-5). -/
  thermStart : Nat := 100
  /-- THERM_HYST (Table 10-5). -/
  thermHyst : Nat := 5
  /-- THERM_STEP_MS (Table 10-5). -/
  thermStepMs : Nat := 100
  /-- GUARD in 0.1 W (Table 10-5). -/
  guard : Nat := 10
  /-- HU_MARGIN (Table 10-5). -/
  huMargin : Nat := 25
  /-- RELEASE_MS (Table 10-5). -/
  releaseMs : Nat := 2000
  /-- THR_ITER (Table 10-5). -/
  thrIter : Nat := 50
  /-- THR_GLOBAL (Table 10-5). -/
  thrGlobal : Nat := 16
  /-- THR_ITER_MIN (Table 10-5). -/
  thrIterMin : Nat := 5
  /-- HU_TEST_S (Table 10-5). -/
  huTestS : Nat := 3600
  /-- CLAMP_WARN (Table 10-5). -/
  clampWarn : Nat := 1200
  /-- BIST_GAP_MS (Table 10-5). -/
  bistGapMs : Nat := 500
  deriving DecidableEq, Repr, Inhabited

/-- One HOLDOUT node (R218). -/
structure Holdup where
  /-- voltage readings of the last 10 ms, newest first (R218). -/
  readings : List Nat := []
  /-- C_n (C_HUn in 10 uF units) (R218). -/
  capUf : Nat := 0
  /-- the node has had its first test (R218). -/
  tested : Bool := false
  /-- start of a test in progress (R218). -/
  testing : Option Nat := none
  /-- start of the last test (R218). -/
  lastTest : Nat := 0
  deriving DecidableEq, Repr, Inhabited

/-- The reply that waits for a journal entry to reach the eMRAM (R227). -/
structure JrnReply where
  /-- the command (R227). -/
  pkt : QPacket := {}
  /-- its STATUS (R227). -/
  status : Nat := 0
  /-- its payload (R227). -/
  words : List Word := []
  deriving DecidableEq, Repr, Inhabited

/-- One entry of the configuration journal (R226). -/
structure JournalEntry where
  /-- the command whose parameters it holds (R226). -/
  opcode : BitVec 16 := 0
  /-- its parameter words (R226). -/
  words : List Word := []
  /-- its size in 64-byte granules (R226). -/
  granules : Nat := 1
  /-- reply sent once the entry has reached the eMRAM (R227). -/
  reply : Option JrnReply := none
  deriving DecidableEq, Repr, Inhabited

/-- A command waiting for journal room (R226). -/
structure JrnWait where
  /-- the command (R226). -/
  pkt : QPacket := {}
  /-- instant it is rejected with ST_BUSY (R226). -/
  deadline : Nat := 0
  /-- the entry is the decrement of the COUNTED key its tag names (R379). -/
  auth : Bool := false
  deriving DecidableEq, Repr, Inhabited

/-- R228 requests, highest priority first. -/
inductive EmramReq where
  | save | records | journal | model | firmware
  deriving DecidableEq, Repr, Inhabited

/-- Slalom, the budget scheduler, with the journal. -/
structure Slalom where
  /-- settings (R230). -/
  cfg : BudgetCfg := {}
  /-- LEVEL (Table 10-6). -/
  level : Nat := 0
  /-- D_PWR (Table 10-6). -/
  dPwr : Nat := 0
  /-- D_THERM (Table 10-6). -/
  dTherm : Nat := 0
  /-- D_CLAMP (Table 10-6). -/
  dClamp : Bool := false
  /-- WRITE_THROUGH, set from start-up (R227). -/
  writeThrough : Bool := true
  /-- CAP_UNMET (Table 10-6). -/
  capUnmet : Bool := false
  /-- power samples of the last 10 ms, newest first (R215). -/
  samples : List Nat := []
  /-- P_AVG (Table 10-6). -/
  pAvg : Nat := 0
  /-- P_AVG at the evaluations of the last RELEASE_MS, newest first (R215). -/
  peaks : List Nat := []
  /-- ENG_W (R215). -/
  engW : Nat := 1050
  /-- BUSY samples taken (R215). -/
  engSamples : Nat := 0
  /-- highest sensor of each die (0 hub, 1 CTLA, 2 CTLB, 3-6 FLD0-FLD3), reset 0 (DESIGN CHOICE) (Table 10-6). -/
  temps : Tbl Int := []
  /-- E_WIN (R217). -/
  eWin : Tbl Nat := []
  /-- E_PEND (R217). -/
  ePend : Tbl Nat := []
  /-- time every die has stayed at or below CLAMP_WARN (R220). -/
  clampOkMs : Nat := 0
  /-- HOLDOUT nodes (R218). -/
  hold : Tbl Holdup := []
  /-- evaluation of the last park order (R220). -/
  lastPark : Option Nat := none
  /-- evaluation of the last D_PWR step (R221). -/
  lastPwrStep : Option Nat := none
  /-- evaluation of the last D_THERM step (R220,R221). -/
  lastThermStep : Option Nat := none
  /-- evaluation of the last rise of D_THERM (R220). -/
  lastThermUp : Option Nat := none
  /-- milliseconds of evaluation so far (R214). -/
  evalMs : Nat := 0
  /-- instant of the last evaluation (R214). -/
  evalAt : Nat := 0
  /-- time at level 6 (R229). -/
  level6Ms : Nat := 0
  /-- time G_MAX has stayed at or above 64 (R227). -/
  gmaxOkMs : Nat := 0
  /-- STEPS_UP (Table 10-6). -/
  stepsUp : Nat := 0
  /-- DEFERRED (Table 10-6). -/
  deferred : Nat := 0
  /-- THROTTLE_MS (Table 10-6). -/
  throttleMs : BitVec 32 := 0
  /-- PARKED_MS (Table 10-6). -/
  parkedMs : BitVec 32 := 0
  /-- JRNL_WAITS (Table 10-6). -/
  jrnlWaits : Nat := 0
  /-- JRNL_BUSY (Table 10-6). -/
  jrnlBusy : Nat := 0
  /-- configuration journal, oldest first (R226). -/
  journal : List JournalEntry := []
  /-- commands waiting for room (R226). -/
  jrnWait : List JrnWait := []
  /-- eMRAM write requests pending (R228). -/
  emram : List EmramReq := []
  /-- write in progress (R228). -/
  emramBusy : Option EmramReq := none
  /-- mean power of the last 16 slices of a kind, 0 logic, 1 memory, newest first (R224). -/
  sliceW : Tbl (List Nat) := []
  /-- evaluation at which the last slice ended (R224). -/
  lastSliceEnd : Option Nat := none
  /-- slices for which CTL_SLM_BIST_OVERDUE was raised, die * 320 + slice (R224). -/
  overdue : Tbl Bool := []
  deriving DecidableEq, Repr, Inhabited

/-- Table 11-14 STATE. -/
inductive SeqState where
  | stopped | running | stopping
  deriving DecidableEq, Repr, Inhabited

/-- A sequence entry (Table 11-5). -/
structure SeqEntry where
  /-- CHAN (Table 11-5). -/
  chan : Nat := 0
  /-- MEAS (Table 11-5). -/
  meas : BitVec 2 := 0
  /-- RANGE (Table 11-5). -/
  range : BitVec 2 := 0
  /-- ADC (Table 11-5). -/
  adc : BitVec 2 := 0
  /-- RESULT (Table 11-5). -/
  mean : Bool := false
  /-- TYPE (Table 11-5). -/
  test : Bool := false
  /-- ENABLE (Table 11-5). -/
  enable : Bool := false
  /-- SETTLE_US (Table 11-5). -/
  settleUs : Nat := 0
  /-- REPEAT + 1 (Table 11-5). -/
  repeats : Nat := 1
  /-- POINT (Table 11-5). -/
  point : Nat := 0
  /-- TO_POINT (Table 11-5). -/
  toPoint : Bool := false
  /-- TDAC_CODE (Table 11-5). -/
  tdacCode : Nat := 0
  /-- TOL (Table 11-5). -/
  tol : Word := 0
  deriving DecidableEq, Repr, Inhabited

/-- Result register of an entry (Table 11-7). -/
structure ResultReg where
  /-- VALUE (Table 11-7). -/
  value : Word := 0x7FC00000
  /-- TIME (low word) (Table 11-7). -/
  time : Nat := 0
  /-- CODE (Table 11-7). -/
  code : BitVec 20 := 0
  /-- QUALITY (Table 11-7). -/
  quality : BitVec 8 := 0xFF
  /-- SEQ_CNT (Table 11-7). -/
  seqCnt : BitVec 16 := 0
  /-- TEST_FAIL (Table 11-7). -/
  testFail : Bool := false
  /-- PENDING (Table 11-7). -/
  pending : Bool := false
  /-- a TEST result has been written since the last start (R248). -/
  testSeen : Bool := false
  deriving DecidableEq, Repr, Inhabited

/-- ACH_CONFIG of one channel (Table 11-2). -/
structure AnaCfg where
  /-- MODE (Table 11-2). -/
  mode : BitVec 4 := 0
  /-- EXC (Table 11-2). -/
  exc : Bool := false
  /-- THREE_WIRE (Table 11-2). -/
  threeWire : Bool := false
  /-- SCALE (Table 11-2). -/
  scale : Word := 0x3F800000
  /-- OFFSET (Table 11-2). -/
  offset : Word := 0
  deriving DecidableEq, Repr, Inhabited

/-- Calibration of one channel (Table 11-12). -/
structure ChanCal where
  /-- FAC_SHUNT (typical 100.0, DESIGN CHOICE) (Table 11-12). -/
  shunt : Word := 0x42C80000
  /-- FAC_IEXC_LO (nominal 0.25 mA in A, DESIGN CHOICE) (Table 11-12). -/
  iexcLo : Word := 0x3983126F
  /-- FAC_IEXC_HI (nominal 1 mA in A, DESIGN CHOICE) (Table 11-12). -/
  iexcHi : Word := 0x3A83126F
  /-- FAC_AO_VK (about 6,553.5, DESIGN CHOICE) (Table 11-12). -/
  aoVk : Word := 0x45CCCC00
  /-- FAC_AO_VO (DESIGN CHOICE) (Table 11-12). -/
  aoVo : Word := 0
  /-- FAC_AO_IK (about 2,730.6, DESIGN CHOICE) (Table 11-12). -/
  aoIk : Word := 0x452AA99A
  /-- FAC_AO_IO (DESIGN CHOICE) (Table 11-12). -/
  aoIo : Word := 0
  /-- CH_GAIN (Table 11-12). -/
  chGain : Word := 0x3F800000
  /-- CH_OFS (Table 11-12). -/
  chOfs : Word := 0
  /-- NTC_A 1.1292e-3 (Table 11-12). -/
  ntcA : Word := 0x3A9401AA
  /-- NTC_B 2.3411e-4 (Table 11-12). -/
  ntcB : Word := 0x39757B6D
  /-- NTC_C 8.7755e-8 (Table 11-12). -/
  ntcC : Word := 0x33BC73D2
  /-- U_GAIN (Table 11-12). -/
  uGain : Word := 0x3F800000
  /-- U_OFS (Table 11-12). -/
  uOfs : Word := 0
  deriving DecidableEq, Repr, Inhabited

/-- The analogue side of one channel. -/
structure AnaChan where
  /-- configuration (R232). -/
  cfg : AnaCfg := {}
  /-- calibration (Table 11-12). -/
  cal : ChanCal := {}
  /-- AO_SHORT (Table 11-14). -/
  aoShort : Bool := false
  /-- AO_OPEN (Table 11-14). -/
  aoOpen : Bool := false
  /-- SENSOR_FAULT (Table 11-14). -/
  sensorFault : Bool := false
  /-- LAST_QUALITY (Table 11-14). -/
  lastQuality : BitVec 8 := 0xFF
  /-- DAC code being driven (R236). -/
  dacCode : Nat := 0
  deriving DecidableEq, Repr, Inhabited

/-- A sample on its way to the hub (Table 11-8). -/
structure TaggedSample where
  /-- VALUE (Table 11-8). -/
  value : Word := 0
  /-- TIME (Table 11-8). -/
  time : Nat := 0
  /-- CHAN (local) (Table 11-8). -/
  chan : Nat := 0
  /-- NATIVE (Table 11-8). -/
  native : Bool := false
  /-- QUALITY (Table 11-8). -/
  quality : BitVec 8 := 0
  /-- POINT when TO_POINT is set (R246). -/
  point : Option Nat := none
  /-- ENTRY (Table 11-8). -/
  entry : Nat := 0
  /-- SEQ_LO (Table 11-8). -/
  seqLo : BitVec 8 := 0
  /-- 0-63 entry, 64+c DI point sample, 96+c DI loop sample (R247). -/
  source : Nat := 0
  /-- it goes to the loop engine (R247). -/
  forLoop : Bool := false
  /-- instant it was sent (R246). -/
  sent : Nat := 0
  deriving DecidableEq, Repr, Inhabited

/-- Cycle settings of SEQ_START. -/
structure SeqSettings where
  /-- CYCLE_TICKS (Table 11-14). -/
  ticks : Nat := 0
  /-- CYCLE_PHASE (Table 11-14). -/
  phase : Nat := 0
  deriving DecidableEq, Repr, Inhabited

/-- The sequence table and its run state. -/
structure Sequencer where
  /-- active table (R243). -/
  table : Tbl SeqEntry := []
  /-- pending table (R243). -/
  pendTable : Option (Tbl SeqEntry) := none
  /-- committed table waiting for a cycle start (R243). -/
  committed : Option (Tbl SeqEntry) := none
  /-- earliest instant of that cycle start (R243). -/
  commitAt : Nat := 0
  /-- cycle settings in force (DESIGN CHOICE reset 0) (R243). -/
  set : SeqSettings := {}
  /-- STATE (Table 11-14). -/
  state : SeqState := .stopped
  /-- saved run state is RUNNING (R243). -/
  savedRun : Bool := false
  /-- waiting START (R243). -/
  startWait : Option SeqSettings := none
  /-- earliest instant of its first cycle start (R243). -/
  startAt : Nat := 0
  /-- instant of the next cycle start (R242). -/
  nextCycle : Option Nat := none
  /-- C of the last cycle (CYCLE_NS) (Table 11-14). -/
  cycleStart : Nat := 0
  /-- end of the cycle in progress (R240). -/
  cycleEnd : Nat := 0
  /-- a cycle is in progress (R242). -/
  inCycle : Bool := false
  /-- CYCLE_CNT (Table 11-14). -/
  cycleCnt : BitVec 32 := 0
  /-- CYCLE_LEN_NS in 10 ns (Table 11-14). -/
  cycleLen : Nat := 0
  /-- SLIP_CNT (Table 11-14). -/
  slipCnt : Nat := 0
  /-- SUPERSEDED (Table 11-14). -/
  superseded : Nat := 0
  /-- instant of the last FLD_SAMPLE_SUPERSEDED (R247). -/
  supLast : Option Nat := none
  /-- TEST_FAIL_CNT (Table 11-14). -/
  testFailCnt : Nat := 0
  /-- result registers (Table 11-7). -/
  results : Tbl ResultReg := []
  /-- entries of the cycle that write no result (R244). -/
  voided : List Nat := []
  /-- entries of the cycle that have ended (R240). -/
  ended : List Nat := []
  /-- instant after which skipped aligned instants count (R242,R320). -/
  slipBase : Nat := 0
  /-- skipped instants counted before a step of time (R242,R320). -/
  slipOwed : Nat := 0
  /-- the waiting START is the one of R252 (R252). -/
  auto : Bool := false
  /-- samples waiting to be sent (R247). -/
  waiting : List TaggedSample := []
  /-- test DAC code held by TESTDAC_SET (R249). -/
  tdacCode : Nat := 0
  /-- channel released last by TESTDAC_SET and the instant (R244). -/
  tdacRel : Option (Nat × Nat) := none
  /-- channel whose test switch is held closed (R249). -/
  tdacChan : Option Nat := none
  deriving DecidableEq, Repr, Inhabited

/-- Calibration of one field die (Table 11-12). -/
structure DieCal where
  /-- FAC_ADC_GAIN by 3a+r (unlisted reads 1.0, DESIGN CHOICE) (Table 11-12). -/
  adcGain : Tbl Word := []
  /-- FAC_ADC_OFS by 3a+r (unlisted reads 0.0, DESIGN CHOICE) (Table 11-12). -/
  adcOfs : Tbl Word := []
  /-- HB_GAIN (unlisted reads 1.0) (Table 11-12). -/
  hbGain : Tbl Word := []
  /-- HB_OFS (unlisted reads 0.0) (Table 11-12). -/
  hbOfs : Tbl Word := []
  /-- FAC_TDAC_GAIN (DESIGN CHOICE 1.0) (Table 11-12). -/
  tdacGain : Word := 0x3F800000
  /-- FAC_TDAC_OFS (DESIGN CHOICE 0.0) (Table 11-12). -/
  tdacOfs : Word := 0
  /-- FAC_VREF (nominal 2.5) (Table 11-12). -/
  vref : Word := 0x40200000
  deriving DecidableEq, Repr, Inhabited

/-- Table 12-7 OUT_STATE. -/
inductive OutState where
  | disarmed | armed | snowplough
  deriving DecidableEq, Repr, Inhabited

/-- R275, R439: a field die running configured, ordered to reset, in reset, released and not yet configured. -/
inductive DieRun where
  | run | resetWait | inReset | released
  deriving DecidableEq, Repr, Inhabited

/-- DCH_CONFIG of one channel (Table 12-1). -/
structure DigCfg where
  /-- MODE (Table 12-1). -/
  mode : BitVec 4 := 0
  /-- INVERT (Table 12-1). -/
  invert : Bool := false
  /-- DI_TYPE (Table 12-1). -/
  type3 : Bool := false
  /-- DEB_UNIT (Table 12-1). -/
  debUnit10 : Bool := false
  /-- WB_EN (Table 12-1). -/
  wbEn : Bool := false
  /-- CNT_EDGE (Table 12-1). -/
  cntEdge : BitVec 2 := 0
  /-- TO_POINT (Table 12-1). -/
  toPoint : Bool := false
  /-- GROUP (Table 12-1). -/
  group : BitVec 2 := 0
  /-- EXT_FREEWHEEL (Table 12-1). -/
  extFw : Bool := false
  /-- OL_EN (Table 12-1). -/
  olEn : Bool := false
  /-- DEBOUNCE (Table 12-1). -/
  debounce : Nat := 0
  /-- POINT (Table 12-1). -/
  point : Nat := 0
  /-- REFRESH_MS (Table 12-1). -/
  refreshMs : Nat := 0
  /-- WB_THRESH (Table 12-1). -/
  wbThresh : Nat := 7
  /-- WB_MS (Table 12-1). -/
  wbMs : Nat := 50
  /-- LIMIT (Table 12-1). -/
  limit : Nat := 75
  /-- RETRY_MAX (Table 12-1). -/
  retryMax : Nat := 3
  /-- RETRY_MS (Table 12-1). -/
  retryMs : Nat := 1000
  /-- L_LOAD (Table 12-1). -/
  lLoad : Nat := 0
  /-- PWM_PERIOD (Table 12-1). -/
  pwmPeriod : Nat := 1000
  deriving DecidableEq, Repr, Inhabited

/-- An output in the inactive half of the double-buffered registers (R172). -/
structure OutTag where
  /-- local channel (R172). -/
  chan : Nat := 0
  /-- value (R172). -/
  value : Word := 0
  /-- base-tick index it is tagged with (R172). -/
  tick : Nat := 0
  /-- instant it lands, none while it waits in the hub (R172). -/
  landed : Option Nat := none
  /-- it sets the channel to its safe value (R273). -/
  safe : Bool := false
  /-- loop (or 128+group) that sent it; none for OUTPUT_SET (R173). -/
  loop : Option Nat := none
  deriving DecidableEq, Repr, Inhabited

/-- The digital side and the output latch of one channel. -/
structure DigChan where
  /-- configuration (R253). -/
  cfg : DigCfg := {}
  /-- lead of the group the channel belongs to as a member (R262). -/
  memberOf : Option Nat := none
  /-- commanded value (R259). -/
  cmd : Word := 0
  /-- the commanded value is a safe value set by a supervision action (R273). -/
  cmdSafe : Bool := false
  /-- a new output function that has received no value yet (R259). -/
  fresh : Bool := false
  /-- applied value in the hold latch (R259). -/
  applied : Word := 0
  /-- the output is driven (off when false) (R259). -/
  driving : Bool := false
  /-- SAFE (Table 12-7). -/
  safe : Bool := false
  /-- STATE (reported DI state) (Table 12-7). -/
  state : Bool := false
  /-- debounced state before INVERT (R255). -/
  diState : Bool := false
  /-- RAW, last_raw of R255 (Table 12-7). -/
  raw : Bool := false
  /-- t_edge (R255). -/
  tEdge : Nat := 0
  /-- TIME of the last accepted edge (R255). -/
  stateTime : Nat := 0
  /-- WIRE_BREAK (Table 12-7). -/
  wireBreak : Bool := false
  /-- SHORT_TO_SUPPLY (Table 12-7). -/
  shortSup : Bool := false
  /-- EXTERNAL_DRIVE (Table 12-7). -/
  extDrive : Bool := false
  /-- OVERLOAD (Table 12-7). -/
  overload : Bool := false
  /-- OVERLOAD_OFF (Table 12-7). -/
  overloadOff : Bool := false
  /-- OVERTEMP (Table 12-7). -/
  overtemp : Bool := false
  /-- OPEN_LOAD (Table 12-7). -/
  openLoad : Bool := false
  /-- CLAMP_OVER (Table 12-7). -/
  clampOver : Bool := false
  /-- DEFERRED (Table 12-7). -/
  deferred : Bool := false
  /-- the output is folded back to 0.1 A (R260). -/
  folded : Bool := false
  /-- instant of the latest loop-input sample (R256). -/
  loopAt : Nat := 0
  /-- instant of the last fold-back (R260). -/
  foldAt : Nat := 0
  /-- instant from which REFRESH_MS runs (R256). -/
  sentAt : Nat := 0
  /-- RETRIES (Table 12-7). -/
  retries : Nat := 0
  /-- FAULT_CNT (Table 12-7). -/
  faultCnt : Nat := 0
  /-- COUNT (Table 12-7). -/
  count : BitVec 32 := 0
  /-- I_OUT, mA (a measurement) (Table 12-7). -/
  iOut : BitVec 16 := 0
  /-- V_TERM, 10 mV (a measurement) (Table 12-7). -/
  vTerm : BitVec 16 := 0
  /-- start of the clamp event in progress (R266). -/
  clampStart : Option Nat := none
  /-- estimated energy of the event deferred or in progress (R266). -/
  clampEst : Nat := 0
  /-- start of the channel's last clamp event (R266). -/
  lastClamp : Option Nat := none
  /-- a turn-on held by the minimum cycle (R266). -/
  held : Bool := false
  /-- duty waiting for the next period start (R261). -/
  pwmNext : Option Word := none
  /-- on-time of the running PWM period in CK_FLD cycles (R261). -/
  onCycles : Nat := 0
  deriving DecidableEq, Repr, Inhabited

/-- SAFE_CONFIG of one die (Table 12-6). -/
structure SafeCfg where
  /-- TIMEOUT_MS (Table 12-6). -/
  timeoutMs : Nat := 100
  /-- RESUME (Table 12-6). -/
  resumeAuto : Bool := false
  /-- safe code per channel (Table 12-6). -/
  codes : Tbl (BitVec 2) := []
  /-- power-fail bits (Table 12-6). -/
  pf : BitVec 24 := 0
  /-- SAFE_VALUE per channel (Table 12-6). -/
  values : Tbl Word := []
  deriving DecidableEq, Repr, Inhabited

/-- One field die. -/
structure FieldDie where
  /-- reset state of the die (R439). -/
  run : DieRun := .released
  /-- analogue channels (Table 11-14). -/
  ana : Tbl AnaChan := []
  /-- digital channels and outputs (Table 12-7). -/
  dig : Tbl DigChan := []
  /-- sequencer (R243). -/
  seq : Sequencer := {}
  /-- die calibration (Table 11-12). -/
  cal : DieCal := {}
  /-- safe-state configuration (R274). -/
  safeCfg : SafeCfg := {}
  /-- OUT_STATE (Table 12-7). -/
  outState : OutState := .disarmed
  /-- accepted arming (true) or disarming and its instant (R268). -/
  armAt : Option (Bool × Nat) := none
  /-- LAST_REFRESH_NS (low word); none before the first refresh (Table 12-7). -/
  lastRefresh : Option Nat := none
  /-- landing of the last refresh, from which silence is measured (R269). -/
  refreshRaw : Option Nat := none
  /-- a refresh on its way and the instant it was sent (R269). -/
  refreshSent : Option Nat := none
  /-- instant of the latest stage of a reset (R439). -/
  stageAt : Nat := 0
  /-- length of the silence that ended with the first valid refresh (R270). -/
  silenceUs : Nat := 0
  /-- first valid refresh after the silence (R270). -/
  refreshBack : Option Nat := none
  /-- SNOWPLOUGH_CNT (Table 12-7). -/
  snowCnt : Nat := 0
  /-- CYCLE_HOLD (Table 12-7). -/
  cycleHold : Nat := 0
  /-- clamp energies booked (raw instant, uJ), newest first (R217,R266). -/
  eWin : List (Nat × Nat) := []
  /-- CLAMP_EVENTS (Table 12-7). -/
  clampEvents : BitVec 32 := 0
  /-- deferred turn-offs by lead channel, in order (R266). -/
  clampQ : List Nat := []
  /-- start of the die's previous clamp event (R266). -/
  lastClampStart : Option Nat := none
  /-- outputs landed and not yet applied (R172). -/
  tags : List OutTag := []
  /-- loops whose output was discarded, to report (R173). -/
  discards : List Nat := []
  /-- frozen by a FREEZE frame (R281). -/
  frozen : Bool := false
  /-- corrected instant before which no PWM period starts after a step of time (R319). -/
  pwmFrom : Nat := 0
  /-- cause of the reset in progress (R405). -/
  resetCause : Nat := 0
  /-- the die's PLL has lost lock (R17). -/
  pllLost : Bool := false
  deriving DecidableEq, Repr, Inhabited

/-- The four field dies and the hub's accumulators. -/
structure FieldSide where
  /-- field dies (R253). -/
  die : Tbl FieldDie := []
  /-- instant of the next refresh (R269). -/
  refreshNext : Nat := 0
  /-- instant of the last accumulation (R258). -/
  countAt : Nat := 0
  /-- COUNT_ACC by global channel (R258). -/
  countAcc : Tbl (BitVec 32) := []
  /-- c_prev by global channel (R258). -/
  countPrev : Tbl (BitVec 32) := []
  /-- tagged sample queues (R246,Table 01-3). -/
  sampleQ : Tbl (List TaggedSample) := []
  deriving DecidableEq, Repr, Inhabited

/-- Table 13-1: state of one control die. -/
inductive CtlDieState where
  | off | cold | coldSynced | waking | active | failed | recovering
  deriving DecidableEq, Repr, Inhabited

/-- LAST_CAUSE of Table 13-8, values 1 to 6 in this order. -/
inductive TakeCause where
  | heartbeat | ecc | lockstep | thermal | rail | command
  deriving DecidableEq, Repr, Inhabited

/-- One self-test slice of one die (R282). -/
structure SliceResult where
  /-- RESULT: 0 not run, 1 pass, 2 fail (Table 13-8). -/
  result : BitVec 2 := 0
  /-- consecutive or total failures of the slice (Table 13-8). -/
  fails : Nat := 0
  /-- operating time of the last completion; AGE counts from it (Table 13-8). -/
  lastOp : Option Nat := none
  /-- signature of the last run (Table 13-8). -/
  sig : BitVec 64 := 0
  deriving DecidableEq, Repr, Inhabited

/-- One control die as the hub sees it. -/
structure CtlDie where
  /-- state (Table 13-1). -/
  state : CtlDieState := .off
  /-- FAIL_CNT (Table 13-8). -/
  failCnt : Nat := 0
  /-- operating times of the failures of the last 24 h, newest first (R293). -/
  failTimes : List Nat := []
  /-- self-test slices (R282). -/
  slices : Tbl SliceResult := []
  /-- its core rails are good (R284). -/
  railOk : Bool := false
  /-- its hard-fault line is asserted (R284). -/
  lineHard : Bool := false
  /-- it passed the self-test of its last start (R293). -/
  bistOk : Bool := false
  /-- RECOVER has named the die (R293). -/
  recoverAsked : Bool := false
  /-- a failed recovery BIST or slice retry keeps it FAILED until RECOVER (R293). -/
  noAuto : Bool := false
  /-- the DIE reset after its declaration has not been issued (R291). -/
  resetOwed : Bool := false
  /-- slice that becomes due next (R297). -/
  nextSlice : Nat := 0
  /-- slice that failed and awaits its retry (R298). -/
  retry : Option Nat := none
  /-- start of the last slice (R297). -/
  sliceAt : Option Nat := none
  /-- the due slice has been refused and counted (Table 10-6). -/
  deferred : Bool := false
  /-- it runs the full BIST of a single-die restart (R290). -/
  restart : Bool := false
  deriving DecidableEq, Repr, Inhabited

/-- One loop-stream record (R282). -/
structure StreamRec where
  /-- corrected instant of the base tick it was taken at (R282). -/
  epoch : Nat := 0
  /-- loop slots as they stood (their streamed fields are restored) (R185,R282). -/
  slots : Tbl LoopSlot := []
  /-- override groups as they stood (R282). -/
  groups : Tbl OvrGroup := []
  /-- supervisors as they stood (R282). -/
  sup : Tbl Superv := []
  /-- frame schedule settings as they stood (R30,R282). -/
  sched : FrameCtl := {}
  deriving DecidableEq, Repr, Inhabited

/-- One checkpoint bank apart from its warm starts (Table 01-16, R283). -/
structure CkptBank where
  /-- frame the bank holds (R283). -/
  frame : Nat := 0
  /-- completion marker (R284). -/
  complete : Bool := false
  /-- corrected instant it was written (R283). -/
  time : Nat := 0
  /-- last-good table (R283). -/
  lg : Tbl LastGood := []
  /-- Mogul copy (R283). -/
  mogul : Tbl Word := []
  /-- prices by coupling ID (R283). -/
  couples : Tbl CoupleState := []
  /-- targets (R283). -/
  targets : Tbl TargetState := []
  /-- frozen reports of the DOWN ports (R283). -/
  frozen : Tbl DownPort := []
  /-- frame schedule settings (R30,R283). -/
  sched : FrameCtl := {}
  /-- frame of a pending model activation (R283). -/
  modelPend : Option Nat := none
  /-- Slalom LEVEL (R283). -/
  level : Nat := 0
  /-- D_PWR (R283). -/
  dPwr : Nat := 0
  /-- D_THERM (R283). -/
  dTherm : Nat := 0
  deriving DecidableEq, Repr, Inhabited

/-- The twin control dies and the Glide. -/
structure Twin where
  /-- twin operation enabled (Table 13-5). -/
  enabled : Bool := true
  /-- AUTO rejoin (Table 13-5). -/
  rejoinAuto : Bool := true
  /-- MAX_RECOVER (Table 13-5). -/
  maxRecover : Nat := 3
  /-- COVER_H (Table 13-5). -/
  coverH : Nat := 24
  /-- the dies, 0 CTLA, 1 CTLB (Table 13-1). -/
  die : Tbl CtlDie := []
  /-- a SWAP waits for its swap frame (R294). -/
  swapPending : Bool := false
  /-- frame whose boundary the swap is at (R294). -/
  swapFrame : Nat := 0
  /-- corrected instant of a swap while frames are STOPPED (R294). -/
  swapAt : Nat := 0
  /-- the pending swap is not at a frame boundary (R295). -/
  swapStopped : Bool := false
  /-- T_H of a swap in its gap, corrected ns (R295). -/
  tH : Option Nat := none
  /-- end of the state restore of the waking die (R286). -/
  restoredAt : Option Nat := none
  /-- frame abandoned at the declaration whose COORD_DOWN is sent at T_R (R289). -/
  lostFrame : Option Nat := none
  /-- a single-die restart is under way (R290). -/
  restarting : Bool := false
  /-- the two arbiters agree (R284). -/
  arbAgree : Bool := true
  /-- FAILOVERS (Table 13-8). -/
  failovers : Nat := 0
  /-- SWAPS (Table 13-8). -/
  swaps : Nat := 0
  /-- LAST_GLIDE_US (Table 13-8). -/
  lastGlideUs : Nat := 0
  /-- MAX_GLIDE_US (Table 13-8). -/
  maxGlideUs : Nat := 0
  /-- LAST_CAUSE (Table 13-8). -/
  lastCause : Option TakeCause := none
  /-- LAST_DIE (Table 13-8). -/
  lastDie : Nat := 0
  /-- LAST_FAIL_NS and ERA (Table 13-8). -/
  lastFail : Nat := 0
  /-- LAST_GAP_US (Table 13-8). -/
  lastGapUs : Nat := 0
  /-- HB_LATE (Table 13-8). -/
  hbLate : Nat := 0
  /-- ARB_MISMATCH (Table 13-8). -/
  arbMismatch : Nat := 0
  /-- number of the last valid heartbeat (R283). -/
  hbSeq : BitVec 32 := 0
  /-- instant of the last valid heartbeat (R283). -/
  hbAt : Nat := 0
  /-- sequence number of the last heartbeat sent (R278). -/
  hbTx : BitVec 16 := 0
  /-- the lateness of the heartbeat awaited now is counted (R278). -/
  hbLateSent : Bool := false
  /-- start of a Glide in progress (R289). -/
  glideStart : Option Nat := none
  /-- checkpoint banks (Table 01-16). -/
  ckpt : Tbl CkptBank := []
  /-- complete loop-stream records, newest first (R282). -/
  stream : List StreamRec := []
  /-- instant the newest record was complete (R282). -/
  streamAt : Nat := 0
  /-- CKPT_FRAME (R285). -/
  ckptFrame : Nat := 0
  /-- FRAME_SET and FRAME_STOP awaiting a stream record (R286). -/
  waiting : List QPacket := []
  /-- die last ACTIVE (R292). -/
  lastActive : Nat := 0
  /-- die and number of the self-test slice running (R282). -/
  slice : Option (Nat × Nat) := none
  deriving DecidableEq, Repr, Inhabited

/-- Table 14-3 SERVO_STATE. -/
inductive ServoState where
  | free | acquiring | locked | holdover | manual
  deriving DecidableEq, Repr, Inhabited

/-- PORT_STATE of Table 14-9, 0x1 to 0x9 in this order. -/
inductive PtpState where
  | initializing | faulty | disabled | listening | preMaster | master | passive | uncalibrated | slave
  deriving DecidableEq, Repr, Inhabited

/-- SERVO_CONFIG (Table 14-7). -/
structure ServoCfg where
  /-- SOURCE: 0 none, 1 PTP, 2 software (Table 14-7). -/
  source : BitVec 2 := 1
  /-- STEP_MODE (Table 14-7). -/
  stepMode : BitVec 2 := 0
  /-- KP, FP32 0.7 (Table 14-7). -/
  kp : Word := 0x3F333333
  /-- KI, FP32 0.3 (Table 14-7). -/
  ki : Word := 0x3E99999A
  /-- STEP_NS (Table 14-7). -/
  stepNs : Nat := 1000000
  /-- LOCK_NS (Table 14-7). -/
  lockNs : Nat := 100
  /-- HOLD_MS (Table 14-7). -/
  holdMs : Nat := 3000
  /-- SLEW_PPM (Table 14-7). -/
  slewPpm : Nat := 100
  /-- TE_MARGIN (Table 14-7). -/
  teMargin : Nat := 20
  deriving DecidableEq, Repr, Inhabited

/-- PTP_CONFIG of one port (Table 14-6). -/
structure PtpCfg where
  /-- ENABLE (Table 14-6). -/
  enable : Bool := false
  /-- PROFILE (Table 14-6). -/
  profile : BitVec 2 := 0
  /-- TRANSPORT (Table 14-6). -/
  udp : Bool := false
  /-- OC (Table 14-6). -/
  oc : Bool := false
  /-- MASTER_CAP (Table 14-6). -/
  masterCap : Bool := false
  /-- DOMAIN (Table 14-6). -/
  domain : BitVec 8 := 0
  /-- PRIORITY1 (Table 14-6). -/
  prio1 : BitVec 8 := 128
  /-- PRIORITY2 (Table 14-6). -/
  prio2 : BitVec 8 := 128
  /-- CLOCK_CLASS (Table 14-6). -/
  clockClass : BitVec 8 := 248
  /-- LOG_SYNC (Table 14-6). -/
  logSync : Int := -3
  /-- LOG_ANNOUNCE (Table 14-6). -/
  logAnnounce : Int := 1
  /-- LOG_DELAY (Table 14-6). -/
  logDelay : Int := 0
  /-- ANNOUNCE_TO (Table 14-6). -/
  announceTo : Nat := 3
  /-- RX_LAT (Table 14-6). -/
  rxLat : Int := 0
  /-- TX_LAT (the table writes 'As RX_LAT') (Table 14-6). -/
  txLat : Int := 0
  /-- UTC_OFFSET (Table 14-6). -/
  utcOffset : BitVec 16 := 37
  deriving DecidableEq, Repr, Inhabited

/-- A master's Announce as the default best master clock algorithm compares it (R308). -/
structure PtpMaster where
  /-- grandmasterPriority1 (R308). -/
  prio1 : Nat := 0
  /-- clockClass (R308). -/
  cls : Nat := 0
  /-- clockAccuracy (R308). -/
  acc : Nat := 0
  /-- offsetScaledLogVariance (R308). -/
  var : Nat := 0
  /-- grandmasterPriority2 (R308). -/
  prio2 : Nat := 0
  /-- grandmasterIdentity (R308). -/
  gm : BitVec 64 := 0
  /-- stepsRemoved (R308). -/
  steps : Nat := 0
  /-- sourcePortIdentity (R308). -/
  source : BitVec 80 := 0
  deriving DecidableEq, Repr, Inhabited

/-- One Ethernet port's PTP block (Table 14-9). -/
structure PtpPort where
  /-- configuration (Table 14-6). -/
  cfg : PtpCfg := {}
  /-- PORT_STATE, none while not enabled (Table 14-9). -/
  state : Option PtpState := none
  /-- the master followed, with STEPS_REMOVED, GM_CLASS and GM_ID (R308). -/
  parent : Option PtpMaster := none
  /-- MEAN_DELAY in 1/16 ns (Table 14-9). -/
  meanDelay : Int := 0
  /-- RX_EVENT (Table 14-9). -/
  rxEvent : BitVec 32 := 0
  /-- TX_EVENT (Table 14-9). -/
  txEvent : BitVec 32 := 0
  /-- TC_FWD (Table 14-9). -/
  tcFwd : BitVec 32 := 0
  /-- BAD_MSG_CNT (Table 14-9). -/
  badMsg : Nat := 0
  /-- RESID_MAX_NS (Table 14-9). -/
  residMaxNs : Nat := 0
  /-- a two-step Sync awaiting its Follow_Up: sequenceId, receive stamp, correction (R313). -/
  syncWait : Option (Nat × Int × Int) := none
  /-- originTimestamp of the newest complete Sync (R313). -/
  t1 : Int := 0
  /-- its receive stamp (R313). -/
  t2 : Int := 0
  /-- a complete Sync waits for its delay measurement (R313). -/
  haveSync : Bool := false
  /-- egress stamp of the last Delay_Req or Pdelay_Req sent (R313). -/
  t3 : Int := 0
  /-- sequenceId of the next Delay_Req or Pdelay_Req (R311). -/
  reqSeq : BitVec 16 := 0
  /-- sequenceId of the next Sync sent (R311). -/
  syncSeq : BitVec 16 := 0
  /-- sequenceId of the next Announce sent (R311). -/
  annSeq : BitVec 16 := 0
  /-- instant of the parent's newest Announce, or of entering LISTENING (R308). -/
  annAt : Nat := 0
  /-- arrival of the two-step Sync that awaits its Follow_Up (R313). -/
  syncRaw : Nat := 0
  /-- instant of the last transmission of each message type (Table 14-6). -/
  txAt : Tbl Nat := []
  /-- a two-step Pdelay_Resp awaiting its follow-up: t2 and t4 (R313). -/
  pdWait : Option (Int × Int) := none
  /-- residence times of two-step Syncs awaiting their Follow_Up (R312). -/
  resid : Tbl Int := []
  deriving DecidableEq, Repr, Inhabited

/-- A pending change of corrected time. -/
structure TimeChange where
  /-- RAW instant at which it takes effect (R306). -/
  instant : Nat := 0
  /-- OFS it loads (R306). -/
  ofs : Int := 0
  /-- RATE it loads (R306). -/
  rate : Int := 0
  /-- T_REF it loads (R306). -/
  tRef : Nat := 0
  /-- the step it applies in ns, none for a change of RATE (R314,R322). -/
  step : Option Int := none
  /-- the step was commanded, and the servo state follows it (R315). -/
  acquire : Bool := false
  deriving DecidableEq, Repr, Inhabited

/-- Network time and the servo. -/
structure NetTime where
  /-- RAW, free-running nanoseconds (R302). -/
  raw : Nat := 0
  /-- OFS (R304). -/
  ofs : Int := 0
  /-- RATE (R304). -/
  rate : Int := 0
  /-- T_REF (R304). -/
  tRef : Nat := 0
  /-- SERVO_STATE (Table 14-3). -/
  servo : ServoState := .free
  /-- servo settings (Table 14-7). -/
  cfg : ServoCfg := {}
  /-- ACC_PPB, FP32 integral (R314). -/
  acc : Word := 0
  /-- STEP_GEN (R317). -/
  stepGen : BitVec 16 := 0
  /-- LAST_OFFSET (Table 14-8). -/
  lastOffset : Int := 0
  /-- the last 16 |theta|, newest first (R316). -/
  absOffsets : List Nat := []
  /-- STEP_CNT (Table 14-8). -/
  stepCnt : Nat := 0
  /-- OUTLIER_CNT (Table 14-8). -/
  outlierCnt : Nat := 0
  /-- LAST_STEP_NS (Table 14-8). -/
  lastStepNs : Int := 0
  /-- saturated slew in progress and its sign (R314). -/
  slewing : Option Bool := none
  /-- run of outlier offsets, newest first (R314). -/
  outliers : List Int := []
  /-- consecutive samples within LOCK_NS (R315). -/
  lockRun : Nat := 0
  /-- no sample since the servo was freed (R314). -/
  firstSample : Bool := true
  /-- instant of the last sample (R314,R315). -/
  lastSample : Option Nat := none
  /-- offset samples computed from PTP and not yet taken by the servo (R313). -/
  sampleQ : List Int := []
  /-- samples that arrived while a change of time was pending (R322). -/
  heldQ : List Int := []
  /-- latched TIME_HI (R306). -/
  shTimeHi : Word := 0
  /-- latched TIME_FRAC (R306). -/
  shFrac : Word := 0
  /-- latched RAW_HI (R306). -/
  shRawHi : Word := 0
  /-- accepted change awaiting its instant (R306). -/
  pendingChg : Option TimeChange := none
  /-- Ethernet ports (Table 14-9). -/
  port : Tbl PtpPort := []
  deriving DecidableEq, Repr, Inhabited

/-- A count of the real-time clock (R328). -/
structure RtcCount where
  /-- RTC_SEC (R328). -/
  sec : BitVec 40 := 0
  /-- RTC_FRAC (R328). -/
  frac : BitVec 15 := 0
  deriving DecidableEq, Repr, Inhabited

/-- The armed alarm (R333). -/
structure RtcAlarm where
  /-- A seconds (R333). -/
  sec : BitVec 40 := 0
  /-- A fraction (R333). -/
  frac : BitVec 15 := 0
  /-- POLICY (Table 15-1). -/
  suppress : Bool := false
  deriving DecidableEq, Repr, Inhabited

/-- A load of the count that waits for its edge (R330). -/
structure RtcLoad where
  /-- the written count (R330). -/
  count : RtcCount := {}
  /-- AT_TIME instant; none for NEXT_EDGE (R330). -/
  atTime : Option Nat := none
  /-- for NEXT_EDGE, the first crystal edge after its acceptance (R330). -/
  edge : Nat := 0
  /-- ordered by the measurement that set the reference (R336). -/
  sets : Bool := false
  /-- made by synchronisation (R331). -/
  bySync : Bool := false
  /-- the NEXT_EDGE command awaiting its reply (R330). -/
  pkt : Option QPacket := none
  deriving DecidableEq, Repr, Inhabited

/-- EVIN_CONFIG of one input (Table 15-1). -/
structure EvinCfg where
  /-- EDGES (Table 15-1). -/
  edges : BitVec 2 := 0
  /-- TAMPER (Table 15-1). -/
  tamper : Bool := false
  /-- EVENT_EN (Table 15-1). -/
  eventEn : Bool := false
  /-- FILT (Table 15-1). -/
  filt : Nat := 0
  deriving DecidableEq, Repr, Inhabited

/-- A break in the count's advance, kept while a time-stamp can reach back over it (R339). -/
structure RtcSeg where
  /-- crystal edge of the break (R339). -/
  edge : Nat := 0
  /-- count that would have stood there (R339). -/
  count : RtcCount := {}
  /-- TRIM before it (R339). -/
  trim : Int := 0
  /-- pulse of the trim window before it (R339). -/
  windowK : Nat := 0
  deriving DecidableEq, Repr, Inhabited

/-- One FIFO entry (Table 15-4). -/
structure EvinEntry where
  /-- count of the first sample (Table 15-4). -/
  count : RtcCount := {}
  /-- RISING (Table 15-4). -/
  rising : Bool := false
  /-- corrected time of the first sample when CT_VALID (Table 15-4). -/
  ct : Option Nat := none
  deriving DecidableEq, Repr, Inhabited

/-- One event input. -/
structure Evin where
  /-- configuration (Table 15-1). -/
  cfg : EvinCfg := {}
  /-- FIFO, oldest first (R340). -/
  fifo : List EvinEntry := []
  /-- OVERFLOW (Table 15-3). -/
  overflow : Bool := false
  /-- TAMPER_HIT (Table 15-3). -/
  tamperHit : Bool := false
  /-- LEVEL, last sampled level (Table 15-3). -/
  level : Bool := false
  /-- OVF_CNT (Table 15-3). -/
  ovfCnt : Nat := 0
  deriving DecidableEq, Repr, Inhabited

/-- The happenings kept while the main domain is unpowered (R342). -/
structure RtcPend where
  /-- an alarm fired, its data (R342). -/
  alarm : Option (BitVec 64) := none
  /-- a supply switch, its data (R342). -/
  supply : Option (BitVec 64) := none
  /-- a tamper edge, its data (R342). -/
  tamper : Option (BitVec 64) := none
  /-- an EVIN overflow per input, its data (R342). -/
  overflow : Tbl (BitVec 64) := []
  deriving DecidableEq, Repr, Inhabited

/-- RTC_TRIM OP SYNC (Table 15-2). -/
structure SyncCfg where
  /-- SYNC_EN (Table 15-2). -/
  en : Bool := false
  /-- AUTO_TRIM (Table 15-2). -/
  autoTrim : Bool := false
  /-- BACK_OK (Table 15-2). -/
  backOk : Bool := false
  /-- SYNC_S (Table 15-2). -/
  syncS : Nat := 60
  /-- EPOCH_OFS (Table 15-2). -/
  epochOfs : Int := 0
  /-- SYNC_TOL_US (Table 15-2). -/
  tolUs : Nat := 1000
  deriving DecidableEq, Repr, Inhabited

/-- The backup domain: real-time clock and event inputs. -/
structure Backup where
  /-- the count (R328). -/
  count : RtcCount := {}
  /-- count latched by a read of RTC_SEC_LO (reset 0: DESIGN CHOICE) (R329). -/
  shadow : RtcCount := {}
  /-- corrected time of the edge at which the count began, when stamped (R329). -/
  edgeCt : Option Nat := none
  /-- SUPPLY (Table 15-3). -/
  onVbat : Bool := false
  /-- INVALID, 1 after BACKUP LOSS until the first load (Table 15-3). -/
  invalid : Bool := true
  /-- armed alarm (R333). -/
  alarm : Option RtcAlarm := none
  /-- ALARM_SEC, ALARM_FRAC, POLICY as last armed (Table 15-3). -/
  alarmReg : RtcAlarm := {}
  /-- ALARM_FIRED (Table 15-3). -/
  alarmFired : Bool := false
  /-- ALARM_SKIPPED (Table 15-3). -/
  alarmSkipped : Bool := false
  /-- load waiting (R330). -/
  load : Option RtcLoad := none
  /-- SYNC_HELD (Table 15-3). -/
  syncHeld : Bool := false
  /-- crystal edges so far (R328). -/
  edgeNo : Nat := 0
  /-- breaks of the last 255 edges, newest first (R339). -/
  segs : List RtcSeg := []
  /-- TRIM (Table 15-3). -/
  trim : Int := 0
  /-- crystal pulse k of the trim window (R332). -/
  windowK : Nat := 0
  /-- LOAD_DELAY_NS (Table 15-3). -/
  loadDelayNs : Nat := 0
  /-- VBAT_MV (a measurement) (Table 15-3). -/
  vbatMv : Nat := 0
  /-- RTC_VBAT_LOW raised and not recovered (R327). -/
  vbatLow : Bool := false
  /-- SWITCH_CNT (Table 15-3). -/
  switchCnt : Nat := 0
  /-- ADJ_CNT (Table 15-3). -/
  adjCnt : Nat := 0
  /-- LAST_SYNC_ERR_US (Table 15-3). -/
  lastSyncErrUs : Int := 0
  /-- DRIFT_PPB (Table 15-3). -/
  driftPpb : Int := 0
  /-- corrected instant of the newest synchronisation instant, met or skipped (R335). -/
  lastMeas : Nat := 0
  /-- synchronisation settings (Table 15-2). -/
  sync : SyncCfg := {}
  /-- t_ref of the reference pair (R337). -/
  refT : Option Nat := none
  /-- E_ref (R337). -/
  refE : Int := 0
  /-- COR (R337). -/
  cor : Int := 0
  /-- event inputs (Table 15-3). -/
  evin : Tbl Evin := []
  /-- pending happenings (R342). -/
  pend : RtcPend := {}
  deriving DecidableEq, Repr, Inhabited

/-- ERR_STATE of Table 16-11. -/
inductive CanErr where
  | active | passive | busOff | busOffHeld
  deriving DecidableEq, Repr, Inhabited

/-- TIME_STATE of Table 16-11. -/
inductive CanTime where
  | none | following | mastering | suspended
  deriving DecidableEq, Repr, Inhabited

/-- CAN_CONFIG (Table 16-9). -/
structure CanCfg where
  /-- MODE (Table 16-9). -/
  mode : BitVec 2 := 0
  /-- FD_EN (Table 16-9). -/
  fdEn : Bool := true
  /-- BRS_EN (Table 16-9). -/
  brsEn : Bool := false
  /-- TDC_EN (Table 16-9). -/
  tdcEn : Bool := false
  /-- BUSOFF_AUTO (Table 16-9). -/
  busoffAuto : Bool := true
  /-- NONMATCH_STORE (Table 16-9). -/
  nonmatch : Bool := false
  /-- BUSOFF_LIMIT (Table 16-9). -/
  busoffLimit : Nat := 0
  /-- NBRP, NTSEG1, NTSEG2, NSJW (Table 16-9). -/
  nom : Nat × Nat × Nat × Nat := (1, 159, 40, 40)
  /-- DBRP, DTSEG1, DTSEG2, DSJW (Table 16-9). -/
  dat : Nat × Nat × Nat × Nat := (2, 19, 5, 5)
  /-- TDCO (Table 16-9). -/
  tdco : Nat := 0
  /-- WARN_LO_TEC, WARN_HI_TEC, WARN_LO_REC, WARN_HI_REC (Table 16-9). -/
  warn : Nat × Nat × Nat × Nat := (96, 0, 96, 0)
  /-- PRIO_VECTOR (Table 16-9). -/
  prioVector : Nat := 0
  /-- PRIO_MSIX (Table 16-9). -/
  prioMsix : Bool := false
  /-- PRIO_IRQ (Table 16-9). -/
  prioIrq : BitVec 2 := 0
  deriving DecidableEq, Repr, Inhabited

/-- CAN_TIME_CONFIG (Table 16-10). -/
structure CanTimeCfg where
  /-- ROLE (Table 16-10). -/
  role : BitVec 2 := 0
  /-- BACKUP (Table 16-10). -/
  backup : Bool := false
  /-- PRIORITY (Table 16-10). -/
  prio : Nat := 7
  /-- FEED_SERVO (Table 16-10). -/
  feedServo : Bool := false
  /-- REQUIRE_LOCK (Table 16-10). -/
  requireLock : Bool := true
  /-- SILENCE (Table 16-10). -/
  silence : Nat := 3
  /-- REF_ID (Table 16-10). -/
  refId : Nat := 1
  /-- REF_IDE (Table 16-10). -/
  refIde : Bool := false
  /-- CYCLE_US (Table 16-10). -/
  cycleUs : Nat := 10000
  /-- BUS_DELAY_NS (Table 16-10). -/
  busDelayNs : Nat := 0
  deriving DecidableEq, Repr, Inhabited

/-- A CAN frame (words of Table 16-5). -/
structure CanFrame where
  /-- ID (Table 16-5). -/
  id : Nat := 0
  /-- IDE (Table 16-5). -/
  ide : Bool := false
  /-- RTR (Table 16-5). -/
  rtr : Bool := false
  /-- FDF (Table 16-5). -/
  fdf : Bool := false
  /-- DLC (Table 16-5). -/
  dlc : Nat := 0
  /-- BRS (Table 16-5). -/
  brs : Bool := false
  /-- ESI (Table 16-5). -/
  esi : Bool := false
  /-- data bytes (Table 16-5). -/
  data : List Byte := []
  deriving DecidableEq, Repr, Inhabited

/-- A stored receive element (Table 16-5). -/
structure CanRx where
  /-- the frame (Table 16-5). -/
  frame : CanFrame := {}
  /-- FILTER (Table 16-5). -/
  filter : Nat := 0x7F
  /-- EXT_LIST (Table 16-5). -/
  extList : Bool := false
  /-- RX_SEQ (Table 16-5). -/
  seq : BitVec 16 := 0
  /-- TIME_NS and ERA (Table 16-5). -/
  time : Nat := 0
  deriving DecidableEq, Repr, Inhabited

/-- One transmit buffer, or the reference message (index 32). -/
structure CanTx where
  /-- content (R350). -/
  frame : CanFrame := {}
  /-- TX_PENDING (Table 16-11). -/
  pending : Bool := false
  /-- ONE_SHOT (R350). -/
  oneShot : Bool := false
  /-- TX_SUSPENDED (Table 16-11). -/
  suspended : Bool := false
  /-- consecutive bit errors after arbitration (R353). -/
  clash : Nat := 0
  /-- cancelled while on the bus (R350). -/
  cancel : Bool := false
  deriving DecidableEq, Repr, Inhabited

/-- Mapping entry (Table 16-7) and its running state. -/
structure CanMap where
  /-- ID, IDE, ENABLE (Table 16-7). -/
  w0 : Word := 0
  /-- POINT, BYTE, BIT (Table 16-7). -/
  w1 : Word := 0
  /-- LEN, TYPE, ORDER, TIMEOUT_MS (Table 16-7). -/
  w2 : Word := 0
  /-- SCALE (Table 16-7). -/
  scale : Word := 0
  /-- OFFSET (Table 16-7). -/
  offset : Word := 0
  /-- last value written and the RAW instant of the last match (R358). -/
  last : Option (Word × Nat) := none
  /-- BAD_COMM written since the last match (R358). -/
  timedOut : Bool := false
  deriving DecidableEq, Repr, Inhabited

/-- One CAN FD controller. -/
structure CanCtl where
  /-- configuration (Table 16-9). -/
  cfg : CanCfg := {}
  /-- time role (Table 16-10). -/
  tcfg : CanTimeCfg := {}
  /-- standard filters (Table 16-4). -/
  std : Tbl Word := []
  /-- extended filters (Table 16-4). -/
  ext : Tbl (Word × Word) := []
  /-- mapping entries (Table 16-7). -/
  maps : Tbl CanMap := []
  /-- transmit buffers; index 32 is the reference message (R350). -/
  tx : Tbl CanTx := []
  /-- receive FIFO, oldest first (Table 16-3). -/
  fifo : List CanRx := []
  /-- priority buffer, oldest first (Table 16-3). -/
  prioBuf : List CanRx := []
  /-- ERR_STATE (Table 16-11). -/
  err : CanErr := .active
  /-- LEC (Table 16-11). -/
  lec : BitVec 3 := 0
  /-- TEC (Table 16-11). -/
  tec : Nat := 0
  /-- REC (Table 16-11). -/
  recCnt : Nat := 0
  /-- thresholds reached: TEC LO, TEC HI, REC LO, REC HI (R351). -/
  warned : BitVec 4 := 0
  /-- TIME_STATE (Table 16-11). -/
  time : CanTime := .none
  /-- RX_OK (Table 16-11). -/
  rxOk : BitVec 32 := 0
  /-- TX_OK (Table 16-11). -/
  txOk : BitVec 32 := 0
  /-- RX_LOST (Table 16-11). -/
  rxLost : Nat := 0
  /-- PRIO_LOST (Table 16-11). -/
  prioLost : Nat := 0
  /-- MAP_LOST (Table 16-11). -/
  mapLost : Nat := 0
  /-- MAP_SHORT (Table 16-11). -/
  mapShort : Nat := 0
  /-- BUSOFF_CNT (Table 16-11). -/
  busoffCnt : Nat := 0
  /-- CLASH_CNT (Table 16-11). -/
  clashCnt : Nat := 0
  /-- REF_SENT (Table 16-11). -/
  refSent : BitVec 16 := 0
  /-- REF_LATE (Table 16-11). -/
  refLate : Nat := 0
  /-- REF_RECV (Table 16-11). -/
  refRecv : BitVec 32 := 0
  /-- LAST_THETA (Table 16-11). -/
  lastTheta : Int := 0
  /-- CYCLE (Table 16-11). -/
  cycle : BitVec 16 := 0
  /-- MASTER_P (Table 16-11). -/
  masterP : Nat := 0
  /-- ECC_CORR (Table 16-11). -/
  eccCorr : BitVec 32 := 0
  /-- frames stored (R349). -/
  rxSeq : BitVec 16 := 0
  /-- bus-offs of the last 60 s, newest first (R352). -/
  busoffs : List Nat := []
  /-- cycle of the last reference heard per p, plus 1 (R355). -/
  heard : Tbl Nat := []
  /-- newest cycle index whose instant was reached (R354). -/
  cycleNow : Nat := 0
  /-- cycle of the reference message requested and not yet begun (R354). -/
  refDue : Option Nat := none
  /-- a configured master that has yielded (R356). -/
  yielded : Bool := false
  /-- a change of MODE to OFF waits for the bus to become idle (R359). -/
  offWait : Bool := false
  /-- the TIME_STATE that the next cycle begins with (R356). -/
  pendTime : Option CanTime := none
  /-- cycle in which FOLLOWING was entered (R356). -/
  followC : Nat := 0
  deriving DecidableEq, Repr, Inhabited

/-- The four CAN FD controllers. -/
structure CanSide where
  /-- controllers CAN0-CAN3 (Table 16-11). -/
  ctl : Tbl CanCtl := []
  deriving DecidableEq, Repr, Inhabited

/-- One record (Table 17-1). -/
structure Record where
  /-- SEQUENCE (Table 17-1). -/
  seq : BitVec 32 := 0
  /-- OP_TIME (Table 17-1). -/
  opTime : Nat := 0
  /-- POWER_CYCLES (Table 17-1). -/
  cycles : Nat := 0
  /-- SUB_SEC (Table 17-1). -/
  subSec : Nat := 0
  /-- CODE (Table 17-1). -/
  code : BitVec 16 := 0
  /-- SOURCE (Table 17-1). -/
  source : BitVec 16 := 0
  /-- DATA (Table 17-1). -/
  data : BitVec 64 := 0
  /-- address of the device the event was forwarded from, which the record is kept with (it has no place in the 32 bytes) (R165). -/
  origin : Option (BitVec 8) := none
  /-- REPEAT (Table 17-1). -/
  rep : Nat := 0
  /-- CHAIN_MAC, six bytes; empty stands for six zero bytes (Table 17-1). -/
  mac : List Byte := []
  deriving DecidableEq, Repr, Inhabited

/-- The event recorder. -/
structure Recorder where
  /-- pinned region by slot, without the newest record (R366). -/
  pinned : List Record := []
  /-- ring, newest first, without the newest record (R366). -/
  ring : List Record := []
  /-- newest record (R365). -/
  head : Option Record := none
  /-- region of the newest record (R365). -/
  headPinned : Bool := false
  /-- a record was ever written (R364). -/
  ever : Bool := false
  /-- PINNED_FULL (Table 17-3). -/
  pinnedFull : Bool := false
  /-- KEY_OK (Table 17-3). -/
  keyOk : Bool := false
  /-- SATURATED (Table 17-3). -/
  saturated : Bool := false
  /-- OP_TIME (Table 17-3). -/
  opTime : Nat := 0
  /-- OP_SUB (Table 17-3). -/
  opSub : Nat := 0
  /-- POWER_CYCLES (Table 17-3). -/
  cycles : Nat := 0
  /-- operating time saved in eMRAM (whole seconds) (R362). -/
  savedOp : Nat := 0
  /-- its 1/256 s (R362). -/
  savedSub : Nat := 0
  /-- POWER_CYCLES saved in eMRAM (R362). -/
  savedCycles : Nat := 0
  /-- READ_MARK (Table 17-3). -/
  readMark : BitVec 32 := 0
  /-- REPEAT of the newest record as last written to eMRAM (R365). -/
  headSaved : Nat := 0
  /-- tag of the newest record's predecessor, six bytes; empty stands for six zero bytes (R368). -/
  prevMac : List Byte := []
  /-- instants at which records were accepted in the last 100 us, newest first (R367). -/
  recent : List Nat := []
  /-- nanoseconds of the present 1/256 s of operating time (R362). -/
  opNs : Nat := 0
  deriving DecidableEq, Repr, Inhabited

/-- STATE of Table 18-4. -/
inductive SlotState where
  | empty | valid | exhausted | expired
  deriving DecidableEq, Repr, Inhabited

/-- EMPTY_WHY of Table 18-4. -/
inductive EmptyWhy where
  | never | erased | cascade | zeroised | rootChanged
  deriving DecidableEq, Repr, Inhabited

/-- One key slot. -/
structure KeySlot where
  /-- STATE (Table 18-4). -/
  state : SlotState := .empty
  /-- PURPOSE (Table 18-4). -/
  purpose : BitVec 3 := 0
  /-- LIFETIME (Table 18-4). -/
  lifetime : BitVec 2 := 0
  /-- PARENT (Table 18-4). -/
  parent : Nat := 0
  /-- EMPTY_WHY (Table 18-4). -/
  why : EmptyWhy := .never
  /-- USES_LEFT (Table 18-4). -/
  usesLeft : Nat := 0
  /-- GEN_LAST (Table 18-4). -/
  genLast : Nat := 0
  /-- RESP_CNT (Table 18-4). -/
  respCnt : Nat := 0
  /-- USE_CNT (Table 18-4). -/
  useCnt : BitVec 32 := 0
  /-- the key itself, readable by no command (R375). -/
  key : List Byte := []
  /-- fingerprint of the root that sealed the image (R374). -/
  sealFp : BitVec 32 := 0
  deriving DecidableEq, Repr, Inhabited

/-- The key store. -/
structure KeyStore where
  /-- root secret (R374). -/
  root : Option (List Byte) := none
  /-- ROOT_FP (Table 18-4). -/
  rootFp : BitVec 32 := 0
  /-- ZEROISE_CAUSE (Table 18-4). -/
  cause : BitVec 3 := 0
  /-- ZEROISE_PEND (Table 18-4). -/
  pend : BitVec 3 := 0
  /-- EVIN input of the pending source (Table 18-8). -/
  pendInput : Nat := 0
  /-- ZEROISE_CNT (Table 18-4). -/
  cnt : Nat := 0
  /-- slots (Table 18-4). -/
  slots : Tbl KeySlot := []
  /-- crystal edges since the backup domain started, to 1,024 (arms the clock monitor) (R376). -/
  xtalEdges : Nat := 0
  deriving DecidableEq, Repr, Inhabited

/-- LP_STATE of Table 19-9. -/
inductive LpState where
  | run | throttle | quiesce
  deriving DecidableEq, Repr, Inhabited

/-- KIND of Table 19-5, values 1 to 6 in this order. -/
inductive ResetKind where
  | por | device | die | field | backupLoss | tamper
  deriving DecidableEq, Repr, Inhabited

/-- CAUSE of Table 19-5, values 1 to 16 in this order. -/
inductive ResetCauseCode where
  | powerUp | hubCoreUv | railPg | lastBreath | keepWake | resetPin | command | fwActivate | clock | hubFault | thermal | twin | fieldPll | feed | tamper | backup
  deriving DecidableEq, Repr, Inhabited

/-- how far the start-up of Table 19-3 has come: rails off, rails being sequenced, hub held in reset, hub out of reset, a die was made ACTIVE. -/
inductive StartPhase where
  | poweredOff | sequencing | inReset | hubUp | running
  deriving DecidableEq, Repr, Inhabited

/-- R398: mode sampled from BOOT_MODE. -/
inductive BootMode where
  | normal | recovery | coldStart
  deriving DecidableEq, Repr, Inhabited

/-- Rail entry r (Table 19-2). -/
structure RailCfg where
  /-- FUNC (Table 19-2). -/
  func : BitVec 7 := 0
  /-- STEP (Table 19-2). -/
  stepNo : Nat := 0
  /-- DELAY_MS (Table 19-2). -/
  delayMs : Nat := 1
  /-- PG_TO_MS (Table 19-2). -/
  pgToMs : Nat := 20
  /-- PM_ADDR (Table 19-2). -/
  pmAddr : Nat := 0
  /-- PEC (Table 19-2). -/
  pec : Bool := false
  /-- PM_PAGE (Table 19-2). -/
  pmPage : BitVec 8 := 0
  /-- VOUT_MV (Table 19-2). -/
  voutMv : Nat := 0
  deriving DecidableEq, Repr, Inhabited

/-- The rail table (RAIL_CONFIG, Table 19-2). -/
structure RailTable where
  /-- rail entries (Table 19-2). -/
  rails : List RailCfg := [{ func := 0x03, stepNo := 0 }, { func := 0x04, stepNo := 1 }, { func := 0x08, stepNo := 1 }, { func := 0x10, stepNo := 2 }, { func := 0x20, stepNo := 3 }, { func := 0x40, stepNo := 3 }]
  /-- PM_400K (Table 19-2). -/
  pm400k : Bool := true
  /-- TELEM_EN (Table 19-2). -/
  telemEn : Bool := true
  /-- FEED_WARN in 0.1 V (Table 19-2). -/
  feedWarn : Nat := 190
  deriving DecidableEq, Repr, Inhabited

/-- One of the last 16 reset-cause records (R406). -/
structure CauseRec where
  /-- DATA (Table 19-5). -/
  data : BitVec 64 := 0
  /-- recorder SEQUENCE (R406). -/
  seq : BitVec 32 := 0
  /-- OP_TIME (R406). -/
  opTime : Nat := 0
  deriving DecidableEq, Repr, Inhabited

/-- The feeds of one field die. -/
structure FeedState where
  /-- FEEDA_MV (a measurement) (Table 19-9). -/
  aMv : Nat := 0
  /-- FEEDB_MV (a measurement) (Table 19-9). -/
  bMv : Nat := 0
  /-- HOLDn_MV (a measurement) (Table 19-9). -/
  holdMv : Nat := 0
  /-- PWR_FEED low raised for FEEDA and not recovered (R387). -/
  lowA : Bool := false
  /-- the same for FEEDB (R387). -/
  lowB : Bool := false
  /-- PWR_FEED over-voltage raised for FEEDA and not cleared (R387). -/
  overA : Bool := false
  /-- the same for FEEDB (R387). -/
  overB : Bool := false
  /-- the ideal diode of FEEDA is open (R387). -/
  openA : Bool := false
  /-- the same for FEEDB (R387). -/
  openB : Bool := false
  /-- both feeds are lost (R387). -/
  lost : Bool := false
  deriving DecidableEq, Repr, Inhabited

/-- One firmware slot (Table 19-6). -/
structure FwSlot where
  /-- the slot holds the maker's image as delivered (its words are not in the spec) (R398). -/
  factory : Bool := false
  /-- words staged by FW_STAGE (Table 19-6). -/
  words : Tbl Word := []
  deriving DecidableEq, Repr, Inhabited

/-- Supplies, resets and start-up. -/
structure Power where
  /-- LP_STATE (Table 19-9). -/
  lp : LpState := .run
  /-- HUB_SEL (Table 19-9). -/
  hubSelB : Bool := false
  /-- SAVE_ON (Table 19-9). -/
  saveOn : Bool := false
  /-- start of the save supply (R409). -/
  saveAt : Nat := 0
  /-- RAIL_EN as driven (Table 19-9). -/
  railEn : BitVec 6 := 0
  /-- RAIL_PG as read (Table 19-9). -/
  railPg : BitVec 6 := 0
  /-- PMBUS_OK (Table 19-9). -/
  pmbusOk : Bool := true
  /-- consecutive failed reads of a rail (R395). -/
  pmbusFails : Tbl Nat := []
  /-- PREF_SLOT (Table 19-9). -/
  prefSlot : Bool := false
  /-- slot whose image runs (R398). -/
  runSlot : Bool := false
  /-- firmware slots (R411). -/
  fw : Tbl FwSlot := [(0, { factory := true })]
  /-- the hub's firmware key, held in the die and readable by nothing (Table 19-6). -/
  fwKey : List Byte := Config.fwKey
  /-- version of the maker's image (Table 02-29). -/
  fwVersion : Nat := 0x030200
  /-- LAST_ACTIVE: false CTLA (Table 19-9). -/
  lastActiveReg : Bool := false
  /-- feeds of the field dies (Table 19-9). -/
  feeds : Tbl FeedState := []
  /-- VHA_MV (a measurement) (Table 19-9). -/
  vhaMv : Nat := 0
  /-- VHB_MV (a measurement) (Table 19-9). -/
  vhbMv : Nat := 0
  /-- VCA_MV (a measurement) (Table 19-9). -/
  vcaMv : Nat := 0
  /-- VCB_MV (a measurement) (Table 19-9). -/
  vcbMv : Nat := 0
  /-- VKEEP_MV (a measurement) (Table 19-9). -/
  vkeepMv : Nat := 0
  /-- FEED_EVT_CNT (Table 19-9). -/
  feedEvtCnt : Nat := 0
  /-- LB_CNT (Table 19-9). -/
  lbCnt : Nat := 0
  /-- LB_LAST_US, 10 us units (Table 19-9). -/
  lbLastUs : Nat := 0
  /-- RAIL_FAIL_CNT (Table 19-9). -/
  railFailCnt : Nat := 0
  /-- MUX_SWITCH_CNT (Table 19-9). -/
  muxSwitchCnt : Nat := 0
  /-- rail table in eMRAM (Table 19-2). -/
  tableN : RailTable := {}
  /-- rail table the sequencer reads (Table 19-2). -/
  tableB : RailTable := {}
  /-- rail table of the last power-up, in force until the next one (R393). -/
  table : RailTable := {}
  /-- next step of the rail sequence (R394). -/
  stepNext : Nat := 0
  /-- failed attempts of the rail sequence (R394). -/
  attempts : Nat := 0
  /-- rail failures held for the next start-up (R394,R342). -/
  railPend : List (BitVec 64) := []
  /-- PWR_PMBUS_ALERT data held for the next start-up (R394). -/
  alertPend : List (BitVec 64) := []
  /-- adjustment of the power monitor gain (R395). -/
  gains : Tbl Int := []
  /-- last reset-cause records, newest first (R406). -/
  causes : List CauseRec := []
  /-- progress of the start-up (Table 19-3). -/
  phase : StartPhase := .sequencing
  /-- mode of this start-up (R398). -/
  boot : BootMode := .normal
  /-- BOOT_MODE pins (internal pull-downs) (R425). -/
  bootPins : BitVec 2 := 0
  /-- RESET_N pin level (internal pull-up) (R425). -/
  resetN : Bool := true
  /-- the start-up is cold (R397). -/
  cold : Bool := true
  /-- the other slot was run (R398). -/
  fallback : Bool := false
  /-- the reset whose record opens the start-up under way (R400). -/
  pendKind : Option (ResetKind × ResetCauseCode × BitVec 32) := some (.por, .powerUp, 0)
  /-- lesser trigger absorbed (R401). -/
  otherKind : Option ResetKind := none
  /-- DEVICE_RESET carried COLD or FW_ACTIVATE changed the slot (R397). -/
  resetCold : Bool := false
  /-- completion marker of the last save (R409). -/
  lbDone : Bool := false
  /-- T_LB of a last breath in progress (R409). -/
  lbAt : Option Nat := none
  /-- the device is held in reset for its temperature (R403). -/
  thermalHold : Bool := false
  /-- a field die is held in FIELD reset for its temperature (R403). -/
  fieldThermal : Tbl Bool := []
  /-- a field die is held in FIELD reset for its feeds (R388). -/
  fieldFeed : Tbl Bool := []
  /-- start of the interval with no ACTIVE die (R399). -/
  noActiveSince : Option Nat := some 0
  /-- the 2.5 s have passed (R399). -/
  noActiveExpired : Bool := false
  /-- KEEP flag (R408). -/
  keep : Bool := false
  /-- wake mask (Table 19-8). -/
  wakeMask : BitVec 5 := 0
  /-- a BACKUP LOSS record is owed to the next start-up (R401). -/
  backupRec : Bool := false
  /-- an FW_STAGE or MODEL_COMMIT write is under way (R408). -/
  stageBusy : Bool := false
  deriving DecidableEq, Repr, Inhabited

/-- STATE of Table 20-6. -/
inductive TestState where
  | idle | running | done | aborted
  deriving DecidableEq, Repr, Inhabited

/-- The self-test engine. -/
structure TestUnit where
  /-- STATE (Table 20-6). -/
  state : TestState := .idle
  /-- DIE (Table 20-6). -/
  die : Nat := 0
  /-- SLICE (Table 20-6). -/
  slice : Nat := 0
  /-- RUNS (Table 20-6). -/
  runs : Nat := 0
  /-- RUN_FAILS (Table 20-6). -/
  runFails : Nat := 0
  /-- ELAPSED_US (Table 20-6). -/
  elapsedUs : Nat := 0
  /-- slices of the run not yet completed, ascending (R417). -/
  todo : List Nat := []
  /-- RUN of the run in progress (Table 20-4). -/
  ran : Nat := 0
  /-- FAILED (Table 20-4). -/
  failed : Nat := 0
  /-- FIRST_FAIL (Table 20-4). -/
  firstFail : Nat := 0x1FF
  /-- instant of acceptance (R417). -/
  startedAt : Nat := 0
  /-- the SELFTEST_RUN awaiting its reply (R417). -/
  pkt : Option QPacket := none
  /-- slice entries of the field dies (R417). -/
  fieldSlices : Tbl (Tbl SliceResult) := []
  /-- a field die held in reset after a failing run (R420). -/
  fieldHeld : Tbl Bool := []
  deriving DecidableEq, Repr, Inhabited

/-- R433: the sixteen states of the IEEE 1149.1 TAP controller. -/
inductive TapState where
  | testLogicReset | runTestIdle | selectDr | captureDr | shiftDr | exit1Dr | pauseDr | exit2Dr | updateDr | selectIr | captureIr | shiftIr | exit1Ir | pauseIr | exit2Ir | updateIr
  deriving DecidableEq, Repr, Inhabited

/-- The JTAG test access port. -/
structure Tap where
  /-- TAP controller state (R433). -/
  state : TapState := .testLogicReset
  /-- instruction register (IDCODE in Test-Logic-Reset) (R433). -/
  ir : BitVec 4 := 1
  /-- instruction shift register (reset 0: DESIGN CHOICE) (R433). -/
  irShift : BitVec 4 := 0
  /-- IDCODE shift register (reset 0: DESIGN CHOICE) (R433). -/
  idShift : BitVec 32 := 0
  /-- BYPASS register (R433). -/
  bypass : Bool := false
  /-- boundary-scan shift cells; the spec gives neither their number nor their order (R433). -/
  cells : List Bool := []
  /-- boundary-scan update latches (R433). -/
  latched : List Bool := []
  /-- TDO as driven; none is high impedance (Table 21-5). -/
  tdo : Option Bool := none
  /-- TCK level (R433). -/
  tck : Bool := false
  /-- TRST_N level (internal pull-down) (R425). -/
  trstN : Bool := false
  deriving DecidableEq, Repr, Inhabited

/-- a control link or a field link (Table 01-1). -/
inductive LinkId where
  | ctlA | ctlB | fld0 | fld1 | fld2 | fld3
  deriving DecidableEq, Repr, Inhabited

/-- What the fetch of one submission entry and its packet returned from host memory (R49). -/
structure SqFetch where
  /-- the DMA reads succeeded (R49). -/
  ok : Bool := true
  /-- PKT_ADDR (Table 02-12). -/
  addr : Nat := 0
  /-- the packet built from the entry and the buffer it names (R49). -/
  pkt : Packet := {}
  deriving DecidableEq, Repr, Inhabited

/-- One outward action of the device: a bus-master write, an MSI-X message, bytes shifted out on quad-SPI, a UDP reply, a PTP message on an Ethernet port, an ARP or ICMP echo reply, a Jalow frame, a HELLO, a CAN frame, the value a register read returns, a sample sent to the hub, a refresh or heartbeat sent, a PMBus write, an output update sent to a field die. -/
inductive Output where
  | hostWrite (addr : Nat) (words : List Word) | msix (vector : Nat) | spiOut (bytes : List Byte) | ethReply (port : Nat) (addr : BitVec 32) (udp : Nat) (vlan : Option (BitVec 16)) (words : List Word) | ethFrame (port : Nat) (bytes : List Byte) | arpReply (port : Nat) (toIp : BitVec 32) (toMac : BitVec 48) (ip : BitVec 32) (mac : BitVec 48) | icmpReply (port : Nat) (toIp : BitVec 32) (payload : List Byte) | jlFrame (port : Nat) (f : JlFrame) | jlHello (port : Nat) (words : List Word) | canFrame (k : Nat) (f : CanFrame) | regRead (addr : Nat) (value : Word) | sample (die : Nat) (s : TaggedSample) | refresh (die : Nat) | heartbeat (seq : BitVec 32) | pmbus (rail : Nat) (cmd : BitVec 8) (value : Nat) | outputs (die : Nat) (chan : Nat) (value : Word)
  deriving DecidableEq, Repr, Inhabited

end Sys2Proof.Machine
end

