-- ==== Sys2Proof/Syntax.lean ====
section
/-! DEFINITION. The commands: one constructor per row of spec/opcode_table.json, with the row's operands. A row that is an opcode of the
master list (R63) carries the packet; a row that is a transport step carries what the transport delivered; a row that is an event carries
what the event brings from outside (a unit number, a level, a measured value). -/

namespace Sys2Proof

open Sys2Proof.Machine

/-- A command. -/
inductive Instr where
  /-- LINK_TRANSFER_ERROR (R14). A receiver on a control or field link detects a parity or CRC error, discards the transfer and requests a replay from the sender's replay buffer. -/
  | linkTransferError (l : LinkId)
  /-- LINK_REPLAY_EXHAUSTED (R15). After 8 consecutive failed replays of one transfer, the hub declares the link down and starts retraining. -/
  | linkReplayExhausted (l : LinkId)
  /-- LINK_RETRAIN (R15). Every 10 ms the hub attempts to retrain a down link, and the link comes back up when an attempt succeeds. -/
  | linkRetrain (l : LinkId) (ok : Bool)
  /-- HUB_PLL_LOSS (R17). The hub PLL loses lock, or XREF_IN is absent for more than 2 µs; the hub holds the device in DEVICE reset until relock. -/
  | hubPllLoss
  /-- CTL_PLL_LOSS (R17). A control die PLL loses lock; that die stops and its heartbeat stops with it. -/
  | ctlPllLoss (die : Fin 2)
  /-- FLD_PLL_LOSS (R17). A field die PLL loses lock; the die sets every channel to its safe value at once. -/
  | fldPllLoss (die : Fin 4)
  /-- FLD_PLL_RELOCK (R17). A field die PLL relocks; the die raises FLD_PLL_UNLOCK and the hub issues a FIELD reset to it. -/
  | fldPllRelock (die : Fin 4)
  /-- CREDIT_RETURN (R18). A consumer removes an item and returns a credit, and a producer that held an item for lack of credit sends it. -/
  | creditReturn (kind : Nat) (inst : Nat)
  /-- SAMPLE_ARRIVAL (R246). A tagged sample reaches the hub; it is passed at once to the loop engine if it is a loop input, and written to its point if TO_POINT is set. -/
  | sampleArrival (die : Fin 4)
  /-- EVENT_ROUTE (R23). The event router takes one event per CK_MAIN cycle from its queue, delivers it to the recorder and raises the notifications that HUB_EVR_ROUTE selects. -/
  | eventRoute
  /-- EVR_QUEUE_DRAIN (R24). A full router queue drains after events were lost, and the router writes HUB_EVR_OVERFLOW. -/
  | evrQueueDrain
  /-- FRAME_BOUNDARY (R25). Corrected time reaches boundary T_N; the frame snapshot is captured and frame N begins. -/
  | frameBoundary
  /-- GENERATION_COMMIT (R92). The frame generation is committed and Piste begins assembling frame N from it. -/
  | generationCommit
  /-- PISTE_RESUME (R103). A Piste pipeline held for lack of credit or Work space resumes placing stamps once an engine has room. -/
  | pisteResume (pipe : Fin 2)
  /-- JOB_ISSUE (R104). An engine moves the head job of its round or Piste queue into flight when its issue conditions hold, taking its warm start and expanding its stamp. -/
  | jobIssue (k : Fin 16)
  /-- JOB_END (R107). A problem ends by completing its kernels or by a numeric fault; its footprint is freed and its result record delivered. -/
  | jobEnd (k : Fin 16) (j : Nat) (cycles : Nat)
  /-- SE_MEMORY_ECC (R99). An ECC error occurs in engine local memory; a single-bit error is corrected, an uncorrectable one halts the engine and signals a hard fault. -/
  | seMemoryEcc (k : Fin 16) (uncorrectable : Bool)
  /-- ENGINE_DRAINED (R122). A DRAINING engine finishes its in-flight and queued work and enters PARKED. -/
  | engineDrained (k : Fin 16)
  /-- COORD_STEP (R145). A device makes its coordination step once its SOLVE round has ended and every DOWN port has reported or passed its deadline. -/
  | coordStep
  /-- REPORT_DEADLINE (R148). A device's report deadline for round k passes and each DOWN port without a counted report is treated as late. -/
  | reportDeadline
  /-- WORKER_DROP (R155). A DOWN port that has contributed no accepted report for FREEZE_FRAMES frames is dropped. -/
  | workerDrop (port : Fin 4)
  /-- COORD_UP_RECEIVE (R151). A COORD_UP report arrives whole from a DOWN port and is accepted or discarded. -/
  | coordUpReceive (port : Fin 4) (m : UpMsg)
  /-- COORD_DOWN_RECEIVE (R149). A COORD_DOWN message arrives whole; the device forwards it, applies the step and commits or issues the next round. -/
  | coordDownReceive (m : DownMsg)
  /-- FRAME_DEADLINE (R29). Deadline D_N passes without a commit; the frame commits at its deadline and unfinished jobs are abandoned. -/
  | frameDeadline
  /-- FRAME_CHECKPOINT (R283). Once PUBLISH and the previous CHECKPOINT have ended, CHECKPOINT writes warm starts and frame state into bank N mod 2. -/
  | frameCheckpoint
  /-- STOPPED_CHECKPOINT (R284). While frames are STOPPED, the active die writes frame-level checkpoint items every 1 s, alternating banks. -/
  | stoppedCheckpoint
  /-- HUB_SQ_TAIL_WRITE (R49). The host writes the submission doorbell; an overrun is ignored, otherwise the device fetches new entries in index order. -/
  | hubSqTailWrite (v : Word) (fetched : List SqFetch)
  /-- HUB_CQ_HEAD_WRITE (R49). The host writes the completion doorbell; a head past HUB_CQ_TAIL is ignored and sets CQ_HEAD_ERR. -/
  | hubCqHeadWrite (v : Word)
  /-- HUB_HOST_CTL_WRITE (R53). The host writes RING_EN or PAUSE; RING_EN rising resets the ring indices and clears SUSPENDED. -/
  | hubHostCtlWrite (v : Word)
  /-- HUB_HOST_ERR_WRITE (R49). The host writes 1 to clear SQ_OVERRUN, CQ_HEAD_ERR or DMA_ERR. -/
  | hubHostErrWrite (v : Word)
  /-- CQ_IRQ_TIMEOUT (R51). The oldest unsignalled completion reaches TIME_US and the completion vector is signalled. -/
  | cqIrqTimeout
  /-- PCIE_LINK_RESET (R53). A PCIe link-down, hot reset, function-level reset or PERST_N low suspends the rings; lost completions are counted. -/
  | pcieLinkReset (kind : Fin 3)
  /-- READ_STATUS (R54). Quad-SPI instruction 0x05 returns the 8 port status bytes. -/
  | readStatus
  /-- WRITE_PACKET (R54). Quad-SPI instruction 0x12 sends a packet on one line; at CS_N rising the port checks length, CRC and credit and accepts or discards it. -/
  | writePacket (p : Packet) (crc : Word)
  /-- WRITE_PACKET_Q (R54). Quad-SPI instruction 0x32 sends a packet on four lines, decided as WRITE_PACKET. -/
  | writePacketQ (p : Packet) (crc : Word)
  /-- READ_REPLY (R55). Quad-SPI instruction 0x13 returns the oldest waiting reply on one line. -/
  | readReply
  /-- READ_REPLY_Q (R55). Quad-SPI instruction 0x6B returns the oldest waiting reply on four lines. -/
  | readReplyQ
  /-- ACK_REPLY (R55). Quad-SPI instruction 0x14 removes the oldest reply if its TAG and CRC match, returning its credit. -/
  | ackReply (tag : BitVec 16) (crc : Word)
  /-- ETH_CMD_DATAGRAM (R56). A UDP datagram arrives at the command port; it is discarded, refused with ST_QUEUE_FULL or accepted as one packet. -/
  | ethCmdDatagram (port : Fin 3) (p : Packet)
  /-- JALOW_RELAY_RECEIVE (R59). A RELAY message arrives whole; the device forwards it down or places the inner packet in its relay submission queue. -/
  | jalowRelayReceive (m : List Word)
  /-- JALOW_REPLY_RECEIVE (R61). A REPLY message arrives whole and completes the waiting relay, or is discarded if late. -/
  | jalowReplyReceive (port : Fin 4) (m : List Word)
  /-- RELAY_TIMEOUT (R61). TIMEOUT_MS expires with no reply and the outer reply carries ST_RELAY_TIMEOUT. -/
  | relayTimeout (tag : BitVec 16)
  /-- NOP (R45). Returns the last-accepted sequence value L for the named key slot on the arriving transport. -/
  | nop (p : Packet)
  /-- DEV_IDENT (R63). Returns identity, revisions, serial number, active die and tree level. -/
  | devIdent (p : Packet)
  /-- DEVICE_RESET (R402). Replies and then causes a DEVICE reset after checking the confirmation word. -/
  | deviceReset (p : Packet)
  /-- DIE_RESET (R404). Resets a control die; on the active die it is declared as a failure with cause COMMAND. -/
  | dieReset (p : Packet)
  /-- FIELD_RESET (R405). Orders a FIELD reset of a field die. -/
  | fieldReset (p : Packet)
  /-- RESET_CAUSE (R406). Returns one of the last 16 reset-cause records. -/
  | resetCause (p : Packet)
  /-- FW_STAGE (R411). Writes firmware image words into the slot that is not running. -/
  | fwStage (p : Packet)
  /-- FW_ACTIVATE (R411). Verifies a staged slot, makes it preferred and optionally resets the device at once. -/
  | fwActivate (p : Packet)
  /-- FRAME_SET (R31). Schedules a new frame length and anchor. -/
  | frameSet (p : Packet)
  /-- FRAME_STOP (R32). Sets the last frame to run and puts the schedule into STOPPING. -/
  | frameStop (p : Packet)
  /-- FRAME_STATUS (R25). Returns the frame schedule, phase and counters. -/
  | frameStatus (p : Packet)
  /-- HOST_CONFIG (R57). Sets host transport settings, refusing any that would cut off its own sender. -/
  | hostConfig (p : Packet)
  /-- HOST_STATUS (R12). Returns host transport counters and, with CLEAR, clears the kind S counters. -/
  | hostStatus (p : Packet)
  /-- ETH_IF_CONFIG (R58). Configures an Ethernet MAC, its addresses and its VLAN. -/
  | ethIfConfig (p : Packet)
  /-- POINT_READ (R71). Returns a range of live point entries. -/
  | pointRead (p : Packet)
  /-- POINT_WRITE (R68). Writes one point with precedence 1, subject to collision rules and shadow-pool copy-on-write. -/
  | pointWrite (p : Packet)
  /-- POINT_BLOCK_WRITE (R72). Reads and checks a host block over PCIe, then writes its elements in block order. -/
  | pointBlockWrite (p : Packet)
  /-- POINT_BLOCK_READ (R72). Writes a range of live or generation entries to host memory over PCIe. -/
  | pointBlockRead (p : Packet)
  /-- SNAPSHOT_AT (R79). Requests a capture at a future corrected time and returns its generation number. -/
  | snapshotAt (p : Packet)
  /-- SNAPSHOT_READ (R78). Returns entries exactly as they stood at the capture of a held generation. -/
  | snapshotRead (p : Packet)
  /-- SNAPSHOT_STATUS (R77). Returns pool occupancy, held generations and pending requests. -/
  | snapshotStatus (p : Packet)
  /-- PFRAME_CONFIG (R73). Configures Ethernet point-frame ingest on a MAC. -/
  | pframeConfig (p : Packet)
  /-- POINT_FRAME_RECEIVE (R74). A point-frame datagram arrives; it is discarded if the ingest queue is full, otherwise checked whole and its records written. -/
  | pointFrameReceive (port : Fin 3) (src : BitVec 32) (dg : List Word)
  /-- POINT_ECC_ERROR (R67). An uncorrectable ECC error in a live entry replaces it with BAD_MEMORY. -/
  | pointEccError (id : Nat)
  /-- WAITING_WRITE_LAND (R77). A write that waited for a shadow-pool slot lands once a capture releases a generation. -/
  | waitingWriteLand
  /-- REQUESTED_CAPTURE (R79). A pending SNAPSHOT_AT time is reached and every unit captures a requested generation. -/
  | requestedCapture
  /-- AT_SNAPSHOT_RELEASE (R47). A packet waiting with AT_SNAPSHOT takes effect in the first cycle after the next capture. -/
  | atSnapshotRelease
  /-- MODEL_LOAD (R96). Begins staging or writes element or parameter-pool words into staging. -/
  | modelLoad (p : Packet)
  /-- MODEL_COMMIT (R96). Checks the staged model, writes the image copy and eMRAM image, then replies with a pending activation. -/
  | modelCommit (p : Packet)
  /-- MODEL_STATUS (R88). Returns the model state and the reason of the last rejected commit. -/
  | modelStatus (p : Packet)
  /-- PARTITION_SET (R87). Writes subproblem entries into staging. -/
  | partitionSet (p : Packet)
  /-- SUBST_SET (R94). Writes substitution rules into staging. -/
  | substSet (p : Packet)
  /-- MODEL_IMAGE_LOAD (R83). Piste loads the active model from the eMRAM image at reset or from the image copy at takeover, checking its CRC. -/
  | modelImageLoad
  /-- JOB_SUBMIT (R129). Checks a host job descriptor and queues it on its engine. -/
  | jobSubmit (p : Packet)
  /-- JOB_RESULT (R130). Returns a host job's result record and optionally releases its table entry. -/
  | jobResult (p : Packet)
  /-- JOB_CANCEL (R130). Removes a queued host job or stops one in flight within 1 µs. -/
  | jobCancel (p : Packet)
  /-- MEM_ALLOC (R124). Allocates a host object in the Host region and returns its handle. -/
  | memAlloc (p : Packet)
  /-- MEM_FREE (R124). Frees a host object that is not in use. -/
  | memFree (p : Packet)
  /-- MEM_WRITE (R124). Writes data words of a host object and returns it to RAW. -/
  | memWrite (p : Packet)
  /-- MEM_READ (R124). Returns words of any object. -/
  | memRead (p : Packet)
  /-- SOLVER_CONFIG (R126). Sets region sizes and numeric defaults per precision. -/
  | solverConfig (p : Packet)
  /-- SOLVER_STATUS (R122). Returns engine states and memory figures. -/
  | solverStatus (p : Packet)
  /-- COORD_CONFIG_SETTINGS (R166). COORD_CONFIG section 0 sets caps, waits, freeze frames and global tolerances. -/
  | coordConfigSettings (p : Packet)
  /-- COORD_CONFIG_SCOPE (R144). COORD_CONFIG section 1 sets the LOCAL or UP scope of a range of coupling IDs. -/
  | coordConfigScope (p : Packet)
  /-- COORD_STATUS (R147). Returns the coordinator page words. -/
  | coordStatus (p : Packet)
  /-- JL_PORT_CONFIG (R167). Sets a Jalow port's role, encryption, preset and point windows, then retrains the port. -/
  | jlPortConfig (p : Packet)
  /-- JL_STATUS (R162). Returns a Jalow port's page words. -/
  | jlStatus (p : Packet)
  /-- RELAY (R59). Sends an inner packet down the Jalow tree over the named ports and returns its reply or per-device statuses. -/
  | relay (p : Packet)
  /-- JL_HELLO_TIMER (R162). After bit and word lock, each end sends HELLO every 100 µs until it has received its partner's. -/
  | jlHelloTimer (port : Fin 4)
  /-- JL_HELLO_RECEIVE (R162). A partner's HELLO arrives; the link comes up or the port is REFUSED with a reason. -/
  | jlHelloReceive (port : Fin 4) (m : List Word)
  /-- JL_RETRY_TIMER (R159). A down or refused Jalow port retries link-up every 10 ms. -/
  | jlRetryTimer (port : Fin 4)
  /-- JL_FRAME_RECEIVE (R159). A Jalow data frame arrives; it is delivered in SEQ order or discarded with a NAK on CRC, tag or order failure. -/
  | jlFrameReceive (port : Fin 4) (f : JlFrame)
  /-- JL_NAK_RECEIVE (R159). A CTRL frame with NAK_SEQ arrives and the sender resends from that frame. -/
  | jlNakReceive (port : Fin 4) (seq : BitVec 8)
  /-- JL_ACK_TIMEOUT (R159). 20 µs pass without an ACK and the sender resends from the oldest unacknowledged frame. -/
  | jlAckTimeout (port : Fin 4)
  /-- JL_IDLE_TIMER (R158). A port sends an IDLE frame when nothing else has been sent for 5 µs. -/
  | jlIdleTimer (port : Fin 4)
  /-- JL_LINK_LOSS (R159). A Jalow link is declared down on loss of signal, 50 µs of silence, 8 resends or 8 tag failures; the port retrains and imports are marked BAD_COMM. -/
  | jlLinkLoss (port : Fin 4) (signal : Bool)
  /-- JL_POINTS_RECEIVE (R164). A POINTS message arrives whole and its entries are written to the import window. -/
  | jlPointsReceive (port : Fin 4) (m : List Word)
  /-- JL_EVENT_RECEIVE (R165). An EVENT message arrives and its record is recorded with its origin address and forwarded up if enabled. -/
  | jlEventReceive (port : Fin 4) (m : List Word)
  /-- LOOP_CONFIG (R191). Sets a loop slot's configuration, taking effect at once or at the first tick 50 µs later. -/
  | loopConfig (p : Packet)
  /-- LOOP_SECTION_SET (R192). Sets the coefficients and form of one section of a loop. -/
  | loopSectionSet (p : Packet)
  /-- LOOP_MODE (R193). Requests OFF, MANUAL or AUTO for a loop or group lead, optionally setting MAN_OUT. -/
  | loopMode (p : Packet)
  /-- LOOP_STATUS (R182). Returns a loop's status block and integrator states. -/
  | loopStatus (p : Packet)
  /-- OVERRIDE_CONFIG (R195). Forms, changes or dissolves an override group. -/
  | overrideConfig (p : Packet)
  /-- LOOP_TICK (R177). At a loop's input cut-off the engine computes the tick in deadline order, tracking or limiting as its mode requires, and sends the output tagged for the next tick. -/
  | loopTick (i : Fin 128)
  /-- LOOP_COMPUTE_DEADLINE (R173). A tick's computation has not completed by its compute deadline and is abandoned as a COMPUTE overrun. -/
  | loopComputeDeadline (i : Fin 128)
  /-- LOOP_STALE_LIMIT (R186). The STALE_LIMIT-th consecutive stale tick puts the loop in HELD. -/
  | loopStaleLimit (i : Fin 128)
  /-- NUMERIC_MANUAL (R187). After 8 consecutive numeric-fault ticks the loop, or its group's lead, is set to MANUAL at the held output. -/
  | numericManual (i : Fin 128)
  /-- OUTPUT_APPLY (R172). At a base tick each field die applies every output tagged for it that landed in time and discards late ones. -/
  | outputApply
  /-- SUPERV_CONFIG (R212). SUPERV_CONFIG with OP CONFIG sets a loop's supervisor. -/
  | supervConfig (p : Packet)
  /-- SUPERV_ACK (R202). SUPERV_CONFIG with OP ACK releases a latched failure and resets the counters. -/
  | supervAck (p : Packet)
  /-- SUPERV_RESTART_MODEL (R203). SUPERV_CONFIG with OP RESTART_MODEL re-initialises the supervision model. -/
  | supervRestartModel (p : Packet)
  /-- SUPERV_STATUS (R199). Returns a loop's supervision block. -/
  | supervStatus (p : Packet)
  /-- SUPERV_EVALUATION (R198). After a loop's computation ends, the supervision pipe updates the model, filter and check counters for that tick. -/
  | supervEvaluation (i : Fin 128)
  /-- SUPERV_PERSIST_REACHED (R199). An enabled check counter reaches PERSIST and a failure is declared with its action. -/
  | supervPersistReached (i : Fin 128)
  /-- SUPERV_QUIET_REACHED (R202). QUIET reaches CLEAR_TICKS and an unlatched failure is released. -/
  | supervQuietReached (i : Fin 128)
  /-- MOGUL_CONFIG (R208). Sets a loop's learner period, pages, gains or freeze, or clears its pages. -/
  | mogulConfig (p : Packet)
  /-- MOGUL_PAGE_READ (R204). Returns samples of one page of a loop's learner memory. -/
  | mogulPageRead (p : Packet)
  /-- TRACE_CONFIG (R212). Configures a trace unit's loop, nodes, region and trigger. -/
  | traceConfig (p : Packet)
  /-- TRACE_ARM (R210). Arms a trace unit, or forces the trigger of an armed one. -/
  | traceArm (p : Packet)
  /-- TRACE_DISARM (R210). Returns a trace unit to IDLE. -/
  | traceDisarm (p : Packet)
  /-- TRACE_READ (R211). Returns trace samples in time order from a DONE or ABORTED unit. -/
  | traceRead (p : Packet)
  /-- TRACE_COMPLETE (R210). A triggered trace has written its post-trigger records and enters DONE. -/
  | traceComplete (u : Fin 4)
  /-- SLALOM_EVALUATION (R214). Every 1 ms Slalom evaluates its budgets, moves the demands and level, parks or resumes engines and admits self-test slices. -/
  | slalomEvaluation
  /-- CAP_UNMET_TIMER (R229). LEVEL has been 6 for 1 s with P_AVG still above the cap and CAP_UNMET is set. -/
  | capUnmetTimer
  /-- HOLDUP_OK_TIMER (R227). G_MAX has stayed at or above 64 for 1 s and WRITE_THROUGH clears. -/
  | holdupOkTimer
  /-- POWER_SAMPLE (R215). Every 100 µs the rail power monitors are sampled into the package power average. -/
  | powerSample (mw : Nat)
  /-- TEMP_SENSOR_READ (R216). Every 1 ms each die temperature sensor is read and T_MAX formed. -/
  | tempSensorRead (temps : List Int)
  /-- CLAMP_REPORT (R217). Every 1 ms each field die reports E_WIN and E_PEND in a STATUS frame. -/
  | clampReport (die : Fin 4)
  /-- HOLDOUT_READ (R218). Every 1 ms FLD0 and FLD1 read their HOLDOUT node voltage. -/
  | holdoutRead (n : Fin 2) (mv : Nat)
  /-- HOLDUP_CAP_TEST (R218). Every HU_TEST_S, and after start-up, a field die draws 100 mA from its HOLDOUT node for 2 ms. -/
  | holdupCapTest (n : Fin 2)
  /-- HOLDUP_CAP_TEST_END (R218). The 2 ms capacitance test ends and C_n is set from the measured drop. -/
  | holdupCapTestEnd (n : Fin 2) (mv : Nat)
  /-- PWR_CAP_SET (R230). Sets the package power cap. -/
  | pwrCapSet (p : Packet)
  /-- BUDGET_CONFIG (R230). Sets Slalom's thermal, power, throttle, holdup and clamp settings. -/
  | budgetConfig (p : Packet)
  /-- BUDGET_STATUS (R219). Returns the Slalom page words. -/
  | budgetStatus (p : Packet)
  /-- JOURNAL_ADMIT (R226). A class N command waiting for journal room has its entry admitted once the drain frees space, and takes effect. -/
  | journalAdmit
  /-- JOURNAL_WAIT_TIMEOUT (R226). A command has waited 100 ms for journal room and is rejected with ST_BUSY. -/
  | journalWaitTimeout
  /-- EMRAM_WRITE_DONE (R228). An eMRAM write completes and the writer serves the highest pending request: save, records, journal drain, model image or firmware. -/
  | emramWriteDone
  /-- ACH_CONFIG (R232). Sets a channel's analogue mode, excitation and scaling. -/
  | achConfig (p : Packet)
  /-- SEQ_WRITE (R243). Writes entries into the pending sequence table and optionally commits it. -/
  | seqWrite (p : Packet)
  /-- SEQ_START (R243). SEQ_START with START sets cycle settings and starts or restarts the sequence. -/
  | seqStart (p : Packet)
  /-- SEQ_STOP (R243). SEQ_START with STOP stops the sequence after the cycle in progress, or cancels a waiting start. -/
  | seqStop (p : Packet)
  /-- SEQ_RESULT (R245). Returns result registers of sequence entries. -/
  | seqResult (p : Packet)
  /-- CAL_CHANNEL_TRIM (R251). CAL_WRITE operation CHANNEL_TRIM sets a channel's gain and offset trims. -/
  | calChannelTrim (p : Packet)
  /-- CAL_NTC (R251). CAL_WRITE operation NTC sets a channel's NTC coefficients. -/
  | calNtc (p : Packet)
  /-- CAL_AO_TRIM (R251). CAL_WRITE operation AO_TRIM sets an analogue output's trims. -/
  | calAoTrim (p : Packet)
  /-- CAL_HB_MANUAL (R251). CAL_WRITE operation HB_MANUAL sets the interleaving match trims of one range. -/
  | calHbManual (p : Packet)
  /-- CAL_HB_AUTO (R251). CAL_WRITE operation HB_AUTO measures and sets the match trims of every range with the test DAC. -/
  | calHbAuto (p : Packet)
  /-- CAL_USER_DEFAULTS (R251). CAL_WRITE operation USER_DEFAULTS returns user calibration values to their defaults. -/
  | calUserDefaults (p : Packet)
  /-- TESTDAC_SET (R249). Sets the test DAC and connects or disconnects it to one channel. -/
  | testdacSet (p : Packet)
  /-- SEQ_CYCLE_START (R242). A sequence cycle starts at its aligned or free-running instant, applying a waiting commit or start and counting skipped instants. -/
  | seqCycleStart (die : Fin 4)
  /-- ENTRY_RESULT (R245). An entry's last conversion ends and its result register is written, graded and queued to be sent. -/
  | entryResult (die : Fin 4) (e : Fin 64) (codes : List Nat)
  /-- SAMPLE_SEND (R247). A waiting sample is sent to the hub in TIME order once credit returns or the link retrains. -/
  | sampleSend (die : Fin 4)
  /-- AO_FAULT_DETECT (R237). An AO output has been at its current limit or compliance limit for 1 ms and AO_SHORT or AO_OPEN is set. -/
  | aoFaultDetect (die : Fin 4) (c : Fin 24) (short : Bool)
  /-- AO_FAULT_CLEAR (R237). An AO fault condition has been absent for 100 ms and its bit clears. -/
  | aoFaultClear (die : Fin 4) (c : Fin 24) (short : Bool)
  /-- SEQ_AUTOSTART (R252). A field die whose saved run state is RUNNING starts its sequence at the first cycle start at least 1 ms after configuration. -/
  | seqAutostart (die : Fin 4)
  /-- DCH_CONFIG (R253). Sets a channel's digital function and its parameters. -/
  | dchConfig (p : Packet)
  /-- DCH_STATUS (R260). Returns the digital channel blocks of a range of channels. -/
  | dchStatus (p : Packet)
  /-- ARM_OUTPUTS (R268). Arms or disarms the named field dies at the first base tick at least 50 µs after the reply. -/
  | armOutputs (p : Packet)
  /-- OUTPUT_SET (R259). Sets a channel's commanded value, tagged for the first base tick at least 50 µs later. -/
  | outputSet (p : Packet)
  /-- SAFE_CONFIG (R274). Sets a field die's silence timeout, resume mode, safe values and power-fail bits. -/
  | safeConfig (p : Packet)
  /-- COUNTER_READ (R258). Returns the hub's pulse-count accumulators. -/
  | counterRead (p : Packet)
  /-- DI_EDGE_ACCEPT (R255). A DI raw state has been stable for the debounce time and the new state is accepted, counted and sent. -/
  | diEdgeAccept (die : Fin 4) (c : Fin 24)
  /-- DI_POINT_REFRESH (R256). Every REFRESH_MS a DI sends its state as a point sample. -/
  | diPointRefresh (die : Fin 4) (c : Fin 24)
  /-- DI_LOOP_SAMPLE (R256). At t_k − 1 µs of each reading loop's tick a DI sends its state as a loop-input sample. -/
  | diLoopSample (die : Fin 4) (c : Fin 24)
  /-- WIRE_BREAK_DECLARE (R257). A DI input current stays below WB_THRESH for WB_MS and a wire break is declared. -/
  | wireBreakDeclare (die : Fin 4) (c : Fin 24)
  /-- WIRE_BREAK_CLEAR (R257). A DI input current stays at or above 1.1 × WB_THRESH for WB_MS and the break clears. -/
  | wireBreakClear (die : Fin 4) (c : Fin 24)
  /-- COUNT_ACCUMULATE (R258). Every 1 ms the hub extends each channel's pulse counter into COUNT_ACC. -/
  | countAccumulate
  /-- OUTPUT_FOLDBACK (R260). An output has been at its current limit for 1 ms and folds back to 0.1 A. -/
  | outputFoldback (die : Fin 4) (c : Fin 24)
  /-- OUTPUT_RETRY (R260). After RETRY_MS in fold-back the output restores its limit, succeeding, folding back again or switching off past RETRY_MAX. -/
  | outputRetry (die : Fin 4) (c : Fin 24) (still : Bool)
  /-- OUTPUT_OVERTEMP (R260). A switch sensor reaches 140 °C and the channel switches off at once. -/
  | outputOvertemp (die : Fin 4) (c : Fin 24)
  /-- OPEN_LOAD_DETECT (R260). An on channel with OL_EN draws under 2 mA for 100 ms and OPEN_LOAD is set. -/
  | openLoadDetect (die : Fin 4) (c : Fin 24)
  /-- SHORT_TO_SUPPLY_DETECT (R263). An off output's terminal stays above 6 V for 1 ms and SHORT_TO_SUPPLY is set. -/
  | shortToSupplyDetect (die : Fin 4) (c : Fin 24)
  /-- SHORT_TO_SUPPLY_CLEAR (R263). The terminal stays below 4 V for 10 ms and SHORT_TO_SUPPLY clears. -/
  | shortToSupplyClear (die : Fin 4) (c : Fin 24)
  /-- EXTERNAL_DRIVE_DETECT (R264). An on output's terminal stays 0.2 V above its supply node for 1 ms and EXTERNAL_DRIVE is set. -/
  | externalDriveDetect (die : Fin 4) (c : Fin 24)
  /-- EXTERNAL_DRIVE_CLEAR (R264). EXTERNAL_DRIVE clears after 10 ms without its condition. -/
  | externalDriveClear (die : Fin 4) (c : Fin 24)
  /-- PWM_PERIOD_START (R261). A PWM period starts at its base tick, applying a new duty and switching the output on. -/
  | pwmPeriodStart (die : Fin 4) (c : Fin 24)
  /-- CLAMP_EVENT_START (R266). A deferred inductive turn-off starts once 250 µs have passed since the die's previous clamp event. -/
  | clampEventStart (die : Fin 4) (c : Fin 24)
  /-- CLAMP_EVENT_END (R266). A clamp event's current reaches zero and its energy is booked; an excess over 200 mJ sets CLAMP_OVER. -/
  | clampEventEnd (die : Fin 4) (c : Fin 24) (uj : Nat)
  /-- CYCLE_HOLD_RELEASE (R266). A turn-on held by the minimum cycle is applied 100 ms after its channel's last clamp event. -/
  | cycleHoldRelease (die : Fin 4) (c : Fin 24)
  /-- ARM_TAKE_EFFECT (R268). An accepted arming or disarming takes effect at its base tick, or enters the Snowplough if silence has already timed out. -/
  | armTakeEffect (die : Fin 4)
  /-- REFRESH_SEND (R269). Every 250 µs the active control die sends a refresh to each field die. -/
  | refreshSend
  /-- REFRESH_RECEIVE (R269). A valid refresh lands at a field die and restarts its silence timer. -/
  | refreshReceive (die : Fin 4)
  /-- SNOWPLOUGH_TIMEOUT (R269). A field die has had no valid refresh for TIMEOUT_MS and enters the Snowplough, setting every channel to its safe value. -/
  | snowploughTimeout (die : Fin 4)
  /-- SNOWPLOUGH_RESUME (R270). With RESUME AUTO, a die leaves the Snowplough at the first base tick 1 ms after refreshes resume. -/
  | snowploughResume (die : Fin 4)
  /-- FIELD_RESET_TAKE_HOLD (R275). A ordered FIELD reset takes hold once outputs are off, returning class F fields to default. -/
  | fieldResetTakeHold (die : Fin 4)
  /-- FIELD_RESET_RELEASE (R439). The field die leaves reset about 1 ms later with its PLL locked and replica reloaded. -/
  | fieldResetRelease (die : Fin 4)
  /-- FIELD_DIE_CONFIGURED (R439). The hub loads the field die's class N configuration and the die becomes DISARMED. -/
  | fieldDieConfigured (die : Fin 4)
  /-- HEARTBEAT_SEND (R278). Every 500 µs the active die sends a heartbeat to the twin arbiter. -/
  | heartbeatSend
  /-- HEARTBEAT_RECEIVE (R278). The twin arbiter receives a heartbeat and checks its sequence. -/
  | heartbeatReceive (seq : BitVec 32)
  /-- HEARTBEAT_LATE (R278). No valid heartbeat arrives within 600 µs of the previous one. -/
  | heartbeatLate
  /-- HEARTBEAT_TIMEOUT (R278). 1,750 µs pass without a valid heartbeat and the arbiter declares the active die failed. -/
  | heartbeatTimeout
  /-- HARD_FAULT_LINE (R279). A control die asserts its hard-fault line; the arbiter declares an active die failed, or fails a waking die. -/
  | hardFaultLine (die : Fin 2) (cause : TakeCause)
  /-- ARBITER_DISAGREEMENT (R280). The two arbiter halves have disagreed for 50 µs and no fail-over is made. -/
  | arbiterDisagreement
  /-- STATE_RESTORE_DONE (R285). The waking die has ungated, started its firmware and restored configuration, loop stream and checkpoint state. -/
  | stateRestoreDone
  /-- RELEASE_INSTANT (R286). At T_R the new die becomes ACTIVE, sends the first refresh and release frame, and commits an abandoned frame down the tree. -/
  | releaseInstant
  /-- LOOP_STREAM (R282). At every base tick that is a multiple of 1,000 the active die streams loop state and schedule into the checkpoint store. -/
  | loopStream
  /-- STREAM_LATE (R282). A stream record is not complete 2 ms after its instant. -/
  | streamLate
  /-- RECOVERY_START (R291). A failed die whose rail is good and temperature low enough enters RECOVERING and starts its full BIST. -/
  | recoveryStart (die : Fin 2)
  /-- RECOVERY_BIST_DONE (R292). A recovering die's BIST ends; it enters COLD on a pass or stays FAILED. -/
  | recoveryBistDone (die : Fin 2) (pass : Bool)
  /-- STANDBY_SLICE_END (R298). A standby self-test slice ends and its result is recorded, a failure moving the die to COLD or FAILED. -/
  | standbySliceEnd (sig : BitVec 64)
  /-- SWAP_PREPARE (R295). At T_M − 40 ms the standby enters WAKING for a planned swap. -/
  | swapPrepare
  /-- SWAP_HANDOVER (R295). At T_H the old die writes a final stream record and stops sending outputs. -/
  | swapHandover
  /-- TWIN_STATUS (R276). Returns the twin page words. -/
  | twinStatus (p : Packet)
  /-- SWAP (R294). Requests a planned swap into frame M. -/
  | swap (p : Packet)
  /-- SWAP_CANCEL (R294). SWAP with CANCEL cancels a pending swap before the standby is WAKING. -/
  | swapCancel (p : Packet)
  /-- TWIN_CONFIG (R300). TWIN_CONFIG with OP CONFIG sets twin enable, rejoin policy, recovery limit and coverage period. -/
  | twinConfig (p : Packet)
  /-- TWIN_RECOVER (R291). TWIN_CONFIG with OP RECOVER starts recovery of a FAILED die. -/
  | twinRecover (p : Packet)
  /-- HEALTH_REPORT (R297). Returns slice health entries of a control die. -/
  | healthReport (p : Packet)
  /-- TIME_READ (R306). Returns corrected and raw time from one CK_NET cycle, servo state and step count. -/
  | timeRead (p : Packet)
  /-- TIME_ADJUST_OFFSET (R322). TIME_ADJUST OFFSET passes a software offset sample to the servo. -/
  | timeAdjustOffset (p : Packet)
  /-- TIME_ADJUST_STEP (R322). TIME_ADJUST STEP schedules a step of corrected time by the given amount. -/
  | timeAdjustStep (p : Packet)
  /-- TIME_ADJUST_SET (R322). TIME_ADJUST SET schedules a step that makes corrected time equal the value given. -/
  | timeAdjustSet (p : Packet)
  /-- TIME_ADJUST_FREQ (R322). TIME_ADJUST FREQ sets RATE and puts the servo in MANUAL. -/
  | timeAdjustFreq (p : Packet)
  /-- PTP_CONFIG (R323). Configures PTP on an Ethernet port and restarts it. -/
  | ptpConfig (p : Packet)
  /-- PTP_STATUS (R309). Returns a port's PTP block and the time-base status words. -/
  | ptpStatus (p : Packet)
  /-- SERVO_CONFIG (R324). Sets the servo source, step mode, gains and thresholds. -/
  | servoConfig (p : Packet)
  /-- PTP_MESSAGE_RECEIVE (R313). A PTP message arrives on a port; it is forwarded by the transparent clock and processed by the ordinary clock. -/
  | ptpMessageReceive (port : Fin 3) (m : List Byte)
  /-- PTP_TRANSMIT_TIMER (R311). A message interval expires and the ordinary clock sends Sync, Announce, Delay_Req or Pdelay_Req. -/
  | ptpTransmitTimer (port : Fin 3) (kind : BitVec 4)
  /-- ANNOUNCE_RECEIPT_TIMEOUT (R308). No Announce arrives within ANNOUNCE_TO intervals and the port's state changes. -/
  | announceReceiptTimeout (port : Fin 3)
  /-- FOLLOWUP_TIMEOUT (R313). A two-step Sync finds no Follow_Up within 1 s and is discarded. -/
  | followupTimeout (port : Fin 3)
  /-- SERVO_SAMPLE (R314). The servo takes an offset sample and steps, slews or adjusts RATE, or discards it as an outlier. -/
  | servoSample (theta : Int)
  /-- SERVO_HOLDOVER (R315). No sample arrives for HOLD_MS in ACQUIRING or LOCKED and the servo enters HOLDOVER. -/
  | servoHoldover
  /-- TIME_CHANGE_APPLY (R307). At its raw instant a change of OFS or RATE applies in every die, and a step re-evaluates every schedule. -/
  | timeChangeApply
  /-- TIME_LO_READ (R306). A read of TIME_LO latches TIME_HI and TIME_FRAC. -/
  | timeLoRead
  /-- RAW_LO_READ (R306). A read of RAW_LO latches RAW_HI. -/
  | rawLoRead
  /-- READ_RTC (R329). Returns a consistent real-time-clock count and the corrected time of its edge. -/
  | readRtc (p : Packet)
  /-- WRITE_RTC_NEXT_EDGE (R330). WRITE_RTC NEXT_EDGE loads a new count at the next crystal edge. -/
  | writeRtcNextEdge (p : Packet)
  /-- WRITE_RTC_AT_TIME (R330). WRITE_RTC AT_TIME schedules a load at a corrected time. -/
  | writeRtcAtTime (p : Packet)
  /-- RTC_TRIM_SET (R332). RTC_TRIM with OP TRIM sets the trim from the next edge. -/
  | rtcTrimSet (p : Packet)
  /-- RTC_SYNC_CONFIG (R337). RTC_TRIM with OP SYNC sets synchronisation from network time. -/
  | rtcSyncConfig (p : Packet)
  /-- RTC_ALARM_SET (R333). RTC_ALARM SET arms the alarm at a count with FIRE or SUPPRESS policy. -/
  | rtcAlarmSet (p : Packet)
  /-- RTC_ALARM_CANCEL (R333). RTC_ALARM CANCEL disarms the alarm. -/
  | rtcAlarmCancel (p : Packet)
  /-- EVIN_CONFIG (R341). Sets an event input's edges, tamper path, events and filter. -/
  | evinConfig (p : Packet)
  /-- EVIN_READ (R340). Returns an event input's status and FIFO entries, removing them with POP. -/
  | evinRead (p : Packet)
  /-- RTC_SEC_LO_READ (R329). A read of RTC_SEC_LO latches RTC_SEC_HI and RTC_FRAC into a shadow. -/
  | rtcSecLoRead
  /-- RTC_FLAGS_WRITE (R334). Writing 1 clears ALARM_FIRED or ALARM_SKIPPED. -/
  | rtcFlagsWrite (v : Word)
  /-- EVIN_STATUS_WRITE (R340). Writing 1 clears an input's OVERFLOW or TAMPER_HIT. -/
  | evinStatusWrite (i : Fin 4) (v : Word)
  /-- RTC_LOAD (R330). A scheduled count load takes place at its crystal edge and writes the adjustment pair. -/
  | rtcLoad
  /-- ALARM_MATCH (R334). The count passes an armed alarm at an edge, and the alarm fires or is discarded. -/
  | alarmMatch
  /-- RTC_SYNC_MEASURE (R335). At each SYNC_S instant with the servo locked the hub measures the clock error, schedules a load and updates the trim. -/
  | rtcSyncMeasure
  /-- BACKUP_SUPPLY_SWITCH (R326). The backup domain switches between VKEEP and VBAT. -/
  | backupSupplySwitch (toVbat : Bool)
  /-- VBAT_MEASURE (R327). Every 1 s the hub measures VBAT. -/
  | vbatMeasure (mv : Nat)
  /-- BACKUP_LOSS (R327). VKEEP and VBAT both fall below 1.80 V; class B fields default and class Z fields are zeroed. -/
  | backupLoss
  /-- EVIN_EDGE_ACCEPT (R339). A selected edge has been present for FILT + 1 samples and is stored in the input's FIFO with its time-stamp. -/
  | evinEdgeAccept (i : Fin 4) (rising : Bool)
  /-- EVIN_TAMPER_EDGE (R341). An edge on a tamper input passes the 1 µs filter and starts the tamper zeroise. -/
  | evinTamperEdge (i : Fin 4) (rising : Bool)
  /-- CAN_CONFIG (R346). Sets a CAN controller's mode, bit timing, warnings and priority signalling. -/
  | canConfig (p : Packet)
  /-- CAN_FILTER (R347). Writes standard or extended filter elements, taking effect between two frames. -/
  | canFilter (p : Packet)
  /-- CAN_SEND (R350). Loads a transmit buffer and requests its transmission, or cancels it. -/
  | canSend (p : Packet)
  /-- CAN_RECEIVE (R348). Returns, and with POP removes, elements of the receive FIFO or priority buffer. -/
  | canReceive (p : Packet)
  /-- CAN_STATUS (R351). Returns a CAN controller's page words. -/
  | canStatus (p : Packet)
  /-- CAN_TIME_CONFIG (R355). Sets a controller's reference-message role and parameters. -/
  | canTimeConfig (p : Packet)
  /-- CAN_MAP (R357). Writes mapping entries from CAN signals to points. -/
  | canMap (p : Packet)
  /-- CAN_RECOVER_BUS (R352). CAN_RECOVER with OP BUS starts recovery of a held bus-off. -/
  | canRecoverBus (p : Packet)
  /-- CAN_RECOVER_BUFFER (R353). CAN_RECOVER with OP BUFFER clears a suspended buffer or reference message. -/
  | canRecoverBuffer (p : Packet)
  /-- CAN_FRAME_RECEIVED (R347). A frame ends validly; it is filtered, stored and mapped, or accepted as a reference message. -/
  | canFrameReceived (k : Fin 4) (f : CanFrame) (sof : Nat)
  /-- CAN_TX_COMPLETE (R350). A transmission attempt of a buffer succeeds and its pending bit clears. -/
  | canTxComplete (k : Fin 4) (b : Fin 33) (sof : Nat)
  /-- CAN_BUS_ERROR (R351). A bus error updates TEC and REC and may change the error state or enter bus-off. -/
  | canBusError (k : Fin 4) (lec : BitVec 3) (tx : Option (Fin 33)) (post : Bool)
  /-- CAN_CLASH_LIMIT (R353). A buffer's fourth consecutive post-arbitration bit error suspends it. -/
  | canClashLimit (k : Fin 4) (b : Fin 33)
  /-- CAN_BUSOFF_RECOVERED (R352). Bus-off recovery completes and the controller returns to ERROR_ACTIVE. -/
  | canBusoffRecovered (k : Fin 4)
  /-- CAN_REF_CYCLE (R354). At each cycle instant T_c a mastering controller requests its reference message. -/
  | canRefCycle (k : Fin 4)
  /-- CAN_REF_LATE_TIMEOUT (R354). A reference message has not started by T_c + CYCLE_US ÷ 2 and is abandoned. -/
  | canRefLateTimeout (k : Fin 4)
  /-- CAN_SILENCE_TIMEOUT (R356). No reference with lower p is heard for SILENCE cycles and a backup or yielded master starts mastering. -/
  | canSilenceTimeout (k : Fin 4)
  /-- CAN_MAP_TIMEOUT_CHECK (R358). Every 1 ms the hub writes BAD_COMM to mapped points whose TIMEOUT_MS has passed. -/
  | canMapTimeoutCheck
  /-- REC_READ (R370). Returns records by sequence or pinned slot with the head sequence and tag. -/
  | recRead (p : Packet)
  /-- REC_STATUS (R364). Returns the recorder page words. -/
  | recStatus (p : Packet)
  /-- REC_MARK (R365). Records a host annotation. -/
  | recMark (p : Packet)
  /-- REPEAT_FLUSH (R365). At each whole second in which REPEAT changed, REPEAT and CHAIN_MAC are written to eMRAM. -/
  | repeatFlush
  /-- OP_TIME_SAVE (R362). When OP_TIME reaches a multiple of 16 s, operating time and power cycles are saved to eMRAM. -/
  | opTimeSave
  /-- REC_SATURATED_WRITE (R365). Writing 1 clears the recorder's SATURATED flag. -/
  | recSaturatedWrite (v : Word)
  /-- KEY_PROVISION (R382). Unwraps a key into a slot under a wrapping slot. -/
  | keyProvision (p : Packet)
  /-- KEY_DERIVE (R383). Derives a child key from a DERIVE parent and returns its KCV. -/
  | keyDerive (p : Packet)
  /-- KEY_STATUS (R378). Returns a slot's attributes, counters and KCV. -/
  | keyStatus (p : Packet)
  /-- KEY_CHALLENGE (R385). Returns an HMAC response to a challenge under a CHALLENGE slot. -/
  | keyChallenge (p : Packet)
  /-- KEY_ERASE (R380). Erases a slot and every slot derived from it. -/
  | keyErase (p : Packet)
  /-- TAMPER_ZEROISE (R377). A tamper source zeroes the root secret, latches its cause, clears working keys and generates a new root. -/
  | tamperZeroise (source : BitVec 3)
  /-- PWR_STATUS (R390). Returns the power page words. -/
  | pwrStatus (p : Packet)
  /-- LOWPOWER_SET_RUN (R408). LOWPOWER_SET RUN leaves QUIESCE and resumes the engines. -/
  | lowpowerSetRun (p : Packet)
  /-- LOWPOWER_SET_QUIESCE (R408). LOWPOWER_SET QUIESCE parks every engine while frames are STOPPED. -/
  | lowpowerSetQuiesce (p : Packet)
  /-- LOWPOWER_SET_KEEP (R408). LOWPOWER_SET KEEP drains the journal, sets the KEEP flag and wake mask and powers down every rail. -/
  | lowpowerSetKeep (p : Packet)
  /-- RAIL_CONFIG (R393). Stores a new rail table, PMBus settings and feed warning level. -/
  | railConfig (p : Packet)
  /-- FEED_LOW_WARN (R387). A feed stays below FEED_WARN for 10 ms, or recovers for 100 ms. -/
  | feedLowWarn (die : Fin 4) (b : Bool) (low : Bool) (mv : Nat)
  /-- FEED_OVERVOLTAGE (R387). A feed stays above 33 V for 1 ms, or passes 36 V and its ideal diode opens. -/
  | feedOvervoltage (die : Fin 4) (b : Bool) (opened : Bool) (mv : Nat)
  /-- FEED_LOSS (R387). Both feeds of a die stay below 16 V for 1 ms while another die keeps its feed; the die sets power-fail states and disarms. -/
  | feedLoss (die : Fin 4) (aMv : Nat) (bMv : Nat)
  /-- FEED_RETURN (R387). A feed stays above 18 V for 100 ms; the die turns outputs off and stays DISARMED. -/
  | feedReturn (die : Fin 4) (b : Bool) (mv : Nat)
  /-- FEED_RESET (R388). Both nodes of a field die fall below 9 V and it enters a FIELD reset with cause FEED. -/
  | feedReset (die : Fin 4)
  /-- HUB_MUX_SWITCH (R391). The hub core mux switches between VDD_HA and VDD_HB, or both fall below 0.78 V and a POR follows. -/
  | hubMuxSwitch (vhaMv : Nat) (vhbMv : Nat)
  /-- SAVE_SUPPLY_START (R392). Every field die's output node is below 16 V and the bootstrap save supply takes over the hub. -/
  | saveSupplyStart
  /-- RAIL_STEP (R394). The sequencer configures and enables the rails of one step after its delay. -/
  | railStep (pg : BitVec 6)
  /-- RAIL_PG_TIMEOUT (R394). A rail's RAIL_PG does not assert within PG_TO_MS and the rail or the whole sequence is shut down. -/
  | railPgTimeout (r : Fin 6)
  /-- RAIL_SEQUENCE_RETRY (R394). 1 s after a failed sequence the sequencer retries, at most three times. -/
  | railSequenceRetry
  /-- RAIL_PG_LOSS (R395). RAIL_PG deasserts in service; a control-die rail is a hard fault, a hub rail switches the mux, others cause POR. -/
  | railPgLoss (r : Fin 6)
  /-- RAIL_PG_RETURN (R299). A standby's rail returns and the die enters COLD. -/
  | railPgReturn (r : Fin 6)
  /-- PMBUS_TELEMETRY (R395). Every 100 ms the hub reads READ_VOUT and READ_IOUT of every PMBus rail. -/
  | pmbusTelemetry (reads : List (Option (Nat × Nat)))
  /-- PMBUS_GAIN_ADJUST (R395). Every 10 s the hub trims each rail's power monitor gain towards the PMBus reading. -/
  | pmbusGainAdjust (target : List Int)
  /-- PMBUS_ALERT (R395). PM_ALERT_N falls; the hub reads STATUS_WORD of each rail and clears faults. -/
  | pmbusAlert (status : List (Option (BitVec 16)))
  /-- POWER_ON_RESET (R400). A POR returns classes K, D, L and F to default and runs the start-up sequence. -/
  | powerOnReset (cause : ResetCauseCode)
  /-- HUB_RESET_RELEASE (R396). The hub leaves reset with its PLL locked, verifies firmware, raises pending backup happenings and accepts packets. -/
  | hubResetRelease
  /-- ACTIVE_DIE_BIST_DONE (R397). The first die's start-up BIST passes; it restores configuration and checkpoint for a warm start and becomes ACTIVE. -/
  | activeDieBistDone (die : Fin 2) (pass : Bool)
  /-- NO_ACTIVE_WAIT_EXPIRY (R399). 2.5 s pass with no ACTIVE die and waiting control-die packets complete with ST_WRONG_STATE. -/
  | noActiveWaitExpiry
  /-- RESET_N_LOW (R425). RESET_N stays low for 100 CK_MAIN cycles after filtering and a DEVICE reset follows. -/
  | resetNLow
  /-- RESET_N_RISE (R425). RESET_N rises, BOOT_MODE is sampled and the hub leaves reset. -/
  | resetNRise (bootMode : BitVec 2)
  /-- HUB_WATCHDOG_EXPIRY (R400). The hub management core's 100 ms watchdog expires, or its lockstep mismatches, causing a DEVICE reset. -/
  | hubWatchdogExpiry (lockstep : Bool)
  /-- DIE_THERMAL_TRIP (R403). A die sensor reaches 120 °C and the hub, field die or control die takes its thermal action. -/
  | dieThermalTrip (d : Fin 7)
  /-- THERMAL_RECOVER (R403). The hottest sensor of a tripped hub or field die falls below 105 °C and it starts up or leaves reset. -/
  | thermalRecover (d : Fin 7)
  /-- LAST_BREATH_CONFIRM (R409). Every output node has been below 16 V for 1 ms on the save supply; control dies stop and outputs go to power-fail states. -/
  | lastBreathConfirm
  /-- LAST_BREATH_DONE (R409). The save's journal writes end; the completion marker is written and every rail shuts down. -/
  | lastBreathDone
  /-- KEEP_WAKE (R408). A wake source of the mask or RESET_N falling starts up the device from KEEP with a POR. -/
  | keepWake (source : Option (Fin 5))
  /-- SELFTEST_RUN (R416). Starts a self-test run over a range of slices of a die. -/
  | selftestRun (p : Packet)
  /-- SELFTEST_RESULT (R415). Returns slice result entries. -/
  | selftestResult (p : Packet)
  /-- SELFTEST_SLICE_END (R417). A slice of a run ends and is recorded; after the last slice the run completes and replies. -/
  | selftestSliceEnd (sig : BitVec 64)
  /-- QMON_LEVEL_READ (R7). A read of HUB_QMON_LEVEL or CTL_QMON_LEVEL returns HIGH_WATER and clears it. -/
  | qmonLevelRead (ctl : Bool)
  /-- FREE_LOW_READ (R7). A read of FREE_LOW returns the lowest free-slot count and clears it. -/
  | freeLowRead
  /-- MIN_SLACK_READ (R7). A read of MIN_SLACK returns the least loop slack and clears it. -/
  | minSlackRead
  /-- MAX_GLIDE_US_READ (R7). A read of MAX_GLIDE_US returns the longest Glide and clears it. -/
  | maxGlideUsRead
  /-- RESID_MAX_NS_READ (R7). A read of RESID_MAX_NS returns the largest residence time and clears it. -/
  | residMaxNsRead (port : Fin 3)
  /-- REGISTER_WRITE (R7). A write to a register without a row of its own sets RW fields, clears W1C bits or triggers WO actions. -/
  | registerWrite (addr : Word) (v : Word)
  /-- DIAG_READ (R62). Reads a range of diagnostic-page words. -/
  | diagRead (p : Packet)
  /-- DIAG_WRITE (R62). Writes a range of diagnostic-page words. -/
  | diagWrite (p : Packet)
  /-- DIAG_MODIFY (R62). Atomically modifies one diagnostic word under a mask and returns its old value. -/
  | diagModify (p : Packet)
  /-- OPEN_LOAD_CLEAR (R260). The current of a channel with OPEN_LOAD set rises to 2 mA or more, OPEN_LOAD clears and FLD_DCH_FAULT is raised again. -/
  | openLoadClear (die : Fin 4) (c : Fin 24)
  /-- FEED_OVERVOLTAGE_CLEAR (R387). A feed whose ideal diode was opened above 36 V falls below 33 V and the diode closes again. -/
  | feedOvervoltageClear (die : Fin 4) (b : Bool) (mv : Nat)
  /-- SAVE_SUPPLY_RELEASE (R392). A feed returns above 16 V before last breath is confirmed and the save supply stops carrying the hub, which returns to its rails. -/
  | saveSupplyRelease
  /-- BIT_AND_WORD_LOCK (R162). A Jalow receiver gains bit and word lock on a signal and the port moves from NO_SIGNAL or TRAINING to HELLO. -/
  | bitAndWordLock (port : Fin 4)
  /-- COLD_SYNC_COMPLETE (R292). A COLD standby whose BIST has passed finishes verifying the firmware image, the configuration store CRC and one complete CHECKPOINT and enters COLD_SYNCED. -/
  | coldSyncComplete (die : Fin 2)
  /-- OUTPUT_DISCARD_REPORT (R173). A field die's STATUS report of an output discarded as too late reaches the loop engine, which counts an APPLY overrun and raises LOOP_OVERRUN. -/
  | outputDiscardReport (die : Fin 4)
  /-- ARP_REQUEST (R56). An ARP request for the device's own IPv4 address arrives on an Ethernet port and the device answers it. -/
  | arpRequest (port : Fin 3) (target : BitVec 32) (sender : BitVec 32) (senderMac : BitVec 48)
  /-- ICMP_ECHO_REQUEST (R56). An ICMP echo request for the device's own IPv4 address arrives and the device answers it. -/
  | icmpEchoRequest (port : Fin 3) (target : BitVec 32) (sender : BitVec 32) (payload : List Byte)
  /-- TCK_EDGE (R433). A TCK edge advances the JTAG TAP with TMS and TDI, loading instructions such as IDCODE, EXTEST, HIGHZ or CLAMP subject to the RESET_N interlock. -/
  | tckEdge (rising : Bool) (tms : Bool) (tdi : Bool) (trstN : Bool)
  deriving DecidableEq, Repr

end Sys2Proof
end

