-- ==== Sys2Proof/WellFormed.lean ====
section
/-! DEFINITION. Which commands are well formed: operands within the widths and bounds the spec gives what they stand for. -/

namespace Sys2Proof

open Sys2Proof.Machine

/-- A packet whose host fields fit their tables (Tables 02-12, 02-17) and that no transport frames longer than 4,096 words (R35). -/
def Machine.Packet.wf (p : Packet) : Bool :=
  decide (p.port < 4) && decide (p.srcPort < 2 ^ 16) && decide (p.rplAddr < 2 ^ 64) && decide (p.rplCap < 2 ^ 16) &&
  decide (p.framedWords < 2 ^ 16) && decide (p.words.length ≤ 4096)

/-- A Jalow frame whose fields fit Table 07-2. -/
def Machine.JlFrame.wf (f : JlFrame) : Bool :=
  decide (f.credits < 64) && decide (f.relayFree < 256) && decide (f.payload.length ≤ 64)

/-- A CAN frame whose fields fit Table 16-5. -/
def Machine.CanFrame.wf (f : CanFrame) : Bool :=
  decide (f.id < 2 ^ 29) && (f.ide || decide (f.id < 2 ^ 11)) && decide (f.dlc < 16) && decide (f.data.length ≤ 64)

/-- A COORD_UP message whose fields fit Table 07-5. -/
def Machine.UpMsg.wf (m : UpMsg) : Bool :=
  decide (m.frame < 2 ^ 32) && decide (m.round < 2 ^ 16) && decide (m.entries.length ≤ 4096) &&
  m.entries.all (fun e => decide (e.id < 2 ^ 16) && decide (e.h < 2 ^ 8) && decide (e.stepS < 2 ^ 16) && decide (e.sums.length = e.h))

/-- A COORD_DOWN message whose fields fit Table 07-6. -/
def Machine.DownMsg.wf (m : DownMsg) : Bool :=
  decide (m.frame < 2 ^ 32) && decide (m.round < 2 ^ 16) && decide (m.cap < 2 ^ 9) && decide (m.waitUs < 2 ^ 16) &&
  decide (m.wait0Ms < 2 ^ 16) && decide (m.freezeFrames < 2 ^ 8) && m.entries.all (fun e => decide (e.id < 2 ^ 16))

/-- The well-formed commands. -/
def Instr.wf : Instr → Bool
  | .linkTransferError _ => true
  | .linkReplayExhausted _ => true
  | .linkRetrain _ _ => true
  | .hubPllLoss => true
  | .ctlPllLoss _ => true
  | .fldPllLoss _ => true
  | .fldPllRelock _ => true
  | .creditReturn kind inst => decide (kind < 256) && decide (inst < 256)
  | .sampleArrival _ => true
  | .eventRoute => true
  | .evrQueueDrain => true
  | .frameBoundary => true
  | .generationCommit => true
  | .pisteResume _ => true
  | .jobIssue _ => true
  | .jobEnd _ j cycles => decide (j < 64) && decide (cycles < 2 ^ 40)
  | .seMemoryEcc _ _ => true
  | .engineDrained _ => true
  | .coordStep => true
  | .reportDeadline => true
  | .workerDrop _ => true
  | .coordUpReceive _ m => m.wf
  | .coordDownReceive m => m.wf
  | .frameDeadline => true
  | .frameCheckpoint => true
  | .stoppedCheckpoint => true
  | .hubSqTailWrite _ fetched => fetched.all (fun x => x.pkt.wf) && decide (fetched.length ≤ 256)
  | .hubCqHeadWrite _ => true
  | .hubHostCtlWrite _ => true
  | .hubHostErrWrite _ => true
  | .cqIrqTimeout => true
  | .pcieLinkReset _ => true
  | .readStatus => true
  | .writePacket p _ => p.wf
  | .writePacketQ p _ => p.wf
  | .readReply => true
  | .readReplyQ => true
  | .ackReply _ _ => true
  | .ethCmdDatagram _ p => p.wf
  | .jalowRelayReceive m => decide (m.length ≤ 65536)
  | .jalowReplyReceive _ m => decide (m.length ≤ 65536)
  | .relayTimeout _ => true
  | .nop p => p.wf
  | .devIdent p => p.wf
  | .deviceReset p => p.wf
  | .dieReset p => p.wf
  | .fieldReset p => p.wf
  | .resetCause p => p.wf
  | .fwStage p => p.wf
  | .fwActivate p => p.wf
  | .frameSet p => p.wf
  | .frameStop p => p.wf
  | .frameStatus p => p.wf
  | .hostConfig p => p.wf
  | .hostStatus p => p.wf
  | .ethIfConfig p => p.wf
  | .pointRead p => p.wf
  | .pointWrite p => p.wf
  | .pointBlockWrite p => p.wf
  | .pointBlockRead p => p.wf
  | .snapshotAt p => p.wf
  | .snapshotRead p => p.wf
  | .snapshotStatus p => p.wf
  | .pframeConfig p => p.wf
  | .pointFrameReceive _ _ dg => decide (dg.length ≤ 65536)
  | .pointEccError id => decide (id < 2 ^ 20)
  | .waitingWriteLand => true
  | .requestedCapture => true
  | .atSnapshotRelease => true
  | .modelLoad p => p.wf
  | .modelCommit p => p.wf
  | .modelStatus p => p.wf
  | .partitionSet p => p.wf
  | .substSet p => p.wf
  | .modelImageLoad => true
  | .jobSubmit p => p.wf
  | .jobResult p => p.wf
  | .jobCancel p => p.wf
  | .memAlloc p => p.wf
  | .memFree p => p.wf
  | .memWrite p => p.wf
  | .memRead p => p.wf
  | .solverConfig p => p.wf
  | .solverStatus p => p.wf
  | .coordConfigSettings p => p.wf
  | .coordConfigScope p => p.wf
  | .coordStatus p => p.wf
  | .jlPortConfig p => p.wf
  | .jlStatus p => p.wf
  | .relay p => p.wf
  | .jlHelloTimer _ => true
  | .jlHelloReceive _ m => decide (m.length ≤ 65536)
  | .jlRetryTimer _ => true
  | .jlFrameReceive _ f => f.wf
  | .jlNakReceive _ _ => true
  | .jlAckTimeout _ => true
  | .jlIdleTimer _ => true
  | .jlLinkLoss _ _ => true
  | .jlPointsReceive _ m => decide (m.length ≤ 65536)
  | .jlEventReceive _ m => decide (m.length ≤ 65536)
  | .loopConfig p => p.wf
  | .loopSectionSet p => p.wf
  | .loopMode p => p.wf
  | .loopStatus p => p.wf
  | .overrideConfig p => p.wf
  | .loopTick _ => true
  | .loopComputeDeadline _ => true
  | .loopStaleLimit _ => true
  | .numericManual _ => true
  | .outputApply => true
  | .supervConfig p => p.wf
  | .supervAck p => p.wf
  | .supervRestartModel p => p.wf
  | .supervStatus p => p.wf
  | .supervEvaluation _ => true
  | .supervPersistReached _ => true
  | .supervQuietReached _ => true
  | .mogulConfig p => p.wf
  | .mogulPageRead p => p.wf
  | .traceConfig p => p.wf
  | .traceArm p => p.wf
  | .traceDisarm p => p.wf
  | .traceRead p => p.wf
  | .traceComplete _ => true
  | .slalomEvaluation => true
  | .capUnmetTimer => true
  | .holdupOkTimer => true
  | .powerSample mw => decide (mw < 2 ^ 20)
  | .tempSensorRead _ => true
  | .clampReport _ => true
  | .holdoutRead _ mv => decide (mv < 2 ^ 16)
  | .holdupCapTest _ => true
  | .holdupCapTestEnd _ mv => decide (mv < 2 ^ 16)
  | .pwrCapSet p => p.wf
  | .budgetConfig p => p.wf
  | .budgetStatus p => p.wf
  | .journalAdmit => true
  | .journalWaitTimeout => true
  | .emramWriteDone => true
  | .achConfig p => p.wf
  | .seqWrite p => p.wf
  | .seqStart p => p.wf
  | .seqStop p => p.wf
  | .seqResult p => p.wf
  | .calChannelTrim p => p.wf
  | .calNtc p => p.wf
  | .calAoTrim p => p.wf
  | .calHbManual p => p.wf
  | .calHbAuto p => p.wf
  | .calUserDefaults p => p.wf
  | .testdacSet p => p.wf
  | .seqCycleStart _ => true
  | .entryResult _ _ _ => true
  | .sampleSend _ => true
  | .aoFaultDetect _ _ _ => true
  | .aoFaultClear _ _ _ => true
  | .seqAutostart _ => true
  | .dchConfig p => p.wf
  | .dchStatus p => p.wf
  | .armOutputs p => p.wf
  | .outputSet p => p.wf
  | .safeConfig p => p.wf
  | .counterRead p => p.wf
  | .diEdgeAccept _ _ => true
  | .diPointRefresh _ _ => true
  | .diLoopSample _ _ => true
  | .wireBreakDeclare _ _ => true
  | .wireBreakClear _ _ => true
  | .countAccumulate => true
  | .outputFoldback _ _ => true
  | .outputRetry _ _ _ => true
  | .outputOvertemp _ _ => true
  | .openLoadDetect _ _ => true
  | .shortToSupplyDetect _ _ => true
  | .shortToSupplyClear _ _ => true
  | .externalDriveDetect _ _ => true
  | .externalDriveClear _ _ => true
  | .pwmPeriodStart _ _ => true
  | .clampEventStart _ _ => true
  | .clampEventEnd _ _ uj => decide (uj < 2 ^ 24)
  | .cycleHoldRelease _ _ => true
  | .armTakeEffect _ => true
  | .refreshSend => true
  | .refreshReceive _ => true
  | .snowploughTimeout _ => true
  | .snowploughResume _ => true
  | .fieldResetTakeHold _ => true
  | .fieldResetRelease _ => true
  | .fieldDieConfigured _ => true
  | .heartbeatSend => true
  | .heartbeatReceive _ => true
  | .heartbeatLate => true
  | .heartbeatTimeout => true
  | .hardFaultLine _ _ => true
  | .arbiterDisagreement => true
  | .stateRestoreDone => true
  | .releaseInstant => true
  | .loopStream => true
  | .streamLate => true
  | .recoveryStart _ => true
  | .recoveryBistDone _ _ => true
  | .standbySliceEnd _ => true
  | .swapPrepare => true
  | .swapHandover => true
  | .twinStatus p => p.wf
  | .swap p => p.wf
  | .swapCancel p => p.wf
  | .twinConfig p => p.wf
  | .twinRecover p => p.wf
  | .healthReport p => p.wf
  | .timeRead p => p.wf
  | .timeAdjustOffset p => p.wf
  | .timeAdjustStep p => p.wf
  | .timeAdjustSet p => p.wf
  | .timeAdjustFreq p => p.wf
  | .ptpConfig p => p.wf
  | .ptpStatus p => p.wf
  | .servoConfig p => p.wf
  | .ptpMessageReceive _ m => decide (m.length ≤ 9216)
  | .ptpTransmitTimer _ _ => true
  | .announceReceiptTimeout _ => true
  | .followupTimeout _ => true
  | .servoSample _ => true
  | .servoHoldover => true
  | .timeChangeApply => true
  | .timeLoRead => true
  | .rawLoRead => true
  | .readRtc p => p.wf
  | .writeRtcNextEdge p => p.wf
  | .writeRtcAtTime p => p.wf
  | .rtcTrimSet p => p.wf
  | .rtcSyncConfig p => p.wf
  | .rtcAlarmSet p => p.wf
  | .rtcAlarmCancel p => p.wf
  | .evinConfig p => p.wf
  | .evinRead p => p.wf
  | .rtcSecLoRead => true
  | .rtcFlagsWrite _ => true
  | .evinStatusWrite _ _ => true
  | .rtcLoad => true
  | .alarmMatch => true
  | .rtcSyncMeasure => true
  | .backupSupplySwitch _ => true
  | .vbatMeasure mv => decide (mv < 2 ^ 16)
  | .backupLoss => true
  | .evinEdgeAccept _ _ => true
  | .evinTamperEdge _ _ => true
  | .canConfig p => p.wf
  | .canFilter p => p.wf
  | .canSend p => p.wf
  | .canReceive p => p.wf
  | .canStatus p => p.wf
  | .canTimeConfig p => p.wf
  | .canMap p => p.wf
  | .canRecoverBus p => p.wf
  | .canRecoverBuffer p => p.wf
  | .canFrameReceived _ f sof => f.wf && decide (sof < 2 ^ 64)
  | .canTxComplete _ _ sof => decide (sof < 2 ^ 64)
  | .canBusError _ _ _ _ => true
  | .canClashLimit _ _ => true
  | .canBusoffRecovered _ => true
  | .canRefCycle _ => true
  | .canRefLateTimeout _ => true
  | .canSilenceTimeout _ => true
  | .canMapTimeoutCheck => true
  | .recRead p => p.wf
  | .recStatus p => p.wf
  | .recMark p => p.wf
  | .repeatFlush => true
  | .opTimeSave => true
  | .recSaturatedWrite _ => true
  | .keyProvision p => p.wf
  | .keyDerive p => p.wf
  | .keyStatus p => p.wf
  | .keyChallenge p => p.wf
  | .keyErase p => p.wf
  | .tamperZeroise _ => true
  | .pwrStatus p => p.wf
  | .lowpowerSetRun p => p.wf
  | .lowpowerSetQuiesce p => p.wf
  | .lowpowerSetKeep p => p.wf
  | .railConfig p => p.wf
  | .feedLowWarn _ _ _ mv => decide (mv < 2 ^ 16)
  | .feedOvervoltage _ _ _ mv => decide (mv < 2 ^ 16)
  | .feedLoss _ aMv bMv => decide (aMv < 2 ^ 16) && decide (bMv < 2 ^ 16)
  | .feedReturn _ _ mv => decide (mv < 2 ^ 16)
  | .feedReset _ => true
  | .hubMuxSwitch vhaMv vhbMv => decide (vhaMv < 2 ^ 16) && decide (vhbMv < 2 ^ 16)
  | .saveSupplyStart => true
  | .railStep _ => true
  | .railPgTimeout _ => true
  | .railSequenceRetry => true
  | .railPgLoss _ => true
  | .railPgReturn _ => true
  | .pmbusTelemetry _ => true
  | .pmbusGainAdjust _ => true
  | .pmbusAlert _ => true
  | .powerOnReset _ => true
  | .hubResetRelease => true
  | .activeDieBistDone _ _ => true
  | .noActiveWaitExpiry => true
  | .resetNLow => true
  | .resetNRise _ => true
  | .hubWatchdogExpiry _ => true
  | .dieThermalTrip _ => true
  | .thermalRecover _ => true
  | .lastBreathConfirm => true
  | .lastBreathDone => true
  | .keepWake _ => true
  | .selftestRun p => p.wf
  | .selftestResult p => p.wf
  | .selftestSliceEnd _ => true
  | .qmonLevelRead _ => true
  | .freeLowRead => true
  | .minSlackRead => true
  | .maxGlideUsRead => true
  | .residMaxNsRead _ => true
  | .registerWrite _ _ => true
  | .diagRead p => p.wf
  | .diagWrite p => p.wf
  | .diagModify p => p.wf
  | .openLoadClear _ _ => true
  | .feedOvervoltageClear _ _ mv => decide (mv < 2 ^ 16)
  | .saveSupplyRelease => true
  | .bitAndWordLock _ => true
  | .coldSyncComplete _ => true
  | .outputDiscardReport _ => true
  | .arpRequest _ _ _ _ => true
  | .icmpEchoRequest _ _ _ payload => decide (payload.length ≤ 9216)
  | .tckEdge _ _ _ _ => true

end Sys2Proof
end

