-- ==== Sys2Proof/Decode.lean ====
section
/-! DEFINITION. Decoding by the table's bits. spec/opcode_table.json gives bits for no row (98_reader.md: n_rows_with_fixed 0,
n_rows_with_fields 0), so no word spells a command: a packet's opcode stands in its header and is read by the command interpreter. -/

namespace Sys2Proof

/-- The command a word spells by the bits of the opcode table: none, since the table gives no row any bits. -/
def decodeTableWord (_nbits _w : Nat) : Option Instr := none

end Sys2Proof
end

