-- ==== Sys2Proof/Machine/Bits.lean ====
section
/-! DEFINITION. Bit fields, byte order, signed readings and saturating counts, each written once. -/

namespace Sys2Proof.Bits

/-- Field [hi:lo] of a word, as a number. -/
def fld (w : Word) (hi lo : Nat) : Nat := (w.toNat >>> lo) % 2 ^ (hi + 1 - lo)

/-- Bit `i` of a word. -/
def bit (w : Word) (i : Nat) : Bool := (w.toNat >>> i) % 2 = 1

/-- A number's word, the bits above 31 dropped. -/
def w32 (n : Nat) : Word := BitVec.ofNat 32 n

/-- A word whose low 32 bits are those of the integer in two's complement. -/
def wInt (i : Int) : Word := BitVec.ofInt 32 i

/-- A truth value as a bit. -/
def b1 (b : Bool) : Nat := if b then 1 else 0

/-- A word built from fields: each pair is a value and the bit it starts at. -/
def pack (fs : List (Nat × Nat)) : Word := w32 (fs.foldl (fun acc f => acc + f.1 * 2 ^ f.2) 0)

/-- The two's complement reading of an `n`-bit number. -/
def sgn (n v : Nat) : Int := if v % 2 ^ n < 2 ^ (n - 1) then (v % 2 ^ n : Nat) else (v % 2 ^ n : Nat) - (2 ^ n : Nat)

/-- The `n`-bit two's complement of an integer. -/
def usgn (n : Nat) (i : Int) : Nat := (i % (2 ^ n : Nat)).toNat

/-- The bits of a word outside `mask` that the field table leaves reserved (R6). -/
def resv (w : Word) (mask : Nat) : Bool := w.toNat &&& (0xFFFFFFFF - mask) ≠ 0

/-- The four bytes of a word, least significant first (R5). -/
def bytesOf (w : Word) : List Byte :=
  [BitVec.ofNat 8 w.toNat, BitVec.ofNat 8 (w.toNat >>> 8), BitVec.ofNat 8 (w.toNat >>> 16), BitVec.ofNat 8 (w.toNat >>> 24)]

/-- The bytes of a list of words in order. -/
def bytesAll (ws : List Word) : List Byte := ws.flatMap bytesOf

/-- The number that little-endian bytes spell. -/
def natLE : List Byte → Nat
  | [] => 0
  | b :: bs => b.toNat + 256 * natLE bs

/-- The number that big-endian bytes spell. -/
def natBE (bs : List Byte) : Nat := bs.foldl (fun acc b => acc * 256 + b.toNat) 0

/-- The `n` little-endian bytes of a number. -/
def leBytes : Nat → Nat → List Byte
  | 0, _ => []
  | n + 1, v => BitVec.ofNat 8 v :: leBytes n (v / 256)

/-- The `n` big-endian bytes of a number. -/
def beBytes (n v : Nat) : List Byte := (leBytes n v).reverse

/-- The words that bytes spell, four at a time, the last one filled with zeros. -/
def wordsOf : List Byte → List Word
  | [] => []
  | a :: b :: c :: d :: t => w32 (natLE [a, b, c, d]) :: wordsOf t
  | [a] => [w32 (natLE [a])]
  | [a, b] => [w32 (natLE [a, b])]
  | [a, b, c] => [w32 (natLE [a, b, c])]

/-- Word `i` of a list, zero past its end. -/
def nth (ws : List Word) (i : Nat) : Word := ws.getD i 0

/-- The integer nearest below `i` within `lo` to `hi`. -/
def clampInt (lo hi i : Int) : Int := if i < lo then lo else if hi < i then hi else i

/-- A number saturated at the largest `n`-bit value. -/
def satN (n v : Nat) : Nat := if v < 2 ^ n then v else 2 ^ n - 1

/-- An integer saturated to `n` bits of two's complement. -/
def satI (n : Nat) (v : Int) : Int := clampInt (-(2 ^ (n - 1) : Nat)) ((2 ^ (n - 1) : Nat) - 1) v

/-- An integer rounded to the nearest multiple of `d`, divided by `d`, ties to even. -/
def divRoundEven (a : Int) (d : Nat) : Int :=
  let q := a / d
  let r := a - q * d
  if 2 * r < d then q else if (d : Int) < 2 * r then q + 1 else if q % 2 = 0 then q else q + 1

/-- Replaces entry `i` of a list. -/
def setAt {α : Type} : List α → Nat → α → List α
  | [], _, _ => []
  | _ :: t, 0, v => v :: t
  | x :: t, i + 1, v => x :: setAt t i v

/-- The bits of a set of small numbers, as a mask. -/
def maskOf (l : List Nat) : Nat := l.foldl (fun acc i => acc ||| 2 ^ i) 0

/-- The positions below `n` at which the mask has a 1. -/
def bitsOf (mask n : Nat) : List Nat := (List.range n).filter (fun i => (mask >>> i) % 2 = 1)

end Sys2Proof.Bits
end

