-- ==== Sys2Proof/Machine/Float.lean ====
section
/-! DEFINITION. IEEE 754-2019 binary32 and binary64 arithmetic on bit patterns (R98, R145, R176): exact in the integers, rounded once to
nearest with ties to even, subnormals kept. -/

namespace Sys2Proof.Float

open Sys2Proof.Bits

/-- A binary format: exponent bits and fraction bits. -/
structure Fmt where
  /-- Exponent bits. -/
  eb : Nat
  /-- Fraction bits. -/
  mb : Nat
  deriving DecidableEq, Repr

/-- binary32. -/
def b32 : Fmt := ⟨8, 23⟩
/-- binary64. -/
def b64 : Fmt := ⟨11, 52⟩

/-- The sign bit is 1. -/
def Fmt.neg? (f : Fmt) (w : Nat) : Bool := decide (w / 2 ^ (f.eb + f.mb) % 2 = 1)
/-- The pattern without its sign. -/
def Fmt.mag (f : Fmt) (w : Nat) : Nat := w % 2 ^ (f.eb + f.mb)
/-- The magnitude pattern of infinity. -/
def Fmt.infMag (f : Fmt) : Nat := (2 ^ f.eb - 1) * 2 ^ f.mb
/-- A magnitude under a sign. -/
def Fmt.put (f : Fmt) (neg : Bool) (m : Nat) : Nat := if neg then 2 ^ (f.eb + f.mb) + m else m
/-- The quiet NaN. -/
def Fmt.nan (f : Fmt) : Nat := f.infMag + 2 ^ (f.mb - 1)
/-- A NaN. -/
def Fmt.isNan (f : Fmt) (w : Nat) : Bool := decide (f.infMag < f.mag w)
/-- An infinity. -/
def Fmt.isInf (f : Fmt) (w : Nat) : Bool := decide (f.mag w = f.infMag)
/-- Neither a NaN nor an infinity. -/
def Fmt.finite (f : Fmt) (w : Nat) : Bool := decide (f.mag w < f.infMag)
/-- A zero of either sign. -/
def Fmt.isZero (f : Fmt) (w : Nat) : Bool := decide (f.mag w = 0)
/-- Exponent of the least bit of a subnormal, less an offset: magnitudes are multiples of 2^(-k). -/
def Fmt.k (f : Fmt) : Nat := 2 ^ (f.eb - 1) - 2 + f.mb

/-- A finite magnitude as an exact multiple of 2^(-k). -/
def Fmt.units (f : Fmt) (m : Nat) : Nat :=
  let e := m / 2 ^ f.mb
  if e = 0 then m else (2 ^ f.mb + m % 2 ^ f.mb) * 2 ^ (e - 1)

/-- A finite value as a signed multiple of 2^(-k). -/
def Fmt.val (f : Fmt) (w : Nat) : Int := if f.neg? w then -(f.units (f.mag w) : Int) else f.units (f.mag w)

/-- `n / d` to the nearest natural number, ties to even. -/
def rne (n d : Nat) : Nat :=
  let q := n / d
  let r := 2 * (n % d)
  if r < d then q else if d < r then q + 1 else if q % 2 = 0 then q else q + 1

/-- The magnitude pattern nearest to `n / d` units of 2^(-k) (d positive): rounded once, infinity beyond the largest finite value. -/
def Fmt.rnd (f : Fmt) (n d : Nat) : Nat :=
  if n = 0 then 0
  else
    let q := n / d
    let e := if q < 2 ^ (f.mb + 1) then 0 else q.log2 - f.mb
    let m := rne n (d * 2 ^ e)
    min f.infMag (e * 2 ^ f.mb + m)

/-- Rounds a signed rational of units, a zero taking the sign given. -/
def Fmt.ofQ (f : Fmt) (zneg : Bool) (n : Int) (d : Nat) : Nat :=
  let neg := if n = 0 then zneg else decide (n < 0)
  f.put neg (f.rnd n.natAbs d)

/-- Negation. -/
def Fmt.negate (f : Fmt) (a : Nat) : Nat := f.put (!f.neg? a) (f.mag a)
/-- Absolute value. -/
def Fmt.abs (f : Fmt) (a : Nat) : Nat := f.mag a

/-- Sum. -/
def Fmt.add (f : Fmt) (a b : Nat) : Nat :=
  if f.isNan a || f.isNan b then f.nan
  else if f.isInf a then (if f.isInf b && f.neg? a != f.neg? b then f.nan else a)
  else if f.isInf b then b
  else f.ofQ (f.neg? a && f.neg? b) (f.val a + f.val b) 1

/-- Difference. -/
def Fmt.sub (f : Fmt) (a b : Nat) : Nat := f.add a (f.negate b)

/-- Product. -/
def Fmt.mul (f : Fmt) (a b : Nat) : Nat :=
  let s := f.neg? a != f.neg? b
  if f.isNan a || f.isNan b then f.nan
  else if f.isInf a || f.isInf b then (if f.isZero a || f.isZero b then f.nan else f.put s f.infMag)
  else f.ofQ s (f.val a * f.val b) (2 ^ f.k)

/-- Quotient. -/
def Fmt.div (f : Fmt) (a b : Nat) : Nat :=
  let s := f.neg? a != f.neg? b
  if f.isNan a || f.isNan b || (f.isInf a && f.isInf b) || (f.isZero a && f.isZero b) then f.nan
  else if f.isInf a || f.isZero b then f.put s f.infMag
  else if f.isInf b then f.put s 0
  else f.put s (f.rnd ((f.val a).natAbs * 2 ^ f.k) (f.val b).natAbs)

/-- Fused multiply-add: a·b + c, rounded once. -/
def Fmt.fma (f : Fmt) (a b c : Nat) : Nat :=
  let s := f.neg? a != f.neg? b
  if f.finite a && f.finite b && f.finite c then
    f.ofQ (s && f.neg? c) (f.val a * f.val b + f.val c * (2 ^ f.k : Nat)) (2 ^ f.k)
  else f.add (f.mul a b) c

/-- Square root: the exact root of a perfect square, else rounded from a root of ample precision and a sticky bit. -/
def Fmt.sqrt (f : Fmt) (a : Nat) : Nat :=
  if f.isNan a || (f.neg? a && !f.isZero a) then f.nan
  else if f.isZero a || f.isInf a then a
  else
    let n := f.units (f.mag a) * 2 ^ f.k * 2 ^ (2 * (f.mb + 4))
    let r := isqrt (2 * (n.log2 + 2)) n (2 ^ (n.log2 / 2 + 1))
    let m := 2 * r + (if r * r = n then 0 else 1)
    f.rnd m (2 ^ (f.mb + 5))
where
  /-- Newton's iteration for the integer square root, from above. -/
  isqrt : Nat → Nat → Nat → Nat
    | 0, _, x => x
    | fuel + 1, n, x =>
      let y := (x + n / x) / 2
      if x ≤ y then x else isqrt fuel n y

/-- The order of non-NaN values as integers; the two zeros are one. -/
def Fmt.key (f : Fmt) (a : Nat) : Int := if f.neg? a then -(f.mag a : Int) else f.mag a
/-- a < b, false where either is a NaN. -/
def Fmt.lt (f : Fmt) (a b : Nat) : Bool := !f.isNan a && !f.isNan b && decide (f.key a < f.key b)
/-- a ≤ b, false where either is a NaN. -/
def Fmt.le (f : Fmt) (a b : Nat) : Bool := !f.isNan a && !f.isNan b && decide (f.key a ≤ f.key b)
/-- The larger; the first where equal. -/
def Fmt.max (f : Fmt) (a b : Nat) : Nat := if f.lt a b then b else a
/-- The smaller; the first where equal. -/
def Fmt.min (f : Fmt) (a b : Nat) : Nat := if f.lt b a then b else a
/-- clamp(a, lo, hi): lo, then hi (R177). -/
def Fmt.clamp (f : Fmt) (a lo hi : Nat) : Nat := f.min (f.max a lo) hi

/-- A value of one format rounded to another. -/
def conv (f g : Fmt) (a : Nat) : Nat :=
  if f.isNan a then g.nan
  else if f.isInf a then g.put (f.neg? a) g.infMag
  else g.ofQ (f.neg? a) (f.val a * (2 ^ g.k : Nat)) (2 ^ f.k)

/-- The rational n/d (d positive) rounded to a format. -/
def Fmt.ofRat (f : Fmt) (n : Int) (d : Nat) : Nat := f.ofQ false (n * (2 ^ f.k : Nat)) d

/-- A finite value as a rational: numerator over 2^k. -/
def Fmt.num (f : Fmt) (a : Nat) : Int := f.val a
/-- The denominator that every finite value of the format shares. -/
def Fmt.den (f : Fmt) : Nat := 2 ^ f.k

/-- A value beyond 2^126 (binary32) or 2^1022 (binary64) in magnitude, an infinity or a NaN: out of range (R118, R187). -/
def Fmt.outOfRange (f : Fmt) (a : Nat) : Bool := !f.finite a || decide ((2 ^ f.eb - 3) * 2 ^ f.mb < f.mag a)

/-- The integer nearest to a finite value times `s`, ties to even. -/
def Fmt.toInt (f : Fmt) (a s : Nat) : Int := divRoundEven (f.val a * s) f.den

/-- binary32 sum of words. -/
def add32 (a b : Word) : Word := w32 (b32.add a.toNat b.toNat)
/-- binary32 difference of words. -/
def sub32 (a b : Word) : Word := w32 (b32.sub a.toNat b.toNat)
/-- binary32 product of words. -/
def mul32 (a b : Word) : Word := w32 (b32.mul a.toNat b.toNat)
/-- binary32 quotient of words. -/
def div32 (a b : Word) : Word := w32 (b32.div a.toNat b.toNat)
/-- binary32 a < b. -/
def lt32 (a b : Word) : Bool := b32.lt a.toNat b.toNat
/-- binary32 a ≤ b. -/
def le32 (a b : Word) : Bool := b32.le a.toNat b.toNat
/-- binary32 absolute value. -/
def abs32 (a : Word) : Word := w32 (b32.abs a.toNat)
/-- binary32 negation. -/
def neg32 (a : Word) : Word := w32 (b32.negate a.toNat)
/-- The rational n/d as binary32. -/
def rat32 (n : Int) (d : Nat) : Word := w32 (b32.ofRat n d)
/-- Finite. -/
def fin32 (a : Word) : Bool := b32.finite a.toNat

end Sys2Proof.Float
end

