-- ==== Sys2Proof/Machine/Crypto.lean ====
section
/-! DEFINITION. The integrity and secrecy functions the spec names: CRC-32C (R54, R90), SHA-256 and HMAC-SHA-256 (R42, R368),
HKDF-SHA-256 (R382), AES-256-GCM (R163, R382). -/

namespace Sys2Proof.Crypto

open Sys2Proof.Bits

/-- One bit of the reflected CRC-32C register, polynomial 0x1EDC_6F41. -/
def crcBit (c : Nat) : Nat := if c % 2 = 1 then (c / 2) ^^^ 0x82F63B78 else c / 2

/-- One byte into the CRC register. -/
def crcByte (c : Nat) (b : Byte) : Nat :=
  crcBit (crcBit (crcBit (crcBit (crcBit (crcBit (crcBit (crcBit (c ^^^ b.toNat))))))))

/-- CRC-32C of bytes: initial value and final inversion all ones. -/
def crc32c (bs : List Byte) : Word := w32 (bs.foldl crcByte 0xFFFFFFFF ^^^ 0xFFFFFFFF)

/-- CRC-32C of words in byte order. -/
def crcWords (ws : List Word) : Word := crc32c (bytesAll ws)

/-- Rotation of a word to the right. -/
def rotr (n : Nat) (x : Word) : Word := (x >>> n) ||| (x <<< (32 - n))

/-- The 64 round constants of SHA-256. -/
def shaK (i : Nat) : Word := BitVec.ofNat 32 (0xc67178f2bef9a3f7a4506ceb90befffa8cc7020884c8781478a5636f748f82ee682e6ff35b9cca4f4ed8aa4a391c0cb334b0bcb52748774c1e376c0819a4c116106aa070f40e3585d6990624d192e819c76c51a3c24b8b70a81a664ba2bfe8a192722c8581c2c92e766a0abb650a735453380d134d2c6dfc2e1b213827b70a851429296706ca6351d5a79147c6e00bf3bf597fc7b00327c8a831c66d983e515276f988da5cb0a9dc4a7484aa2de92c6f240ca1cc0fc19dc6efbe4786e49b69c1c19bf1749bdc06a780deb1fe72be5d74550c7dc3243185be12835b01d807aa98ab1c5ed5923f82a459f111f13956c25be9b5dba5b5c0fbcf71374491428a2f98 >>> (32 * i))

/-- The eight initial hash words of SHA-256. -/
def shaInit : List Word := [0x6a09e667, 0xbb67ae85, 0x3c6ef372, 0xa54ff53a, 0x510e527f, 0x9b05688c, 0x1f83d9ab, 0x5be0cd19]

/-- The message schedule: sixteen words extended to sixty-four, newest first. -/
def shaExpand : Nat → List Word → List Word
  | 0, w => w
  | n + 1, w =>
    let s0 := fun x => rotr 7 x ^^^ rotr 18 x ^^^ (x >>> 3)
    let s1 := fun x => rotr 17 x ^^^ rotr 19 x ^^^ (x >>> 10)
    shaExpand n ((s1 (nth w 1) + nth w 6 + s0 (nth w 14) + nth w 15) :: w)

/-- One round of SHA-256 on the working words a to h. -/
def shaRound (st : List Word) (kw : Word) : List Word :=
  match st with
  | [a, b, c, d, e, f, g, h] =>
    let t1 := h + (rotr 6 e ^^^ rotr 11 e ^^^ rotr 25 e) + ((e &&& f) ^^^ (~~~e &&& g)) + kw
    let t2 := (rotr 2 a ^^^ rotr 13 a ^^^ rotr 22 a) + ((a &&& b) ^^^ (a &&& c) ^^^ (b &&& c))
    [t1 + t2, a, b, c, d + t1, e, f, g]
  | st => st

/-- The rounds over the scheduled words from round `i` on. -/
def shaRounds : Nat → List Word → List Word → List Word
  | _, st, [] => st
  | i, st, w :: ws => shaRounds (i + 1) (shaRound st (shaK i + w)) ws

/-- One block into the hash words. -/
def shaBlock (h : List Word) (block : List Word) : List Word :=
  List.zipWith (· + ·) h (shaRounds 0 h (shaExpand 48 block.reverse).reverse)

/-- The big-endian words of bytes. -/
def beWords : List Byte → List Word
  | a :: b :: c :: d :: t => w32 (natBE [a, b, c, d]) :: beWords t
  | _ => []

/-- The blocks of sixteen words into the hash words; `n` bounds their number. -/
def shaBlocks : Nat → List Word → List Word → List Word
  | 0, h, _ => h
  | n + 1, h, ws => if ws = [] then h else shaBlocks n (shaBlock h (ws.take 16)) (ws.drop 16)

/-- SHA-256. -/
def sha256 (m : List Byte) : List Byte :=
  let z := (119 - m.length % 64) % 64
  let padded := m ++ [0x80] ++ List.replicate z 0 ++ beBytes 8 (8 * m.length)
  (shaBlocks (padded.length / 64 + 1) shaInit (beWords padded)).flatMap (fun w => beBytes 4 w.toNat)

/-- HMAC-SHA-256. -/
def hmac (key m : List Byte) : List Byte :=
  let k0 := if 64 < key.length then sha256 key else key
  let k := k0 ++ List.replicate (64 - k0.length) 0
  sha256 (k.map (· ^^^ 0x5C) ++ sha256 (k.map (· ^^^ 0x36) ++ m))

/-- HKDF-SHA-256 with an output of 32 bytes. -/
def hkdf32 (ikm salt info : List Byte) : List Byte := hmac (hmac salt ikm) (info ++ [1])

/-- The bytes of an ASCII text. -/
def ascii (s : String) : List Byte := s.toList.map (fun c => BitVec.ofNat 8 c.toNat)

/-- The AES S-box. -/
def sbox (b : Byte) : Byte := BitVec.ofNat 8 (0x16bb54b00f2d99416842e6bf0d89a18cdf2855cee9871e9b948ed9691198f8e19e1dc186b95735610ef6034866b53e708a8bbd4b1f74dde8c6b4a61c2e2578ba08ae7a65eaf4566ca94ed58d6d37c8e779e4959162acd3c25c2406490a3a32e0db0b5ede14b8ee4688902a22dc4f816073195d643d7ea7c41744975fec130ccdd2f3ff1021dab6bcf5389d928f40a351a89f3c507f02f94585334d43fbaaefd0cf584c4a39becb6a5bb1fc20ed00d153842fe329b3d63b52a05a6e1b1a2c830975b227ebe28012079a059618c323c7041531d871f1e5a534ccf73f362693fdb7c072a49cafa2d4adf04759fa7dc982ca76abd7fe2b670130c56f6bf27b777c63 >>> (8 * b.toNat))

/-- Multiplication by x in GF(2^8). -/
def xtime (b : Byte) : Byte := (b <<< 1) ^^^ (if b.toNat < 128 then 0 else 0x1B)

/-- XOR of two byte strings. -/
def xorB (a b : List Byte) : List Byte := List.zipWith (· ^^^ ·) a b

/-- The AES-256 key schedule, the four-byte words newest first; `rc` is the round constant. -/
def aesExpand : Nat → Nat → Byte → List (List Byte) → List (List Byte)
  | 0, _, _, w => w
  | n + 1, i, rc, w =>
    let prev := w.headD []
    let t := if i % 8 = 0 then
        match prev with
        | [a, b, c, d] => [sbox b ^^^ rc, sbox c, sbox d, sbox a]
        | p => p
      else if i % 8 = 4 then prev.map sbox else prev
    aesExpand n (i + 1) (if i % 8 = 0 then xtime rc else rc) (xorB (w.getD 7 []) t :: w)

/-- Lists of `n` elements each, `k` of them. -/
def chunks {α : Type} (n : Nat) : Nat → List α → List (List α)
  | 0, _ => []
  | k + 1, l => l.take n :: chunks n k (l.drop n)

/-- The fifteen round keys of AES-256. -/
def aesKeys (key : List Byte) : List (List Byte) :=
  chunks 16 15 ((aesExpand 52 8 1 (chunks 4 8 key).reverse).reverse.flatten)

/-- ShiftRows on the sixteen bytes of a state held by columns. -/
def shiftRows (s : List Byte) : List Byte :=
  [0, 5, 10, 15, 4, 9, 14, 3, 8, 13, 2, 7, 12, 1, 6, 11].map (fun i => s.getD i 0)

/-- MixColumns on one column. -/
def mixCol (c : List Byte) : List Byte :=
  match c with
  | [a, b, e, f] =>
    [xtime a ^^^ xtime b ^^^ b ^^^ e ^^^ f, a ^^^ xtime b ^^^ xtime e ^^^ e ^^^ f,
     a ^^^ b ^^^ xtime e ^^^ xtime f ^^^ f, xtime a ^^^ a ^^^ b ^^^ e ^^^ xtime f]
  | c => c

/-- The rounds of AES after the first key addition. -/
def aesRounds (s : List Byte) : List (List Byte) → List Byte
  | [] => s
  | [k] => xorB (shiftRows (s.map sbox)) k
  | k :: ks => aesRounds (xorB ((chunks 4 4 (shiftRows (s.map sbox))).flatMap mixCol) k) ks

/-- AES-256 on one block. -/
def aes (keys : List (List Byte)) (block : List Byte) : List Byte :=
  aesRounds (xorB block (keys.headD [])) keys.tail

/-- Multiplication in the field of GHASH: `n` bits of `x` still to take, most significant first. -/
def ghMul (x : Nat) : Nat → Nat → Nat → Nat
  | 0, _, z => z
  | n + 1, v, z =>
    ghMul x n (if v % 2 = 1 then (v / 2) ^^^ (0xE1 * 2 ^ 120) else v / 2) (if (x >>> n) % 2 = 1 then z ^^^ v else z)

/-- Fills bytes up to whole blocks of sixteen with zeros. -/
def pad16 (l : List Byte) : List Byte := l ++ List.replicate ((16 - l.length % 16) % 16) 0

/-- GHASH over blocks of sixteen bytes. -/
def ghash (h : Nat) (l : List Byte) : Nat :=
  (chunks 16 (l.length / 16) l).foldl (fun y b => ghMul (y ^^^ natBE b) 128 h 0) 0

/-- The counter blocks' key stream from counter `c`. -/
def ctrStream (keys : List (List Byte)) (iv : List Byte) : Nat → Nat → List Byte
  | 0, _ => []
  | n + 1, c => aes keys (iv ++ beBytes 4 c) ++ ctrStream keys iv n (c + 1)

/-- The GCM tag of a ciphertext. -/
def gcmTag (key iv aad ct : List Byte) : List Byte :=
  let ks := aesKeys key
  let h := natBE (aes ks (List.replicate 16 0))
  let s := ghash h (pad16 aad ++ pad16 ct ++ beBytes 8 (8 * aad.length) ++ beBytes 8 (8 * ct.length))
  xorB (beBytes 16 s) (aes ks (iv ++ [0, 0, 0, 1]))

/-- GCM's encryption and decryption of bytes. -/
def gcmCrypt (key iv m : List Byte) : List Byte :=
  xorB m (ctrStream (aesKeys key) iv ((m.length + 15) / 16) 2)

/-- AES-256-GCM decryption: the plaintext where the tag verifies. -/
def gcmOpen (key iv aad ct tag : List Byte) : Option (List Byte) :=
  if gcmTag key iv aad ct = tag then some (gcmCrypt key iv ct) else none

end Sys2Proof.Crypto
end

