-- ==== Sys2Proof/Machine/State.lean ====
section
/-! DEFINITION. The state of the block: every unit of the device, the captured register pages, the waiting commands; the outcomes a step can
end in; and the state right after power-on reset. -/

namespace Sys2Proof.Machine

/-- Every unit of the device. -/
structure Dev where
  /-- Die links and credit queues (chapter 01). -/
  fabric : Fabric := {}
  /-- Event router. -/
  evr : EvRouter := {}
  /-- Control frame and schedule. -/
  frame : FrameCtl := {}
  /-- Command interpreter and transports (02). -/
  host : HostPort := {}
  /-- Point store (03). -/
  points : PointStore := {}
  /-- Piste (04). -/
  piste : Piste := {}
  /-- Solver engines (05). -/
  solver : Solver := {}
  /-- Jobs, results and warm starts (06). -/
  jobs : Jobs := {}
  /-- Coordinator (07). -/
  coord : Coord := {}
  /-- Jalow ports (07). -/
  jalow : Jalow := {}
  /-- Loop engine (08). -/
  loops : LoopEngine := {}
  /-- Supervision, Mogul and traces (09). -/
  aux : LoopAux := {}
  /-- Slalom and the journal (10). -/
  slalom : Slalom := {}
  /-- Field dies (11, 12). -/
  field : FieldSide := {}
  /-- Twin control dies (13). -/
  twin : Twin := {}
  /-- Network time (14). -/
  time : NetTime := {}
  /-- Backup domain (15). -/
  backup : Backup := {}
  /-- CAN controllers (16). -/
  can : CanSide := {}
  /-- Event recorder (17). -/
  recorder : Recorder := {}
  /-- Key store (18). -/
  keys : KeyStore := {}
  /-- Supplies, resets and start-up (19). -/
  power : Power := {}
  /-- Self-test (20). -/
  test : TestUnit := {}
  /-- JTAG (21). -/
  tap : Tap := {}
  /-- Saturated flag of each unit that has one, by unit class (R9). -/
  sat : Tbl Bool := []
  /-- The model's own: count of free values drawn so far (assumption 2). -/
  free : Nat := 0
  /-- The model's own: outward actions, newest first (assumption 4). -/
  out : List Output := []
  deriving DecidableEq, Repr, Inhabited

/-- A capture of the register pages (R78): the units as they stood and the generation they belong to. -/
structure Bank where
  /-- Generation of the capture, none before the first. -/
  gen : Option Nat := none
  /-- The units as they stood. -/
  dev : Dev := {}
  deriving DecidableEq, Repr, Inhabited

/-- The whole state: the device, its two capture banks and the commands that wait, first in, first out. -/
structure State where
  /-- The device. -/
  dev : Dev := {}
  /-- Pages captured at the newest frame boundary. -/
  frameBank : Bank := {}
  /-- Pages captured at the newest requested snapshot. -/
  reqBank : Bank := {}
  /-- The commands that wait, oldest first. -/
  pending : List Instr := []
  deriving DecidableEq, Repr, Inhabited

/-- Reasons a step stops with a fault: none, because the spec gives every command an effect in every state. -/
inductive Fault where
  deriving DecidableEq, Repr

/-- Reasons a step has no meaning. -/
inductive Refusal where
  /-- Raised by exec's arm of a command that has no meaning yet; safe, since the step answers no state. -/
  | notModelled (mnemonic : String)
  deriving DecidableEq, Repr

/-- The machine right after a power-on reset of a device that was never powered before (R362, R400): classes K, D, L and F at
default, the rails being sequenced, the hub in reset, nothing in any queue. -/
def State.reset : State := {}

end Sys2Proof.Machine
end

