-- ==== Sys2Proof/Machine/Tables.lean ====
section
/-! DEFINITION. The sparse table: its reads, its writes and its canonical form. -/

namespace Sys2Proof

/-- The entry at index `i`, the default where the table lists none. -/
def Tbl.rdD {α : Type} (dflt : α) : Tbl α → Nat → α
  | [], _ => dflt
  | (k, v) :: t, i => if k = i then v else Tbl.rdD dflt t i

/-- The entry at index `i` of a table whose unlisted entries hold the type's default. -/
def Tbl.rd {α : Type} [Inhabited α] (t : Tbl α) (i : Nat) : α := Tbl.rdD default t i

/-- Puts `v` at index `i`, keeping the indices rising. -/
def Tbl.ins {α : Type} : Tbl α → Nat → α → Tbl α
  | [], i, v => [(i, v)]
  | (k, w) :: t, i, v =>
    if i < k then (i, v) :: (k, w) :: t
    else if i = k then (i, v) :: t
    else (k, w) :: Tbl.ins t i v

/-- Unlists index `i`. -/
def Tbl.del {α : Type} : Tbl α → Nat → Tbl α
  | [], _ => []
  | (k, w) :: t, i => if k = i then t else (k, w) :: Tbl.del t i

/-- Writes index `i`; writing the default unlists it, so that equal tables are equal data. -/
def Tbl.wrD {α : Type} [DecidableEq α] (dflt : α) (t : Tbl α) (i : Nat) (v : α) : Tbl α :=
  if v = dflt then Tbl.del t i else Tbl.ins t i v

/-- Writes index `i` of a table whose unlisted entries hold the type's default. -/
def Tbl.wr {α : Type} [Inhabited α] [DecidableEq α] (t : Tbl α) (i : Nat) (v : α) : Tbl α :=
  Tbl.wrD default t i v

/-- Changes the entry at index `i`. -/
def Tbl.upd {α : Type} [Inhabited α] [DecidableEq α] (t : Tbl α) (i : Nat) (f : α → α) : Tbl α :=
  t.wr i (f (t.rd i))

/-- Writes the words `vs` at the indices from `i` on. -/
def Tbl.wrAll {α : Type} [Inhabited α] [DecidableEq α] (t : Tbl α) (i : Nat) : List α → Tbl α
  | [] => t
  | v :: vs => Tbl.wrAll (t.wr i v) (i + 1) vs

/-- The `n` entries from index `i` on. -/
def Tbl.rdAll {α : Type} [Inhabited α] (t : Tbl α) (i : Nat) : Nat → List α
  | 0 => []
  | n + 1 => t.rd i :: Tbl.rdAll t (i + 1) n

/-- Changes every listed entry, unlisting those that become the default. -/
def Tbl.mapD {α : Type} [Inhabited α] [DecidableEq α] (f : α → α) : Tbl α → Tbl α
  | [] => []
  | (k, v) :: t => if f v = default then Tbl.mapD f t else (k, f v) :: Tbl.mapD f t

/-- The indices rise strictly and stay above `lo`, and no listed entry is the default. -/
def Tbl.wfFrom {α : Type} [DecidableEq α] (dflt : α) : Nat → Tbl α → Bool
  | _, [] => true
  | lo, (k, v) :: t => decide (lo ≤ k) && decide (v ≠ dflt) && Tbl.wfFrom dflt (k + 1) t

/-- The canonical form of a table whose unlisted entries read as `dflt`. -/
def Tbl.wfD {α : Type} [DecidableEq α] (dflt : α) (t : Tbl α) : Bool := Tbl.wfFrom dflt 0 t

/-- The canonical form of a table whose unlisted entries hold the type's default. -/
def Tbl.wf {α : Type} [Inhabited α] [DecidableEq α] (t : Tbl α) : Bool := Tbl.wfD default t

end Sys2Proof
end

