-- ==== Sys2Proof/Machine/Time.lean ====
section
/-! DEFINITION. Raw and corrected time (R302 to R305), and what the passing of time does by itself: the raw counter, the operating
time (R362), the crystal's count (R328, R332) and the counters of microseconds that run while a condition holds. -/

namespace Sys2Proof.Machine

open Sys2Proof.Bits

/-- Corrected time in units of 2^-16 ns at raw instant `raw` (R303): the product truncated towards minus infinity. -/
def NetTime.ctFix (t : NetTime) (raw : Nat) : Int :=
  (raw : Int) * 65536 + t.ofs + (t.rate * ((raw : Int) - t.tRef)) / 16777216

/-- Corrected time in whole nanoseconds, 64 bits (R304). -/
def NetTime.ctAt (t : NetTime) (raw : Nat) : Nat := ((t.ctFix raw / 65536) % (2 ^ 64 : Nat)).toNat

/-- The present corrected time. -/
def Dev.now (d : Dev) : Nat := d.time.ctAt d.time.raw

/-- The least number of CK_NET edges within `lo` to `hi` after which corrected time has reached `target`. -/
def NetTime.edgesTo (t : NetTime) (target : Nat) : Nat → Nat → Nat → Nat
  | 0, _, hi => hi
  | fuel + 1, lo, hi =>
    if hi ≤ lo then hi
    else
      let m := (lo + hi) / 2
      if (target : Int) * 65536 ≤ t.ctFix (t.raw + 8 * m) then NetTime.edgesTo t target fuel lo m
      else NetTime.edgesTo t target fuel (m + 1) hi

/-- The raw instant of the first CK_NET edge, now or later, at which corrected time has reached `target`. -/
def NetTime.rawOf (t : NetTime) (target : Nat) : Nat :=
  let gap := (target : Int) * 65536 - t.ctFix t.raw
  if gap ≤ 0 then t.raw else t.raw + 8 * t.edgesTo target 80 0 ((gap / 65536).toNat / 4 + 2)

/-- Crystal edges that have gone by at raw instant `raw`: 32,768 in each 10^9 ns, the crystal at its nominal rate. -/
def xtalAt (raw : Nat) : Nat := raw * 32768 / 1000000000

/-- The raw instant of crystal edge `k`, rounded up to 1 ns. -/
def xtalRaw (k : Nat) : Nat := (k * 1000000000 + 32767) / 32768

/-- Corrections of the trim in the first `k` crystal pulses of its window (R332). -/
def trimAt (trim : Int) (k : Nat) : Nat := k * trim.natAbs / 33554432

/-- The count as one number of 1/32,768 s, wrapping at 2^55 (R328). -/
def RtcCount.toNat (c : RtcCount) : Nat := c.sec.toNat * 32768 + c.frac.toNat

/-- The count that a number of 1/32,768 s spells. -/
def RtcCount.ofNat (n : Nat) : RtcCount := { sec := BitVec.ofNat 40 (n / 32768), frac := BitVec.ofNat 15 n }

/-- `n` crystal edges: the count advances by one at each, by two or none at the trim's pulses (R332). -/
def Backup.edges (b : Backup) (n : Nat) : Backup :=
  if n = 0 then b
  else
    let c := trimAt b.trim (b.windowK + n) - trimAt b.trim b.windowK
    let adv := if 0 < b.trim then n + c else n - c
    { b with count := RtcCount.ofNat (b.count.toNat + adv), windowK := (b.windowK + n) % 33554432, edgeNo := b.edgeNo + n }

/-- The main domain is powered. -/
def Power.on (p : Power) : Bool := p.phase ≠ .poweredOff

/-- Operating time after `n` more nanoseconds of power (R362). -/
def Recorder.age (r : Recorder) (n : Nat) : Recorder :=
  let t := r.opNs + n
  let sub := r.opSub + t / 3906250
  { r with opNs := t % 3906250, opSub := sub % 256, opTime := satN 32 (r.opTime + sub / 256) }

/-- A count of microseconds that a condition has run for, from raw instant `a` to `b`. -/
def usIf (c : Bool) (a b : Nat) (v : BitVec 32) : BitVec 32 := if c then v + BitVec.ofNat 32 (b / 1000 - a / 1000) else v

/-- The stall counters of a set of queue monitors (Table 01-7). -/
def stallFor (a b : Nat) (q : Tbl QMon) : Tbl QMon := q.mapD (fun m => { m with stallUs := usIf (decide (0 < m.held)) a b m.stallUs })

/-- `n` nanoseconds pass. -/
def Dev.pass (d : Dev) (n : Nat) : Dev :=
  let a := d.time.raw
  let b := (a + n) % 2 ^ 64
  let e := xtalAt (a + n) - xtalAt a
  let bk := if e = 0 then d.backup else
    { d.backup.edges e with edgeCt := if d.power.on then some (d.time.ctAt (xtalRaw (xtalAt (a + n)))) else none }
  let keyEdges := if d.keys.xtalEdges < 1024 then min 1024 (d.keys.xtalEdges + e) else d.keys.xtalEdges
  { d with
    time := { d.time with raw := b }
    backup := bk
    keys := { d.keys with xtalEdges := keyEdges }
    recorder := if d.power.on then d.recorder.age n else d.recorder
    fabric := { d.fabric with hubQ := stallFor a (a + n) d.fabric.hubQ, ctlQ := stallFor a (a + n) d.fabric.ctlQ }
    points := { d.points with poolStallUs := usIf (decide (d.points.waiting ≠ [])) a (a + n) d.points.poolStallUs }
    solver := { d.solver with eng := d.solver.eng.mapD (fun e => { e with
      busyUs := usIf (decide (e.flight ≠ [])) a (a + n) e.busyUs
      issueWaitUs := usIf (decide (e.queue ≠ [] ∧ e.flight.length < 6)) a (a + n) e.issueWaitUs }) }
    piste := { d.piste with stallNs := if d.piste.held0.isSome || d.piste.held1.isSome then d.piste.stallNs + BitVec.ofNat 32 n else d.piste.stallNs } }

/-- Brings the time base forward to raw instant `r`; nothing moves where it lies behind. -/
def Dev.toRaw (d : Dev) (r : Nat) : Dev := if d.time.raw < r then d.pass (r - d.time.raw) else d

/-- Brings the time base forward to the first CK_NET edge at or after corrected instant `t` (R317). -/
def Dev.toCt (d : Dev) (t : Nat) : Dev := d.toRaw (d.time.rawOf t)

/-- The first multiple of `p` at or after `t`, shifted by `ph`: the grids of R169, R242 and R261. -/
def gridAt (t p ph : Nat) : Nat :=
  if p = 0 then t else if t ≤ ph then ph else ph + ((t - ph + p - 1) / p) * p

/-- Resolves a 32-bit time within the next 2^31 ns (R305). -/
def next32 (now : Nat) (ns : Word) : Nat := now + ((ns.toNat + 2 ^ 32 - now % 2 ^ 32) % 2 ^ 32)

/-- Resolves an era and nanoseconds to the occurrence nearest to now (R304). -/
def nearEra (now : Nat) (ns : Word) (era : Nat) : Int :=
  let t : Nat := (era % 65536) * 2 ^ 32 + ns.toNat
  let base : Nat := (now / 2 ^ 48) * 2 ^ 48
  let c : Int := ((base + t : Nat) : Int)
  if (now : Int) - c > (2 ^ 47 : Nat) then c + (2 ^ 48 : Nat) else if c - (now : Int) > (2 ^ 47 : Nat) then c - (2 ^ 48 : Nat) else c

/-- The era of an instant. -/
def eraOf (t : Nat) : Nat := (t / 2 ^ 32) % 65536

/-- One CK_NET edge (R302). -/
def State.tick (s : State) : State := { s with dev := s.dev.pass 8 }

end Sys2Proof.Machine
end

