-- ==== Sys2Proof/Machine/Events.lean ====
section
/-! DEFINITION. Events (R22 to R24), the saturating counters (R9), the active die and the queue monitors (Tables 01-4 to 01-7). -/

namespace Sys2Proof.Machine

open Sys2Proof.Bits

/-- Hands an event to the router (R23), or to the unit that must hold it while the router's queue is full (R24). -/
def EvRouter.accept (r : EvRouter) (e : EventRec) : EvRouter :=
  if r.queue.length < 512 then { r with queue := r.queue ++ [e] }
  else
    match r.held.find? (fun h => h.1 = e.source.toNat) with
    | none => { r with held := r.held.ins e.source.toNat { ev := e } }
    | some (k, h) =>
      if h.ev.code = e.code ∧ h.ev.data = e.data then { r with held := r.held.ins k { h with repeats := h.repeats + 1 } }
      else { r with lost := r.lost + 1 }

/-- Raises an event. -/
def Dev.raise (d : Dev) (code source : Nat) (sev : Severity) (data : Nat) : Dev :=
  { d with evr := d.evr.accept { code := BitVec.ofNat 16 code, source := BitVec.ofNat 16 source, sev := sev, data := BitVec.ofNat 64 data } }

/-- Raises an event where a condition holds. -/
def Dev.raiseIf (d : Dev) (c : Bool) (code source : Nat) (sev : Severity) (data : Nat) : Dev :=
  if c then d.raise code source sev data else d

/-- A control die is ACTIVE. -/
def Dev.activeDie (d : Dev) : Option Nat :=
  if (d.twin.die.rd 0).state = .active then some 0 else if (d.twin.die.rd 1).state = .active then some 1 else none

/-- The die that runs the units 0x20 to 0x23: the active one, else the one last active. -/
def Dev.runDie (d : Dev) : Nat := d.activeDie.getD d.twin.lastActive

/-- Raises an event of a control die, or of a unit on it: the code's high byte is the physical die's class (R22). -/
def Dev.raiseCtl (d : Dev) (num source : Nat) (sev : Severity) (data : Nat) : Dev :=
  d.raise ((3 + d.runDie) * 256 + num) source sev data

/-- The source of an event of a control die's own management core (R22). -/
def Dev.ctlSource (d : Dev) : Nat := (3 + d.runDie) * 256

/-- Adds one outward action. -/
def Dev.emit (d : Dev) (o : Output) : Dev := { d with out := o :: d.out }

/-- One more of a count of `n` bits of kind S. -/
def bump (n v : Nat) : Nat := satN n (v + 1)

/-- Sets the saturated flag of unit class `cls` where a count of `n` bits has reached its largest value (R9). -/
def Dev.satAt (d : Dev) (cls n v : Nat) : Dev := if v + 1 = 2 ^ n then { d with sat := d.sat.wr cls true } else d

/-- Draws the next free word. -/
def Dev.freeW (d : Dev) : Word × Dev := (Config.freeWord d.free, { d with free := d.free + 1 })

/-- Draws the next free number below `n`. -/
def Dev.freeN (d : Dev) (n : Nat) : Nat × Dev := (Config.freeNat d.free % n, { d with free := d.free + 1 })

/-- Draws the next free truth value. -/
def Dev.freeB (d : Dev) : Bool × Dev := (Config.freeBool d.free, { d with free := d.free + 1 })

/-- Sets apart the next 1,024 free values for the measurements that a capture holds (R80). -/
def Dev.reserve (d : Dev) : Dev := { d with free := d.free + 1024 }

/-- The level of a queue monitor is now `v`. -/
def QMon.at (m : QMon) (v : Nat) : QMon := { m with level := v, highWater := max m.highWater v }

/-- The level of queue `inst` of kind `kind` is now `v`. -/
def Dev.mon (d : Dev) (kind inst v : Nat) : Dev :=
  if kind < 0x10 then { d with fabric := { d.fabric with hubQ := d.fabric.hubQ.upd (kind * 256 + inst) (fun m => m.at v) } }
  else { d with fabric := { d.fabric with ctlQ := d.fabric.ctlQ.upd (kind * 256 + inst) (fun m => m.at v) } }

/-- The producer of that queue holds `v` items for lack of credit. -/
def Dev.monHeld (d : Dev) (kind inst v : Nat) : Dev :=
  if kind < 0x10 then { d with fabric := { d.fabric with hubQ := d.fabric.hubQ.upd (kind * 256 + inst) (fun m => { m with held := v }) } }
  else { d with fabric := { d.fabric with ctlQ := d.fabric.ctlQ.upd (kind * 256 + inst) (fun m => { m with held := v }) } }

/-- The hub takes packets: it is out of reset (R396). -/
def Dev.hubUp (d : Dev) : Bool := d.power.phase = .hubUp ∨ d.power.phase = .running

/-- An ACTIVE control die runs: one whose PLL has lost lock has stopped (R17). -/
def Dev.ctlUp (d : Dev) : Bool := (d.activeDie.map (fun k => !d.fabric.ctlPll.rd k)).getD false

/-- An item passes through queue `inst` of kind `kind` within the step. -/
def Dev.through (d : Dev) (kind inst : Nat) : Dev :=
  let v := ((if kind < 0x10 then d.fabric.hubQ else d.fabric.ctlQ).rd (kind * 256 + inst)).level
  (d.mon kind inst (v + 1)).mon kind inst v

end Sys2Proof.Machine
end

