-- ==== Sys2Proof/Machine/JalowTx.lean ====
section
/-! DEFINITION. Sending over a Jalow port: messages cut into frames, transmit priority, credits, encryption (Tables 07-2 and 07-3,
R158 to R163). -/

namespace Sys2Proof.Machine

open Sys2Proof.Bits Sys2Proof.Crypto

/-- Place of a frame type in the transmit priority order of Table 07-3. -/
def jlPrio (t : Nat) : Nat :=
  match t with
  | 4 => 3 | 3 => 4 | 6 => 5 | 5 => 6 | 8 => 7 | 7 => 8 | _ => t

/-- COORD_UP and COORD_DOWN use the reserved pool (R160). -/
def jlReserved (t : Nat) : Bool := t = 3 || t = 4

/-- The header words of a frame. -/
def JlFrame.head (f : JlFrame) : List Word :=
  [pack [(f.ftype.toNat, 0), (b1 f.first, 4), (b1 f.last, 5), (b1 f.enc, 6), (f.payload.length, 8), (f.seq.toNat, 16), (f.ack.toNat, 24)],
   pack [(f.credits, 0), (f.relayFree, 8), (f.msg.toNat, 16)]]

/-- The bytes that the GCM tag covers in clear: the header with ACK, CREDITS and RELAY_FREE at 0 (R163). -/
def JlFrame.aad (f : JlFrame) : List Byte := bytesAll { f with ack := 0, credits := 0, relayFree := 0 }.head

/-- The CRC of a frame (R158). -/
def JlFrame.crcOf (f : JlFrame) : Word := crcWords (f.head ++ f.payload ++ (if f.enc then f.tag else []))

/-- The IV of the `n`-th data frame of a session (R163). -/
def jlIv (n : Nat) : List Byte := [0, 0, 0, 0] ++ leBytes 8 n

/-- Cuts a message into frames of at most 64 payload words. -/
def jlCut (t msg : Nat) : Nat → Bool → List Word → List JlFrame
  | 0, _, _ => []
  | fuel + 1, first, ws =>
    let rest := ws.drop 64
    { ftype := BitVec.ofNat 4 t, first := first, last := decide (rest = []), msg := BitVec.ofNat 16 msg, payload := ws.take 64 } ::
      (if rest = [] then [] else jlCut t msg fuel false rest)

/-- Puts a message behind every message of its priority or a higher one; a message that has begun keeps its place (R160). -/
def jlInsert (fs : List JlFrame) : List JlFrame → List JlFrame
  | [] => fs
  | g :: gs =>
    if !g.first || decide (jlPrio g.ftype.toNat ≤ jlPrio ((fs.head?.map (fun f => f.ftype.toNat)).getD 0)) then g :: jlInsert fs gs
    else fs ++ g :: gs

/-- Free slots of this device's Jalow relay submission queue, saturating at 255 (Table 07-2). -/
def Dev.relayFree (d : Dev) : Nat := min 255 (256 - d.host.creditsUsed.rd 3)

/-- Sends the frame at the head of the transmit queue where a credit is free and the link is up. -/
def Dev.jlPump (p : Nat) : Nat → Dev → Dev
  | 0, d => d
  | fuel + 1, d =>
    let q := d.jalow.port.rd p
    match q.waitTx with
    | [] => d
    | f :: fs =>
      let floor := if jlReserved f.ftype.toNat then 0 else 8
      if q.link ≠ .up ∨ q.txCredits ≤ floor then d.monHeld 0x05 p q.waitTx.length
      else
        let f1 := { f with seq := q.txSeq, ack := q.rxSeq - 1, credits := min 32 q.owed, relayFree := d.relayFree, enc := q.encActive }
        let key := if q.cfg.role = .up then q.sessUp else q.sessDown
        let pt := bytesAll f1.payload
        let f2 := if q.encActive then
            { f1 with payload := wordsOf (gcmCrypt key (jlIv q.txCount) pt),
                      tag := wordsOf (gcmTag key (jlIv q.txCount) f1.aad (gcmCrypt key (jlIv q.txCount) pt)) } else f1
        let f3 := { f2 with crc := f2.crcOf }
        let q' := { q with waitTx := fs, unacked := q.unacked ++ [f3], txSeq := q.txSeq + 1, txCount := q.txCount + 1, txFrames := q.txFrames + 1,
                           txCredits := q.txCredits - 1, owed := q.owed - f3.credits, sentAt := d.time.raw,
                           ackAt := if q.unacked = [] then d.time.raw else q.ackAt }
        let d1 := ({ d with jalow := { d.jalow with port := d.jalow.port.wr p q' } }.emit (.jlFrame p f3)).mon 0x05 p q'.unacked.length
        Dev.jlPump p fuel (d1.monHeld 0x05 p fs.length)

/-- Sends a message of type `t` over port `p`. -/
def Dev.jlSend (d : Dev) (p t : Nat) (ws : List Word) : Dev :=
  let q := d.jalow.port.rd p
  if q.link ≠ .up then d
  else
    let n := q.msgNo.rd t
    let fs := jlCut t n.toNat (ws.length + 1) true ws
    let q' := { q with waitTx := jlInsert fs q.waitTx, msgNo := q.msgNo.wr t (n + 1) }
    Dev.jlPump p (q'.waitTx.length + 1) { d with jalow := { d.jalow with port := d.jalow.port.wr p q' } }

/-- The port in a role. -/
def Dev.portOf (d : Dev) (r : JlRole) : List Nat := (List.range 4).filter (fun p => (d.jalow.port.rd p).cfg.role = r)

/-- The UP port, if the device has one. -/
def Dev.upPort (d : Dev) : Option Nat := (d.portOf .up).head?

/-- The DOWN ports whose link is up, ascending. -/
def Dev.downUp (d : Dev) : List Nat := (d.portOf .down).filter (fun p => (d.jalow.port.rd p).link = .up)

/-- Device address of the worker on DOWN port `p` (R153). -/
def Dev.childAddr (d : Dev) (p : Nat) : Nat :=
  let a := d.jalow.ownAddr.toNat
  (a + 1 + p * 4 ^ (a % 4 + 1)) % 256

end Sys2Proof.Machine
end

