-- ==== Sys2Proof/Machine/Journal.lean ====
section
/-! DEFINITION. The configuration journal and the holdup bound (R218, R226), and the use of keys (R378, R379). -/

namespace Sys2Proof.Machine

open Sys2Proof.Bits

/-- Twice the energy of one HOLDOUT node in units of 10^-12 J (R218): its lowest voltage of the last 10 ms over V_END = 10.0 V. -/
def Holdup.energy2 (h : Holdup) : Nat :=
  match h.readings with
  | [] => 0
  | r :: rs =>
    let v := rs.foldl min r
    if v ≤ 10000 then 0 else h.capUf * (v * v - 100000000)

/-- Twice E_HU in units of 10^-12 J: 0 until both nodes have had their first test (R218). -/
def Slalom.eHu2 (s : Slalom) : Nat :=
  if (s.hold.rd 0).tested && (s.hold.rd 1).tested then (s.hold.rd 0).energy2 + (s.hold.rd 1).energy2 else 0

/-- E_HU in units of 0.1 mJ, 20 bits (Table 10-6). -/
def Slalom.eHu (s : Slalom) : Nat := satN 20 (s.eHu2 / 200000000)

/-- G_MAX (R226): the largest G with E_REQ(G) at most E_HU, at most 16,384; 0 when E_REQ(0) exceeds it. -/
def Slalom.gMax (s : Slalom) : Nat :=
  min 16384 ((s.eHu2 / (120000 * (100 + s.cfg.huMargin)) - 4000) / 2)

/-- JOURNAL: the granules that wait in the journal. -/
def Slalom.journalUsed (s : Slalom) : Nat := (s.journal.map (fun e => e.granules)).sum

/-- Granules of an entry with `n` parameter words: a 16-byte header and the words, rounded up to 64 bytes (R226). -/
def granulesOf (n : Nat) : Nat := (16 + 4 * n + 63) / 64

/-- An entry of `g` granules is admitted (R226); under WRITE_THROUGH it goes on to the eMRAM at once (R227). -/
def Slalom.room (s : Slalom) (g : Nat) : Bool := s.writeThrough || decide (s.journalUsed + g ≤ s.gMax)

/-- A request for the eMRAM writer (R228): it starts at once where the writer is idle. -/
def Slalom.request (s : Slalom) (r : EmramReq) : Slalom :=
  match s.emramBusy with
  | none => { s with emramBusy := some r }
  | some _ => { s with emram := s.emram ++ [r] }

/-- Adds an entry; the drain asks for the eMRAM for as long as the journal holds one. -/
def Slalom.push (s : Slalom) (e : JournalEntry) : Slalom :=
  { s with journal := s.journal ++ [e], emramBusy := some (s.emramBusy.getD .journal) }

/-- Adds an entry of the device's journal. -/
def Dev.journal (d : Dev) (e : JournalEntry) : Dev := { d with slalom := d.slalom.push e }

/-- Refusal of a use of a key (R378): slots 1 to 63 need the root (R374); then empty, purpose, expired, exhausted in this order. -/
def Dev.keyRefusal (d : Dev) (slot purpose : Nat) : Option Nat :=
  let k := d.keys.slots.rd slot
  if slot ≠ 0 ∧ d.keys.root = none then some 0x0204
  else if k.state = .empty then some 0x0204
  else if k.purpose.toNat ≠ purpose then some 0x0204
  else if k.state = .expired then some 0x0204
  else if k.state = .exhausted then some 0x0205
  else none

/-- The use of the slot needs a journal entry that finds no room (R379). -/
def Dev.keyWaits (d : Dev) (slot : Nat) : Bool :=
  (d.keys.slots.rd slot).lifetime = 1 && !d.slalom.room 1

/-- One use of a slot is counted (R379): COUNTED loses one use through a one-granule journal entry; the last use exhausts it. -/
def Dev.useKey (d : Dev) (slot : Nat) : Dev :=
  let k := d.keys.slots.rd slot
  let counted := k.lifetime = 1
  let left := if counted then k.usesLeft - 1 else k.usesLeft
  let last := counted && decide (left = 0)
  let k' := { k with useCnt := k.useCnt + 1, usesLeft := left, state := if last then .exhausted else k.state }
  let d1 := { d with keys := { d.keys with slots := d.keys.slots.wr slot k' } }
  let d2 := if counted then d1.journal { opcode := 0, words := [w32 slot, w32 left], granules := 1 } else d1
  d2.raiseIf last 0x4204 0x4200 .warn (slot + 2 ^ 9 * k.purpose.toNat)

end Sys2Proof.Machine
end

