-- ==== Sys2Proof/Machine/Flags.lean ====
section
/-! DEFINITION. The status codes of Table 02-21, the answer a command's meaning gives, and the first-failing-check rule of R40. -/

namespace Sys2Proof.Machine

/-- ST_OK. -/
def stOk : Nat := 0x0000
/-- ST_OK_PENDING. -/
def stOkPending : Nat := 0x0001
/-- ST_OK_NO_CHANGE. -/
def stOkNoChange : Nat := 0x0002
/-- ST_OK_CHECKED. -/
def stOkChecked : Nat := 0x0003
/-- ST_OK_PARTIAL. -/
def stOkPartial : Nat := 0x0004
/-- ST_BAD_MAGIC. -/
def stBadMagic : Nat := 0x0101
/-- ST_BAD_VERSION. -/
def stBadVersion : Nat := 0x0102
/-- ST_BAD_LENGTH. -/
def stBadLength : Nat := 0x0103
/-- ST_BAD_OPCODE. -/
def stBadOpcode : Nat := 0x0104
/-- ST_BAD_TARGET. -/
def stBadTarget : Nat := 0x0105
/-- ST_BAD_FLAGS. -/
def stBadFlags : Nat := 0x0106
/-- ST_AUTH_REQUIRED. -/
def stAuthRequired : Nat := 0x0201
/-- ST_AUTH_FAIL. -/
def stAuthFail : Nat := 0x0202
/-- ST_AUTH_REPLAY. -/
def stAuthReplay : Nat := 0x0203
/-- ST_KEY_UNUSABLE. -/
def stKeyUnusable : Nat := 0x0204
/-- ST_KEY_EXHAUSTED. -/
def stKeyExhausted : Nat := 0x0205
/-- ST_QUEUE_FULL. -/
def stQueueFull : Nat := 0x0301
/-- ST_BUSY. -/
def stBusy : Nat := 0x0302
/-- ST_NO_MEMORY. -/
def stNoMemory : Nat := 0x0303
/-- ST_HOST_DMA. -/
def stHostDma : Nat := 0x0304
/-- ST_PARAM_RANGE. -/
def stParamRange : Nat := 0x0401
/-- ST_PARAM_ENCODING. -/
def stParamEncoding : Nat := 0x0402
/-- ST_BAD_HANDLE. -/
def stBadHandle : Nat := 0x0403
/-- ST_BAD_ADDRESS. -/
def stBadAddress : Nat := 0x0404
/-- ST_CONFIG_CONFLICT. -/
def stConfigConflict : Nat := 0x0501
/-- ST_WRONG_STATE. -/
def stWrongState : Nat := 0x0502
/-- ST_STANDBY. -/
def stStandby : Nat := 0x0503
/-- ST_HW_FAULT. -/
def stHwFault : Nat := 0x0601
/-- ST_ECC_UNCORRECTABLE. -/
def stEccUncorrectable : Nat := 0x0602
/-- ST_ABORTED. -/
def stAborted : Nat := 0x0603
/-- ST_RELAY_NO_ROUTE. -/
def stRelayNoRoute : Nat := 0x0701
/-- ST_RELAY_TIMEOUT. -/
def stRelayTimeout : Nat := 0x0702
/-- ST_RELAY_LINK_DOWN. -/
def stRelayLinkDown : Nat := 0x0703

/-- What a command's meaning answers: the state it leaves, the reply's STATUS, DETAIL and payload, and whether the reply comes later. -/
structure Ans where
  /-- The state after the command. -/
  st : State
  /-- STATUS. -/
  status : Nat := 0
  /-- DETAIL: word offset of the first field in error. -/
  detail : Nat := 0
  /-- Payload. -/
  words : List Word := []
  /-- The command has started and its reply comes later. -/
  later : Bool := false
  /-- The command cannot start yet and stays in its queue. -/
  waits : Bool := false

/-- The first failing check of a list: each entry holds whether it fails, its status and the word offset of the field in error. -/
def firstErr : List (Bool × Nat × Nat) → Option (Nat × Nat)
  | [] => none
  | (true, e) :: _ => some e
  | (false, _) :: t => firstErr t

/-- An answer after the checks `cs`: the first that fails gives the status and leaves the state unchanged (R40, R41). -/
def guarded (s : State) (cs : List (Bool × Nat × Nat)) (k : Ans) : Ans :=
  match firstErr cs with
  | some (status, detail) => { st := s, status := status, detail := detail }
  | none => k

/-- A refusal. -/
def Ans.err (s : State) (status detail : Nat) : Ans := { st := s, status := status, detail := detail }

/-- ST_OK with a payload, the state unchanged. -/
def Ans.read (s : State) (ws : List Word) : Ans := { st := s, words := ws }

/-- ST_OK without payload after a change of the device. -/
def Ans.ok (s : State) (d : Dev) : Ans := { st := { s with dev := d } }

/-- The status leaves the command accepted (R64). -/
def accepted (status : Nat) : Bool := decide (status < 0x0100)

end Sys2Proof.Machine
end

