-- ==== Sys2Proof/Machine/Operands.lean ====
section
/-! DEFINITION. The operand fields of a packet (Tables 02-1 and 02-2) and its parameter words (R34). -/

namespace Sys2Proof.Machine

open Sys2Proof.Bits

/-- Word `i` of a packet. -/
def Packet.w (p : Packet) (i : Nat) : Word := nth p.words i
/-- MAGIC. -/
def Packet.magic (p : Packet) : Nat := fld (p.w 0) 7 0
/-- VERSION. -/
def Packet.version (p : Packet) : Nat := fld (p.w 0) 15 8
/-- OPCODE. -/
def Packet.opcode (p : Packet) : Nat := fld (p.w 0) 31 16
/-- TAG. -/
def Packet.tag (p : Packet) : Nat := fld (p.w 1) 15 0
/-- LEN. -/
def Packet.len (p : Packet) : Nat := fld (p.w 1) 31 16
/-- UNIT. -/
def Packet.unit (p : Packet) : Nat := fld (p.w 2) 7 0
/-- INSTANCE. -/
def Packet.inst (p : Packet) : Nat := fld (p.w 2) 23 8
/-- SUB_UNIT. -/
def Packet.sub (p : Packet) : Nat := fld (p.w 2) 31 24
/-- FLAGS.AUTH. -/
def Packet.auth (p : Packet) : Bool := bit (p.w 3) 0
/-- FLAGS.ORDERED. -/
def Packet.ordered (p : Packet) : Bool := bit (p.w 3) 1
/-- FLAGS.AT_SNAPSHOT. -/
def Packet.atSnapshot (p : Packet) : Bool := bit (p.w 3) 2
/-- FLAGS.NO_REPLY. -/
def Packet.noReply (p : Packet) : Bool := bit (p.w 3) 3
/-- FLAGS.CHECK_ONLY. -/
def Packet.checkOnly (p : Packet) : Bool := bit (p.w 3) 4
/-- FLAGS.RELAYED. -/
def Packet.relayed (p : Packet) : Bool := bit (p.w 3) 5
/-- KEY_SLOT. -/
def Packet.keySlot (p : Packet) : Nat := fld (p.w 3) 13 8
/-- SEQ_LO. -/
def Packet.seqLo (p : Packet) : Nat := fld (p.w 3) 31 24
/-- The words before the authentication tag. -/
def Packet.plain (p : Packet) : List Word := if p.auth then p.words.take (p.words.length - 4) else p.words
/-- The authentication tag. -/
def Packet.authTag (p : Packet) : List Word := p.words.drop (p.words.length - 4)
/-- The parameter words. -/
def Packet.params (p : Packet) : List Word := p.plain.drop 4
/-- Parameter word Pi, zero past the last. -/
def Packet.par (p : Packet) (i : Nat) : Word := nth p.params i

/-- Parameter word Pi of an accepted packet. -/
def QPacket.par (q : QPacket) (i : Nat) : Word := q.pkt.par i
/-- Field [hi:lo] of Pi. -/
def QPacket.f (q : QPacket) (i hi lo : Nat) : Nat := fld (q.par i) hi lo
/-- Bit b of Pi. -/
def QPacket.b (q : QPacket) (i b : Nat) : Bool := bit (q.par i) b
/-- Some bit of Pi outside `mask` is 1: a reserved bit (R6). -/
def QPacket.resv (q : QPacket) (i mask : Nat) : Bool := Bits.resv (q.par i) mask
/-- Number of parameter words. -/
def QPacket.n (q : QPacket) : Nat := q.pkt.params.length
/-- The parameter words from Pi on. -/
def QPacket.from' (q : QPacket) (i : Nat) : List Word := q.pkt.params.drop i

/-- Check: Pi carries a reserved bit. -/
def encIf (c : Bool) (i : Nat) : Bool × Nat × Nat := (c, stParamEncoding, 4 + i)
/-- Check: a field of Pi is outside its range. -/
def rangeIf (c : Bool) (i : Nat) : Bool × Nat × Nat := (c, stParamRange, 4 + i)
/-- Check: Pi conflicts with the configuration in force. -/
def conflictIf (c : Bool) (i : Nat) : Bool × Nat × Nat := (c, stConfigConflict, 4 + i)
/-- Check: the target's state forbids the request. -/
def stateIf (c : Bool) : Bool × Nat × Nat := (c, stWrongState, 0)
/-- The value lies outside `lo` to `hi`. -/
def outside (v lo hi : Nat) : Bool := decide (v < lo ∨ hi < v)

end Sys2Proof.Machine
end

