-- ==== Sys2Proof/Machine/Packets.lean ====
section
/-! DEFINITION. The command interpreter (chapter 02): what the transports accept, the checks of R40, tags (R42 to R45), the order of
execution (R46 to R48, R399), replies and credits (R39, R437). -/

namespace Sys2Proof.Machine

open Sys2Proof.Bits Sys2Proof.Crypto

/-- Number of a transport (Table 01-4). -/
def Transport.num : Transport → Nat
  | .pcie => 0
  | .spi => 1
  | .eth => 2
  | .relay => 3

/-- Packet and reply limit of a transport, in words (R35). -/
def Transport.limit : Transport → Nat
  | .pcie => 4096
  | .spi => 1024
  | .eth => 368
  | .relay => 1024

/-- The opcodes of Table 02-20, in ranges. -/
def knownOpcode (o : Nat) : Bool :=
  [(0x0100, 0x0107), (0x0110, 0x0112), (0x0120, 0x0122), (0x0201, 0x0204), (0x0210, 0x0212), (0x0220, 0x0220), (0x0301, 0x0305), (0x0401, 0x0403),
   (0x0410, 0x0415), (0x0501, 0x0504), (0x0510, 0x0510), (0x0601, 0x0605), (0x0610, 0x0611), (0x0618, 0x0619), (0x0620, 0x0622), (0x0701, 0x0706),
   (0x0710, 0x0715), (0x0801, 0x0805), (0x0810, 0x0815), (0x0901, 0x0908), (0x0A01, 0x0A03), (0x0B01, 0x0B05), (0x0C01, 0x0C03), (0x0C10, 0x0C13),
   (0x0C20, 0x0C22), (0x0D01, 0x0D02), (0x0E01, 0x0E03)].any (fun r => decide (r.1 ≤ o ∧ o ≤ r.2))

/-- The open opcodes (R44): NOP, DEV_IDENT, REC_READ, REC_STATUS and KEY_CHALLENGE. -/
def openOpcode (o : Nat) : Bool := o = 0x0100 || o = 0x0101 || o = 0x0A01 || o = 0x0A02 || o = 0x0B04

/-- The opcodes that RECOVERY accepts (R398). -/
def recoveryOpcode (o : Nat) : Bool :=
  o = 0x0100 || o = 0x0101 || o = 0x0105 || o = 0x0106 || o = 0x0107 || o = 0x0102 || o = 0x0A01 || o = 0x0A02 || decide (o / 256 = 0x0B)

/-- The firmware that runs is Vydriber 3.1.4, with the support that Table 02-29 gives it. -/
def Dev.oldFirmware (d : Dev) : Bool := decide (d.power.fwVersion % 2 ^ 24 = 0x030104)

/-- Checks 1 to 4 of R40, with R35 to R38; `old` says that firmware 3.1.4 runs (R65). -/
def Packet.headerErr (old : Bool) (p : Packet) : Option (Nat × Nat) :=
  firstErr [
    (decide (p.magic ≠ 0xD6), stBadMagic, 0),
    (decide ((p.version ≠ 2 ∨ old = true) ∧ p.version ≠ 1), stBadVersion, 0),
    (decide (p.len < 4 ∨ (p.auth = true ∧ p.len < 8) ∨ p.len ≠ p.framedWords ∨ p.len ≠ p.words.length ∨ p.transport.limit < p.len), stBadLength, 1),
    (decide (fld (p.w 3) 7 6 ≠ 0 ∨ fld (p.w 3) 23 14 ≠ 0) || (decide (p.version = 1) && p.checkOnly) ||
      (!p.auth && decide (p.keySlot ≠ 0 ∨ p.seqLo ≠ 0)) || (p.noReply && p.checkOnly) ||
      (if p.transport = .relay then !(p.relayed && p.auth) else p.relayed), stBadFlags, 3)]

/-- The packet's tag verifies under `key` with sequence number `seq` (R42). -/
def Packet.verifies (p : Packet) (key : List Byte) (seq : Nat) : Bool :=
  (hmac key (leBytes 4 seq ++ leBytes 4 0 ++ bytesAll p.plain)).take 16 = bytesAll p.authTag

/-- S1 of R43: the smallest 32-bit value greater than L with the low byte. -/
def nextSeq (l lo : Nat) : Option Nat :=
  let v := l + 1 + (lo + 256 - (l + 1) % 256) % 256
  if v < 2 ^ 32 then some v else none

/-- S0 of R43: the largest value not greater than L with the low byte. -/
def prevSeq (l lo : Nat) : Option Nat :=
  let back := (l + 256 - lo) % 256
  if back ≤ l then some (l - back) else none

/-- Index of L for a transport and a key slot. -/
def seqIndex (t : Transport) (slot : Nat) : Nat := t.num * 64 + slot

/-- The outcome of the authentication check. -/
inductive AuthOut where
  /-- Accepted without a tag. -/
  | plain
  /-- Accepted with this sequence number. -/
  | tagged (seq : Nat)
  /-- Accepted once the decrement of its COUNTED key has room in the journal (R379). -/
  | waits
  /-- Rejected. -/
  | bad (status detail : Nat)

/-- Check 5 of R40: R42 to R44, Table 02-4, and slot 0's opcodes (R375). -/
def Dev.authCheck (d : Dev) (p : Packet) : AuthOut :=
  if !p.auth then
    let need := match p.transport with
      | .pcie => d.host.cfg.pcieAuthReq
      | _ => true
    if need && !(openOpcode p.opcode && decide (p.transport ≠ .relay)) then .bad stAuthRequired 3 else .plain
  else if p.keySlot = 0 ∧ ¬(0x0B01 ≤ p.opcode ∧ p.opcode ≤ 0x0B05) then .bad stKeyUnusable 3
  else
    match d.keyRefusal p.keySlot 1 with
    | some e => .bad e 3
    | none =>
      let l := (d.host.lastSeq.rd (seqIndex p.transport p.keySlot)).toNat
      let key := (d.keys.slots.rd p.keySlot).key
      let s1 := nextSeq l p.seqLo
      match s1.filter (fun v => p.verifies key v) with
      | some v => if d.keyWaits p.keySlot then .waits else .tagged v
      | none =>
        if ((prevSeq l p.seqLo).map (fun v => p.verifies key v)).getD false then .bad stAuthReplay 3
        else if s1 = none then .bad stKeyExhausted 3
        else .bad stAuthFail (p.len - 4)

/-- The words of a reply (Table 02-3, R45): under an error status no payload, apart from that of an aborted self-test run (R418). -/
def replyWords (q : QPacket) (status detail : Nat) (ws : List Word) : List Word :=
  let pl := if accepted status || decide (status = stAborted) then ws else []
  let len := 4 + pl.length + (if q.tagged then 4 else 0)
  let head := [pack [(0xD6, 0), (q.pkt.version, 8), (q.pkt.opcode, 16)], pack [(q.pkt.tag, 0), (len, 16)],
    pack [(status, 0), (if accepted status then 0 else detail, 16)],
    pack [(b1 q.tagged, 0), (b1 q.pkt.relayed * 32, 0), (if q.tagged then q.pkt.keySlot else 0, 8), (if q.tagged then q.pkt.seqLo else 0, 24)]]
  let body := head ++ pl
  if q.tagged then body ++ (wordsOf ((hmac q.key (leBytes 4 q.seq.toNat ++ leBytes 4 1 ++ bytesAll body)).take 16)) else body

/-- Credits of a transport in use are now one fewer (R437). -/
def Dev.giveCredit (d : Dev) (t : Transport) : Dev :=
  let n := d.host.creditsUsed.rd t.num - 1
  { d with host := { d.host with creditsUsed := d.host.creditsUsed.wr t.num n } }.mon 1 t.num n

/-- Takes a credit (R18) and counts the packet as accepted (Table 02-28). -/
def Dev.takeCredit (d : Dev) (t : Transport) : Dev :=
  let n := d.host.creditsUsed.rd t.num + 1
  { d with host := { d.host with creditsUsed := d.host.creditsUsed.wr t.num n, accepted := d.host.accepted.upd t.num (fun c => c + 1) } }.mon 1 t.num n

/-- A credit of the transport is free. -/
def Dev.creditFree (d : Dev) (t : Transport) : Bool := decide (d.host.creditsUsed.rd t.num < 256)

/-- One more packet refused for lack of credit. -/
def Dev.countRefused (d : Dev) : Dev :=
  { d with host := { d.host with refusedCnt := bump 16 d.host.refusedCnt } }.satAt 1 16 (bump 16 d.host.refusedCnt)

/-- Signals the completion vector where enough completions have accumulated (Table 02-10). -/
def Dev.signalCq (d : Dev) : Dev :=
  let r := d.host.ring
  if r.irqMsixEn ∧ r.irqCount ≤ r.unsignalled then
    { d with host := { d.host with ring := { r with unsignalled := 0 } } }.emit (.msix r.irqVector.toNat)
  else d

/-- Writes a completion entry (R51, Table 02-13), or counts it as lost while the ring is suspended or disabled (R53). -/
def Dev.complete (d : Dev) (p : Packet) (tag status rplWords : Nat) : Dev :=
  let r := d.host.ring
  if r.suspended || !r.ringEn then
    { d with host := { d.host with ring := { r with lostCpl := bump 16 r.lostCpl } } }.satAt 1 16 (bump 16 r.lostCpl)
  else
    let slot := r.cqTail.toNat % 256
    let phase := if r.cqTail.toNat < 256 then 1 else 0
    let ws := [pack [(p.sqIndex.toNat, 0), (tag, 16)], pack [(status, 0), (rplWords, 16)], pack [(phase, 0), (b1 (decide (p.rplCap < rplWords)), 1)], 0]
    let since := if r.unsignalled = 0 then d.time.raw else r.unsigAt
    ({ d with host := { d.host with ring := { r with cqTail := r.cqTail + 1, unsignalled := r.unsignalled + 1, unsigAt := since } } }.emit
      (.hostWrite (r.cqBase.toNat + 16 * slot) ws)).signalCq

/-- One word of a SUBTREE reply: a device's address and its inner status (R60). -/
def relayWord (addr status : Nat) : Word := pack [(addr, 0), (status, 16)]

/-- The status of a SUBTREE reply (R60). -/
def relayStatus (ws : List Word) : Nat := if ws.all (fun w => accepted (fld w 31 16)) then stOk else stOkPartial

/-- Replaces entry `i` of the relay records. -/
def Dev.setRelay (d : Dev) (i : Nat) (w : RelayWait) : Dev := { d with host := { d.host with relays := setAt d.host.relays i w } }

/-- A device that passes a SUBTREE relay on answers its manager once nothing of it is awaited any more: the gathered words under the
header of the inner packet. -/
def Dev.gatherEnd (d : Dev) (i : Nat) : Dev :=
  let w := d.host.relays.getD i {}
  if w.origin || w.own || decide (w.ports ≠ []) || !w.awaited then d
  else
    let d1 := d.setRelay i { w with awaited := false }
    let q : QPacket := { pkt := { words := w.head } }
    match d.upPort with
    | some p => d1.jlSend p 6 (replyWords q (relayStatus w.answers) 0 w.answers)
    | none => d1

/-- Record `i` gathers one answer: of a DOWN port, or of this device itself. -/
def Dev.gather (d : Dev) (i : Nat) (port : Option Nat) (status : Nat) : Dev :=
  let w := d.host.relays.getD i {}
  match port with
  | none => (d.setRelay i { w with own := false, answers := w.answers ++ [relayWord d.jalow.ownAddr.toNat status] }).gatherEnd i
  | some p => (d.setRelay i { w with ports := w.ports.erase p, answers := w.answers ++ [relayWord (d.childAddr p) status] }).gatherEnd i

/-- Sends the reply of a packet over the transport it arrived on, and returns its credit (R39, R437). -/
def Dev.reply (d : Dev) (q : QPacket) (status detail : Nat) (ws : List Word) : Dev :=
  let silent := q.pkt.noReply && accepted status
  let rw := replyWords q status detail ws
  match q.pkt.transport with
  | .pcie =>
    let writes := !silent && !d.host.ring.suspended && d.host.ring.ringEn && decide (0 < q.pkt.rplCap)
    let d1 := if writes then d.emit (.hostWrite q.pkt.rplAddr (rw.take q.pkt.rplCap)) else d
    (d1.complete q.pkt q.pkt.tag status (if silent then 0 else rw.length)).giveCredit .pcie
  | .spi =>
    if silent then d.giveCredit .spi
    else { d with host := { d.host with spi := { d.host.spi with replies := d.host.spi.replies ++ [rw] } } }
  | .eth =>
    let d1 := if silent then d else d.emit (.ethReply q.pkt.port q.pkt.srcAddr q.pkt.srcPort q.pkt.vlan rw)
    d1.giveCredit .eth
  | .relay =>
    let d1 := match d.host.relays.findIdx? (fun w => w.own && w.awaited && decide (w.innerTag.toNat = q.pkt.tag)) with
      | some i => d.gather i none status
      | none =>
        if silent then d else match d.upPort with
          | some p => d.jlSend p 6 rw
          | none => d
    d1.giveCredit .relay

/-- Books a rejection with an authentication status: the counter of Table 02-28 and HUB_HOST_AUTH_FAIL. -/
def Dev.bookAuthFail (d : Dev) (p : Packet) (status : Nat) : Dev :=
  if status / 256 = 2 then
    ({ d with host := { d.host with authFailCnt := bump 16 d.host.authFailCnt } }.satAt 1 16 (bump 16 d.host.authFailCnt)).raise 0x0111 0x0100 .warn
      (p.transport.num + 256 * p.keySlot + 65536 * p.opcode + 2 ^ 32 * status)
  else d

/-- Checks 4 to 6 of R40 on a packet that holds its credit: it joins the interpreter's queue, waits for a key's journal entry, or is
answered at once with an error. -/
def Dev.verify (d : Dev) (p : Packet) : Dev :=
  match p.headerErr d.oldFirmware with
  | some (st, det) => d.reply { pkt := p } st det []
  | none =>
    match d.authCheck p with
    | .bad st det => (d.bookAuthFail p st).reply { pkt := p } st det []
    | .waits =>
      { d with slalom := { d.slalom with jrnWait := d.slalom.jrnWait ++ [{ pkt := { pkt := p }, deadline := d.time.raw + 100000000, auth := true }],
                                          jrnlWaits := bump 16 d.slalom.jrnlWaits } }
    | .plain => accept d { pkt := p, die := d.activeDie }
    | .tagged v =>
      let q : QPacket := { pkt := p, seq := BitVec.ofNat 32 v, tagged := true, key := (d.keys.slots.rd p.keySlot).key, die := d.activeDie }
      let d1 := { d with host := { d.host with lastSeq := d.host.lastSeq.wr (seqIndex p.transport p.keySlot) (BitVec.ofNat 32 v) } }
      accept (d1.useKey p.keySlot) q
where
  /-- Check 6 of R40. -/
  accept (d : Dev) (q : QPacket) : Dev :=
    if knownOpcode q.pkt.opcode then { d with host := { d.host with queue := d.host.queue ++ [q] } }
    else d.reply q stBadOpcode 0 []

/-- The interpreter takes a packet from its transport (R18, R40); nothing is taken while the hub is in reset. -/
def Dev.take (d : Dev) (p : Packet) : Dev :=
  if !d.hubUp then d
  else if !d.creditFree p.transport then d.countRefused
  else (d.takeCredit p.transport).verify p

/-- The unit that orders a packet (R46, R48): class 0x02 and the class of the die active at its arrival are one. -/
def QPacket.unitKey (q : QPacket) : Nat × Nat :=
  let u := q.pkt.unit
  if (u = 3 ∧ q.die = some 0) ∨ (u = 4 ∧ q.die = some 1) then (2, q.pkt.inst) else (u, q.pkt.inst)

/-- Two packets are for one target unit (R46, R48). -/
def QPacket.sameUnit (x q : QPacket) : Bool := decide ((x.pkt.unit = q.pkt.unit ∧ x.pkt.inst = q.pkt.inst) ∨ x.unitKey = q.unitKey)

/-- The packets of the same transport ahead of `q`. -/
def ahead (queue : List QPacket) (q : QPacket) : List QPacket :=
  (queue.takeWhile (fun x => x ≠ q)).filter (fun x => x.pkt.transport = q.pkt.transport)

/-- The packet may start (R46): nothing of its unit, and no ORDERED packet, is ahead of it; an ORDERED one has nothing ahead. -/
def mayStart (queue : List QPacket) (q : QPacket) : Bool :=
  let a := ahead queue q
  if q.pkt.ordered then a.isEmpty else a.all (fun x => !x.pkt.ordered && !x.sameUnit q)

/-- A capture is due (R47): a SNAPSHOT_AT is pending, or a boundary that will start a frame lies ahead. -/
def Dev.captureDue (d : Dev) : Bool :=
  decide (d.points.reqs ≠ []) ||
    (match d.frame.state with
     | .running => true
     | .stopping => match d.frame.stopFrame with
        | some n => decide (d.frame.frameNum < n)
        | none => false
     | .stopped => d.frame.pendingSet.isSome)

/-- Replaces the first queued packet equal to `q`. -/
def replaceQ (q q' : QPacket) : List QPacket → List QPacket
  | [] => []
  | x :: t => if x = q then q' :: t else x :: replaceQ q q' t

/-- Takes a packet off the queue and replies. -/
def Dev.finish (d : Dev) (q : QPacket) (status detail : Nat) (ws : List Word) : Dev :=
  { d with host := { d.host with queue := d.host.queue.erase q } }.reply q status detail ws

/-- The state with a packet taken off the queue and answered. -/
def State.finish (s : State) (q : QPacket) (status detail : Nat) (ws : List Word) : State := { s with dev := s.dev.finish q status detail ws }

/-- One opcode row of Table 02-20: its code, the operands that select the row where rows share a code, the target it needs, and its meaning. -/
structure Op where
  /-- OPCODE. -/
  code : Nat
  /-- The parameters select this row of the opcode. -/
  sel : Packet → Bool := fun _ => true
  /-- UNIT, INSTANCE and SUB_UNIT are right (check 7 of R40). -/
  target : Packet → Bool
  /-- It needs the active control die (R48, R399). -/
  die : Bool := false
  /-- It changes class N settings through the journal (R226). -/
  classN : Bool := false
  /-- Parameter words it needs. -/
  params : Nat := 0
  /-- Word offset of the parameter that sets the reply's size (R35). -/
  sizeAt : Nat := 4
  /-- Parameter checks and effect. -/
  body : State → QPacket → Ans
  /-- What follows the reply. -/
  after : QPacket → State → State := fun _ s => s

/-- The unit is the hub, instance 0, sub-unit 0. -/
def onHub (p : Packet) : Bool := p.unit = 1 && p.inst = 0 && p.sub = 0
/-- The unit is a control die by alias or by class, instance 0, sub-unit 0. -/
def onDie (p : Packet) : Bool := (p.unit = 2 || p.unit = 3 || p.unit = 4) && p.inst = 0 && p.sub = 0
/-- The unit is `u`, instance 0, sub-unit 0. -/
def onUnit (u : Nat) (p : Packet) : Bool := p.unit = u && p.inst = 0 && p.sub = 0
/-- The unit is `u`, an instance below `n`, sub-unit 0. -/
def onInst (u n : Nat) (p : Packet) : Bool := p.unit = u && decide (p.inst < n) && p.sub = 0

/-- What the state of the control dies says to a packet that needs the active one (R48, R399): go on, wait, or this status. -/
inductive DieOut where
  /-- The packet goes on. -/
  | go
  /-- The packet waits for an ACTIVE die. -/
  | wait
  /-- The packet is rejected. -/
  | bad (status : Nat)

/-- The die rule for a unit. -/
def Dev.dieRule (d : Dev) (unit : Nat) : DieOut :=
  if unit = 3 ∨ unit = 4 then
    match (d.twin.die.rd (unit - 3)).state with
    | .active => if d.ctlUp then .go else .wait
    | .cold | .coldSynced => .bad stStandby
    | _ => .bad stWrongState
  else if d.ctlUp then .go
  else if d.power.noActiveExpired then .bad stWrongState
  else .wait

/-- The reply of an answer fits the transport (R35). -/
def Ans.fits (a : Ans) (q : QPacket) : Bool :=
  decide (4 + a.words.length + (if q.tagged then 4 else 0) ≤ q.pkt.transport.limit)

/-- Ends a class N command (R226, R227): its entry is admitted and it takes effect, or it waits for room with nothing changed. -/
def endClassN (op : Op) (s : State) (q : QPacket) (a : Ans) : State :=
  let g := granulesOf q.n
  if !s.dev.slalom.room g then
    let q' := { q with started := true }
    let sl := s.dev.slalom
    { s with dev := { s.dev with
        host := { s.dev.host with queue := replaceQ q q' s.dev.host.queue }
        slalom := { sl with jrnWait := sl.jrnWait ++ [{ pkt := q', deadline := s.dev.time.raw + 100000000 }], jrnlWaits := bump 16 sl.jrnlWaits } } }
  else
    let e : JournalEntry := { opcode := BitVec.ofNat 16 op.code, words := q.pkt.params, granules := g }
    let d := a.st.dev
    if d.slalom.writeThrough then
      let q' := { q with started := true }
      let d1 : Dev := { d with host := { d.host with queue := replaceQ q q' d.host.queue } }
      { a.st with dev := d1.journal { e with reply := some { pkt := q', status := a.status, words := a.words } } }
    else op.after q ({ a.st with dev := d.journal e }.finish q a.status 0 a.words)

/-- Runs the meaning of a packet that stands in the queue and may start, and answers it. -/
def runBody (op : Op) (s : State) (q : QPacket) : State :=
  if q.n < op.params then s.finish q stBadLength 1 []
  else
    let a := op.body s q
    if a.waits then a.st
    else if !accepted a.status then ({ a.st with dev := a.st.dev.bookAuthFail q.pkt a.status }).finish q a.status a.detail []
    else if !a.fits q then s.finish q stParamRange op.sizeAt []
    else if q.pkt.atSnapshot && !q.snapDone then
      if !s.dev.captureDue then s.finish q stWrongState 0 []
      else if q.pkt.checkOnly then s.finish q stOkChecked 0 []
      else { s with dev := { s.dev with host := { s.dev.host with queue := replaceQ q { q with waitsSnap := true } s.dev.host.queue } } }
    else if q.pkt.checkOnly then s.finish q stOkChecked 0 []
    else if op.classN && decide (a.status ≠ stOkNoChange) then endClassN op s q a
    else if a.later then
      { a.st with dev := { a.st.dev with host := { a.st.dev.host with queue := replaceQ q { q with started := true } a.st.dev.host.queue } } }
    else op.after q (a.st.finish q a.status 0 a.words)

/-- Checks 7 and 8 of R40 and the execution of a packet that stands in the interpreter's queue: it stays there while R46 or R399 holds it. -/
def execQ (op : Op) (s : State) (q : QPacket) : State :=
  if !mayStart s.dev.host.queue q then s
  else if s.dev.power.boot = .recovery ∧ !recoveryOpcode op.code then s.finish q stWrongState 0 []
  else if !op.target q.pkt then s.finish q stBadTarget 2 []
  else if !op.die then runBody op s q
  else
    match s.dev.dieRule q.pkt.unit with
    | .go => runBody op s q
    | .wait => s
    | .bad st => s.finish q st 2 []

/-- A queued packet that has not started and waits for nothing but its turn. -/
def QPacket.fresh (q : QPacket) (p : Packet) : Bool := q.pkt = p && !q.started && (!q.waitsSnap || q.snapDone)

/-- An opcode row: the packet is found in the interpreter's queue, or taken from its transport first (R40); then it is executed. A packet
that spells another row leaves the state unchanged (assumption 5). -/
def packetRow (op : Op) (p : Packet) (s : State) : State :=
  if p.opcode ≠ op.code ∨ !op.sel p then s
  else
    match s.dev.host.queue.find? (fun q => q.fresh p) with
    | some q => execQ op s q
    | none =>
      if s.dev.host.queue.any (fun q => q.pkt = p) then s
      else
        let s1 := { s with dev := s.dev.take p }
        match s1.dev.host.queue.find? (fun q => q.fresh p) with
        | some q => execQ op s1 q
        | none => s1

end Sys2Proof.Machine
end

