-- ==== Sys2Proof/Machine/Points.lean ====
section
/-! DEFINITION. The point store (chapter 03): writes and precedence, the shadow pool, captures, point frames and the point opcodes. -/

namespace Sys2Proof.Machine

open Sys2Proof.Bits Sys2Proof.Crypto

/-- Precedence of a source code, 1 highest (Table 03-3); 9 for none. -/
def sourcePrec (src : BitVec 8) : Nat :=
  match src.toNat / 16 with
  | 1 => 1 | 8 => 2 | 5 => 3 | 7 => 4 | 6 => 5 | 4 => 6 | 3 => 7 | 2 => 8 | _ => 9

/-- A quality code that a writer may supply (R67). -/
def qualityOk (q : Nat) : Bool :=
  q = 0x00 || q = 0x01 || decide (0x40 ≤ q ∧ q ≤ 0x44) || decide (0x80 ≤ q ∧ q ≤ 0x85)

/-- An FP32 word is finite. -/
def finite32 (w : Word) : Bool := decide (fld w 30 23 ≠ 255)

/-- The 16-byte entry as four words (Table 03-1). -/
def PointEntry.words (e : PointEntry) : List Word :=
  [e.value, e.time, pack [(e.frameTag.toNat, 0), (e.quality.toNat, 16), (e.source.toNat, 24)], w32 e.sequence.toNat]

/-- Copies in the pool that came from part `k` of it. -/
def PointStore.used (p : PointStore) (k : Nat) : Nat := (p.gens.map (fun g => (g.copyKind.filter (fun c => c.2 = k)).length)).sum

/-- FREE_SLOTS: pool slots that hold no copy (R77). -/
def PointStore.freeSlots (p : PointStore) : Nat := 1048576 - (p.gens.map (fun g => g.copies.length)).sum

/-- The part of the pool from which a copy caused by a source takes its slot (R77): 0 unreserved, 1 the local samples' part of the
reserve, 2 the part held for loop outputs and PUBLISH. -/
def PointStore.slotFor (p : PointStore) (src : BitVec 8) : Option Nat :=
  let c := src.toNat / 16
  let free0 := decide (p.used 0 < 786432)
  let free1 := decide (p.used 1 < 65152)
  if c = 8 ∨ c = 7 then
    if p.used 2 < 196992 then some 2 else if free1 then some 1 else if free0 then some 0 else none
  else if c = 5 then if free0 then some 0 else if free1 then some 1 else none
  else if free0 then some 0 else none

/-- The first write to an entry after a capture needs a copy (the newest held generation has none of it). -/
def PointStore.needsCopy (p : PointStore) (id : Nat) : Bool :=
  match p.gens with
  | [] => false
  | g :: _ => !(g.copies.any (fun c => c.1 = id))

/-- Adds a copy of an entry to a generation. -/
def Generation.hold (g : Generation) (id kind : Nat) (e : PointEntry) : Generation :=
  { g with copies := g.copies.ins id e, copyKind := g.copyKind.ins id kind }

/-- The copies of a released generation go to the next older one where that has none of the entry, so that its view stays whole (R77); the
entries it has lost go with them. -/
def Generation.inherit (old rel : Generation) : Generation :=
  let lost := rel.eccBad.filter (fun id => !old.copies.any (fun x => x.1 = id) && id ∉ old.eccBad)
  let g := rel.copies.foldl (fun g c => if g.copies.any (fun x => x.1 = c.1) then g else g.hold c.1 (Tbl.rd rel.copyKind c.1) c.2) old
  { g with eccBad := lost ++ g.eccBad }

/-- Releases generation `i` of the held ones, newest first. -/
def PointStore.release (p : PointStore) (i : Nat) : PointStore :=
  let rel := p.gens.getD i {}
  match p.gens[i + 1]? with
  | none => { p with gens := p.gens.eraseIdx i }
  | some o => { p with gens := (setAt p.gens (i + 1) (o.inherit rel)).eraseIdx i }

/-- Releases generation `i` for space and says so (R77). -/
def Dev.releaseGen (d : Dev) (i : Nat) : Dev :=
  let g := d.points.gens.getD i {}
  let p := d.points.release i
  { d with points := p }.raise 0x0122 0x0100 .warn (g.gen.toNat + 65536 * p.freeSlots)

/-- Makes room for a copy caused by a source (R77): the requested generation is released first, then the older of two frame
generations that is not pinned; the newest frame generation never is. -/
def Dev.makeRoom (d : Dev) (src : BitVec 8) : Dev :=
  let step1 (d : Dev) : Dev :=
    match d.points.gens.findIdx? (fun g => g.requested) with
    | some i => d.releaseGen i
    | none => d
  let step2 (d : Dev) : Dev :=
    match (d.points.gens.zipIdx.filter (fun x => !x.1.requested)) with
    | _ :: (g, i) :: _ => if g.pinned then d else d.releaseGen i
    | _ => d
  if (d.points.slotFor src).isSome then d
  else
    let d1 := step1 d
    if (d1.points.slotFor src).isSome then d1 else step2 d1

/-- The tick of a write: the 10 µs interval of corrected time. -/
def tickOf (now : Nat) : Nat := now / 10000

/-- A write collides with one of the same base tick and loses (R68). -/
def Dev.loses (d : Dev) (w : PointWrite) : Bool :=
  let m := d.points.marks.rd w.id
  decide (m.prec ≠ 0 ∧ m.tick = tickOf d.now ∧ m.prec < sourcePrec w.source)

/-- Books a collision (R68). -/
def Dev.collide (d : Dev) (id : Nat) (win other : BitVec 8) : Dev :=
  ({ d with points := { d.points with collideCnt := bump 32 d.points.collideCnt } }.satAt 1 32 (bump 32 d.points.collideCnt)).raise 0x0120 0x0100 .warn
    (id + 2 ^ 24 * win.toNat + 2 ^ 32 * other.toNat)

/-- Copies the entry's previous content to the newest held generation where this is its first write since the capture. -/
def PointStore.shadow (p : PointStore) (id : Nat) (src : BitVec 8) : PointStore :=
  if !p.needsCopy id then p
  else match p.gens, p.slotFor src with
    | g :: gs, some k =>
      let p' := { p with gens := g.hold id k (p.live.rd id) :: gs }
      { p' with freeLow := min p'.freeLow p'.freeSlots }
    | _, _ => p

/-- The write lands: it is discarded, or sets every field of Table 03-1 (R67, R68). -/
def Dev.land (d : Dev) (w : PointWrite) : Dev :=
  let m := d.points.marks.rd w.id
  let d0 := if w.last && decide (w.source.toNat / 16 = 3) then { d with points := { d.points with pframe := d.points.pframe.upd (w.source.toNat % 16) (fun f => { f with ingest := f.ingest - 1 }) } }
    else d
  if d.loses w then d0.collide w.id m.source w.source
  else
    let d1 := if m.prec ≠ 0 ∧ m.tick = tickOf d.now ∧ m.source ≠ w.source then d0.collide w.id w.source m.source else d0
    let old := d.points.live.rd w.id
    let e : PointEntry := {
      value := w.value
      time := if w.landTime then w32 d.now else w.time
      frameTag := w.frameTag.getD (BitVec.ofNat 16 d.frame.frameNum)
      quality := if finite32 w.value then w.quality else 0x87
      source := w.source
      sequence := old.sequence + 1 }
    let p := d1.points.shadow w.id w.source
    { d1 with points := { p with live := p.live.wr w.id e, marks := p.marks.wr w.id { tick := tickOf d.now, prec := sourcePrec w.source, source := w.source, before := if m.prec ≠ 0 ∧ m.tick = tickOf d.now then m.before else old } } }

/-- The write can land now: it loses, needs no copy, or its copy is allowed. -/
def Dev.canLand (d : Dev) (w : PointWrite) : Bool := d.loses w || !d.points.needsCopy w.id || (d.points.slotFor w.source).isSome

/-- A source hands a write to the store: it lands, or waits behind the waiting writes of its source (R70, R77). -/
def Dev.writePoint (d : Dev) (w : PointWrite) : Dev :=
  let queue (d : Dev) : Dev := { d with points := { d.points with waiting := d.points.waiting ++ [w] } }
  if d.points.waiting.any (fun x => x.source = w.source) then queue d
  else
    let d1 := if d.canLand w then d else d.makeRoom w.source
    if d1.canLand w then d1.land w else queue d1

/-- A list of writes in order. -/
def Dev.writePoints (d : Dev) (ws : List PointWrite) : Dev := ws.foldl (fun acc w => acc.writePoint w) d

/-- The first waiting write that may land: the oldest of its source, its copy allowed. -/
def Dev.landable (d : Dev) : List PointWrite → List (BitVec 8) → Option PointWrite
  | [], _ => none
  | w :: t, seen => if w.source ∉ seen && d.canLand w then some w else Dev.landable d t (w.source :: seen)

/-- WAITING_WRITE_LAND (R70, R77): the store accepts a waiting write whose copy is now allowed. -/
def execWaitingWriteLand (s : State) : Host.Outcome State Fault Refusal :=
  .next (match s.dev.landable s.dev.points.waiting [] with
    | none => s
    | some w => { s with dev := ({ s.dev with points := { s.dev.points with waiting := s.dev.points.waiting.erase w } }).land w })

/-- The entry as generation `i` of the held ones shows it: its own copy, the nearest later generation's, or the live entry. -/
def PointStore.view (p : PointStore) (i id : Nat) : PointEntry :=
  match ((p.gens.take (i + 1)).reverse).find? (fun g => g.copies.any (fun c => c.1 = id)) with
  | some g => Tbl.rd g.copies id
  | none => p.live.rd id

/-- What generation `i` shows of one of `n` entries from `first` on was lost to an uncorrectable error (R67, R78). -/
def PointStore.viewBad (p : PointStore) (i first n : Nat) : Bool :=
  (List.range n).any (fun k =>
    match ((p.gens.take (i + 1)).reverse).find? (fun g => g.copies.any (fun c => c.1 = first + k) || decide (first + k ∈ g.eccBad)) with
    | some g => decide (first + k ∈ g.eccBad)
    | none => false)

/-- The live content of an entry is lost: where the held generations show it, they show no value any more (R77, R78). -/
def PointStore.loseLive (p : PointStore) (id : Nat) : PointStore :=
  match p.gens with
  | [] => p
  | g :: gs => if g.copies.any (fun c => c.1 = id) || decide (id ∈ g.eccBad) then p else { p with gens := { g with eccBad := id :: g.eccBad } :: gs }

/-- Index of a held generation. -/
def PointStore.heldAt (p : PointStore) (gen : Nat) : Option Nat := p.gens.findIdx? (fun g => g.gen.toNat = gen)

/-- The entries of `n` points from `first` on in generation `i`. -/
def PointStore.viewAll (p : PointStore) (i first n : Nat) : List Word := (List.range n).flatMap (fun k => (p.view i (first + k)).words)

/-- The points of a capture (R76, R77): the new generation is held, and what falls outside the two newest frame generations and the
newest requested one is released unless it is pinned. -/
def PointStore.capture (p : PointStore) (gen : BitVec 16) (requested : Bool) (t : Nat) : PointStore :=
  let p1 := { p with gens := { gen := gen, requested := requested, time := t } :: p.gens }
  trim p1.gens.length p1
where
  /-- Releases, oldest first, what the held set does not keep. -/
  trim : Nat → PointStore → PointStore
    | 0, p => p
    | n + 1, p =>
      let g := p.gens.getD n {}
      let newer := (p.gens.take n).filter (fun x => x.requested = g.requested)
      let excess := if g.requested then decide (1 ≤ newer.length) else decide (2 ≤ newer.length)
      trim n (if n < p.gens.length ∧ excess = true ∧ g.pinned = false then p.release n else p)

/-- A capture lets every waiting AT_SNAPSHOT packet start (R47). -/
def Dev.freeSnap (d : Dev) : Dev :=
  { d with host := { d.host with queue := d.host.queue.map (fun q => if q.waitsSnap then { q with snapDone := true } else q) } }

/-- Waiting AT_SNAPSHOT packets complete with ST_ABORTED where no capture is due any more (R47). -/
def Dev.abortSnap (d : Dev) : Dev :=
  if d.captureDue then d
  else (d.host.queue.filter (fun q => q.waitsSnap && !q.snapDone)).foldl (fun acc q => acc.finish q stAborted 0 []) d

/-- REQUESTED_CAPTURE (R76, R79): the earliest pending time is reached and every unit captures. -/
def execRequestedCapture (s : State) : Host.Outcome State Fault Refusal :=
  .next (match s.dev.points.reqs with
    | [] => s
    | r :: rs =>
      let d := s.dev.toCt r.time
      let d1 := { d with points := { d.points.capture r.gen true r.time with reqs := rs } }
      let d2 := (d1.raise 0x0121 0x0100 .info (r.gen.toNat + 2 ^ 16 * (r.time % 2 ^ 32) + 2 ^ 48 * eraOf r.time)).freeSnap
      { s with dev := d2.reserve, reqBank := { gen := some r.gen.toNat, dev := { d with out := [] } } })

/-- POINT_ECC_ERROR (R67): the live entry is replaced; its TIME and FRAME_TAG stay (assumption 30). -/
def execPointEccError (id : Nat) (s : State) : Host.Outcome State Fault Refusal :=
  .next (if !s.dev.hubUp then s
    else
      let p := s.dev.points
      let e : PointEntry := { value := 0x7FC00000, quality := 0x86, source := 0xF0, sequence := (p.live.rd (id % 2 ^ 20)).sequence + 1,
                              time := (p.live.rd (id % 2 ^ 20)).time, frameTag := (p.live.rd (id % 2 ^ 20)).frameTag }
      { s with dev := ({ s.dev with points := { p.loseLive (id % 2 ^ 20) with live := p.live.wr (id % 2 ^ 20) e } }).raise 0x0124 0x0100 .crit (id % 2 ^ 20) })

/-! Opcodes. -/

/-- POINT_READ (Table 03-5, R71). -/
def opPointRead : Op where
  code := 0x0201
  target := onHub
  params := 2
  sizeAt := 5
  body s q :=
    let first := q.f 0 19 0
    let n := q.f 1 10 0
    guarded s [encIf (q.resv 0 0xFFFFF) 0, encIf (q.resv 1 0x7FF) 1, rangeIf (outside n 1 1022) 1, rangeIf (decide (2 ^ 20 < first + n)) 0]
      (.read s ((List.range n).flatMap (fun k => (s.dev.points.live.rd (first + k)).words)))

/-- POINT_READ. -/
def execPointRead (p : Packet) (s : State) : Host.Outcome State Fault Refusal := .next (packetRow opPointRead p s)

/-- POINT_WRITE (Table 03-5, R67, R68). -/
def opPointWrite : Op where
  code := 0x0202
  target := onHub
  params := 3
  body s q :=
    guarded s [encIf (q.resv 0 0xFFFFF) 0, encIf (q.resv 2 0xFF || !qualityOk (q.f 2 7 0)) 2]
      (.ok s (s.dev.writePoint { id := q.f 0 19 0, value := q.par 1, landTime := true, quality := BitVec.ofNat 8 (q.f 2 7 0),
                                 source := BitVec.ofNat 8 (0x10 + q.pkt.transport.num) }))

/-- POINT_WRITE. -/
def execPointWrite (p : Packet) (s : State) : Host.Outcome State Fault Refusal := .next (packetRow opPointWrite p s)

/-- Books a failed host memory access (R52). -/
def Dev.dmaError (d : Dev) (addr : Nat) : Dev :=
  { d with host := { d.host with ring := { d.host.ring with dmaErr := true } } }.raise 0x0112 0x0100 .crit addr

/-- Parameter checks that the two block opcodes share (Table 03-6, R71). -/
def blockChecks (q : QPacket) : List (Bool × Nat × Nat) :=
  [encIf (q.f 0 2 0 ≠ 0) 0, encIf (q.resv 2 0x3FFFFF) 2, encIf (q.resv 3 0x1FFFF) 3, rangeIf (outside (q.f 3 16 0) 1 65536) 3,
   rangeIf (!q.b 2 20 && decide (2 ^ 20 < q.f 2 19 0 + q.f 3 16 0)) 2, conflictIf (decide (q.pkt.transport ≠ .pcie)) 0]

/-- POINT_BLOCK_WRITE (R71, R72): the whole block is checked before any element is written. -/
def opPointBlockWrite : Op where
  code := 0x0203
  target := onHub
  params := 5
  body s q :=
    let n := q.f 3 16 0
    let list := q.b 2 20
    let addr := (q.par 0).toNat + 2 ^ 32 * (q.par 1).toNat
    match q.pkt.dma with
    | none => guarded s (blockChecks q) { st := { s with dev := s.dev.dmaError addr }, status := stHostDma, detail := 4 }
    | some ws =>
      let el (i : Nat) : Word := nth ws (2 * i + 1)
      let badEl (i : Nat) : Bool := decide (fld (el i) 11 8 ≠ 0) || (!list && decide (fld (el i) 31 12 ≠ 0)) || !qualityOk (fld (el i) 7 0)
      let writes := (List.range n).map (fun i => ({ id := if list then fld (el i) 31 12 else q.f 2 19 0 + i, value := nth ws (2 * i),
                                                    time := q.par 4, landTime := !q.b 2 21, quality := BitVec.ofNat 8 (fld (el i) 7 0), source := 0x20 } : PointWrite))
      guarded s (blockChecks q ++ [encIf ((List.range n).any badEl) 0]) (.ok s (s.dev.writePoints writes))

/-- POINT_BLOCK_WRITE. -/
def execPointBlockWrite (p : Packet) (s : State) : Host.Outcome State Fault Refusal := .next (packetRow opPointBlockWrite p s)

/-- POINT_BLOCK_READ (R71, R72): COUNT entries go to host memory, from the live table or from a held generation. -/
def opPointBlockRead : Op where
  code := 0x0204
  target := onHub
  params := 5
  body s q :=
    let n := q.f 3 16 0
    let first := q.f 2 19 0
    let addr := (q.par 0).toNat + 2 ^ 32 * (q.par 1).toNat
    let held := s.dev.points.heldAt (q.f 4 15 0)
    let ws := if q.b 2 21 then s.dev.points.viewAll (held.getD 0) first n
      else (List.range n).flatMap (fun k => (s.dev.points.live.rd (first + k)).words)
    guarded s (blockChecks q ++ [encIf (q.b 2 20) 2, encIf (q.b 2 21 && q.resv 4 0xFFFF) 4, stateIf (q.b 2 21 && held.isNone),
        (q.b 2 21 && s.dev.points.viewBad (held.getD 0) first n, stEccUncorrectable, 0)])
      (match q.pkt.dma with
       | none => { st := { s with dev := s.dev.dmaError addr }, status := stHostDma, detail := 4 }
       | some _ => .ok s (s.dev.emit (.hostWrite addr ws)))

/-- POINT_BLOCK_READ. -/
def execPointBlockRead (p : Packet) (s : State) : Host.Outcome State Fault Refusal := .next (packetRow opPointBlockRead p s)

/-- NEXT_REQ_GEN (R76). -/
def PointStore.nextReqGen (p : PointStore) : Nat := 0x8000 + p.reqCount % 32768

/-- Keeps pending requests by time, later arrivals behind equal times. -/
def insertReq (r : SnapReq) : List SnapReq → List SnapReq
  | [] => [r]
  | x :: t => if r.time < x.time then r :: x :: t else x :: insertReq r t

/-- SNAPSHOT_AT (R79). -/
def opSnapshotAt : Op where
  code := 0x0210
  target := onHub
  params := 2
  body s q :=
    let p := s.dev.points
    let now := s.dev.now
    let t := nearEra now (q.par 0) (q.f 1 15 0)
    let r : SnapReq := { gen := BitVec.ofNat 16 p.nextReqGen, time := t.toNat }
    guarded s [encIf (q.resv 1 0xFFFF) 1, rangeIf (decide (t < (now : Int) + 200000 ∨ (now : Int) + 2147483648 ≤ t)) 0,
        (decide (4 ≤ p.reqs.length), stBusy, 0)]
      { st := { s with dev := { s.dev with points := { p with reqs := insertReq r p.reqs, reqCount := (p.reqCount + 1) % 32768 } } }
        status := stOkPending, words := [w32 p.nextReqGen] }

/-- SNAPSHOT_AT. -/
def execSnapshotAt (p : Packet) (s : State) : Host.Outcome State Fault Refusal := .next (packetRow opSnapshotAt p s)

/-- SNAPSHOT_READ (R78). -/
def opSnapshotRead : Op where
  code := 0x0211
  target := onHub
  params := 3
  sizeAt := 6
  body s q :=
    let first := q.f 1 19 0
    let n := q.f 2 10 0
    let held := s.dev.points.heldAt (q.f 0 15 0)
    guarded s [encIf (q.resv 0 0xFFFF) 0, encIf (q.resv 1 0xFFFFF) 1, encIf (q.resv 2 0x7FF) 2, rangeIf (outside n 1 1022) 2,
        rangeIf (decide (2 ^ 20 < first + n)) 1, stateIf held.isNone,
        (s.dev.points.viewBad (held.getD 0) first n, stEccUncorrectable, 0)]
      (.read s (s.dev.points.viewAll (held.getD 0) first n))

/-- SNAPSHOT_READ. -/
def execSnapshotRead (p : Packet) (s : State) : Host.Outcome State Fault Refusal := .next (packetRow opSnapshotRead p s)

/-- SNAPSHOT_STATUS (Table 03-13). -/
def opSnapshotStatus : Op where
  code := 0x0212
  target := onHub
  body s _ :=
    let p := s.dev.points
    let g (h : Nat) : List Word := match p.gens[h]? with
      | none => [0, 0, 0]
      | some x => [pack [(x.gen.toNat, 0), (b1 x.pinned, 16)], w32 x.time, w32 (eraOf x.time)]
    let r (k : Nat) : List Word := match p.reqs[k]? with
      | none => [0, 0]
      | some x => [pack [(x.gen.toNat, 0), (eraOf x.time, 16)], w32 x.time]
    .read s ([pack [(p.freeSlots, 0), (min 3 p.gens.length, 21), (p.reqs.length, 24)]] ++ (List.range 3).flatMap g ++ (List.range 4).flatMap r)

/-- SNAPSHOT_STATUS. -/
def execSnapshotStatus (p : Packet) (s : State) : Host.Outcome State Fault Refusal := .next (packetRow opSnapshotStatus p s)

/-! Point frames. -/

/-- The settings a PFRAME_CONFIG carries (Table 03-8). -/
def pframeCfgOf (q : QPacket) : PFrameCfg :=
  { enable := q.b 0 0, recordTime := q.b 0 1, keySlot := BitVec.ofNat 6 (q.f 0 13 8), udpPort := q.f 0 31 16, srcAddr := q.par 1, srcMask := q.par 2,
    idLow := q.f 3 19 0, idHigh := q.f 4 19 0 }

/-- A slot usable for point-frame tags: of purpose MAC under R378, and not slot 0, whose key tags only key packets (R375). -/
def Dev.macRefusal (d : Dev) (slot : Nat) : Option Nat := if slot = 0 then some stKeyUnusable else d.keyRefusal slot 1

/-- PFRAME_CONFIG (R73): the settings take effect once the reply has been sent. -/
def opPframeConfig : Op where
  code := 0x0220
  target := onInst 0x30 3
  classN := true
  params := 5
  body s q :=
    let c := pframeCfgOf q
    let u := c.udpPort
    guarded s [encIf (q.resv 0 0xFFFF3F03) 0, encIf (q.resv 3 0xFFFFF) 3, encIf (q.resv 4 0xFFFFF) 4,
        conflictIf (decide (u = 0 ∨ u = 319 ∨ u = 320 ∨ u = s.dev.host.cfg.cmdUdpPort)) 0,
        conflictIf (c.enable && (s.dev.macRefusal c.keySlot.toNat).isSome) 0, conflictIf (decide (c.idHigh < c.idLow)) 3]
      (.ok s s.dev)
  after q s := { s with dev := { s.dev with points := { s.dev.points with
    pframe := s.dev.points.pframe.upd q.pkt.inst (fun f => { f with cfg := pframeCfgOf q }) } } }

/-- PFRAME_CONFIG. -/
def execPframeConfig (p : Packet) (s : State) : Host.Outcome State Fault Refusal := .next (packetRow opPframeConfig p s)

/-- The number of the first check of R74 that a point frame fails. -/
def Dev.pframeErr (d : Dev) (f : PFrameState) (src : BitVec 32) (dg : List Word) : Option Nat :=
  let c := f.cfg
  let n := fld (nth dg 0) 31 16
  let size := if c.recordTime then 3 else 2
  let rec0 (i : Nat) : Word := nth dg (4 + size * i)
  (firstErr [
    (decide (src &&& c.srcMask ≠ c.srcAddr &&& c.srcMask), 1, 0),
    (decide (fld (nth dg 0) 7 0 ≠ 0xD6 ∨ fld (nth dg 0) 15 8 ≠ 0x50) || Bits.resv (nth dg 3) 0x1FFFF, 2, 0),
    (decide (dg.length ≠ 4 + n * size + 4 ∨ n = 0 ∨ (if c.recordTime then 120 else 180) < n), 3, 0),
    ((d.macRefusal c.keySlot.toNat).isSome || d.keyWaits c.keySlot.toNat ||
      decide ((hmac (d.keys.slots.rd c.keySlot.toNat).key (bytesAll (dg.take (dg.length - 4)))).take 16 ≠ bytesAll (dg.drop (dg.length - 4))), 4, 0),
    (decide ((nth dg 1).toNat ≤ f.lastSeq.toNat), 5, 0),
    ((List.range n).any (fun i => decide (fld (rec0 i) 19 0 < c.idLow ∨ c.idHigh < fld (rec0 i) 19 0) || decide (fld (rec0 i) 23 20 ≠ 0) ||
      !qualityOk (fld (rec0 i) 31 24)), 6, 0)]).map (fun e => e.1)

/-- The writes of a point frame's records in record order (Tables 03-10 and 03-11). -/
def pframeWrites (c : PFrameCfg) (port now : Nat) (dg : List Word) : List PointWrite :=
  let n := fld (nth dg 0) 31 16
  let size := if c.recordTime then 3 else 2
  let arrival := bit (nth dg 3) 16
  (List.range n).map (fun i =>
    let w := nth dg (4 + size * i)
    { id := fld w 19 0, value := nth dg (5 + size * i), quality := BitVec.ofNat 8 (fld w 31 24), source := BitVec.ofNat 8 (0x30 + port)
      time := if arrival then w32 now else if c.recordTime then nth dg (6 + size * i) else nth dg 2
      last := decide (i + 1 = n) })

/-- POINT_FRAME_RECEIVE (R74, R75): discarded while the ingest queue is full, else checked whole and its records written. -/
def execPointFrameReceive (port : Fin 3) (src : BitVec 32) (dg : List Word) (s : State) : Host.Outcome State Fault Refusal :=
  let d := s.dev
  let f := d.points.pframe.rd port.val
  let put (d : Dev) (f : PFrameState) : Dev := { d with points := { d.points with pframe := d.points.pframe.wr port.val f } }
  .next (if !d.hubUp || !(d.host.eth.rd port.val).enable || decide ((d.host.eth.rd port.val).ipv4 = 0) || !f.cfg.enable then s
    else if 64 ≤ f.ingest then { s with dev := (put d { f with discarded := bump 16 f.discarded }).satAt 1 16 (bump 16 f.discarded) }
    else match d.pframeErr f src dg with
      | some k =>
        let d1 := (put d { f with rejected := bump 16 f.rejected }).satAt 1 16 (bump 16 f.rejected)
        { s with dev := d1.raise 0x0123 0x0100 .warn (port.val + 16 * k + 2 ^ 32 * src.toNat) }
      | none =>
        let d1 := (put d { f with accepted := f.accepted + 1, lastSeq := nth dg 1, ingest := f.ingest + 1 }).useKey f.cfg.keySlot.toNat
        { s with dev := d1.writePoints (pframeWrites f.cfg port.val d.now dg) })

end Sys2Proof.Machine
end

