-- ==== Sys2Proof/Machine/Field.lean ====
section
/-! DEFINITION. What the field dies share (chapters 11 and 12): the channels, samples on their way to the hub (R246, R247), clamp events
(R266), and how a value, a safe value or a commanded value reaches an output (R236, R259, R269). -/

namespace Sys2Proof.Machine

open Sys2Proof.Bits Sys2Proof.Float

/-- Field die `k`. -/
def Dev.fld (d : Dev) (k : Nat) : FieldDie := d.field.die.rd k
/-- Changes field die `k`. -/
def Dev.setFld (d : Dev) (k : Nat) (f : FieldDie) : Dev := { d with field := { d.field with die := d.field.die.wr k f } }
/-- The analogue side of channel `c` of die `k`. -/
def Dev.ana (d : Dev) (k c : Nat) : AnaChan := (d.fld k).ana.rd c
/-- Changes the analogue side of a channel. -/
def Dev.setAna (d : Dev) (k c : Nat) (a : AnaChan) : Dev := d.setFld k { d.fld k with ana := (d.fld k).ana.wr c a }
/-- The digital side of channel `c` of die `k`. -/
def Dev.dig (d : Dev) (k c : Nat) : DigChan := (d.fld k).dig.rd c
/-- Changes the digital side of a channel. -/
def Dev.setDig (d : Dev) (k c : Nat) (x : DigChan) : Dev := d.setFld k { d.fld k with dig := (d.fld k).dig.wr c x }
/-- Changes the sequencer of die `k`. -/
def Dev.setSeq (d : Dev) (k : Nat) (s : Sequencer) : Dev := d.setFld k { d.fld k with seq := s }
/-- The source of field die `k`'s events. -/
def fldSrc (k : Nat) : Nat := 0x1000 + k
/-- The field link of die `k` is up. -/
def Dev.fldUp (d : Dev) (k : Nat) : Bool := (d.fabric.fldLink.rd k).up
/-- The die runs configured: it is not in a reset. -/
def Dev.fldRuns (d : Dev) (k : Nat) : Bool := (d.fld k).run = .run

/-- A free number of nanoseconds from `lo` to `hi`. -/
def Dev.freeNs (d : Dev) (lo hi : Nat) : Nat × Dev :=
  let (x, d1) := d.freeN (hi + 1 - lo)
  (lo + x, d1)

/-- MODE of an analogue output (Table 11-1). -/
def isAo (m : BitVec 4) : Bool := decide (8 ≤ m.toNat ∧ m.toNat ≤ 10)
/-- MODE of an analogue input (Table 11-1). -/
def isAi (m : BitVec 4) : Bool := decide (1 ≤ m.toNat ∧ m.toNat ≤ 7)
/-- The channel is an output of its own: an AO, or a DO or PWM that is no group member. -/
def Dev.isOut (d : Dev) (k c : Nat) : Bool := isAo (d.ana k c).cfg.mode || decide (2 ≤ (d.dig k c).cfg.mode.toNat)

/-! Samples (R246, R247). -/

/-- The loop reads global channel `g`, now or once an accepted request takes effect (R246). -/
def LoopSlot.reads (l : LoopSlot) (g : Nat) : Bool :=
  let live := l.mode ≠ .off || ((l.modeNext.map (fun m => decide (m ≠ .off))).getD false)
  let named (c : LoopCfg) : Bool := decide (c.inType = 0 ∧ c.inId = g)
  live && (named l.cfg || ((l.cfgNext.map named).getD false))

/-- The channel is in the loop-input set (R246). -/
def Dev.loopInput (d : Dev) (g : Nat) : Bool := d.loops.slot.any (fun x => x.2.reads g)

/-- Items of die `k`'s tagged sample queue: samples not yet arrived, and those whose point write waits (R19, R77). -/
def Dev.sampleLevel (d : Dev) (k : Nat) : Nat :=
  (d.field.sampleQ.rd k).length + (d.points.waiting.filter (fun w => w.source.toNat = 0x50 + k)).length

/-- A credit of the sample's class is free: 32 of the 1,024 slots are reserved for loop inputs (R247). -/
def Dev.sampleCredit (d : Dev) (k : Nat) (forLoop : Bool) : Bool :=
  d.fldUp k && d.fldRuns k && decide (d.sampleLevel k < (if forLoop then 1024 else 992))

/-- Marks the register of a sequence result as waiting or not. -/
def Sequencer.pend (s : Sequencer) (x : TaggedSample) (p : Bool) : Sequencer :=
  if x.source < 64 then { s with results := s.results.upd x.entry (fun r => { r with pending := p }) } else s

/-- Sends a sample. -/
def Dev.sendSample (d : Dev) (k : Nat) (x : TaggedSample) : Dev :=
  let y := { x with sent := d.time.raw }
  let d1 := d.setSeq k ((d.fld k).seq.pend x false)
  ((({ d1 with field := { d1.field with sampleQ := d1.field.sampleQ.upd k (fun q => q ++ [y]) } }).emit (.sample k y)).mon 0x04 k (d1.sampleLevel k + 1)).through 0x03 k

/-- A newer sample has replaced a waiting one (R247): the event is raised at most once per 100 ms. -/
def Dev.superseded (d : Dev) (k : Nat) (x : TaggedSample) : Dev :=
  let s := (d.fld k).seq
  let say := match s.supLast with
    | none => true
    | some t => decide (t + 100000000 ≤ d.time.raw)
  let n := bump 16 s.superseded
  let data := if x.source < 64 then x.entry else x.chan + 64
  ((d.setSeq k { s with superseded := n, supLast := if say then some d.time.raw else s.supLast }).satAt 0x10 16 n).raiseIf say 0x1015 (fldSrc k) .warn data

/-- A sample that is to be sent: it goes, or waits, at most one per source (R247). -/
def Dev.offerSample (d : Dev) (k : Nat) (x : TaggedSample) : Dev :=
  let s := (d.fld k).seq
  if d.sampleCredit k x.forLoop && !(s.waiting.any (fun y => y.forLoop = x.forLoop)) then d.sendSample k x
  else
    let lost := s.waiting.any (fun y => y.source = x.source)
    let d1 := d.setSeq k (({ s with waiting := s.waiting.filter (fun (y : TaggedSample) => y.source ≠ x.source) ++ [x] }).pend x true)
    if lost then d1.superseded k x else d1

/-- The waiting sample that goes next: the oldest TIME among those whose class has a credit (R247). -/
def Dev.nextSample (d : Dev) (k : Nat) : Option TaggedSample :=
  ((d.fld k).seq.waiting.filter (fun y => d.sampleCredit k y.forLoop)).foldl (fun (a : Option TaggedSample) y => match a with
    | none => some y
    | some z => if y.time < z.time then some y else a) none

/-- SAMPLE_SEND (R247). -/
def execSampleSend (die : Fin 4) (s : State) : Host.Outcome State Fault Refusal :=
  .next (match s.dev.nextSample die.val with
    | none => s
    | some x =>
      let q := (s.dev.fld die.val).seq
      { s with dev := (s.dev.setSeq die.val { q with waiting := q.waiting.erase x }).sendSample die.val x })

/-- Passes a sample to every loop that reads its channel (R19, R170). -/
def Dev.toLoops (d : Dev) (g : Nat) (x : TaggedSample) : Dev :=
  let y : Sample := { value := x.value, time := x.time, arrived := d.now, quality := x.quality }
  { d with loops := { d.loops with slot := d.loops.slot.mapD (fun l => if l.reads g then { l with samples := y :: l.samples } else l) } }

/-- SAMPLE_ARRIVAL (R246): the oldest sample on its way lands 0.6 µs to 1.24 µs after it was sent; during the Glide no die receives it. -/
def execSampleArrival (die : Fin 4) (s : State) : Host.Outcome State Fault Refusal :=
  .next (
    let k := die.val
    match s.dev.field.sampleQ.rd k with
    | [] => s
    | x :: xs =>
      let (ns, d0) := s.dev.freeNs 600 1240
      let d1 := d0.toRaw (x.sent + ns)
      let d2 : Dev := { d1 with field := { d1.field with sampleQ := d1.field.sampleQ.wr k xs } }
      let d3 := if x.native && d2.ctlUp then d2.toLoops (24 * k + x.chan) x else d2
      let d4 := match x.point with
        | some p => d3.writePoint { id := p, value := x.value, time := w32 x.time, quality := x.quality, source := BitVec.ofNat 8 (0x50 + k), last := true }
        | none => d3
      { s with dev := d4.mon 0x04 k (d4.sampleLevel k) })

/-! Clamp events (R266). -/

/-- Members that a GROUP setting stands for. -/
def DigCfg.members (c : DigCfg) : Nat := if c.group = 2 then 4 else if c.group = 1 then 2 else 1
/-- The current limit of a channel or group in units of 10 mA (R262). -/
def DigCfg.iLim (c : DigCfg) : Nat := if c.group = 0 then c.limit else min (c.limit * c.members) 200
/-- E_MAX in units of 1/7,200 mJ: half of L I² times 50/18. -/
def DigCfg.eMax (c : DigCfg) : Nat := if c.mode.toNat < 2 ∨ c.extFw ∨ c.lLoad = 0 then 0 else c.lLoad * c.iLim * c.iLim

/-- A number pattern of binary32 that stands for zero. -/
def isZero32 (v : Word) : Bool := b32.isZero v.toNat

/-- The output is on: it drives a value above zero. -/
def DigChan.on (x : DigChan) : Bool := x.driving && !isZero32 x.applied

/-- Starts the turn-off of a channel with E_MAX above 0. -/
def Dev.clampStart (d : Dev) (k c : Nat) : Dev :=
  let x := d.dig k c
  let d1 := d.setDig k c { x with applied := 0, deferred := false, safe := x.safe, clampStart := some d.time.raw, lastClamp := some d.time.raw }
  let f := d1.fld k
  d1.setFld k { f with clampQ := f.clampQ.erase c, lastClampStart := some d.time.raw, clampEvents := f.clampEvents + 1 }

/-- Starts the first deferred turn-off where 250 µs have passed since the die's previous clamp event. -/
def Dev.clampKick (d : Dev) (k : Nat) : Dev :=
  let f := d.fld k
  match f.clampQ with
  | [] => d
  | c :: _ =>
    match f.lastClampStart with
    | some t => if t + 250000 ≤ d.time.raw then d.clampStart k c else d
    | none => d.clampStart k c

/-- Turns a channel with E_MAX above 0 off: its clamp event starts, or is deferred with an estimate of its energy that no rule states. -/
def Dev.clampOff (d : Dev) (k c : Nat) : Dev :=
  let x := d.dig k c
  if x.deferred then d
  else
    let (e, d1) := d.freeN (2 ^ 32)
    let d2 := d1.setDig k c { x with deferred := true, clampEst := e }
    let f := d2.fld k
    (d2.setFld k { f with clampQ := f.clampQ ++ [c] }).clampKick k

/-- Turns a switch off: through a clamp event where it has E_MAX above 0 and is on, else at once. -/
def Dev.switchOff (d : Dev) (k c : Nat) : Dev :=
  let x := d.dig k c
  if x.on && decide (0 < x.cfg.eMax) then (d.setDig k c { x with held := false, pwmNext := none }).clampOff k c
  else d.setDig k c { x with held := false, pwmNext := none, applied := 0, onCycles := 0 }

/-- Turns a switch on: at once, or held until 100 ms after its last clamp event (R266); one that is deferred stays on. -/
def Dev.switchOn (d : Dev) (k c : Nat) (v : Word) : Dev :=
  let x := d.dig k c
  if x.overloadOff || x.overtemp || x.clampOver then d
  else if x.deferred then
    let d1 := d.setDig k c { x with deferred := false, clampEst := 0 }
    d1.setFld k { d1.fld k with clampQ := (d1.fld k).clampQ.erase c }
  else
    let early := match x.lastClamp with
      | some t => decide (0 < x.cfg.eMax ∧ d.time.raw < t + 100000000)
      | none => false
    if x.on then d
    else if early then
      let f := d.fld k
      let d1 := d.setDig k c { x with held := true, driving := true }
      if x.held then d1 else
        let n := bump 16 f.cycleHold
        (d1.setFld k { d1.fld k with cycleHold := n }).satAt 0x10 16 n
    else d.setDig k c { x with applied := v, driving := true, held := false }

/-! Values at an output. -/

/-- A decimal constant of binary64. -/
def dec64 (n : Int) (d : Nat) : Nat := b64.ofRat n d

/-- The output interval of an AO mode (R236). -/
def aoSpan (mode : Nat) : Nat × Nat :=
  match mode with
  | 8 => (0, dec64 10 1)
  | 9 => (0, dec64 21 1)
  | _ => (dec64 36 10, dec64 21 1)

/-- The DAC code of a value (R236). -/
def AnaChan.code (a : AnaChan) (v : Word) : Nat :=
  let w (x : Word) : Nat := conv b32 b64 x.toNat
  let x := b64.add (b64.mul (w v) (w a.cal.uGain)) (w a.cal.uOfs)
  let (lo, hi) := aoSpan a.cfg.mode.toNat
  let y := b64.clamp x lo hi
  let (k, o) := if a.cfg.mode = 8 then (a.cal.aoVk, a.cal.aoVo) else (a.cal.aoIk, a.cal.aoIo)
  (clampInt 0 65535 (b64.toInt (b64.add (b64.mul y (w k)) (w o)) 1)).toNat

/-- A value held to the AO mode's interval, as the die reports it applied. -/
def AnaChan.reported (a : AnaChan) (v : Word) : Word :=
  let (lo, hi) := aoSpan a.cfg.mode.toNat
  w32 (conv b64 b32 (b64.clamp (conv b32 b64 v.toNat) lo hi))

/-- Applies a value to an output. A PWM duty waits for its period start (R261) unless it comes at once. -/
def Dev.applyOut (d : Dev) (k c : Nat) (v : Word) (atOnce : Bool) : Dev :=
  let a := d.ana k c
  let x := d.dig k c
  if isAo a.cfg.mode then
    (d.setAna k c { a with dacCode := a.code v }).setDig k c { x with applied := a.reported v, driving := true, fresh := false }
  else if x.cfg.mode = 2 then
    let d1 := d.setDig k c { x with fresh := false }
    if isZero32 v then (d1.switchOff k c) else d1.switchOn k c v
  else if x.cfg.mode = 3 then
    if x.overloadOff || x.overtemp || x.clampOver then d.setDig k c { x with fresh := false }
    else if atOnce then d.setDig k c { x with applied := v, driving := true, fresh := false, pwmNext := none }
    else d.setDig k c { x with driving := true, fresh := false, pwmNext := some v }
  else d

/-- Turns an output off (R236, R268). -/
def Dev.outOff (d : Dev) (k c : Nat) : Dev :=
  let x := d.dig k c
  if x.cfg.mode = 2 then d.switchOff k c
  else d.setDig k c { x with applied := 0, driving := false, pwmNext := none, onCycles := 0 }

/-- 1.0 in binary32. -/
def one32 : Word := 0x3F800000

/-- Sets an output to its safe value (Table 12-4). A code that is reserved for the channel's function counts as OFF. -/
def Dev.applySafe (d : Dev) (k c : Nat) : Dev :=
  let f := d.fld k
  let code := f.safeCfg.codes.rd c
  let ao := isAo (d.ana k c).cfg.mode
  let pwm := (d.dig k c).cfg.mode = 3
  let d1 :=
    if code = 2 then d
    else if code = 1 ∧ !ao then d.applyOut k c one32 true
    else if code = 3 ∧ (ao ∨ pwm) then d.applyOut k c (f.safeCfg.values.rd c) true
    else d.outOff k c
  d1.setDig k c { d1.dig k c with safe := true }

/-- The newest value the die has received for a channel (R259): a landed output, else the commanded value. -/
def FieldDie.received (f : FieldDie) (c now : Nat) : Option OutTag :=
  (f.tags.filter (fun t => t.chan = c && ((t.landed.map (fun l => decide (l ≤ now))).getD false))).getLast?

/-- A value becomes the commanded value. -/
def Dev.command (d : Dev) (k c : Nat) (v : Word) (safe : Bool) : Dev :=
  let x := d.dig k c
  if safe then d.setDig k c { x with cmdSafe := true, fresh := false } else d.setDig k c { x with cmd := v, cmdSafe := false, fresh := false }

/-- Sets an output to its commanded value (R268, R270); a function that has had no value yet stays off (R259), and a die whose PLL has lost lock
keeps the safe value (R17). -/
def Dev.applyCmd (d : Dev) (k c : Nat) : Dev :=
  let x := d.dig k c
  let d1 := d.setDig k c { x with safe := false }
  if x.fresh then d1 else if x.cmdSafe || (d.fld k).pllLost then d1.applySafe k c else d1.applyOut k c x.cmd false

/-- The outputs of die `k`, ascending. -/
def Dev.outs (d : Dev) (k : Nat) : List Nat := (List.range 24).filter (fun c => d.isOut k c)

/-- Values that have landed become the commanded values (R259). -/
def Dev.takeLanded (d : Dev) (k : Nat) : Dev :=
  (d.outs k).foldl (fun acc c => match (acc.fld k).received c acc.now with
    | some t => acc.command k c t.value t.safe
    | none => acc) d

/-- Every output goes to its commanded value. -/
def Dev.allCmd (d : Dev) (k : Nat) : Dev := (d.outs k).foldl (fun acc c => acc.applyCmd k c) (d.takeLanded k)

/-- Every output goes to its safe value, turn-offs staggered (R269, R17). -/
def Dev.allSafe (d : Dev) (k : Nat) : Dev := (d.outs k).foldl (fun acc c => acc.applySafe k c) d

/-- Every output is turned off, turn-offs staggered. -/
def Dev.allOff (d : Dev) (k : Nat) : Dev := (d.outs k).foldl (fun acc c => acc.outOff k c) d

/-- Every output goes to its power-fail state (R273). -/
def Dev.allPowerFail (d : Dev) (k : Nat) : Dev :=
  (d.outs k).foldl (fun acc c => if bit (w32 (acc.fld k).safeCfg.pf.toNat) c then acc.applySafe k c else acc.outOff k c) d

/-- Every deferred turn-off of the die has started, 250 µs apart, time brought forward (R275). -/
def Dev.clampDrain (k : Nat) : Nat → Dev → Dev
  | 0, d => d
  | fuel + 1, d =>
    match (d.fld k).clampQ with
    | [] => d
    | c :: _ =>
      let t := ((d.fld k).lastClampStart.map (fun t => t + 250000)).getD d.time.raw
      Dev.clampDrain k fuel ((d.toRaw t).clampStart k c)

/-- The first base tick at or after `t`. -/
def baseTick (t : Nat) : Nat := (t + 9999) / 10000

/-- Sends an output to a field die, tagged with base tick `tick` (R172): it lands 0.6 µs to 1.24 µs later, or waits while the link is down. -/
def Dev.sendOutput (d : Dev) (k c : Nat) (v : Word) (tick : Nat) (loop : Option Nat) (safe : Bool) : Dev :=
  let (ns, d1) := d.freeNs 600 1240
  let t : OutTag := { chan := c, value := v, tick := tick, landed := if d.fldUp k && d.fldRuns k then some (d.now + ns) else none, safe := safe, loop := loop }
  ((d1.setFld k { d1.fld k with tags := (d1.fld k).tags ++ [t] }).emit (.outputs k c v)).through 0x02 k

/-- Present value of an output channel (R182): 0.0 while it is off. -/
def Dev.presentChan (d : Dev) (g : Nat) : Word :=
  let k := g / 24
  let x := d.dig k (g % 24)
  if !d.fldRuns k || decide ((d.fld k).outState = .disarmed) || !x.driving || x.overloadOff || x.overtemp || x.clampOver then 0 else x.applied

/-- The channel's destination accepts outputs (R184). -/
def Dev.accepting (d : Dev) (g : Nat) : Bool :=
  let k := g / 24
  d.fldRuns k && decide ((d.fld k).outState = .armed) && d.fldUp k && !(d.fld k).pllLost

/-- A loop or group that is not OFF has the channel as its destination (R194). -/
def Dev.owned (d : Dev) (g : Nat) : Bool :=
  let busy (m : LoopSlot) : Bool := m.mode ≠ .off || ((m.modeNext.map (fun x => decide (x ≠ .off))).getD false)
  d.loops.slot.any (fun x => decide ((x.2.cfg.outType = 1 ∨ x.2.cfg.outType = 2) ∧ x.2.cfg.outId = g) && busy x.2) ||
    d.loops.group.any (fun x => x.2.cfg.enable && decide ((x.2.cfg.outType = 1 ∨ x.2.cfg.outType = 2) ∧ x.2.cfg.outId = g) &&
      ((x.2.cfg.members.head?.map (fun l => busy (d.loops.slot.rd l))).getD false))

end Sys2Proof.Machine
end

