-- ==== Sys2Proof/Machine/Analogue.lean ====
section
/-! DEFINITION. Analogue channels (chapter 11): input conversion and quality (R234, R235, R250), the sequence table and its cycles (R239 to
R245), the test DAC (R248, R249), calibration (R251) and output faults (R237). -/

namespace Sys2Proof.Machine

open Sys2Proof.Bits Sys2Proof.Float

/-! Logarithm. -/

/-- The series of the inverse hyperbolic tangent in units of 2^-160: `p` is t^(2k+1), `q` is t². -/
def atanhSum : Nat → Nat → Nat → Nat → Nat
  | 0, _, _, _ => 0
  | fuel + 1, k, p, q => p / (2 * k + 1) + atanhSum fuel (k + 1) (p * q / 2 ^ 160) q

/-- The natural logarithm of n / d, from 1 to 2, in units of 2^-160. -/
def lnFix (n d : Nat) : Nat :=
  let t := (n - d) * 2 ^ 160 / (n + d)
  2 * atanhSum 60 0 t (t * t / 2 ^ 160)

/-- The natural logarithm of a binary64 number, rounded to nearest. -/
def ln64 (a : Nat) : Nat :=
  if b64.isNan a then b64.nan
  else if b64.isZero a then b64.put true b64.infMag
  else if b64.neg? a then b64.nan
  else if b64.isInf a then a
  else
    let u := b64.units (b64.mag a)
    let e := u.log2
    b64.ofRat ((lnFix u (2 ^ e) : Int) + ((e : Int) - b64.k) * lnFix 2 1) (2 ^ 160)

/-! Conversion to the physical value (R234). -/

/-- A binary32 value as binary64. -/
def w64 (w : Word) : Nat := conv b32 b64 w.toNat

/-- The coefficient A of IEC 60751. -/
def rtdA : Nat := dec64 39083 10000000
/-- The coefficient B. -/
def rtdB : Nat := dec64 (-5775) 10000000000
/-- The coefficient C. -/
def rtdC : Nat := dec64 (-4183) 1000000000000000

/-- One Newton step of the curve below 0 °C. -/
def rtdStep (rnom r t : Nat) : Nat :=
  let t2 := b64.mul t t
  let t3 := b64.mul t2 t
  let one := dec64 1 1
  let f := b64.sub (b64.mul rnom (b64.add (b64.add (b64.add one (b64.mul rtdA t)) (b64.mul rtdB t2)) (b64.mul (b64.mul rtdC (b64.sub t (dec64 100 1))) t3))) r
  let fd := b64.mul rnom (b64.add (b64.add rtdA (b64.mul (b64.mul (dec64 2 1) rtdB) t)) (b64.mul rtdC (b64.sub (b64.mul (dec64 4 1) t3) (b64.mul (dec64 300 1) t2))))
  b64.sub t (b64.div f fd)

/-- The temperature of a resistance thermometer. -/
def rtdTemp (rnom r : Nat) : Nat :=
  let one := dec64 1 1
  let twoB := b64.mul (dec64 2 1) rtdB
  let disc := b64.sub (b64.mul rtdA rtdA) (b64.mul (b64.mul (dec64 4 1) rtdB) (b64.sub one (b64.div r rnom)))
  if b64.lt disc 0 then b64.div (b64.negate rtdA) twoB
  else
    let t := b64.div (b64.add (b64.negate rtdA) (b64.sqrt disc)) twoB
    if b64.lt r rnom then rtdStep rnom r (rtdStep rnom r (rtdStep rnom r t)) else t

/-- Nominal resistance at 0 °C of an RTD mode. -/
def rtdNom (mode : Nat) : Nat := if mode = 5 then dec64 100 1 else dec64 1000 1

/-- The resistance an RTD or NTC mode sees at `v` volts. -/
def AnaChan.ohms (a : AnaChan) (dc : DieCal) (v : Nat) : Nat :=
  if a.cfg.mode = 7 then b64.div (b64.mul (dec64 10000 1) v) (b64.sub (w64 dc.vref) v)
  else b64.div v (w64 (if a.cfg.exc then a.cal.iexcHi else a.cal.iexcLo))

/-- The current through the shunt in mA. -/
def AnaChan.mA (a : AnaChan) (v : Nat) : Nat := b64.div (b64.mul (dec64 1000 1) v) (w64 a.cal.shunt)

/-- The physical value p of an input mode. -/
def AnaChan.native (a : AnaChan) (dc : DieCal) (v : Nat) : Nat :=
  match a.cfg.mode.toNat with
  | 3 | 4 => a.mA v
  | 5 => rtdTemp (rtdNom 5) (a.ohms dc v)
  | 6 => rtdTemp (rtdNom 6) (a.ohms dc v)
  | 7 =>
    let l := ln64 (a.ohms dc v)
    let s := b64.add (b64.add (w64 a.cal.ntcA) (b64.mul (w64 a.cal.ntcB) l)) (b64.mul (w64 a.cal.ntcC) (b64.mul (b64.mul l l) l))
    b64.sub (b64.div (dec64 1 1) s) (dec64 27315 100)
  | _ => v

/-! Quality (R235). -/

/-- The nominal span of an input mode and the margin of Table 11-3 beyond it. -/
def modeSpan (mode : Nat) : (Int × Nat) × (Int × Nat) × (Int × Nat) :=
  match mode with
  | 1 => ((0, 1), (10, 1), (2, 10))
  | 2 => ((-10, 1), (10, 1), (4, 10))
  | 3 => ((0, 1), (20, 1), (4, 10))
  | 5 | 6 => ((-200, 1), (850, 1), (21, 1))
  | _ => ((-40, 1), (125, 1), (33, 10))

/-- Less than a decimal. -/
def below (p : Nat) (n : Int) (d : Nat) : Bool := b64.lt p (dec64 n d)
/-- More than a decimal. -/
def above (p : Nat) (n : Int) (d : Nat) : Bool := b64.lt (dec64 n d) p

/-- p lies outside the span by more than the margin. -/
def farOut (mode p : Nat) : Bool :=
  let (lo, hi, m) := modeSpan mode
  below p (lo.1 * m.2 - m.1 * lo.2) (lo.2 * m.2) || above p (hi.1 * m.2 + m.1 * hi.2) (hi.2 * m.2)

/-- p lies outside the span. -/
def outSpan (mode p : Nat) : Bool :=
  let (lo, hi, _) := modeSpan mode
  below p lo.1 lo.2 || above p hi.1 hi.2

/-- The quality of a native result: the first column of Table 11-3 that holds. -/
def AnaChan.grade (a : AnaChan) (dc : DieCal) (v p : Nat) (sat : Bool) : Nat :=
  let m := a.cfg.mode.toNat
  match m with
  | 4 =>
    if below p 5 10 then 0x81
    else if below p 36 10 || above p 21 1 then 0x83
    else if sat then 0x82
    else if below p 4 1 || above p 20 1 then 0x41 else 0
  | 5 | 6 =>
    if sat then 0x81
    else if b64.lt (a.ohms dc v) (b64.mul (dec64 1 10) (rtdNom m)) then 0x83
    else if farOut m p then 0x82 else if outSpan m p then 0x41 else 0
  | 7 =>
    if b64.le (b64.mul (dec64 998 1000) (w64 dc.vref)) v then 0x81
    else if below (a.ohms dc v) 20 1 then 0x83
    else if farOut m p then 0x82 else if outSpan m p then 0x41 else 0
  | _ => if sat || farOut m p then 0x82 else if outSpan m p then 0x41 else 0

/-! The converters (R238, R250). -/

/-- Range index of an entry: 0 FS10, 1 FS2, 2 FS06; AUTO takes the mode's range (Table 11-1, R248). -/
def AnaCfg.range (c : AnaCfg) (f : BitVec 2) : Nat :=
  if f ≠ 0 then f.toNat - 1
  else match c.mode.toNat with
    | 3 | 4 | 7 | 9 | 10 => 1
    | 5 => 2
    | 6 => if c.exc then 0 else 1
    | _ => 0

/-- LSB of a range in volts (Table 11-4). -/
def lsb (r : Nat) : Nat := if r = 0 then dec64 3125 10000000 else if r = 1 then dec64 78125 1000000000 else dec64 1953125 100000000000

/-- 95 % of a range's full scale in volts. -/
def fs95 (r : Nat) : Nat := if r = 0 then dec64 9728 1000 else if r = 1 then dec64 2432 1000 else dec64 608 1000

/-- A gain that reads 1.0 where nothing is stored. -/
def gainAt (t : Tbl Word) (i : Nat) : Nat := w64 (Tbl.rdD one32 t i)

/-- Conversion `j` of an entry, corrected with its converter's trims. -/
def DieCal.corr (dc : DieCal) (adc r j raw : Nat) : Nat :=
  let a := if adc = 2 then j % 2 else adc
  let c := b64.mul (b64.sub (b64.ofRat (sgn 16 raw) 1) (w64 (dc.adcOfs.rd (3 * a + r)))) (gainAt dc.adcGain (3 * a + r))
  if adc = 2 ∧ a = 1 then b64.add (b64.mul c (gainAt dc.hbGain r)) (w64 (dc.hbOfs.rd r)) else c

/-- The corrected code c of an entry: the mean of its conversions or the last one. A conversion that the command names no code for counts as code 0. -/
def SeqEntry.combine (e : SeqEntry) (dc : DieCal) (r : Nat) (codes : List Nat) : Nat :=
  let cs := (List.range e.repeats).map (fun j => dc.corr e.adc.toNat r j (codes.getD j 0))
  if e.mean then
    match cs with
    | [] => 0
    | x :: xs => b64.div (xs.foldl b64.add x) (b64.ofRat e.repeats 1)
  else (cs.getLast?).getD 0

/-- A conversion returned the least or the largest code. -/
def SeqEntry.saturated (e : SeqEntry) (codes : List Nat) : Bool := (codes.take e.repeats).any (fun c => c % 65536 = 32768 || c % 65536 = 32767)

/-- The voltage a TEST entry expects (R248). -/
def DieCal.expected (dc : DieCal) (code : Nat) : Nat :=
  b64.add (b64.mul (b64.mul (b64.ofRat code 1) (dec64 25 10000)) (w64 dc.tdacGain)) (w64 dc.tdacOfs)

/-! Timing of a cycle (R240), in units of 0.5 µs from its start. -/

/-- The instants of one entry. -/
structure EntryTime where
  /-- Entry. -/
  e : Nat
  /-- Input path switched. -/
  start : Nat
  /-- First conversion. -/
  first : Nat
  /-- Last conversion. -/
  last : Nat
  /-- End. -/
  stop : Nat
  deriving DecidableEq, Repr

/-- Instants of the enabled entries and the cycle's length. -/
def seqTimes : Tbl SeqEntry → Nat → Nat → List EntryTime × Nat
  | [], t0, t1 => ([], max t0 t1)
  | (i, e) :: t, t0, t1 =>
    if !e.enable then seqTimes t t0 t1
    else if e.adc.toNat = 2 then
      let s := max t0 t1
      let f := s + 2 * e.settleUs
      let stop := f + e.repeats + 1
      let (l, n) := seqTimes t stop stop
      ({ e := i, start := s, first := f, last := f + e.repeats - 1, stop := stop } :: l, n)
    else
      let s := if e.adc.toNat = 0 then t0 else t1
      let f := s + 2 * e.settleUs
      let stop := f + 2 * e.repeats
      let (l, n) := if e.adc.toNat = 0 then seqTimes t stop t1 else seqTimes t t0 stop
      ({ e := i, start := s, first := f, last := f + 2 * (e.repeats - 1), stop := stop } :: l, n)

/-- Instants of the active table. -/
def Sequencer.times (s : Sequencer) : List EntryTime := (seqTimes s.table 0 0).1

/-- STATE of Table 11-14. -/
def SeqState.num : SeqState → Nat
  | .stopped => 0
  | .running => 1
  | .stopping => 2

/-- Enters a run state; RUNNING and STOPPED raise FLD_SEQ_STATE, and STOPPED takes a committed table (R243). -/
def Dev.seqState (d : Dev) (k : Nat) (st : SeqState) : Dev :=
  let s := (d.fld k).seq
  let s1 := if st = .stopped then { s with state := st, table := s.committed.getD s.table, committed := none, nextCycle := none } else { s with state := st }
  (d.setSeq k s1).raiseIf (decide (st ≠ s.state ∧ st ≠ .stopping)) 0x1011 (fldSrc k) .info st.num

/-- First cycle start of the settings at or after `t` (R242). -/
def SeqSettings.first (c : SeqSettings) (t : Nat) : Nat := if c.ticks = 0 then t else gridAt t (c.ticks * 10000) (c.phase * 10000)

/-- Aligned instants after `a` and before `b`. -/
def SeqSettings.between (c : SeqSettings) (a b : Nat) : Nat :=
  if c.ticks = 0 then 0
  else
    let f := c.first (a + 1)
    if b ≤ f then 0 else (b - f + c.ticks * 10000 - 1) / (c.ticks * 10000)

/-- The instant of the next cycle start: a waiting START's, or the running sequence's. -/
def Sequencer.due (s : Sequencer) : Option Nat :=
  if s.inCycle then none
  else match s.startWait with
    | some c => some (c.first (max s.startAt s.cycleEnd))
    | none => if s.state = .running then s.nextCycle else none

/-- The cycle that follows one starting at `c` (R242). -/
def Sequencer.follow (s : Sequencer) (c : Nat) : Nat :=
  if s.set.ticks = 0 then max (c + 1000) ((s.cycleEnd + 999) / 1000 * 1000) else s.set.first (max (c + 1) s.cycleEnd)

/-- A cycle starts at `c` (R242, R243). -/
def Dev.startCycle (d0 : Dev) (k c : Nat) : Dev :=
  let d := d0.toCt c
  let s := (d.fld k).seq
  let slips := if s.startWait.isSome then 0 else s.slipOwed + s.set.between s.slipBase c
  let s1 := match s.startWait with
    | some x => { s with set := x, startWait := none, auto := false, results := s.results.mapD (fun r => { r with testSeen := false }) }
    | none => s
  let s2 := if s1.committed.isSome && decide (s1.commitAt ≤ c) then { s1 with table := s1.committed.getD s1.table, committed := none } else s1
  let len := (seqTimes s2.table 0 0).2
  let n := satN 16 (s2.slipCnt + slips)
  let s3 := { s2 with
    cycleStart := c, cycleEnd := c + 500 * len, inCycle := s2.table.any (fun x => x.2.enable), ended := [], voided := [], cycleCnt := s2.cycleCnt + 1
    cycleLen := satN 20 (50 * len), slipBase := c, slipOwed := 0, slipCnt := n }
  let s4 := { s3 with nextCycle := some (s3.follow c) }
  let d1 := (d.setSeq k s4).seqState k .running
  let d2 := if 0 < slips then d1.satAt 0x10 16 n else d1
  d2.raiseIf (decide (0 < slips)) 0x1010 (fldSrc k) .warn (slips % 65536 + 2 ^ 16 * s.cycleLen)

/-- SEQ_CYCLE_START (R242). -/
def execSeqCycleStart (die : Fin 4) (s : State) : Host.Outcome State Fault Refusal :=
  .next (
    let q := (s.dev.fld die.val).seq
    match q.due with
    | some c => if !s.dev.fldRuns die.val || q.auto then s else { s with dev := s.dev.startCycle die.val c }
    | none => s)

/-- SEQ_AUTOSTART (R252): the first cycle of a die whose saved run state is RUNNING. -/
def execSeqAutostart (die : Fin 4) (s : State) : Host.Outcome State Fault Refusal :=
  .next (
    let q := (s.dev.fld die.val).seq
    match q.due with
    | some c => if !s.dev.fldRuns die.val || !q.auto then s else { s with dev := s.dev.startCycle die.val c }
    | none => s)

/-! Results (R241, R244 to R248). -/

/-- A test connection overlaps a conversion of the entry (R244, R249). -/
def Sequencer.testOverlap (s : Sequencer) (e : SeqEntry) (t : EntryTime) : Bool :=
  s.tdacChan = some e.chan ||
    ((s.tdacRel.map (fun r => decide (r.1 = e.chan ∧ s.cycleStart + 500 * t.first < r.2))).getD false) ||
    s.times.any (fun u => let x := s.table.rd u.e
                          x.test && decide (x.chan = e.chan) && decide (u.start < t.last + 2) && decide (t.first < u.stop))

/-- Value and quality of a MEASURE entry (R235, R250). -/
def AnaChan.measure (a : AnaChan) (dc : DieCal) (e : SeqEntry) (v : Nat) (sat : Bool) : Word × Nat :=
  let out (p : Nat) : Word := w32 (conv b64 b32 (b64.add (b64.mul p (w64 a.cfg.scale)) (w64 a.cfg.offset)))
  let trim (p : Nat) : Nat := b64.add (b64.mul p (w64 a.cal.chGain)) (w64 a.cal.chOfs)
  let own := if sat then 0x82 else 0
  match e.meas.toNat with
  | 0 => if isAi a.cfg.mode then (let p := trim (a.native dc v); (out p, a.grade dc v p sat)) else (0, 0x80)
  | 1 => (out v, own)
  | _ =>
    if !isAo a.cfg.mode then (0, 0x80)
    else (out (trim (if a.cfg.mode = 8 then v else a.mA v)), if sat then 0x82 else if a.aoShort || a.aoOpen then 0x40 else 0)

/-- SENSOR_FAULT follows a native result's quality (R235). -/
def Dev.sensorFault (d : Dev) (k c q : Nat) : Dev :=
  let a := d.ana k c
  let bad := decide (q = 0x81 ∨ q = 0x83)
  (d.setAna k c { a with sensorFault := bad, lastQuality := BitVec.ofNat 8 q }).raiseIf (bad ≠ a.sensorFault) 0x1013 (fldSrc k) .warn (c + 256 * b1 bad + 65536 * q)

/-- A cycle whose entries have all ended is over. -/
def Dev.cycleOver (d : Dev) (k : Nat) : Dev :=
  let s := (d.fld k).seq
  if s.inCycle && s.times.all (fun t => s.ended.contains t.e) then
    let d1 := d.setSeq k { s with inCycle := false }
    if s.state = .stopping then d1.seqState k .stopped else d1
  else d

/-- The result of an entry that ended (R245, R248). -/
def Dev.writeResult (d : Dev) (k : Nat) (e : SeqEntry) (t : EntryTime) (codes : List Nat) : Dev :=
  let f := d.fld k
  let s := f.seq
  let a := d.ana k e.chan
  let r := a.cfg.range e.range
  let c := e.combine f.cal r codes
  let v := b64.mul c (lsb r)
  let code := BitVec.ofInt 20 (satI 20 (b64.toInt c 16))
  let time := s.cycleStart + 500 * (if e.mean then t.first else t.last)
  let old := s.results.rd t.e
  if e.test then
    let fail := !b64.le (b64.abs (b64.sub v (f.cal.expected e.tdacCode))) (w64 e.tol)
    let vw := w32 (conv b64 b32 v)
    let reg := { old with value := vw, time := time, code := code, quality := if fail then 0x80 else 0, seqCnt := old.seqCnt + 1, testFail := fail, testSeen := true }
    let n := if fail then bump 16 s.testFailCnt else s.testFailCnt
    let d1 := (d.setSeq k { s with results := s.results.wr t.e reg, testFailCnt := n })
    let d2 := if fail then d1.satAt 0x10 16 n else d1
    d2.raiseIf (decide (fail ≠ old.testFail) || (!old.testSeen && fail)) 0x1012 (fldSrc k) .warn (t.e + 256 * b1 fail + 2 ^ 32 * vw.toNat)
  else
    let (value, q0) := a.measure f.cal e v (e.saturated codes)
    let hit := s.testOverlap e t
    let q := if hit then 0x80 else q0
    let reg := { old with value := value, time := time, code := code, quality := BitVec.ofNat 8 q, seqCnt := old.seqCnt + 1, testFail := false, pending := false }
    let native := e.meas = 0
    let d1 := d.setSeq k { s with results := s.results.wr t.e reg }
    let d2 := if native && isAi a.cfg.mode && !hit then d1.sensorFault k e.chan q
      else if native then d1.setAna k e.chan { d1.ana k e.chan with lastQuality := BitVec.ofNat 8 q } else d1
    let forLoop := native && d2.loopInput (24 * k + e.chan)
    let x : TaggedSample := { value := value, time := time, chan := e.chan, native := native, quality := BitVec.ofNat 8 q, point := if e.toPoint then some e.point else none,
                              entry := t.e, seqLo := BitVec.ofNat 8 reg.seqCnt.toNat, source := t.e, forLoop := forLoop }
    if e.toPoint || forLoop then d2.offerSample k x else d2

/-- ENTRY_RESULT (R245): the result register is written 0.2 µs to 0.6 µs after the entry's end, unless the channel's mode changed during it. -/
def execEntryResult (die : Fin 4) (e : Fin 64) (codes : List Nat) (s : State) : Host.Outcome State Fault Refusal :=
  .next (
    let k := die.val
    let q := (s.dev.fld k).seq
    match q.times.find? (fun t => t.e = e.val) with
    | none => s
    | some t =>
      if !s.dev.fldRuns k || !q.inCycle || q.ended.contains e.val then s
      else
        let (ns, d0) := s.dev.freeNs 200 600
        let d1 := d0.toCt (q.cycleStart + 500 * t.stop + ns)
        let d2 := if q.voided.contains e.val then d1 else d1.writeResult k (q.table.rd e.val) t codes
        let q2 := (d2.fld k).seq
        { s with dev := (d2.setSeq k { q2 with ended := e.val :: q2.ended }).cycleOver k })

/-- Entries in progress on a channel whose mode changes write no result (R244). -/
def Dev.voidEntries (d : Dev) (k c : Nat) : Dev :=
  let s := (d.fld k).seq
  let now := d.now
  let hit := (s.times.filter (fun t => decide ((s.table.rd t.e).chan = c ∧ s.cycleStart + 500 * t.start ≤ now ∧ now < s.cycleStart + 500 * t.stop))).map (fun t => t.e)
  if s.inCycle then d.setSeq k { s with voided := hit ++ s.voided } else d

/-! Commands (Table 11-13). -/

/-- The unit is a field die with a channel below `n` as sub-unit. -/
def onChan (n : Nat) (p : Packet) : Bool := p.unit = 0x10 && decide (p.inst < 4) && decide (p.sub < n)

/-- A new output function starts at commanded value 0.0 with its output off; a function that ends leaves its output off (R259). -/
def Dev.newFunction (d : Dev) (k c : Nat) (isOutput : Bool) : Dev :=
  let x := d.dig k c
  let d1 := d.setDig k c { x with cmd := 0, cmdSafe := false, applied := 0, driving := false, fresh := isOutput, pwmNext := none, held := false, safe := false, deferred := false }
  d1.setFld k { d1.fld k with clampQ := (d1.fld k).clampQ.erase c }

/-- The parameter checks of ACH_CONFIG, in order. -/
def achChecks (s : State) (q : QPacket) : List (Bool × Nat × Nat) :=
  let d := s.dev
  let k := q.pkt.inst
  let c := q.pkt.sub
  let mode := q.f 0 3 0
  let rtd := decide (mode = 5 ∨ mode = 6)
  let new : AnaCfg := { mode := BitVec.ofNat 4 mode, exc := q.b 0 4, threeWire := q.b 0 5, scale := q.par 1, offset := q.par 2 }
  let old := (d.ana k c).cfg
  let partner := (d.ana k (c + 1)).cfg.mode ≠ 0 || (d.dig k (c + 1)).cfg.mode ≠ 0 || (d.dig k (c + 1)).memberOf.isSome
  let odd := c % 2 = 1 && (d.ana k (c - 1)).cfg.threeWire
  [encIf (decide (10 < mode) || q.resv 0 0x3F) 0, rangeIf (!fin32 (q.par 1) || isZero32 (q.par 1)) 1, rangeIf (!fin32 (q.par 2)) 2,
      conflictIf (decide ((d.dig k c).cfg.mode ≠ 0) || (d.dig k c).memberOf.isSome) 0, conflictIf (decide (8 ≤ mode ∧ 8 ≤ c)) 0,
      conflictIf ((new.exc || new.threeWire) && !rtd) 0, conflictIf (new.threeWire && (decide (c % 2 = 1) || partner)) 0, conflictIf odd 0,
      stateIf (decide (new.mode ≠ old.mode) && d.owned (24 * k + c))]

/-- ACH_CONFIG (R232, R233). -/
def opAchConfig : Op where
  code := 0x0710
  target := onChan 24
  classN := true
  params := 3
  body s q :=
    let d := s.dev
    let k := q.pkt.inst
    let c := q.pkt.sub
    let mode := q.f 0 3 0
    let new : AnaCfg := { mode := BitVec.ofNat 4 mode, exc := q.b 0 4, threeWire := q.b 0 5, scale := q.par 1, offset := q.par 2 }
    let old := (d.ana k c).cfg
    guarded s (achChecks s q)
      (let d1 := d.setAna k c { d.ana k c with cfg := new }
       let d2 := if new.mode = old.mode then d1
         else
           let d3 := d1.voidEntries k c
           let d4 := if isAo old.mode || isAo new.mode then d3.newFunction k c (isAo new.mode) else d3
           if (d4.ana k c).sensorFault then (d4.setAna k c { d4.ana k c with sensorFault := false }).raise 0x1013 (fldSrc k) .warn (c + 65536 * (d4.ana k c).lastQuality.toNat) else d4
       .ok s d2)

/-- ACH_CONFIG. -/
def execAchConfig (p : Packet) (s : State) : Host.Outcome State Fault Refusal := .next (packetRow opAchConfig p s)

/-- Entry of a SEQ_WRITE whose first word is Pi (Table 11-5). -/
def seqEntryOf (q : QPacket) (i : Nat) : SeqEntry :=
  { chan := q.f i 4 0, meas := BitVec.ofNat 2 (q.f i 6 5), range := BitVec.ofNat 2 (q.f i 9 8), adc := BitVec.ofNat 2 (q.f i 11 10), mean := q.b i 12, test := q.b i 13
    enable := q.b i 14, settleUs := q.f i 25 16, repeats := q.f (i + 1) 7 0 + 1, point := q.f (i + 1) 27 8, toPoint := q.b (i + 1) 28, tdacCode := q.f (i + 2) 11 0, tol := q.par (i + 3) }

/-- Checks of one entry (R239): encodings, ranges and conflicts. -/
def seqEntryChecks (d : Dev) (k : Nat) (q : QPacket) (i : Nat) : List (Bool × Nat × Nat) × List (Bool × Nat × Nat) × List (Bool × Nat × Nat) :=
  let e := seqEntryOf q i
  let r := (d.ana k e.chan).cfg.range e.range
  ([encIf (decide (e.meas = 3 ∨ e.adc = 3) || q.resv i 0x03FF7F7F) i, encIf (q.resv (i + 1) 0x1FFFFFFF) (i + 1), encIf (q.resv (i + 2) 0xFFF) (i + 2)],
   [rangeIf (decide (24 ≤ e.chan)) i, rangeIf (!e.test && decide (e.tdacCode ≠ 0)) (i + 2),
    rangeIf (if e.test then !(fin32 e.tol && lt32 0 e.tol) else decide (e.tol ≠ 0)) (i + 3)],
   [conflictIf (e.test && e.toPoint) (i + 1), conflictIf (e.test && b64.lt (fs95 r) (b64.abs ((d.fld k).cal.expected e.tdacCode))) (i + 2),
    conflictIf (e.test && decide (e.meas = 2)) i, conflictIf (decide (e.meas = 2 ∧ 8 ≤ e.chan)) i])

/-- SEQ_WRITE (R239, R243). -/
def opSeqWrite : Op where
  code := 0x0711
  target := onInst 0x10 4
  classN := true
  params := 1
  body s q :=
    let d := s.dev
    let k := q.pkt.inst
    let sq := (d.fld k).seq
    let first := q.f 0 5 0
    let count := q.f 0 14 8
    let commit := q.b 0 16
    let cs := (List.range count).map (fun j => seqEntryChecks d k q (1 + 4 * j))
    let base := sq.pendTable.getD sq.table
    let new := (List.range count).foldl (fun (t : Tbl SeqEntry) j => t.wr (first + j) (seqEntryOf q (1 + 4 * j))) base
    guarded s ([encIf (q.resv 0 0x17F3F) 0, rangeIf (outside count 1 64 || decide (64 < first + count)) 0, (decide (q.n < 1 + 4 * count), stBadLength, 1)] ++
        cs.flatMap (fun x => x.1) ++ cs.flatMap (fun x => x.2.1) ++ cs.flatMap (fun x => x.2.2) ++
        [conflictIf (commit && sq.tdacChan.isSome && new.any (fun x => x.2.enable && x.2.test)) 0])
      (if !commit then .ok s (d.setSeq k { sq with pendTable := some new })
       else if sq.state = .stopped then .ok s (d.setSeq k { sq with table := new, pendTable := none, committed := none })
       else { st := { s with dev := d.setSeq k { sq with pendTable := none, committed := some new, commitAt := d.now + 100000 } }, status := stOkPending })

/-- SEQ_WRITE. -/
def execSeqWrite (p : Packet) (s : State) : Host.Outcome State Fault Refusal := .next (packetRow opSeqWrite p s)

/-- SEQ_START with START (R243). -/
def opSeqStart : Op where
  code := 0x0712
  sel := fun p => bit (p.par 0) 0
  target := onInst 0x10 4
  classN := true
  params := 3
  body s q :=
    let d := s.dev
    let k := q.pkt.inst
    let sq := (d.fld k).seq
    let ticks := q.f 1 22 0
    let phase := q.f 2 22 0
    let set : SeqSettings := { ticks := ticks, phase := phase }
    guarded s [encIf (q.resv 0 1) 0, encIf (q.resv 1 0x7FFFFF) 1, encIf (q.resv 2 0x7FFFFF) 2, rangeIf (decide (6553600 < ticks)) 1,
        rangeIf (if ticks = 0 then decide (phase ≠ 0) else decide (ticks ≤ phase)) 2]
      (let d1 := d.setSeq k { sq with startWait := some set, startAt := d.now + 100000, savedRun := true, auto := false }
       { st := { s with dev := if sq.state = .stopping then d1.seqState k .running else d1 }, status := stOkPending })

/-- SEQ_START. -/
def execSeqStart (p : Packet) (s : State) : Host.Outcome State Fault Refusal := .next (packetRow opSeqStart p s)

/-- SEQ_START with STOP (R243). -/
def opSeqStop : Op where
  code := 0x0712
  sel := fun p => !bit (p.par 0) 0
  target := onInst 0x10 4
  classN := true
  params := 1
  body s q :=
    let d := s.dev
    let k := q.pkt.inst
    let sq := (d.fld k).seq
    let d1 := d.setSeq k { sq with startWait := none, auto := false, savedRun := false }
    guarded s [encIf (q.resv 0 1) 0]
      (match sq.state with
       | .stopped => if sq.startWait.isSome then .ok s d1 else { st := s, status := stOkNoChange }
       | .running => { st := { s with dev := if sq.inCycle then d1.seqState k .stopping else d1.seqState k .stopped }, status := stOkPending }
       | .stopping => { st := s, status := stOkNoChange })

/-- SEQ_STOP. -/
def execSeqStop (p : Packet) (s : State) : Host.Outcome State Fault Refusal := .next (packetRow opSeqStop p s)

/-- The four words of a result register (Table 11-7). -/
def ResultReg.words (r : ResultReg) : List Word :=
  [r.value, w32 r.time, pack [(r.code.toNat, 0), (r.quality.toNat, 24)], pack [(r.seqCnt.toNat, 0), (b1 r.testFail, 16), (b1 r.pending, 17)]]

/-- SEQ_RESULT (R245). -/
def opSeqResult : Op where
  code := 0x0713
  target := onInst 0x10 4
  params := 1
  body s q :=
    let first := q.f 0 5 0
    let count := q.f 0 14 8
    guarded s [encIf (q.resv 0 0x7F3F) 0, rangeIf (outside count 1 64 || decide (64 < first + count)) 0]
      (.read s ((List.range count).flatMap (fun j => ((s.dev.fld q.pkt.inst).seq.results.rd (first + j)).words)))

/-- SEQ_RESULT. -/
def execSeqResult (p : Packet) (s : State) : Host.Outcome State Fault Refusal := .next (packetRow opSeqResult p s)

/-- OP of a CAL_WRITE. -/
def calOp (p : Packet) : Nat := fld (p.par 0) 2 0

/-- Checks that every CAL_WRITE makes; a reserved OP is booked by the CHANNEL_TRIM row. -/
def calChecks (q : QPacket) : List (Bool × Nat × Nat) := [encIf (decide (5 < q.f 0 2 0) || q.resv 0 0x37) 0]

/-- A gain lies within `n / 1000` of 1.0, the bounds as the nearest binary32 values. -/
def gainIn (w : Word) (n : Nat) : Bool := fin32 w && le32 (rat32 (1000 - n) 1000) w && le32 w (rat32 (1000 + n) 1000)

/-- CAL_WRITE CHANNEL_TRIM (R251). -/
def opCalChannelTrim : Op where
  code := 0x0714
  sel := fun p => calOp p = 0 || decide (5 < calOp p)
  target := onChan 24
  classN := true
  params := 4
  body s q :=
    let a := s.dev.ana q.pkt.inst q.pkt.sub
    guarded s (calChecks q ++ [rangeIf (!gainIn (q.par 1) 100) 1, rangeIf (!fin32 (q.par 2)) 2, rangeIf (decide (q.par 3 ≠ 0)) 3])
      (.ok s (s.dev.setAna q.pkt.inst q.pkt.sub { a with cal := { a.cal with chGain := q.par 1, chOfs := q.par 2 } }))

/-- CAL_CHANNEL_TRIM. -/
def execCalChannelTrim (p : Packet) (s : State) : Host.Outcome State Fault Refusal := .next (packetRow opCalChannelTrim p s)

/-- CAL_WRITE NTC (R251). -/
def opCalNtc : Op where
  code := 0x0714
  sel := fun p => calOp p = 1
  target := onChan 24
  classN := true
  params := 4
  body s q :=
    let a := s.dev.ana q.pkt.inst q.pkt.sub
    guarded s (calChecks q ++ [rangeIf (!fin32 (q.par 1)) 1, rangeIf (!fin32 (q.par 2)) 2, rangeIf (!fin32 (q.par 3)) 3])
      (.ok s (s.dev.setAna q.pkt.inst q.pkt.sub { a with cal := { a.cal with ntcA := q.par 1, ntcB := q.par 2, ntcC := q.par 3 } }))

/-- CAL_NTC. -/
def execCalNtc (p : Packet) (s : State) : Host.Outcome State Fault Refusal := .next (packetRow opCalNtc p s)

/-- CAL_WRITE AO_TRIM (R251). -/
def opCalAoTrim : Op where
  code := 0x0714
  sel := fun p => calOp p = 2
  target := onChan 8
  classN := true
  params := 4
  body s q :=
    let a := s.dev.ana q.pkt.inst q.pkt.sub
    guarded s (calChecks q ++ [rangeIf (!gainIn (q.par 1) 100) 1, rangeIf (!fin32 (q.par 2)) 2, rangeIf (decide (q.par 3 ≠ 0)) 3])
      (.ok s (s.dev.setAna q.pkt.inst q.pkt.sub { a with cal := { a.cal with uGain := q.par 1, uOfs := q.par 2 } }))

/-- CAL_AO_TRIM. -/
def execCalAoTrim (p : Packet) (s : State) : Host.Outcome State Fault Refusal := .next (packetRow opCalAoTrim p s)

/-- The unit is a field die as a whole: sub-unit 0xFF. -/
def onWholeDie (p : Packet) : Bool := p.unit = 0x10 && decide (p.inst < 4) && p.sub = 0xFF

/-- CAL_WRITE HB_MANUAL (R251). -/
def opCalHbManual : Op where
  code := 0x0714
  sel := fun p => calOp p = 3
  target := onWholeDie
  classN := true
  params := 4
  body s q :=
    let f := s.dev.fld q.pkt.inst
    let r := q.f 0 5 4
    guarded s (calChecks q ++ [rangeIf (decide (r = 0)) 0, rangeIf (!gainIn (q.par 1) 10) 1, rangeIf (!fin32 (q.par 2)) 2, rangeIf (decide (q.par 3 ≠ 0)) 3])
      (.ok s (s.dev.setFld q.pkt.inst { f with cal := { f.cal with hbGain := Tbl.wrD one32 f.cal.hbGain (r - 1) (q.par 1), hbOfs := f.cal.hbOfs.wr (r - 1) (q.par 2) } }))

/-- CAL_HB_MANUAL. -/
def execCalHbManual (p : Packet) (s : State) : Host.Outcome State Fault Refusal := .next (packetRow opCalHbManual p s)

/-- The match trims of range `r` from four means, which are measurements and so free. -/
def Dev.hbMeasure (d : Dev) (k r : Nat) : Dev :=
  let (a, d1) := d.freeN (2 ^ 64)
  let (b, d2) := d1.freeN (2 ^ 64)
  let (c, d3) := d2.freeN (2 ^ 64)
  let (e, d4) := d3.freeN (2 ^ 64)
  let g := b64.div (b64.sub b a) (b64.sub e c)
  let f := d4.fld k
  d4.setFld k { f with cal := { f.cal with hbGain := Tbl.wrD one32 f.cal.hbGain r (w32 (conv b64 b32 g)), hbOfs := f.cal.hbOfs.wr r (w32 (conv b64 b32 (b64.sub a (b64.mul g c)))) } }

/-- CAL_WRITE HB_AUTO (R251): it takes 2.2 ms at most, in which time is brought forward. -/
def opCalHbAuto : Op where
  code := 0x0714
  sel := fun p => calOp p = 4
  target := onWholeDie
  classN := true
  params := 4
  body s q :=
    let k := q.pkt.inst
    guarded s (calChecks q ++ [stateIf (decide ((s.dev.fld k).seq.state ≠ .stopped))])
      (let (ns, d) := s.dev.freeNs 600000 2200000
       .ok s ((((d.pass ns).hbMeasure k 0).hbMeasure k 1).hbMeasure k 2))

/-- CAL_HB_AUTO. -/
def execCalHbAuto (p : Packet) (s : State) : Host.Outcome State Fault Refusal := .next (packetRow opCalHbAuto p s)

/-- A channel's user values at their defaults (R251). -/
def ChanCal.userDefaults (c : ChanCal) (ao : Bool) : ChanCal :=
  let z : ChanCal := {}
  { c with chGain := z.chGain, chOfs := z.chOfs, ntcA := z.ntcA, ntcB := z.ntcB, ntcC := z.ntcC, uGain := if ao then z.uGain else c.uGain, uOfs := if ao then z.uOfs else c.uOfs }

/-- Channel `c` of die `k` takes its user values' defaults. -/
def Dev.calDefaults (k : Nat) (d : Dev) (c : Nat) : Dev :=
  d.setAna k c { d.ana k c with cal := (d.ana k c).cal.userDefaults (decide (c < 8)) }

/-- CAL_WRITE USER_DEFAULTS (R251). -/
def opCalUserDefaults : Op where
  code := 0x0714
  sel := fun p => calOp p = 5
  target := fun p => onChan 24 p || onWholeDie p
  classN := true
  params := 4
  body s q :=
    let k := q.pkt.inst
    guarded s (calChecks q)
      (if q.pkt.sub ≠ 0xFF then .ok s (s.dev.calDefaults k q.pkt.sub)
       else
         let d := (List.range 24).foldl (Dev.calDefaults k) s.dev
         let f := d.fld k
         .ok s (d.setFld k { f with cal := { f.cal with hbGain := [], hbOfs := [] } }))

/-- CAL_USER_DEFAULTS. -/
def execCalUserDefaults (p : Packet) (s : State) : Host.Outcome State Fault Refusal := .next (packetRow opCalUserDefaults p s)

/-- TESTDAC_SET (R249). -/
def opTestdacSet : Op where
  code := 0x0715
  target := onInst 0x10 4
  params := 1
  body s q :=
    let d := s.dev
    let k := q.pkt.inst
    let sq := (d.fld k).seq
    let c := q.f 0 20 16
    let on := q.b 0 12
    guarded s [encIf (q.resv 0 0x1F1FFF) 0, rangeIf (decide (24 ≤ c)) 0, (on && sq.table.any (fun x => x.2.enable && x.2.test), stBusy, 0), stateIf (!d.fldRuns k)]
      (let rel := match sq.tdacChan with
         | some old => if on ∧ old = c then sq.tdacRel else some (old, d.now)
         | none => sq.tdacRel
       .ok s (d.setSeq k { sq with tdacCode := q.f 0 11 0, tdacChan := if on then some c else none, tdacRel := rel }))

/-- TESTDAC_SET. -/
def execTestdacSet (p : Packet) (s : State) : Host.Outcome State Fault Refusal := .next (packetRow opTestdacSet p s)

/-! Output faults (R237). -/

/-- The fault can arise on the channel: a short in voltage mode, an open loop in a current mode. -/
def AnaChan.faultKind (a : AnaChan) (short : Bool) : Bool := if short then decide (a.cfg.mode = 8) else decide (a.cfg.mode = 9 ∨ a.cfg.mode = 10)

/-- Sets or clears AO_SHORT or AO_OPEN and raises FLD_AO_FAULT. -/
def Dev.aoFault (d : Dev) (k c : Nat) (short set : Bool) : Dev :=
  let a := d.ana k c
  let a1 := if short then { a with aoShort := set } else { a with aoOpen := set }
  (d.setAna k c a1).raise 0x1014 (fldSrc k) .warn (c + 256 * (if short then 1 else 2) + 4096 * b1 set)

/-- AO_FAULT_DETECT: the condition has lasted 1 ms while the channel drives. -/
def execAoFaultDetect (die : Fin 4) (c : Fin 24) (short : Bool) (s : State) : Host.Outcome State Fault Refusal :=
  .next (
    let d := s.dev
    let a := d.ana die.val c.val
    if !d.fldRuns die.val || !a.faultKind short || !(d.dig die.val c.val).driving || (if short then a.aoShort else a.aoOpen) then s
    else { s with dev := d.aoFault die.val c.val short true })

/-- AO_FAULT_CLEAR: the condition has been absent for 100 ms. -/
def execAoFaultClear (die : Fin 4) (c : Fin 24) (short : Bool) (s : State) : Host.Outcome State Fault Refusal :=
  .next (
    let d := s.dev
    let a := d.ana die.val c.val
    if !d.fldRuns die.val || !(if short then a.aoShort else a.aoOpen) then s else { s with dev := d.aoFault die.val c.val short false })

/-- Word of the analogue part of a field-die page at offset `o` (Tables 11-7, 11-12 and 11-14). -/
def FieldDie.anaWord (f : FieldDie) (o : Nat) : Word :=
  let s := f.seq
  let ch (base step : Nat) : ChanCal := (f.ana.rd ((o - base) / step)).cal
  if o < 0x20 then
    match o with
    | 0x00 => pack [(s.state.num, 0), (b1 s.committed.isSome, 2), (b1 s.tdacChan.isSome, 3)]
    | 0x04 => w32 s.set.ticks
    | 0x08 => w32 s.set.phase
    | 0x0C => s.cycleCnt
    | 0x10 => w32 s.cycleStart
    | 0x14 => w32 s.cycleLen
    | 0x18 => pack [(s.slipCnt, 0), (s.superseded, 16)]
    | 0x1C => w32 s.testFailCnt
    | _ => 0
  else if 0x400 ≤ o ∧ o < 0x800 then nth (s.results.rd ((o - 0x400) / 16)).words ((o % 16) / 4)
  else if 0x800 ≤ o ∧ o < 0x860 then
    let a := f.ana.rd ((o - 0x800) / 4)
    pack [(a.cfg.mode.toNat, 0), (b1 a.aoShort, 4), (b1 a.aoOpen, 5), (b1 a.sensorFault, 6), (a.lastQuality.toNat, 8)]
  else if 0x1000 ≤ o ∧ o < 0x1030 then
    let i := (o - 0x1000) / 8
    if o % 8 = 0 then Tbl.rdD one32 f.cal.adcGain i else f.cal.adcOfs.rd i
  else if 0x1030 ≤ o ∧ o < 0x1048 then
    let i := (o - 0x1030) / 8
    if o % 8 = 0 then Tbl.rdD one32 f.cal.hbGain i else f.cal.hbOfs.rd i
  else if o = 0x1048 then f.cal.tdacGain
  else if o = 0x104C then f.cal.tdacOfs
  else if o = 0x1050 then f.cal.vref
  else if 0x1100 ≤ o ∧ o < 0x1280 then
    if o < 0x1200 then
      let c := ch 0x1100 16
      match o % 16 with
      | 0 => c.shunt
      | 4 => c.iexcLo
      | 8 => c.iexcHi
      | _ => 0
    else
      let c := ch 0x1200 16
      match o % 16 with
      | 0 => c.aoVk
      | 4 => c.aoVo
      | 8 => c.aoIk
      | _ => c.aoIo
  else if 0x1300 ≤ o ∧ o < 0x1600 then
    let c := ch 0x1300 32
    match o % 32 with
    | 0x00 => c.chGain
    | 0x04 => c.chOfs
    | 0x08 => c.ntcA
    | 0x0C => c.ntcB
    | 0x10 => c.ntcC
    | 0x14 => c.uGain
    | 0x18 => c.uOfs
    | _ => 0
  else 0

end Sys2Proof.Machine
end

