-- ==== Sys2Proof/Machine/Host.lean ====
section
/-! DEFINITION. The host port (chapter 02): the PCIe rings, the quad-SPI port, the Ethernet command transport, relays, identity and
host settings. -/

namespace Sys2Proof.Machine

open Sys2Proof.Bits Sys2Proof.Crypto

/-- Changes the ring registers. -/
def Dev.setRing (d : Dev) (r : PcieRing) : Dev := { d with host := { d.host with ring := r } }
/-- Changes the quad-SPI port. -/
def Dev.setSpi (d : Dev) (x : SpiPort) : Dev := { d with host := { d.host with spi := x } }

/-- A step of the hub: it happens only while the hub is out of reset. -/
def hubStep (s : State) (f : Dev → Dev) : Host.Outcome State Fault Refusal :=
  .next (if s.dev.hubUp then { s with dev := f s.dev } else s)

/-- Fetches submission entries in index order up to HUB_SQ_TAIL, each with what the host memory returned for it (R50, R52). -/
def Dev.sqFetch (d : Dev) : List SqFetch → Dev
  | [] => d
  | x :: xs =>
    let r := d.host.ring
    if !r.ringEn || r.pause || r.suspended || decide (r.sqHead = r.sqTail) then d
    else
      let p : Packet := { x.pkt with transport := .pcie, sqIndex := r.sqHead }
      let d1 := d.setRing { r with sqHead := r.sqHead + 1 }
      let d2 :=
        if x.ok then d1.take p
        else
          let d3 := (d1.takeCredit .pcie).raise 0x0112 0x0100 .crit x.addr
          ((d3.setRing { d3.host.ring with dmaErr := true }).complete { p with rplCap := 0 } 0 stHostDma 0).giveCredit .pcie
      Dev.sqFetch d2 xs

/-- HUB_SQ_TAIL_WRITE (R49): a tail write that would pass 256 outstanding entries is ignored; otherwise the new entries are fetched. -/
def execHubSqTailWrite (v : Word) (fetched : List SqFetch) (s : State) : Host.Outcome State Fault Refusal :=
  hubStep s fun d =>
    let r := d.host.ring
    let t := v.toNat % 512
    if 256 < (t + 512 - r.cqHead.toNat) % 512 then (d.setRing { r with sqOverrun := true }).raise 0x0110 0x0100 .warn t
    else (d.setRing { r with sqTail := BitVec.ofNat 9 t }).sqFetch fetched

/-- HUB_CQ_HEAD_WRITE (R49): a move past HUB_CQ_TAIL is ignored and sets CQ_HEAD_ERR. -/
def Dev.cqHeadWrite (d : Dev) (v : Word) : Dev :=
  let r := d.host.ring
  let h := v.toNat % 512
  if (r.cqTail.toNat + 512 - r.cqHead.toNat) % 512 < (h + 512 - r.cqHead.toNat) % 512 then d.setRing { r with cqHeadErr := true }
  else d.setRing { r with cqHead := BitVec.ofNat 9 h }

/-- HUB_CQ_HEAD_WRITE. -/
def execHubCqHeadWrite (v : Word) (s : State) : Host.Outcome State Fault Refusal := hubStep s fun d => d.cqHeadWrite v

/-- A write of HUB_HOST_CTL (Table 02-6): RING_EN from 0 to 1 zeroes the indices and clears SUSPENDED. -/
def Dev.hostCtlWrite (d : Dev) (v : Word) : Dev :=
  let r := d.host.ring
  let r1 := if bit v 0 && !r.ringEn then
    { r with sqTail := 0, sqHead := 0, cqTail := 0, cqHead := 0, suspended := false, unsignalled := 0 } else r
  d.setRing { r1 with ringEn := bit v 0, pause := bit v 1 }

/-- HUB_HOST_CTL_WRITE. -/
def execHubHostCtlWrite (v : Word) (s : State) : Host.Outcome State Fault Refusal := hubStep s fun d => d.hostCtlWrite v

/-- A write of HUB_HOST_ERR (Table 02-11): a 1 clears its bit (R7). -/
def Dev.hostErrWrite (d : Dev) (v : Word) : Dev :=
  let r := d.host.ring
  d.setRing { r with sqOverrun := r.sqOverrun && !bit v 0, cqHeadErr := r.cqHeadErr && !bit v 1, dmaErr := r.dmaErr && !bit v 2 }

/-- HUB_HOST_ERR_WRITE. -/
def execHubHostErrWrite (v : Word) (s : State) : Host.Outcome State Fault Refusal := hubStep s fun d => d.hostErrWrite v

/-- IRQ0_N (pin 0) or IRQ1_N (pin 1) is low: an event routed to it waits to be read (R23), or a reply waits at the quad-SPI port whose SPI_IRQ
selects it (R55). -/
def Dev.irqLow (d : Dev) (pin : Nat) : Bool :=
  (if pin = 0 then d.evr.irq0 else d.evr.irq1) || (decide (d.host.cfg.spiIrq.toNat = pin + 1) && decide (d.host.spi.replies ≠ []))

/-- CQ_IRQ_TIMEOUT (Table 02-10): the oldest unsignalled completion is TIME_US old; time is brought forward to that instant. -/
def execCqIrqTimeout (s : State) : Host.Outcome State Fault Refusal :=
  hubStep s fun d =>
    let r := d.host.ring
    if r.irqTimeUs = 0 ∨ r.unsignalled = 0 ∨ !r.irqMsixEn then d
    else ((d.toRaw (r.unsigAt + 1000 * r.irqTimeUs)).setRing { r with unsignalled := 0 }).emit (.msix r.irqVector.toNat)

/-- PCIE_LINK_RESET (R53, R425): the rings are suspended; no HUB_ register is reset. -/
def execPcieLinkReset (kind : Fin 3) (s : State) : Host.Outcome State Fault Refusal :=
  hubStep s fun d => (d.setRing { d.host.ring with suspended := true }).raise 0x0113 0x0100 .warn kind.val

/-- The status bytes of the quad-SPI port (Table 02-15), as two words. -/
def Dev.spiStatus (d : Dev) : List Word :=
  let x := d.host.spi
  let rw := ((x.replies.head?).map (fun r => r.length)).getD 0
  [pack [(256 - d.host.creditsUsed.rd 1, 0), (b1 (decide (x.replies ≠ [])), 16), (b1 x.lastCrcErr, 17), (b1 x.lastRefused, 18), (b1 x.lastLenErr, 19)],
   pack [(x.acceptCnt.toNat, 0), (rw, 16)]]

/-- Shifts out words and their CRC on the quad-SPI port. -/
def Dev.spiSend (d : Dev) (ws : List Word) : Dev := d.emit (.spiOut (bytesAll (ws ++ [crcWords ws])))

/-- A step of the quad-SPI port: nothing while SPI_EN is 0. -/
def spiStep (s : State) (f : Dev → Dev) : Host.Outcome State Fault Refusal :=
  hubStep s fun d => if d.host.cfg.spiEn then f d else d

/-- READ_STATUS (Table 02-15). -/
def execReadStatus (s : State) : Host.Outcome State Fault Refusal := spiStep s fun d => d.spiSend d.spiStatus

/-- One more quad-SPI frame that failed its CRC (Table 02-28). -/
def Dev.countSpiCrc (d : Dev) : Dev :=
  { d with host := { d.host with spiCrcErr := bump 16 d.host.spiCrcErr } }.satAt 1 16 (bump 16 d.host.spiCrcErr)

/-- A WRITE_PACKET frame at the rise of CS_N (R54): length, CRC and credit in this order, exactly one flag on a refusal. A frame that is
not a whole number of words is one whose framed length is not that of its words. -/
def Dev.spiWrite (d : Dev) (p : Packet) (crc : Word) : Dev :=
  let x := d.host.spi
  let flags (c r l : Bool) : SpiPort := { x with lastCrcErr := c, lastRefused := r, lastLenErr := l }
  if p.framedWords ≠ p.words.length ∨ 1024 < p.words.length then d.setSpi (flags false false true)
  else if crc ≠ crcWords p.words then (d.setSpi (flags true false false)).countSpiCrc
  else if !d.creditFree .spi then (d.setSpi (flags false true false)).countRefused
  else (d.setSpi { flags false false false with acceptCnt := x.acceptCnt + 1 }).take { p with transport := .spi }

/-- WRITE_PACKET (R54), one line. -/
def execWritePacket (p : Packet) (crc : Word) (s : State) : Host.Outcome State Fault Refusal := spiStep s fun d => d.spiWrite p crc
/-- WRITE_PACKET_Q (R54), four lines; the port treats the frame as one of WRITE_PACKET. -/
def execWritePacketQ (p : Packet) (crc : Word) (s : State) : Host.Outcome State Fault Refusal := spiStep s fun d => d.spiWrite p crc

/-- The oldest waiting reply and its CRC, or one zero word (R55). -/
def Dev.spiRead (d : Dev) : Dev := d.spiSend ((d.host.spi.replies.head?).getD [0])

/-- READ_REPLY (R55). -/
def execReadReply (s : State) : Host.Outcome State Fault Refusal := spiStep s Dev.spiRead
/-- READ_REPLY_Q (R55). -/
def execReadReplyQ (s : State) : Host.Outcome State Fault Refusal := spiStep s Dev.spiRead

/-- ACK_REPLY (R55): a match removes the reply and returns its credit; anything else is ignored and sets LAST_CRC_ERR. -/
def execAckReply (tag : BitVec 16) (crc : Word) (s : State) : Host.Outcome State Fault Refusal :=
  spiStep s fun d =>
    let x := d.host.spi
    let good := crc = crc32c (leBytes 2 tag.toNat)
    let bad := d.setSpi { x with lastCrcErr := true }
    match x.replies with
    | [] => if good then bad else bad.countSpiCrc
    | r :: rs =>
      if good && decide (fld (nth r 1) 15 0 = tag.toNat) then (d.setSpi { x with replies := rs }).giveCredit .spi
      else if good then bad else bad.countSpiCrc

/-- MAC address of port `p`: the default of R58 where the configured one is zero. -/
def Dev.macAddr (d : Dev) (p : Nat) : BitVec 48 :=
  let e := d.host.eth.rd p
  if e.mac = 0 then BitVec.ofNat 48 (0x0A61 * 2 ^ 32 + ((d.host.serial.toNat % 2 ^ 30) * 4 + p)) else e.mac

/-- The source address passes CMD_SRC_ADDR under CMD_SRC_MASK (R56). -/
def HostCfg.admits (c : HostCfg) (a : BitVec 32) : Bool := a &&& c.cmdSrcMask = c.cmdSrcAddr &&& c.cmdSrcMask

/-- ETH_CMD_DATAGRAM (R56): a UDP datagram for the device's address and CMD_UDP_PORT arrives on a port. -/
def execEthCmdDatagram (port : Fin 3) (p : Packet) (s : State) : Host.Outcome State Fault Refusal :=
  hubStep s fun d =>
    let e := d.host.eth.rd port.val
    if !e.enable || decide (e.ipv4 = 0) || !(bit (w32 d.host.cfg.ethCmdMask.toNat) port.val) then d
    else if p.framedWords ≠ p.words.length ∨ p.magic ≠ 0xD6 ∨ !d.host.cfg.admits p.srcAddr then
      { d with host := { d.host with ethDiscarded := bump 16 d.host.ethDiscarded } }.satAt 1 16 (bump 16 d.host.ethDiscarded)
    else
      let p' : Packet := { p with transport := .eth, port := port.val }
      if !d.creditFree .eth then
        d.countRefused.emit (.ethReply port.val p.srcAddr p.srcPort p.vlan (replyWords { pkt := p' } stQueueFull 0 []))
      else d.take p'

/-- ARP_REQUEST (R56): answered for the port's own address. -/
def execArpRequest (port : Fin 3) (target sender : BitVec 32) (senderMac : BitVec 48) (s : State) : Host.Outcome State Fault Refusal :=
  hubStep s fun d =>
    let e := d.host.eth.rd port.val
    if e.enable && decide (e.ipv4 ≠ 0 ∧ target = e.ipv4) then d.emit (.arpReply port.val sender senderMac e.ipv4 (d.macAddr port.val)) else d

/-- ICMP_ECHO_REQUEST (R56): answered for the port's own address with the same payload. -/
def execIcmpEchoRequest (port : Fin 3) (target sender : BitVec 32) (payload : List Byte) (s : State) : Host.Outcome State Fault Refusal :=
  hubStep s fun d =>
    let e := d.host.eth.rd port.val
    if e.enable && decide (e.ipv4 ≠ 0 ∧ target = e.ipv4) then d.emit (.icmpReply port.val sender payload) else d

/-! Relays (R59 to R61). -/

/-- What keeps a relay from leaving over a port (R59). -/
def Dev.relayBar (d : Dev) (p : Nat) : Option Nat :=
  let q := d.jalow.port.rd p
  if q.cfg.role ≠ .down then some stRelayNoRoute
  else if q.link ≠ .up then some stRelayLinkDown
  else if q.partnerRelayFree = 0 then some stQueueFull
  else none

/-- Keeps a relay record, of which the newest 256 stay. -/
def Dev.addRelay (d : Dev) (w : RelayWait) : Dev := { d with host := { d.host with relays := (w :: d.host.relays).take 256 } }

/-- RELAY (R59): the outer packet is checked, the relay leaves over PORT_1, and TIMEOUT_MS starts (R61). -/
def opRelay : Op where
  code := 0x0510
  target := onUnit 0x32
  params := 6
  body s q :=
    let inner := q.from' 2
    let port := q.f 0 3 2
    guarded s [encIf (q.resv 0 0x1FF || decide (q.f 0 1 0 = 0) || (q.b 0 8 && s.dev.oldFirmware)) 0, encIf (q.resv 1 0xFFFF) 1, rangeIf (decide (q.f 1 15 0 = 0)) 1,
        (decide (1024 < inner.length ∨ fld (nth inner 1) 31 16 ≠ inner.length), stBadLength, 6)]
      (match s.dev.relayBar port with
       | some st => .err s st 4
       | none =>
         let d := s.dev.jlSend port 5 (q.pkt.params)
         let w : RelayWait := { pkt := { q with started := true }, head := inner.take 4, ports := [port], subtree := q.b 0 8,
                                deadline := d.time.raw + q.f 1 15 0 * 1000000, innerTag := BitVec.ofNat 16 (fld (nth inner 1) 15 0) }
         { st := { s with dev := d.addRelay w }, later := true })

/-- RELAY. -/
def execRelay (p : Packet) (s : State) : Host.Outcome State Fault Refusal := .next (packetRow opRelay p s)

/-- Answers a relay that this device originated. -/
def Dev.endRelay (d : Dev) (i : Nat) (status : Nat) (ws : List Word) : Dev :=
  let w := d.host.relays.getD i {}
  let d1 := d.setRelay i { w with awaited := false }
  if 4 + ws.length + (if w.pkt.tagged then 4 else 0) ≤ w.pkt.pkt.transport.limit then d1.finish w.pkt status 5 ws
  else d1.finish w.pkt stParamRange 4 []

/-- The reply of a relay without SUBTREE that a device on the path gave in place of the addressed one (R59). -/
def pathError (m : List Word) : Option Nat :=
  let st := fld (nth m 2) 15 0
  if m.length = 4 ∧ !bit (nth m 3) 0 ∧ (st = stRelayNoRoute ∨ st = stRelayLinkDown ∨ st = stQueueFull) then some st else none

/-- JALOW_REPLY_RECEIVE (R60, R61): the reply completes the relay that awaits it, joins a gathered one, travels on upward, or is late. -/
def execJalowReplyReceive (port : Fin 4) (m : List Word) (s : State) : Host.Outcome State Fault Refusal :=
  hubStep s fun d =>
    let tag := fld (nth m 1) 15 0
    match d.host.relays.findIdx? (fun w => w.awaited && decide (port.val ∈ w.ports ∧ w.innerTag.toNat = tag)) with
    | some i =>
      let w := d.host.relays.getD i {}
      if !w.subtree then d.endRelay i ((pathError m).getD stOk) m
      else
        let w' := { w with ports := w.ports.erase port.val, answers := w.answers ++ m.drop 4 }
        let d1 := d.setRelay i w'
        if w.origin then d1.endRelay i (relayStatus w'.answers) w'.answers else d1.gatherEnd i
    | none =>
      match d.host.relays.find? (fun w => !w.awaited && decide (w.innerTag.toNat = tag)) with
      | some w =>
        if w.origin then d.raise 0x0114 0x0100 .info (w.pkt.pkt.tag + 65536 * (fld (w.pkt.par 0) 7 0)) else d
      | none =>
        match d.upPort with
        | some u => d.jlSend u 6 m
        | none => d

/-- RELAY_TIMEOUT (R61): TIMEOUT_MS of the relay with this TAG expires; time is brought forward to that instant. -/
def execRelayTimeout (tag : BitVec 16) (s : State) : Host.Outcome State Fault Refusal :=
  hubStep s fun d =>
    match d.host.relays.findIdx? (fun w => w.awaited && decide ((if w.origin then w.pkt.pkt.tag else w.innerTag.toNat) = tag.toNat)) with
    | none => d
    | some i =>
      let w := d.host.relays.getD i {}
      let d1 := d.toRaw w.deadline
      let late := w.ports.map (fun p => relayWord (d.jalow.port.rd p).partnerAddr.toNat stRelayTimeout)
      let ws := w.answers ++ late ++ (if w.own then [relayWord d.jalow.ownAddr.toNat stRelayTimeout] else [])
      if w.origin then d1.endRelay i (if w.subtree then relayStatus ws else stRelayTimeout) ws
      else (d1.setRelay i { w with ports := [], own := false, answers := ws }).gatherEnd i

/-- Sends a header-only answer of a device on the path to the inner packet's sender (R59). -/
def Dev.relayRefuse (d : Dev) (inner : List Word) (status : Nat) : Dev :=
  match d.upPort with
  | some u => d.jlSend u 6 (replyWords { pkt := { words := inner.take 3 ++ [32] } } status 4 [])
  | none => d

/-- JALOW_RELAY_RECEIVE (R59, R60): with HOPS = 1 the inner packet joins the Jalow relay submission queue, and with SUBTREE it goes on to
every DOWN port whose link is up; with more HOPS it goes on over the next PORT field. -/
def execJalowRelayReceive (m : List Word) (s : State) : Host.Outcome State Fault Refusal :=
  hubStep s fun d =>
    let p0 := nth m 0
    let inner := m.drop 2
    let hops := fld p0 1 0
    if 1 < hops then
      let next := fld p0 5 4
      match d.relayBar next with
      | some st => d.relayRefuse inner st
      | none =>
        d.jlSend next 5 (pack [(hops - 1, 0), (next, 2), (fld p0 7 6, 4), (b1 (bit p0 8), 8)] :: nth m 1 :: inner)
    else
      let p : Packet := { transport := .relay, port := (d.upPort).getD 0, words := inner, framedWords := inner.length }
      if !d.creditFree .relay then d.countRefused.relayRefuse inner stQueueFull
      else if !bit p0 8 then d.take p
      else
        let downs := d.downUp.filter (fun x => (d.relayBar x).isNone)
        let d1 := downs.foldl (fun acc x => acc.jlSend x 5 m) d
        let w : RelayWait := { origin := false, head := inner.take 3 ++ [32], ports := downs, own := true, subtree := true,
                               deadline := d.time.raw + fld (nth m 1) 15 0 * 1000000, innerTag := BitVec.ofNat 16 (fld (nth inner 1) 15 0) }
        (d1.addRelay w).take p

/-! Identity and settings. -/

/-- NOP (R45): L of the key slot for the transport the packet arrived on. -/
def opNop : Op where
  code := 0x0100
  target := onHub
  params := 1
  body s q :=
    guarded s [rangeIf (decide (63 < (q.par 0).toNat)) 0]
      (.read s [w32 (s.dev.host.lastSeq.rd (seqIndex q.pkt.transport (q.par 0).toNat)).toNat])

/-- NOP. -/
def execNop (p : Packet) (s : State) : Host.Outcome State Fault Refusal := .next (packetRow opNop p s)

/-- HUB_IDENT (Table 02-24). -/
def hubIdent : Word := 0x0A619616
/-- HUB_REV (Table 02-25). -/
def Dev.hubRev (d : Dev) : Word := pack [(d.host.revHub.toNat, 0), (d.host.revCtlA.toNat, 8), (d.host.revCtlB.toNat, 16), (d.host.revFld.toNat, 24)]
/-- HUB_FWREV (Table 02-26). -/
def Dev.hubFwrev (d : Dev) : Word := pack [(d.power.fwVersion % 2 ^ 24, 0), (b1 d.power.runSlot, 24)]
/-- HUB_SERIAL_LO (Table 02-27). -/
def Dev.serialLo (d : Dev) : Word := w32 d.host.serial.toNat
/-- HUB_SERIAL_HI (Table 02-27). -/
def Dev.serialHi (d : Dev) : Word := w32 (d.host.serial.toNat / 2 ^ 32)
/-- The serial number as 8 bytes (SERIAL of chapter 18). -/
def Dev.serialBytes (d : Dev) : List Byte := leBytes 8 d.host.serial.toNat
/-- TREE_LEVEL (Table 02-23): 0 while the device has not joined. -/
def Dev.treeLevel (d : Dev) : Nat := if d.jalow.ownAddr = 0xFF then 0 else d.jalow.ownAddr.toNat % 4

/-- DEV_IDENT (Table 02-23). -/
def opDevIdent : Op where
  code := 0x0101
  target := onHub
  body s _ :=
    let d := s.dev
    let act := match d.activeDie with
      | none => 0
      | some n => n + 1
    .read s [hubIdent, d.hubRev, d.hubFwrev, d.serialLo, d.serialHi, pack [(act, 0), (d.treeLevel, 2)]]

/-- DEV_IDENT. -/
def execDevIdent (p : Packet) (s : State) : Host.Outcome State Fault Refusal := .next (packetRow opDevIdent p s)

/-- The settings a HOST_CONFIG carries (Table 02-16). -/
def hostCfgOf (q : QPacket) : HostCfg :=
  { pcieAuthReq := q.b 0 0, spiEn := q.b 0 1, spiIrq := BitVec.ofNat 2 (q.f 0 3 2), ethCmdMask := BitVec.ofNat 3 (q.f 0 6 4),
    cmdUdpPort := q.f 1 15 0, cmdSrcAddr := q.par 2, cmdSrcMask := q.par 3 }

/-- A HOST_CONFIG would cut off the transport and sender it arrived from (R57). -/
def cutsOff (c : HostCfg) (p : Packet) : Bool :=
  match p.transport with
  | .spi => !c.spiEn
  | .eth => !(bit (w32 c.ethCmdMask.toNat) p.port) || !c.admits p.srcAddr
  | _ => false

/-- HOST_CONFIG (Table 02-16, R57): the settings take effect once the reply has been sent. -/
def opHostConfig : Op where
  code := 0x0120
  target := onHub
  classN := true
  params := 4
  body s q :=
    let c := hostCfgOf q
    let u := c.cmdUdpPort
    guarded s [encIf (q.resv 0 0x7F || decide (q.f 0 3 2 = 3)) 0, encIf (q.resv 1 0xFFFF) 1,
        conflictIf (decide (u = 0 ∨ u = 319 ∨ u = 320) || (List.range 3).any (fun m => decide ((s.dev.points.pframe.rd m).cfg.udpPort = u))) 1,
        conflictIf (cutsOff c q.pkt) 0]
      (.ok s s.dev)
  after q s := { s with dev := { s.dev with host := { s.dev.host with cfg := hostCfgOf q } } }

/-- HOST_CONFIG. -/
def execHostConfig (p : Packet) (s : State) : Host.Outcome State Fault Refusal := .next (packetRow opHostConfig p s)

/-- HOST_STATUS (Table 02-28): CLEAR returns the values and then clears the kind S fields. -/
def opHostStatus : Op where
  code := 0x0121
  target := onHub
  params := 1
  body s q :=
    let h := s.dev.host
    let ws := [h.accepted.rd 0, h.accepted.rd 1, h.accepted.rd 2, h.accepted.rd 3, pack [(h.authFailCnt, 0), (h.refusedCnt, 16)],
      pack [(h.ethDiscarded, 0), (h.spiCrcErr, 16)]]
    guarded s [encIf (q.resv 0 1) 0]
      { st := if q.b 0 0 then { s with dev := { s.dev with host := { h with authFailCnt := 0, refusedCnt := 0, ethDiscarded := 0, spiCrcErr := 0 } } } else s
        words := ws }

/-- HOST_STATUS. -/
def execHostStatus (p : Packet) (s : State) : Host.Outcome State Fault Refusal := .next (packetRow opHostStatus p s)

/-- ETH_IF_CONFIG (Table 02-17, R58). MAC_HI over MAC_LO is the address with octet 1 most significant (assumption 9). -/
def opEthIfConfig : Op where
  code := 0x0122
  target := onInst 0x30 3
  classN := true
  params := 7
  body s q :=
    let e : EthIf := { enable := q.b 0 0, sgmii := q.b 0 1, speed := BitVec.ofNat 2 (q.f 0 3 2), phyAddr := BitVec.ofNat 5 (q.f 0 8 4), ipv4 := q.par 1,
                       netmask := q.par 2, gateway := q.par 3, vid := BitVec.ofNat 12 (q.f 4 11 0), pcp := BitVec.ofNat 3 (q.f 4 14 12),
                       mac := BitVec.ofNat 48 (q.f 6 15 0 * 2 ^ 32 + (q.par 5).toNat) }
    guarded s [encIf (q.resv 0 0x1FF) 0, encIf (q.resv 4 0x7FFF) 4, encIf (q.resv 6 0xFFFF || q.b 6 8) 6]
      (.ok s { s.dev with host := { s.dev.host with eth := s.dev.host.eth.wr q.pkt.inst e } })

/-- ETH_IF_CONFIG. -/
def execEthIfConfig (p : Packet) (s : State) : Host.Outcome State Fault Refusal := .next (packetRow opEthIfConfig p s)

end Sys2Proof.Machine
end

