-- ==== Sys2Proof/Machine/Servo.lean ====
section
/-! DEFINITION. The servo (R314 to R316), the changes it and TIME_ADJUST send to the time line (R307, R322), and the opcodes TIME_READ,
TIME_ADJUST and SERVO_CONFIG. -/

namespace Sys2Proof.Machine

open Sys2Proof.Bits Sys2Proof.Float

/-- Changes the time base. -/
def Dev.setTime (d : Dev) (t : NetTime) : Dev := { d with time := t }

/-- A finite binary32 value as a rational. -/
def ratOf (w : Word) : Rat := (b32.val w.toNat : Rat) / ((b32.den : Nat) : Rat)

/-- A rational rounded to binary32. -/
def ofRat32 (q : Rat) : Word := rat32 q.num q.den

/-- A rational rounded to an integer, ties to even. -/
def roundRat (q : Rat) : Int := divRoundEven q.num q.den

/-- clamp(q, ±b). -/
def clampRat (b q : Rat) : Rat := if q < -b then -b else if b < q then b else q

/-- The number of SERVO_STATE (Table 14-3). -/
def ServoState.num : ServoState → Nat
  | .free => 0
  | .acquiring => 1
  | .locked => 2
  | .holdover => 3
  | .manual => 4

/-- TIME_ERR_NS (R316). -/
def NetTime.timeErr (t : NetTime) : Nat :=
  let unknown : Bool := match t.servo with
    | .free => true
    | .holdover => decide ((t.lastSample.getD 0) + 4000000 * t.cfg.holdMs ≤ t.raw)
    | _ => false
  if unknown then 0xFFFFFFFF else satN 32 (t.absOffsets.foldl max 0 + t.cfg.teMargin)

/-- The servo state becomes `v`: HUB_TIME_STATE at each change; entering ACQUIRING restarts the count of samples in lock, entering FREE ends
the slewing. -/
def Dev.setServo (d : Dev) (v : ServoState) : Dev :=
  let t := d.time
  if t.servo = v then d
  else
    let t' := { t with servo := v, lockRun := if v = .acquiring then 0 else t.lockRun, slewing := if v = .free then none else t.slewing }
    (d.setTime t').raise 0x0131 0x0100 .info (v.num + 16 * t.servo.num + 2 ^ 32 * t'.timeErr)

/-- The instant the device fixes for a change: at least 2 µs and at most 10 µs from now, on a CK_NET edge (R307, R322). -/
def Dev.changeInstant (d : Dev) : Nat × Dev :=
  let lo := (d.time.raw + 2007) / 8
  let (k, d1) := d.freeN ((d.time.raw + 10000) / 8 + 1 - lo)
  (8 * (lo + k), d1)

/-- Sends a new RATE: the formula is rebased at its instant (R303). -/
def Dev.sendRate (d : Dev) (rate : Int) : Dev :=
  let (r, d1) := d.changeInstant
  let t := d1.time
  d1.setTime { t with pendingChg := some { instant := r, ofs := t.ofs + (t.rate * ((r : Int) - t.tRef)) / 16777216, rate := rate, tRef := r } }

/-- Sends a step of `v` ns. -/
def Dev.sendStep (d : Dev) (v : Int) (acquire : Bool) : Dev :=
  let (r, d1) := d.changeInstant
  let t := d1.time
  d1.setTime { t with pendingChg := some { instant := r, ofs := t.ofs + v * 65536, rate := t.rate, tRef := t.tRef, step := some v, acquire := acquire } }

/-- A step of `v` ns stays within the bound of R314: at most 2^47 ns, OFS within ±2^47 ns after it. -/
def NetTime.stepFits (t : NetTime) (v : Int) : Bool :=
  decide (v.natAbs ≤ 2 ^ 47 ∧ (t.ofs + v * 65536).natAbs ≤ 2 ^ 47 * 65536)

/-- RATE for a frequency in ppb: rounded half to even (R314), within the limit of R303. -/
def rateOf (f : Rat) : Int := clampInt (-549755813) 549755813 (roundRat (f * 1099511627776 / 1000000000))

/-- STEP_MODE permits a step that answers offset `theta` (Table 14-2). -/
def ServoCfg.permits (c : ServoCfg) (theta : Int) : Bool := c.stepMode = 0 || (c.stepMode = 1 && decide (theta < 0))

/-- The last 16 accepted offsets with one more (R316). -/
def Dev.acceptOffset (d : Dev) (theta : Int) : Dev := d.setTime { d.time with absOffsets := (theta.natAbs :: d.time.absOffsets).take 16 }

/-- A sample counted in OUTLIER_CNT. -/
def Dev.countOutlier (d : Dev) : Dev :=
  (d.setTime { d.time with outlierCnt := bump 16 d.time.outlierCnt }).satAt 1 16 (bump 16 d.time.outlierCnt)

/-- The proportional and integral terms and the new RATE (R314), from the offset used and the seconds since the last sample. -/
def Dev.servoUse (d : Dev) (used dt : Rat) : Dev :=
  let t := d.time
  let p := ratOf t.cfg.kp * used
  let acc := clampRat 500000 (ratOf t.acc + ratOf t.cfg.ki * used * dt)
  let f := clampRat 500000 (-(p + acc))
  let f1 := if t.slewing.isSome then clampRat ((t.cfg.slewPpm * 1000 : Nat) : Rat) f else f
  (d.setTime { t with acc := ofRat32 acc, outliers := [] }).sendRate (rateOf f1)

/-- The moves of Table 14-3 that a sample makes among ACQUIRING, LOCKED and HOLDOVER. -/
def Dev.servoState (d : Dev) (theta : Int) : Dev :=
  let d1 := if d.time.servo = .holdover then d.setServo .acquiring else d
  let d2 := if d1.time.servo = .locked ∧ 4 * d1.time.cfg.lockNs < theta.natAbs then d1.setServo .acquiring else d1
  let t := d2.time
  let run := if theta.natAbs ≤ t.cfg.lockNs then t.lockRun + 1 else 0
  let d3 := d2.setTime { t with lockRun := min 16 run }
  if t.servo = .acquiring ∧ 16 ≤ run then d3.setServo .locked else d3

/-- A step the servo makes for offset `theta`: it ends the slewing and any run, and the state becomes ACQUIRING. -/
def Dev.servoStep (d : Dev) (theta : Int) : Dev :=
  let d1 := (d.setTime { d.time with slewing := none, outliers := [], lockRun := 0 }).acceptOffset theta
  (d1.setServo .acquiring).sendStep (-theta) false

/-- R314's three kinds of sample beyond STEP_NS and the ordinary one. -/
def Dev.servoTake (d : Dev) (theta : Int) (dt : Rat) : Dev :=
  let t := d.time
  let lim : Rat := ((t.cfg.slewPpm * 1000 : Nat) : Rat) * dt
  let back := decide (0 < theta)
  if theta.natAbs ≤ t.cfg.stepNs then
    ((d.setTime { t with slewing := none }).acceptOffset theta).servoUse (theta : Rat) dt
  else if t.slewing = some back then (d.acceptOffset theta).servoUse (clampRat lim (theta : Rat)) dt
  else if t.slewing.isSome then (d.setTime { t with slewing := none, outliers := [theta] }).countOutlier
  else
    let agree : Bool := match t.outliers with
      | a :: b :: _ => decide ((a - b).natAbs ≤ 1000 ∧ (a - theta).natAbs ≤ 1000 ∧ (b - theta).natAbs ≤ 1000)
      | _ => false
    if !agree then (d.setTime { t with outliers := (theta :: t.outliers).take 2 }).countOutlier
    else if t.cfg.permits theta then d.servoStep theta
    else ((d.setTime { t with slewing := some back }).acceptOffset theta).servoUse (clampRat lim (theta : Rat)) dt

/-- The servo processes a sample (R314, R315). -/
def Dev.servoSample (d : Dev) (theta : Int) : Dev :=
  let t0 := d.time
  let (open0, d0) : Nat × Dev := match t0.lastSample with
    | some r => (t0.raw - r, d)
    | none => d.freeN (2 ^ 64)
  let d1 := d0.setTime { d0.time with lastOffset := satI 32 theta, lastSample := some t0.raw }
  let dt : Rat := (open0 : Rat) / 1000000000
  if !t0.stepFits (-theta) then
    let d2 := d1.countOutlier
    (d2.setTime { d2.time with firstSample := true, outliers := [] }).setServo .free
  else if t0.servo = .manual then
    let acc := ofRat32 (-((t0.rate : Rat) * 1000000000 / 1099511627776))
    let d2 := (d1.setTime { d1.time with acc := acc, firstSample := false }).setServo .acquiring
    (d2.servoTake theta dt).servoState theta
  else if t0.servo = .free ∨ t0.firstSample then
    (d1.setTime { d1.time with acc := 0, firstSample := false }).servoStep theta
  else
    let d2 := d1.servoState theta
    d2.servoTake theta dt

/-- A sample arrives: while a change of time is pending it is held and processed afterwards (R322). -/
def Dev.servoArrive (d : Dev) (theta : Int) : Dev :=
  if d.time.pendingChg.isSome then d.setTime { d.time with heldQ := d.time.heldQ ++ [theta] } else d.servoSample theta

/-- The held samples are processed, in order, until one sends a change of its own. -/
def Dev.servoDrain : Nat → Dev → Dev
  | 0, d => d
  | fuel + 1, d =>
    match d.time.heldQ with
    | [] => d
    | x :: xs => if d.time.pendingChg.isSome then d else Dev.servoDrain fuel ((d.setTime { d.time with heldQ := xs }).servoSample x)

/-- The servo's part of applying a change (R307, R314, R315): OFS, RATE and T_REF; for a step its counters, HUB_TIME_STEP and the state of
Table 14-3. -/
def Dev.timeChanged (d : Dev) (c : TimeChange) : Dev :=
  let t := d.time
  let d1 := d.setTime { t with ofs := c.ofs, rate := c.rate, tRef := c.tRef, pendingChg := none }
  match c.step with
  | none => d1
  | some v =>
    let gen := t.stepGen + 1
    let d2 := (d1.setTime { d1.time with stepGen := gen, stepCnt := bump 16 t.stepCnt, lastStepNs := satI 32 v, slewing := none }).satAt 1 16 (bump 16 t.stepCnt)
    let d3 := d2.raise 0x0130 0x0100 .warn (usgn 48 v + 2 ^ 48 * gen.toNat)
    if !c.acquire then d3
    else
      let d4 := if t.servo = .manual then
          d3.setTime { d3.time with acc := ofRat32 (-((t.rate : Rat) * 1000000000 / 1099511627776)) } else d3
      let d5 := d4.setTime { d4.time with lockRun := 0 }
      d5.setServo .acquiring

/-- SERVO_SAMPLE (R313, R314): the servo takes an offset sample that PTP gave; under another SOURCE it takes none. -/
def execServoSample (theta : Int) (s : State) : Host.Outcome State Fault Refusal :=
  let d := s.dev
  .next (if !d.hubUp || decide (d.time.cfg.source ≠ 1) then s
    else { s with dev := (d.setTime { d.time with sampleQ := d.time.sampleQ.erase theta }).servoArrive theta })

/-- SERVO_HOLDOVER (R315): no sample has come for HOLD_MS; RATE becomes −acc. While a change of time is pending the step waits for it. -/
def execServoHoldover (s : State) : Host.Outcome State Fault Refusal :=
  let t := s.dev.time
  .next (if (t.servo ≠ .acquiring ∧ t.servo ≠ .locked) ∨ t.pendingChg.isSome then s
    else
      let d := (s.dev.toRaw ((t.lastSample.getD t.raw) + 1000000 * t.cfg.holdMs)).setServo .holdover
      { s with dev := d.sendRate (rateOf (-ratOf d.time.acc)) })

/-- TIME_READ (R306, Table 14-4). -/
def opTimeRead : Op where
  code := 0x0801
  target := onHub
  body s _ :=
    let t := s.dev.time
    let ct := s.dev.now
    .read s [w32 ct, w32 (ct / 2 ^ 32), w32 t.raw, w32 (t.raw / 2 ^ 32), pack [(t.servo.num, 0), (t.stepGen.toNat, 16)]]

/-- TIME_READ. -/
def execTimeRead (p : Packet) (s : State) : Host.Outcome State Fault Refusal := .next (packetRow opTimeRead p s)

/-- The value of TIME_ADJUST's V_HI and V_LO as 64 bits. -/
def QPacket.v64 (q : QPacket) : Nat := (q.par 1).toNat + 2 ^ 32 * (q.par 2).toNat

/-- TIME_ADJUST's modes share opcode 0x0802 (Table 14-5). -/
def adjustMode (m : Nat) (p : Packet) : Bool := decide (fld (p.par 0) 1 0 = m)

/-- TIME_ADJUST OFFSET (R322): θ goes to the servo as a sample; SOURCE SOFTWARE only. -/
def opTimeAdjustOffset : Op where
  code := 0x0802
  sel := adjustMode 0
  target := onHub
  params := 3
  body s q := guarded s [encIf (q.resv 0 3) 0, conflictIf (decide (s.dev.time.cfg.source ≠ 2)) 0, encIf (decide (q.par 2 ≠ 0)) 2]
    (.ok s (s.dev.servoArrive (sgn 32 (q.par 1).toNat)))

/-- TIME_ADJUST_OFFSET. -/
def execTimeAdjustOffset (p : Packet) (s : State) : Host.Outcome State Fault Refusal := .next (packetRow opTimeAdjustOffset p s)

/-- The answer to a commanded step of `v` ns at the instant the device fixes (R322). -/
def stepAns (s : State) (q : QPacket) (amount : NetTime → Nat → Int) : Ans :=
  let t := s.dev.time
  guarded s [encIf (q.resv 0 3) 0, conflictIf (decide (t.cfg.source = 1)) 0]
    (if t.pendingChg.isSome then { st := s, waits := true }
     else
       let (r, d1) := s.dev.changeInstant
       let v := amount t r
       if !t.stepFits v then .err s stParamRange 5
       else
         let c : TimeChange := { instant := r, ofs := t.ofs + v * 65536, rate := t.rate, tRef := t.tRef, step := some v, acquire := decide (t.cfg.source = 2) }
         { st := { s with dev := d1.setTime { d1.time with pendingChg := some c } }, status := stOkPending })

/-- TIME_ADJUST STEP (R322). -/
def opTimeAdjustStep : Op where
  code := 0x0802
  sel := adjustMode 1
  target := onHub
  params := 3
  body s q := stepAns s q (fun _ _ => sgn 64 q.v64)

/-- TIME_ADJUST_STEP. -/
def execTimeAdjustStep (p : Packet) (s : State) : Host.Outcome State Fault Refusal := .next (packetRow opTimeAdjustStep p s)

/-- TIME_ADJUST SET (R322): the step is V less CT at the instant. -/
def opTimeAdjustSet : Op where
  code := 0x0802
  sel := adjustMode 2
  target := onHub
  params := 3
  body s q := stepAns s q (fun t r => (q.v64 : Int) - t.ctAt r)

/-- TIME_ADJUST_SET. -/
def execTimeAdjustSet (p : Packet) (s : State) : Host.Outcome State Fault Refusal := .next (packetRow opTimeAdjustSet p s)

/-- TIME_ADJUST FREQ (R322): the servo state becomes MANUAL and RATE the value given. -/
def opTimeAdjustFreq : Op where
  code := 0x0802
  sel := adjustMode 3
  target := onHub
  params := 3
  body s q :=
    let r := sgn 32 (q.par 1).toNat
    guarded s [encIf (q.resv 0 3) 0, conflictIf (decide (s.dev.time.cfg.source ≠ 2)) 0, rangeIf (decide (549755813 < r.natAbs)) 1,
        encIf (decide (q.par 2 ≠ 0)) 2]
      (if s.dev.time.pendingChg.isSome then { st := s, waits := true } else .ok s ((s.dev.setServo .manual).sendRate r))

/-- TIME_ADJUST_FREQ. -/
def execTimeAdjustFreq (p : Packet) (s : State) : Host.Outcome State Fault Refusal := .next (packetRow opTimeAdjustFreq p s)

/-- The gain is above 0 and at most 4.0 (Table 14-7). -/
def gainOk (w : Word) : Bool := fin32 w && lt32 0 w && le32 w 0x40800000

/-- The settings a SERVO_CONFIG carries (Table 14-7). -/
def servoCfgOf (q : QPacket) : ServoCfg :=
  { source := BitVec.ofNat 2 (q.f 0 1 0), stepMode := BitVec.ofNat 2 (q.f 0 3 2), kp := q.par 1, ki := q.par 2,
    stepNs := (q.par 3).toNat, lockNs := q.f 4 15 0, holdMs := q.f 4 31 16, slewPpm := q.f 5 8 0, teMargin := q.f 5 31 16 }

/-- The parameter checks of SERVO_CONFIG, in order. -/
def servoChecks (q : QPacket) : List (Bool × Nat × Nat) :=
  let c := servoCfgOf q
  [encIf (decide (c.source = 3 ∨ c.stepMode = 3) || q.resv 0 0xF) 0, rangeIf (!gainOk c.kp) 1, rangeIf (!gainOk c.ki) 2,
    rangeIf (outside c.stepNs 1000 1000000000) 3, rangeIf (outside c.lockNs 10 65535 || outside c.holdMs 100 65535) 4,
    encIf (q.resv 5 0xFFFF01FF) 5, rangeIf (outside c.slewPpm 10 500) 5]

/-- SERVO_CONFIG (R324). -/
def opServoConfig : Op where
  code := 0x0805
  target := onHub
  classN := true
  params := 6
  body s q :=
    let t := s.dev.time
    let c := servoCfgOf q
    guarded s (servoChecks q)
      (if c.source = t.cfg.source then .ok s (s.dev.setTime { t with cfg := c })
       else .ok s ((s.dev.setTime { t with cfg := c, acc := 0, firstSample := true, outliers := [], sampleQ := [], heldQ := [] }).setServo .free))

/-- SERVO_CONFIG. -/
def execServoConfig (p : Packet) (s : State) : Host.Outcome State Fault Refusal := .next (packetRow opServoConfig p s)

/-- TIME_LO_READ (R306): reading TIME_LO latches TIME_HI and TIME_FRAC. -/
def execTimeLoRead (s : State) : Host.Outcome State Fault Refusal :=
  let d := s.dev
  let frac := ((d.time.ctFix d.time.raw) % 65536).toNat
  .next (if !d.hubUp then s else
    { s with dev := (d.setTime { d.time with shTimeHi := w32 (d.now / 2 ^ 32), shFrac := w32 frac }).emit (.regRead 0x01000A08 (w32 d.now)) })

/-- RAW_LO_READ (R306): reading RAW_LO latches RAW_HI. -/
def execRawLoRead (s : State) : Host.Outcome State Fault Refusal :=
  let d := s.dev
  .next (if !d.hubUp then s else
    { s with dev := (d.setTime { d.time with shRawHi := w32 (d.time.raw / 2 ^ 32) }).emit (.regRead 0x01000A00 (w32 d.time.raw)) })

/-- RESID_MAX_NS_READ (R312, R7): the read returns the largest residence time and clears it. -/
def execResidMaxNsRead (port : Fin 3) (s : State) : Host.Outcome State Fault Refusal :=
  let d := s.dev
  let q := d.time.port.rd port.val
  let d1 := d.setTime { d.time with port := d.time.port.wr port.val { q with residMaxNs := 0 } }
  let w := pack [(q.badMsg, 0), (q.residMaxNs, 16)]
  .next (if !d.hubUp then s else { s with dev := d1.emit (.regRead (0x3000041C + 65536 * port.val) w) })

end Sys2Proof.Machine
end

