-- ==== Sys2Proof/Machine/Can.lean ====
section
/-! DEFINITION. The CAN FD controllers (chapter 16): filters, buffers, fault confinement, identifier clashes, reference messages and the
mapping of messages to points. -/

namespace Sys2Proof.Machine

open Sys2Proof.Bits Sys2Proof.Float

/-- Changes controller `k`. -/
def Dev.setCan (d : Dev) (k : Nat) (q : CanCtl) : Dev := { d with can := { d.can with ctl := d.can.ctl.wr k q } }
/-- Controller `k`. -/
def Dev.canAt (d : Dev) (k : Nat) : CanCtl := d.can.ctl.rd k
/-- The source of controller `k`'s events. -/
def canSrc (k : Nat) : Nat := 0x3100 + k

/-- Data bytes that a DLC stands for. -/
def dlcLen (dlc : Nat) : Nat :=
  match dlc with
  | 9 => 12 | 10 => 16 | 11 => 20 | 12 => 24 | 13 => 32 | 14 => 48 | 15 => 64 | n => n

/-- Data bytes of a frame: a remote frame carries none. -/
def CanFrame.len (f : CanFrame) : Nat := if f.rtr then 0 else dlcLen f.dlc

/-- The frame's data, cut or filled with zeros to `n` bytes. -/
def CanFrame.bytes (f : CanFrame) (n : Nat) : List Byte := (f.data.take f.len ++ List.replicate n 0).take n

/-- The number of ERR_STATE. -/
def CanErr.num : CanErr → Nat
  | .active => 0 | .passive => 1 | .busOff => 2 | .busOffHeld => 3
/-- The number of TIME_STATE. -/
def CanTime.num : CanTime → Nat
  | .none => 0 | .following => 1 | .mastering => 2 | .suspended => 3

/-- The controller is on its bus. -/
def CanCtl.on (q : CanCtl) : Bool := q.cfg.mode ≠ 0 || q.offWait
/-- The controller takes no part in the traffic: bus-off. -/
def CanCtl.off (q : CanCtl) : Bool := q.err = .busOff || q.err = .busOffHeld
/-- The controller sends. -/
def CanCtl.sends (q : CanCtl) : Bool := (q.cfg.mode = 1 || q.cfg.mode = 3 || q.offWait) && !q.off

/-! Mapping to points (R357, R358). -/

/-- Field of a mapping entry. -/
def CanMap.enabled (m : CanMap) : Bool := bit m.w0 30
/-- POINT. -/
def CanMap.point (m : CanMap) : Nat := fld m.w1 19 0
/-- Number of bits. -/
def CanMap.bits (m : CanMap) : Nat := fld m.w2 4 0 + 1
/-- TIMEOUT_MS. -/
def CanMap.timeoutMs (m : CanMap) : Nat := fld m.w2 23 8

/-- Bit `i` of byte `j` of the data. -/
def dataBit (bs : List Byte) (j i : Nat) : Nat := (bs.getD j 0).toNat / 2 ^ i % 2

/-- The raw number an entry takes from the data, none where its bits reach beyond it. -/
def CanMap.raw (m : CanMap) (bs : List Byte) : Option Nat :=
  let n := m.bits
  let byte := fld m.w1 25 20
  let b := fld m.w1 28 26
  let start := if bit m.w2 7 then 8 * byte + (7 - b) else 8 * byte + b
  if 8 * bs.length < start + n then none
  else if bit m.w2 7 then some ((List.range n).foldl (fun acc i => 2 * acc + dataBit bs ((start + i) / 8) (7 - (start + i) % 8)) 0)
  else some ((List.range n).foldl (fun acc i => acc + dataBit bs ((start + i) / 8) ((start + i) % 8) * 2 ^ i) 0)

/-- VALUE of R357: binary64, rounded once to binary32. -/
def CanMap.value (m : CanMap) (raw : Nat) : Word :=
  let x := match fld m.w2 6 5 with
    | 0 => b64.ofRat raw 1
    | 1 => b64.ofRat (sgn m.bits raw) 1
    | _ => conv b32 b64 raw
  w32 (conv b64 b32 (b64.add (b64.mul x (conv b32 b64 m.scale.toNat)) (conv b32 b64 m.offset.toNat)))

/-- Frames of the controller whose point writes still wait: the mapping queue's level. -/
def Dev.mapLevel (d : Dev) (k : Nat) : Nat := (d.points.waiting.filter (fun w => w.source.toNat = 0x40 + k && w.last)).length

/-- Applies a frame to every matching entry in ascending index (R357). -/
def Dev.canMap (d : Dev) (k : Nat) (f : CanFrame) (stamp : Nat) : Dev :=
  let q := d.canAt k
  if 64 ≤ d.mapLevel k then (d.setCan k { q with mapLost := bump 16 q.mapLost }).satAt 0x31 16 (bump 16 q.mapLost)
  else
    let hit := q.maps.filter (fun e => e.2.enabled && decide (Bits.fld e.2.w0 28 0 = f.id) && (bit e.2.w0 29 == f.ide))
    let bs := f.bytes f.len
    let writes := hit.filterMap (fun e => (e.2.raw bs).map (fun r => (e.1, e.2.value r)))
    let short := hit.length - writes.length
    let maps := writes.foldl (fun (t : Tbl CanMap) w => t.upd w.1 (fun m => { m with last := some (w.2, d.time.raw), timedOut := false })) q.maps
    let n := satN 16 (q.mapShort + short)
    let d1 := (d.setCan k { q with maps := maps, mapShort := n }).satAt 0x31 16 (if short = 0 then 0 else n)
    let pw := (List.range writes.length).map (fun i =>
      let w := writes.getD i (0, 0)
      ({ id := (q.maps.rd w.1).point, value := w.2, time := w32 stamp, source := BitVec.ofNat 8 (0x40 + k),
         last := decide (i + 1 = writes.length) } : PointWrite))
    d1.writePoints pw

/-- Writes BAD_COMM to an entry's point with its last value (R358). -/
def Dev.mapBad (d : Dev) (k i : Nat) : Dev :=
  let q := d.canAt k
  let m := q.maps.rd i
  match m.last with
  | none => d
  | some (v, _) =>
    (d.setCan k { q with maps := q.maps.wr i { m with timedOut := true } }).writePoint
      { id := m.point, value := v, landTime := true, quality := 0x84, source := BitVec.ofNat 8 (0x40 + k) }

/-- BAD_COMM to every mapped point of the controller that has not been given it yet (R358). -/
def Dev.mapAllBad (d : Dev) (k : Nat) : Dev :=
  (d.canAt k).maps.foldl (fun acc e => if e.2.enabled && !e.2.timedOut then acc.mapBad k e.1 else acc) d

/-! Fault confinement (R351, R352). -/

/-- One threshold of a counter that moves from `a` to `b`: its reached bit, and the event. -/
def Dev.canThreshold (d : Dev) (k i a b t : Nat) : Dev :=
  let q := d.canAt k
  let was := q.warned.getLsbD i
  let up := decide (t ≠ 0 ∧ a < t ∧ t ≤ b)
  let down := decide (t ≠ 0 ∧ b ≤ t - 8) && was
  let data (r : Nat) : Nat := i / 2 + 2 * (i % 2) + 4 * r + 2 ^ 8 * min 255 b
  let set (v : Bool) : Dev := d.setCan k { q with warned := if v then q.warned ||| BitVec.ofNat 4 (2 ^ i) else q.warned &&& BitVec.ofNat 4 (15 - 2 ^ i) }
  if up then (set true).raise 0x3101 (canSrc k) .warn (data 1) else if down then (set false).raise 0x3101 (canSrc k) .warn (data 0) else d

/-- The error counters become `tec` and `recv`, with the threshold events. -/
def Dev.canCount (d : Dev) (k tec recv : Nat) : Dev :=
  let q := d.canAt k
  let w := q.cfg.warn
  let d1 := d.setCan k { q with tec := tec, recCnt := recv }
  (((d1.canThreshold k 0 q.tec tec w.1).canThreshold k 1 q.tec tec w.2.1).canThreshold k 2 q.recCnt recv w.2.2.1).canThreshold k 3 q.recCnt recv w.2.2.2

/-- ERR_STATE becomes `v`: CAN_ERR_STATE at each change. -/
def Dev.canErr (d : Dev) (k : Nat) (v : CanErr) : Dev :=
  let q := d.canAt k
  if q.err = v then d else (d.setCan k { q with err := v }).raise 0x3102 (canSrc k) .warn (v.num + 2 ^ 8 * q.err.num)

/-- TIME_STATE becomes `v`: CAN_TIME_ROLE at each change (R356). -/
def Dev.canTime (d : Dev) (k : Nat) (v : CanTime) : Dev :=
  let q := d.canAt k
  if q.time = v then d
  else (d.setCan k { q with time := v, followC := if v = .following then d.now / (q.tcfg.cycleUs * 1000) else q.followC }).raise 0x3108 (canSrc k) .info
    (v.num + 8 * q.masterP)

/-- Bus-off (R352, R358): ONE_SHOT buffers are aborted; recovery starts, or bus-off is held. -/
def Dev.canBusOff (d : Dev) (k : Nat) : Dev :=
  let q := d.canAt k
  let recent := d.time.raw :: q.busoffs.filter (fun t => decide (d.time.raw < t + 60000000000))
  let hold := !q.cfg.busoffAuto || decide (q.cfg.busoffLimit ≠ 0 ∧ q.cfg.busoffLimit ≤ recent.length)
  let n := bump 16 q.busoffCnt
  let tx := q.tx.mapD (fun b => if b.oneShot then { b with pending := false } else b)
  let d1 := (d.setCan k { q with busoffs := recent, busoffCnt := n, tx := tx }).satAt 0x31 16 n
  let d2 := (d1.canErr k .busOff).mapAllBad k
  if hold then (d2.canErr k .busOffHeld).raise 0x3103 (canSrc k) .crit n else d2

/-- The error state that the counters give. -/
def Dev.canConfine (d : Dev) (k : Nat) : Dev :=
  let q := d.canAt k
  if 255 < q.tec then d.canBusOff k else if 127 < q.tec ∨ 127 < q.recCnt then d.canErr k .passive else d.canErr k .active

/-- The bus is idle: a change of MODE to OFF that waited takes effect (R359). -/
def Dev.canIdle (d : Dev) (k : Nat) : Dev :=
  let q := d.canAt k
  if q.offWait then (d.setCan k { q with offWait := false }).mapAllBad k else d

/-! Reception (R347 to R349, R355). -/

/-- A standard filter matches: its index, ACTION and PRIORITY. -/
def stdMatch (id : Nat) : Tbl Word → Option (Nat × Nat × Bool)
  | [] => none
  | (i, w) :: t => if bit w 25 && decide ((id ^^^ fld w 10 0) &&& fld w 21 11 = 0) then some (i, fld w 23 22, bit w 24) else stdMatch id t

/-- An extended filter matches. -/
def extMatch (id : Nat) : Tbl (Word × Word) → Option (Nat × Nat × Bool)
  | [] => none
  | (i, w) :: t =>
    if bit w.1 31 && decide ((id ^^^ fld w.1 28 0) &&& fld w.2 28 0 = 0) then some (i, fld w.1 30 29, bit w.2 29) else extMatch id t

/-- Stores a frame in its destination, or books it as lost (R348). -/
def Dev.canStore (d : Dev) (k : Nat) (f : CanFrame) (filter : Nat) (prio : Bool) (stamp : Nat) : Dev :=
  let q := d.canAt k
  let x : CanRx := { frame := { f with data := f.bytes 64 }, filter := filter, extList := f.ide && decide (filter ≠ 0x7F), seq := q.rxSeq, time := stamp }
  if prio then
    if 16 ≤ q.prioBuf.length then
      ((d.setCan k { q with prioLost := bump 16 q.prioLost }).satAt 0x31 16 (bump 16 q.prioLost)).raise 0x3106 (canSrc k) .warn (f.id + 2 ^ 29 * b1 f.ide)
    else
      let d1 := (d.setCan k { q with prioBuf := q.prioBuf ++ [x], rxSeq := q.rxSeq + 1 }).raise 0x3105 (canSrc k) .info
        (f.id + 2 ^ 29 * b1 f.ide + 2 ^ 32 * filter)
      if q.cfg.prioMsix then d1.emit (.msix q.cfg.prioVector) else d1
  else if 144 ≤ q.fifo.length then
    ((d.setCan k { q with rxLost := bump 16 q.rxLost }).satAt 0x31 16 (bump 16 q.rxLost)).raise 0x3104 (canSrc k) .warn (bump 16 q.rxLost)
  else d.setCan k { q with fifo := q.fifo ++ [x], rxSeq := q.rxSeq + 1 }

/-- The cycle that holds corrected time `t`. -/
def CanTimeCfg.cycleOf (c : CanTimeCfg) (t : Nat) : Nat := t / (c.cycleUs * 1000)

/-- A reference with `p` below `lim` was heard within the last SILENCE cycles. -/
def CanCtl.heardBelow (q : CanCtl) (lim cur : Nat) : Bool :=
  (List.range lim).any (fun p => decide (q.heard.rd p ≠ 0 ∧ cur ≤ q.heard.rd p - 1 + q.tcfg.silence))

/-- A frame that may be a reference message (R355, R356): a follower forms θ, a master hears a more senior one and yields from the next cycle. -/
def Dev.canRef (d : Dev) (k : Nat) (f : CanFrame) (stamp : Nat) : Dev :=
  let q := d.canAt k
  let c := q.tcfg
  let p := f.id - c.refId
  if c.role = 0 ∨ f.ide ≠ c.refIde ∨ f.id < c.refId ∨ c.refId + 7 < f.id ∨ f.dlc ≠ 8 ∨ f.rtr then d
  else
    let cur := c.cycleOf d.now
    let bs := f.bytes 8
    let q1 := { q with heard := q.heard.wr p (cur + 1) }
    if q.time = .mastering then
      if p < c.prio then d.setCan k { q1 with pendTime := some .following, yielded := true } else d.setCan k q1
    else if q.time ≠ .following ∧ q.time ≠ .suspended then d
    else if q.heardBelow p cur then d.setCan k q1
    else
      let sof := natLE ((bs.drop 2).take 6)
      let theta := sgn 48 ((stamp + 2 ^ 48 - sof % 2 ^ 48) % 2 ^ 48) - c.busDelayNs
      let d1 := d.setCan k { q1 with refRecv := q.refRecv + 1, lastTheta := satI 32 theta, cycle := BitVec.ofNat 16 (natLE (bs.take 2)), masterP := p }
      if c.feedServo && decide (d1.time.cfg.source = 2) then d1.servoArrive theta else d1

/-- A frame ends validly at a controller (R347). -/
def Dev.canReceive (d : Dev) (k : Nat) (f : CanFrame) (stamp : Nat) : Dev :=
  let q := d.canAt k
  let d1 := d.setCan k { q with rxOk := q.rxOk + 1 }
  let m := if f.ide then extMatch f.id q.ext else stdMatch f.id q.std
  let d2 := match m with
    | some (i, act, prio) =>
      let d3 := if act = 1 ∨ act = 3 then d1.canStore k f i prio stamp else d1
      if (act = 2 ∨ act = 3) ∧ !f.rtr then d3.canMap k f stamp else d3
    | none => if q.cfg.nonmatch then d1.canStore k f 0x7F false stamp else d1
  d2.canRef k f stamp

/-- REC after a valid reception: one less, or back below 128 at a value the standard leaves open between 119 and 127. -/
def Dev.recvOk (d : Dev) (k : Nat) : Dev :=
  let q := d.canAt k
  if q.recCnt ≤ 127 then (d.canCount k q.tec (q.recCnt - 1)).canConfine k
  else
    let (v, d1) := d.freeN 9
    (d1.canCount k q.tec (119 + v)).canConfine k

/-- CAN_FRAME_RECEIVED (R347 to R349, R355): `sof` is the raw instant of the start-of-frame edge. -/
def execCanFrameReceived (k : Fin 4) (f : CanFrame) (sof : Nat) (s : State) : Host.Outcome State Fault Refusal :=
  hubStep s fun d0 =>
    let d := d0.toRaw sof
    let q := d.canAt k.val
    if !q.on || q.off then d0
    else
      let d1 := d.canReceive k.val f (d.time.ctAt sof)
      let d2 := if q.cfg.mode = 2 then d1 else d1.recvOk k.val
      d2.canIdle k.val

/-! Transmission (R350, R353, R354). -/

/-- The reference message of a controller with its own start-of-frame stamp (Table 16-6). -/
def CanCtl.refFrame (q : CanCtl) (stamp : Nat) : CanFrame :=
  { id := q.tcfg.refId + q.tcfg.prio, ide := q.tcfg.refIde, dlc := 8, data := leBytes 2 ((q.refDue.getD 0) % 65536) ++ leBytes 6 stamp }

/-- CAN_TX_COMPLETE (R349, R350, R354): buffer `b` was sent, 32 standing for the reference message; in LOOPBACK the controller receives it. -/
def execCanTxComplete (k : Fin 4) (b : Fin 33) (sof : Nat) (s : State) : Host.Outcome State Fault Refusal :=
  hubStep s fun d0 =>
    let d := d0.toRaw sof
    let q := d.canAt k.val
    let x := q.tx.rd b.val
    let stamp := d.time.ctAt sof
    if !q.sends || !x.pending || x.suspended then d0
    else
      let f := if b.val = 32 then q.refFrame stamp else x.frame
      let q1 := { q with tx := q.tx.wr b.val { x with pending := false, clash := 0, cancel := false }, txOk := q.txOk + 1 }
      let q2 := if b.val = 32 then { q1 with refSent := q1.refSent + 1, cycle := BitVec.ofNat 16 ((q.refDue.getD 0) % 65536), refDue := none } else q1
      let d1 := ((d.setCan k.val q2).canCount k.val (q.tec - 1) q.recCnt).canConfine k.val
      let d2 := if q.cfg.mode = 3 then d1.canReceive k.val f stamp else d1.emit (.canFrame k.val f)
      d2.canIdle k.val

/-- CAN_BUS_ERROR (R351 to R353): an error of kind `lec`; `tx` is the buffer being sent, none for a receiver; `post` says, of a transmitter, that
the error was detected after the arbitration field and outside the acknowledge slot, and of a receiver, that a dominant bit followed its
error flag. -/
def execCanBusError (k : Fin 4) (lec : BitVec 3) (tx : Option (Fin 33)) (post : Bool) (s : State) : Host.Outcome State Fault Refusal :=
  hubStep s fun d =>
    let q := d.canAt k.val
    if !q.on || q.off then d
    else if q.cfg.mode = 2 then (d.setCan k.val { q with lec := lec }).canIdle k.val
    else
      match tx with
      | none =>
        let d1 := d.setCan k.val { q with lec := lec }
        ((d1.canCount k.val q.tec (min 255 (q.recCnt + (if post then 8 else 1)))).canConfine k.val).canIdle k.val
      | some b =>
        let x := q.tx.rd b.val
        if !x.pending || x.suspended then d
        else
          let clash := if post ∧ (lec = 4 ∨ lec = 5) then min 4 (x.clash + 1) else 0
          let stays := !(x.oneShot || x.cancel)
          let d1 := d.setCan k.val { q with lec := lec, tx := q.tx.wr b.val { x with clash := clash, pending := stays, cancel := false } }
          let tec := if lec = 3 ∧ q.err = .passive then q.tec else q.tec + 8
          ((d1.canCount k.val tec q.recCnt).canConfine k.val).canIdle k.val

/-- CAN_CLASH_LIMIT (R353): the fourth consecutive bit error after arbitration suspends the buffer; for the reference message it stops the
master role. -/
def execCanClashLimit (k : Fin 4) (b : Fin 33) (s : State) : Host.Outcome State Fault Refusal :=
  hubStep s fun d =>
    let q := d.canAt k.val
    let x := q.tx.rd b.val
    if x.clash < 4 ∨ x.suspended then d
    else
      let n := bump 16 q.clashCnt
      let d1 := (d.setCan k.val { q with tx := q.tx.wr b.val { x with suspended := true }, clashCnt := n }).satAt 0x31 16 n
      let id := if b.val = 32 then q.tcfg.refId + q.tcfg.prio else x.frame.id
      let d2 := d1.raise 0x3107 (canSrc k.val) .crit ((if b.val = 32 then 0xFF else b.val) + 2 ^ 8 * id + 2 ^ 40 * min 255 q.tec)
      if b.val = 32 then d2.canTime k.val .suspended else d2

/-- CAN_BUSOFF_RECOVERED (R352, R356): the recovery that runs has ended. -/
def execCanBusoffRecovered (k : Fin 4) (s : State) : Host.Outcome State Fault Refusal :=
  hubStep s fun d =>
    let q := d.canAt k.val
    if q.err ≠ .busOff then d
    else
      let d1 := (d.canCount k.val 0 0).canErr k.val .active
      let q1 := d1.canAt k.val
      if q1.tcfg.role = 0 then d1 else (d1.setCan k.val { q1 with yielded := decide (q1.tcfg.role = 1), pendTime := none }).canTime k.val .following

/-- CAN_REF_CYCLE (R354, R356): the next cycle begins, to which time is brought forward; a pending role takes effect, and a master requests its
reference message. -/
def execCanRefCycle (k : Fin 4) (s : State) : Host.Outcome State Fault Refusal :=
  hubStep s fun d =>
    let q := d.canAt k.val
    if q.tcfg.role = 0 ∨ !q.on then d
    else
      let p := q.tcfg.cycleUs * 1000
      let c := max ((d.now + p - 1) / p) (q.cycleNow + 1)
      let d1 := d.toCt (c * p)
      let d2 := d1.setCan k.val { q with cycleNow := c, pendTime := none }
      let d3 := match q.pendTime with
        | some v => d2.canTime k.val v
        | none => d2
      let q3 := d3.canAt k.val
      if q3.time = .mastering ∧ (!q3.tcfg.requireLock ∨ d3.time.servo = .locked) then
        let x := q3.tx.rd 32
        d3.setCan k.val { q3 with refDue := some c, tx := q3.tx.wr 32 { x with pending := true } }
      else d3

/-- CAN_REF_LATE_TIMEOUT (R354): the reference message has not started by T_c + CYCLE_US ÷ 2 and is abandoned. -/
def execCanRefLateTimeout (k : Fin 4) (s : State) : Host.Outcome State Fault Refusal :=
  hubStep s fun d =>
    let q := d.canAt k.val
    match q.refDue with
    | none => d
    | some c =>
      let d1 := d.toCt (c * (q.tcfg.cycleUs * 1000) + q.tcfg.cycleUs * 500)
      let n := bump 16 q.refLate
      let x := q.tx.rd 32
      let d2 := (d1.setCan k.val { q with refDue := none, refLate := n, tx := q.tx.wr 32 { x with pending := false } }).satAt 0x31 16 n
      d2.raise 0x3109 (canSrc k.val) .warn (c % 65536)

/-- CAN_SILENCE_TIMEOUT (R356): no reference with lower p for SILENCE cycles; a backup or yielded master masters at the next T_c, to which time is
brought forward. -/
def execCanSilenceTimeout (k : Fin 4) (s : State) : Host.Outcome State Fault Refusal :=
  hubStep s fun d =>
    let q := d.canAt k.val
    if q.time ≠ .following ∨ q.off ∨ !(q.tcfg.backup || q.yielded) then d
    else
      let p := q.tcfg.cycleUs * 1000
      let last := (List.range q.tcfg.prio).foldl (fun acc i => max acc (q.heard.rd i - 1)) q.followC
      let c := max (last + q.tcfg.silence + 1) ((d.now + p - 1) / p)
      let d1 := d.toCt (c * p)
      (d1.setCan k.val { d1.canAt k.val with yielded := false }).canTime k.val .mastering

/-- The check of one mapped entry (R358): BAD_COMM and CAN_MAP_TIMEOUT where no frame has matched for TIMEOUT_MS. -/
def Dev.mapTimeout (k : Nat) (a : Dev) (e : Nat × CanMap) : Dev :=
  let m := e.2
  let late : Bool := match m.last with
    | some (_, r) => decide (m.timeoutMs ≠ 0 ∧ r + m.timeoutMs * 1000000 ≤ a.time.raw)
    | none => false
  if m.enabled && late && !m.timedOut then (a.mapBad k e.1).raise 0x310A (canSrc k) .warn (e.1 + 2 ^ 8 * m.point) else a

/-- CAN_MAP_TIMEOUT_CHECK (R358): the check of every 1 ms, to which time is brought forward. -/
def execCanMapTimeoutCheck (s : State) : Host.Outcome State Fault Refusal :=
  hubStep s fun d0 =>
    let d := d0.toRaw ((d0.time.raw / 1000000 + 1) * 1000000)
    (List.range 4).foldl (fun acc k =>
      (acc.canAt k).maps.foldl (Dev.mapTimeout k) acc) d

/-! Commands (Table 16-8). -/

/-- The target of every CAN opcode. -/
def onCan (p : Packet) : Bool := onInst 0x31 4 p

/-- The settings a CAN_CONFIG carries (Table 16-9). -/
def canCfgOf (q : QPacket) : CanCfg :=
  { mode := BitVec.ofNat 2 (q.f 0 1 0), fdEn := q.b 0 2, brsEn := q.b 0 3, tdcEn := q.b 0 4, busoffAuto := q.b 0 5, nonmatch := q.b 0 6,
    busoffLimit := q.f 0 15 8, nom := (q.f 1 5 0, q.f 1 14 6, q.f 1 22 15, q.f 1 30 23), dat := (q.f 2 5 0, q.f 2 11 6, q.f 2 16 12, q.f 2 21 17),
    tdco := q.f 2 28 22, warn := (q.f 3 7 0, q.f 3 15 8, q.f 3 23 16, q.f 3 31 24), prioVector := q.f 4 4 0, prioMsix := q.b 4 5,
    prioIrq := BitVec.ofNat 2 (q.f 4 7 6) }

/-- Length of a bit in ns (R346). -/
def bitNs (t : Nat × Nat × Nat × Nat) : Nat := t.1 * 10 * (1 + t.2.1 + t.2.2.1)

/-- The parameter checks of CAN_CONFIG, in order. -/
def canConfigChecks (s : State) (q : QPacket) : List (Bool × Nat × Nat) :=
  let x := s.dev.canAt q.pkt.inst
  let c := canCfgOf q
  let bad (t : Nat × Nat × Nat × Nat) (b t1lo t1 t2 sj : Nat) : Bool :=
    outside t.1 1 b || outside t.2.1 t1lo t1 || outside t.2.2.1 1 t2 || outside t.2.2.2 1 sj || decide (t.2.2.1 < t.2.2.2)
  [encIf (q.resv 0 0xFF7F) 0, encIf (q.resv 1 0x7FFFFFFF) 1,
    rangeIf (bad c.nom 32 2 256 128 128 || decide (bitNs c.nom < 1000)) 1, encIf (q.resv 2 0x1FFFFFFF) 2,
    rangeIf (bad c.dat 32 1 32 16 16 || decide (bitNs c.dat < 130 ∨ bitNs c.nom < bitNs c.dat)) 2, encIf (q.resv 4 0xFF || decide (c.prioIrq = 3)) 4,
    (decide (x.cfg.mode ≠ 0 ∧ (x.cfg.nom ≠ c.nom ∨ x.cfg.dat ≠ c.dat)), stWrongState, 5),
    conflictIf (decide (c.mode = 2 ∧ (x.tcfg.role = 1 ∨ x.tcfg.backup = true))) 0]

/-- CAN_CONFIG (R346, R359). -/
def opCanConfig : Op where
  code := 0x0901
  target := onCan
  classN := true
  params := 5
  body s q :=
    let k := q.pkt.inst
    let x := s.dev.canAt k
    let c := canCfgOf q
    guarded s (canConfigChecks s q)
      (if c.mode = 0 ∧ x.cfg.mode ≠ 0 then
         let (busy, d1) := s.dev.freeB
         let d2 := d1.setCan k { x with cfg := c, offWait := busy }
         .ok s (if busy then d2 else d2.mapAllBad k)
       else .ok s (s.dev.setCan k { x with cfg := c, offWait := x.offWait && decide (c.mode = 0) }))

/-- CAN_CONFIG. -/
def execCanConfig (p : Packet) (s : State) : Host.Outcome State Fault Refusal := .next (packetRow opCanConfig p s)

/-- The words of a parameter list two at a time. -/
def pairsOf : List Word → List (Word × Word)
  | a :: b :: t => (a, b) :: pairsOf t
  | _ => []

/-- Enabled PRIORITY elements of both lists (R347). -/
def CanCtl.prioCount (q : CanCtl) : Nat :=
  (q.std.filter (fun e => bit e.2 25 && bit e.2 24)).length + (q.ext.filter (fun e => bit e.2.1 31 && bit e.2.2 29)).length

/-- The controller with the filter elements of a CAN_FILTER. -/
def CanCtl.withFilters (x : CanCtl) (q : QPacket) : CanCtl :=
  let first := q.f 0 14 8
  if q.b 0 0 then { x with ext := x.ext.wrAll first (pairsOf (q.from' 1)) } else { x with std := x.std.wrAll first (q.from' 1) }

/-- The parameter checks of CAN_FILTER, in order. -/
def canFilterChecks (s : State) (q : QPacket) : List (Bool × Nat × Nat) :=
  let n := q.f 0 22 16
  let ext := q.b 0 0
  let resvd := if ext then (pairsOf (q.from' 1)).any (fun e => Bits.resv e.2 0x3FFFFFFF) else (q.from' 1).any (fun e => Bits.resv e 0x3FFFFFF)
  [encIf (q.resv 0 0x7F7F01) 0, rangeIf (decide ((if ext then 64 else 128) < q.f 0 14 8 + n)) 0,
    (decide (q.n ≠ 1 + (if ext then 2 * n else n)), stBadLength, 1), encIf resvd 1,
    conflictIf (decide (8 < ((s.dev.canAt q.pkt.inst).withFilters q).prioCount)) 1]

/-- CAN_FILTER (R347). -/
def opCanFilter : Op where
  code := 0x0902
  target := onCan
  classN := true
  params := 1
  body s q :=
    let k := q.pkt.inst
    guarded s (canFilterChecks s q) (.ok s (s.dev.setCan k ((s.dev.canAt k).withFilters q)))

/-- CAN_FILTER. -/
def execCanFilter (p : Packet) (s : State) : Host.Outcome State Fault Refusal := .next (packetRow opCanFilter p s)

/-- The frame a CAN_SEND carries. -/
def sendFrame (q : QPacket) : CanFrame :=
  let w := q.par 1
  { id := fld w 28 0, ide := bit w 29, rtr := bit w 30, fdf := bit w 31, dlc := q.f 2 3 0, brs := q.b 2 4, data := bytesAll (q.from' 3) }

/-- The parameter checks of CAN_SEND where it loads a buffer, in order. -/
def canSendChecks (s : State) (q : QPacket) : List (Bool × Nat × Nat) :=
  let x := s.dev.canAt q.pkt.inst
  let t := x.tx.rd (q.f 0 4 0)
  let f := sendFrame q
  let words := if f.rtr then 0 else (dlcLen f.dlc + 3) / 4
  [encIf (q.resv 0 0x31F) 0, encIf (q.resv 2 0x1F) 2, rangeIf (!f.ide && decide (2 ^ 11 ≤ f.id)) 1,
    (decide (x.cfg.mode = 0 ∨ x.cfg.mode = 2), stWrongState, 0), (t.pending && !t.suspended, stBusy, 4),
    conflictIf ((f.fdf && (f.rtr || !x.cfg.fdEn))) 1, conflictIf (f.brs && !(f.fdf && x.cfg.brsEn)) 2, conflictIf (!f.fdf && decide (8 < f.dlc)) 2,
    conflictIf (decide (q.n ≠ 3 + words)) 2]

/-- CAN_SEND (R350, R353, R359): loads a buffer and requests its transmission, or cancels it. Whether the buffer is on the bus at a CANCEL is free:
it is then aborted only if its attempt fails. -/
def opCanSend : Op where
  code := 0x0903
  target := onCan
  params := 3
  body s q :=
    let k := q.pkt.inst
    let x := s.dev.canAt k
    let b := q.f 0 4 0
    let t := x.tx.rd b
    let f := sendFrame q
    if q.b 0 9 then
      guarded s [encIf (q.resv 0 0x31F) 0, (decide (x.cfg.mode = 0 ∨ x.cfg.mode = 2), stWrongState, 0)]
        (if !t.pending then .ok s s.dev
         else
           let (busy, d1) := s.dev.freeB
           let onBus := busy && !t.suspended && x.sends
           .ok s (d1.setCan k { x with tx := x.tx.wr b { t with pending := onBus, cancel := onBus, suspended := false, clash := 0 } }))
    else
      guarded s (canSendChecks s q)
        (.ok s (s.dev.setCan k { x with tx := x.tx.wr b { frame := { f with data := f.bytes f.len }, pending := true, oneShot := q.b 0 8 } }))

/-- CAN_SEND. -/
def execCanSend (p : Packet) (s : State) : Host.Outcome State Fault Refusal := .next (packetRow opCanSend p s)

/-- The 20 words of a receive element (Table 16-5). -/
def CanRx.words (x : CanRx) : List Word :=
  let f := x.frame
  [pack [(f.id, 0), (b1 f.ide, 29), (b1 f.rtr, 30), (b1 f.fdf, 31)],
    pack [(f.dlc, 0), (b1 f.brs, 4), (b1 f.esi, 5), (x.filter, 8), (b1 x.extList, 15), (x.seq.toNat, 16)], w32 x.time, w32 (eraOf x.time)] ++
    wordsOf (f.bytes 64)

/-- Largest MAX of CAN_RECEIVE on a transport (Table 16-8). -/
def canMax (t : Transport) : Nat :=
  match t with
  | .pcie => 204
  | .eth => 17
  | _ => 50

/-- CAN_RECEIVE (Table 16-8). -/
def opCanReceive : Op where
  code := 0x0904
  target := onCan
  params := 1
  body s q :=
    let k := q.pkt.inst
    let x := s.dev.canAt k
    let max := q.f 0 15 8
    let src := if q.b 0 0 then x.prioBuf else x.fifo
    let left := src.drop max
    let y := if !q.b 0 1 then x else if q.b 0 0 then { x with prioBuf := left } else { x with fifo := left }
    guarded s [encIf (q.resv 0 0xFF03) 0, rangeIf (outside max 1 (canMax q.pkt.transport)) 0]
      { st := { s with dev := s.dev.setCan k y }
        words := pack [((src.take max).length, 0), (left.length, 8)] :: (src.take max).flatMap CanRx.words }

/-- CAN_RECEIVE. -/
def execCanReceive (p : Packet) (s : State) : Host.Outcome State Fault Refusal := .next (packetRow opCanReceive p s)

/-- Word of a controller's page at offset 4·i (Table 16-11). -/
def CanCtl.word (q : CanCtl) (i : Nat) : Word :=
  match i with
  | 0 => pack [(q.cfg.mode.toNat, 0), (q.err.num, 2), (q.lec.toNat, 4), (min 255 q.tec, 8), (q.recCnt, 16), (q.time.num, 24)]
  | 1 => q.rxOk
  | 2 => q.txOk
  | 3 => pack [(q.rxLost, 0), (q.prioLost, 16)]
  | 4 => pack [(q.mapLost, 0), (q.mapShort, 16)]
  | 5 => pack [(q.busoffCnt, 0), (q.clashCnt, 16)]
  | 6 => w32 (maskOf ((List.range 32).filter (fun b => (q.tx.rd b).pending)))
  | 7 => w32 (maskOf ((List.range 32).filter (fun b => (q.tx.rd b).suspended)))
  | 8 => pack [(q.fifo.length, 0), (q.prioBuf.length, 16)]
  | 9 => pack [(q.refSent.toNat, 0), (q.refLate, 16)]
  | 10 => q.refRecv
  | 11 => wInt q.lastTheta
  | 12 => pack [(q.cycle.toNat, 0), (q.masterP, 16)]
  | 13 => q.eccCorr
  | _ => 0

/-- CAN_STATUS (Table 16-8). -/
def opCanStatus : Op where
  code := 0x0905
  target := onCan
  body s q := .read s ((List.range 14).map (s.dev.canAt q.pkt.inst).word)

/-- CAN_STATUS. -/
def execCanStatus (p : Packet) (s : State) : Host.Outcome State Fault Refusal := .next (packetRow opCanStatus p s)

/-- The settings a CAN_TIME_CONFIG carries (Table 16-8). -/
def canTimeCfgOf (q : QPacket) : CanTimeCfg :=
  { role := BitVec.ofNat 2 (q.f 0 1 0), backup := q.b 0 2, prio := q.f 0 5 3, feedServo := q.b 0 6, requireLock := q.b 0 7,
    silence := q.f 0 15 8, refId := q.f 1 28 0, refIde := q.b 1 29, cycleUs := q.f 2 19 0, busDelayNs := q.f 3 15 0 }

/-- The parameter checks of CAN_TIME_CONFIG, in order. -/
def canTimeChecks (s : State) (q : QPacket) : List (Bool × Nat × Nat) :=
  let k := q.pkt.inst
  let x := s.dev.canAt k
  let c := canTimeCfgOf q
  [encIf (q.resv 0 0xFFFF || decide (c.role = 3)) 0, rangeIf (decide (c.silence < 2)) 0, encIf (q.resv 1 0x3FFFFFFF) 1,
      rangeIf (decide ((if c.refIde then 0x1FFFFFFF else 0x7FF) < c.refId + 7)) 1, encIf (q.resv 2 0xFFFFF) 2, rangeIf (outside c.cycleUs 1000 1000000) 2,
      encIf (q.resv 3 0xFFFF) 3,
      conflictIf (c.feedServo && (decide (s.dev.time.cfg.source ≠ 2) ||
        (List.range 4).any (fun j => decide (j ≠ k) && (s.dev.canAt j).tcfg.feedServo))) 0,
      conflictIf (decide (x.cfg.mode = 2 ∧ (c.role = 1 ∨ c.backup = true))) 0]

/-- CAN_TIME_CONFIG (R355, R356, R359). -/
def opCanTimeConfig : Op where
  code := 0x0906
  target := onCan
  classN := true
  params := 4
  body s q :=
    let k := q.pkt.inst
    let x := s.dev.canAt k
    let c := canTimeCfgOf q
    guarded s (canTimeChecks s q)
      (let x1 := { x with tcfg := c, pendTime := if c.role = 1 then some .mastering else none, yielded := false, heard := [], refDue := none,
                          cycleNow := 0, tx := x.tx.wr 32 {} }
       let d1 := s.dev.setCan k x1
       .ok s (if c.role = 0 then d1.canTime k .none else if c.role = 2 then d1.canTime k .following else d1))

/-- CAN_TIME_CONFIG. -/
def execCanTimeConfig (p : Packet) (s : State) : Host.Outcome State Fault Refusal := .next (packetRow opCanTimeConfig p s)

/-- The words of a parameter list five at a time. -/
def mapsOf : List Word → List CanMap
  | a :: b :: c :: e :: f :: t => { w0 := a, w1 := b, w2 := c, scale := e, offset := f } :: mapsOf t
  | _ => []

/-- The parameter checks of CAN_MAP, in order. -/
def canMapChecks (q : QPacket) : List (Bool × Nat × Nat) :=
  let n := q.f 0 16 8
  let ms := mapsOf (q.from' 1)
  let enc (m : CanMap) : Bool := bit m.w0 31 || Bits.resv m.w1 0x1FFFFFFF || Bits.resv m.w2 0xFFFFFF || decide (fld m.w2 6 5 = 3)
  let rng (m : CanMap) : Bool := decide (fld m.w2 6 5 = 2 ∧ m.bits ≠ 32) || !fin32 m.scale || !fin32 m.offset
  [encIf (q.resv 0 0x1FFFF) 0, rangeIf (outside n 1 256 || decide (256 < q.f 0 7 0 + n)) 0, (decide (q.n ≠ 1 + 5 * n), stBadLength, 1),
    encIf (ms.any enc) 1, rangeIf (ms.any rng) 1]

/-- CAN_MAP (Table 16-7, R357). -/
def opCanMap : Op where
  code := 0x0907
  target := onCan
  classN := true
  params := 1
  body s q :=
    let k := q.pkt.inst
    let x := s.dev.canAt k
    guarded s (canMapChecks q) (.ok s (s.dev.setCan k { x with maps := x.maps.wrAll (q.f 0 7 0) (mapsOf (q.from' 1)) }))

/-- CAN_MAP. -/
def execCanMap (p : Packet) (s : State) : Host.Outcome State Fault Refusal := .next (packetRow opCanMap p s)

/-- CAN_RECOVER OP BUS (R352): a held controller starts its recovery. -/
def opCanRecoverBus : Op where
  code := 0x0908
  sel p := !bit (p.par 0) 0
  target := onCan
  params := 1
  body s q :=
    guarded s [encIf (q.resv 0 0xFF01) 0]
      (if (s.dev.canAt q.pkt.inst).err = .busOffHeld then .ok s (s.dev.canErr q.pkt.inst .busOff) else { st := s, status := stOkNoChange })

/-- CAN_RECOVER_BUS. -/
def execCanRecoverBus (p : Packet) (s : State) : Host.Outcome State Fault Refusal := .next (packetRow opCanRecoverBus p s)

/-- CAN_RECOVER OP BUFFER (R353, R356): a suspension is cleared; 0xFF names the reference message. -/
def opCanRecoverBuffer : Op where
  code := 0x0908
  sel p := bit (p.par 0) 0
  target := onCan
  params := 1
  body s q :=
    let k := q.pkt.inst
    let x := s.dev.canAt k
    let b := if q.f 0 15 8 = 0xFF then 32 else q.f 0 15 8
    let t := x.tx.rd b
    guarded s [encIf (q.resv 0 0xFF01) 0, rangeIf (decide (32 < b ∨ (b = 32 ∧ q.f 0 15 8 ≠ 0xFF))) 0]
      (if !t.suspended then { st := s, status := stOkNoChange }
       else
         let d1 := s.dev.setCan k { x with tx := x.tx.wr b { t with suspended := false, clash := 0, pending := t.pending && decide (b ≠ 32) } }
         .ok s (if b = 32 then d1.canTime k .following else d1))

/-- CAN_RECOVER_BUFFER. -/
def execCanRecoverBuffer (p : Packet) (s : State) : Host.Outcome State Fault Refusal := .next (packetRow opCanRecoverBuffer p s)

end Sys2Proof.Machine
end

