-- ==== Sys2Proof/Machine/Kernels.lean ====
section
/-! DEFINITION. The solver kernels and job algorithms on plain lists of bit patterns (R98, R110 to R118, R135 to R138): factorisation, triangular
solves, conjugate gradient, the quadratic program and the hydraulic balance, with every value checked by R118. -/

namespace Sys2Proof.Kernel

open Sys2Proof.Bits Sys2Proof.Float

/-- A numeric fault: its cause (Table 05-10) and INDEX. -/
structure NumFault where
  /-- CAUSE. -/
  cause : Nat
  /-- INDEX. -/
  index : Nat
  deriving DecidableEq, Repr

/-- A computation that a numeric fault can stop. -/
abbrev KM (α : Type) := Except NumFault α

/-- A computed value passes R118. -/
def chk (f : Fmt) (i v : Nat) : KM Nat := if f.outOfRange v then .error ⟨2, i⟩ else .ok v

/-- Input entries pass R118; the position of the first that does not is reported. -/
def chkInput (f : Fmt) (vs : List Nat) : KM Unit :=
  match vs.findIdx? (fun v => f.outOfRange v) with
  | some i => .error ⟨1, i⟩
  | none => .ok ()

/-- Maps with an index, each value computed under R118. -/
def tab (n : Nat) (g : Nat → KM Nat) : KM (List Nat) := (List.range n).mapM g

/-- Entry `i`, +0 past the end. -/
def at' (v : List Nat) (i : Nat) : Nat := v.getD i 0

/-- Largest absolute value: exact, so that no order matters (R115). -/
def norm (f : Fmt) (v : List Nat) : Nat := v.foldl (fun a x => f.max a (f.abs x)) 0

/-- Lanes of a format (Table 05-1). -/
def lanes (f : Fmt) : Nat := if f.mb = 23 then 16 else 4

/-- The pairwise sum of lane sums (R115, step 3), for a power of two. -/
def pairwise (f : Fmt) (i : Nat) : Nat → List Nat → KM Nat
  | 0, v => .ok (at' v 0)
  | fuel + 1, v =>
    match v with
    | [] => .ok 0
    | [x] => .ok x
    | _ => do
      let w ← tab (v.length / 2) (fun k => chk f i (f.add (at' v (2 * k)) (at' v (2 * k + 1))))
      pairwise f i fuel w

/-- The sum of products of one block in the fixed order of R115. -/
def blockDot (f : Fmt) (i : Nat) (ps : List (Nat × Nat)) : KM Nat := do
  let l := lanes f
  let s ← tab l (fun k => ((List.range ps.length).filter (fun j => j % l = k)).foldlM (fun acc j =>
    let p := ps.getD j (0, 0)
    chk f i (f.fma p.1 p.2 acc)) 0)
  pairwise f i 8 s

/-- The sum of products of R115 over `g` members. -/
def dotG (f : Fmt) (g i : Nat) (ps : List (Nat × Nat)) : KM Nat := do
  let n := (ps.length + g - 1) / (max g 1)
  let s ← tab (max g 1) (fun k => blockDot f i ((ps.drop (k * n)).take n))
  (s.drop 1).foldlM (fun acc x => chk f i (f.add acc x)) (at' s 0)

/-- The sum of entries of R115 on one engine. -/
def sumV (f : Fmt) (i : Nat) (v : List Nat) : KM Nat := dotG f 1 i (v.map (fun x => (x, f.ofRat 1 1)))

/-! Factorisation. -/

/-- The pivot record of a factorisation. -/
structure Pivots where
  /-- PIV_FIRST. -/
  first : Option Nat := none
  /-- PIV_COUNT. -/
  count : Nat := 0
  /-- WRONG_SIGN. -/
  wrong : Nat := 0
  /-- NEG_COUNT. -/
  neg : Nat := 0
  /-- Smallest |d| after regularisation, none before the first pivot. -/
  dmin : Option Nat := none
  /-- τ. -/
  tau : Nat := 0
  deriving DecidableEq, Repr

/-- How a matrix is factorised: format, dimension, positive pivots, PIV_EPS, REG_DELTA and the pattern of each column below its diagonal. -/
structure Shape where
  /-- Format. -/
  f : Fmt
  /-- Dimension. -/
  n : Nat
  /-- NPOS. -/
  npos : Nat
  /-- PIV_EPS. -/
  pivEps : Int
  /-- REG_DELTA. -/
  delta : Nat
  /-- Rows below the diagonal in the pattern of column k, ascending. -/
  cols : Nat → List Nat
  /-- Place of position (i, j), i ≥ j, in the storage. -/
  idx : Nat → Nat → Nat

/-- 2^e in a format. -/
def pow2 (f : Fmt) (e : Int) : Nat := if 0 ≤ e then f.ofRat (2 ^ e.toNat : Nat) 1 else f.ofRat 1 (2 ^ e.natAbs)

/-- pivot_rule of R117. -/
def pivotRule (s : Shape) (r : Pivots) (d k : Nat) : Nat × Pivots :=
  let f := s.f
  let pos := decide (k < s.npos)
  let tiny := f.isZero d || f.lt (f.abs d) r.tau
  let d' := if tiny then f.put (!pos) (f.max r.tau s.delta) else d
  let r1 := if tiny then { r with count := r.count + 1, first := some (r.first.getD k) }
    else if f.neg? d = pos then { r with wrong := r.wrong + 1 } else r
  (d', { r1 with neg := r1.neg + (if f.neg? d' then 1 else 0),
                 dmin := some (match r1.dmin with
                   | some x => f.min x (f.abs d')
                   | none => f.abs d') })

/-- One column of R110, restricted to the pattern (R111, R113). -/
def ldlCol (s : Shape) (st : Array Nat × Pivots) (k : Nat) : KM (Array Nat × Pivots) := do
  let f := s.f
  let a := st.1
  let g (i j : Nat) : Nat := a.getD (s.idx i j) 0
  let (d, r) := pivotRule s st.2 (g k k) k
  let d ← chk f k d
  let rows := s.cols k
  let a1 := a.setIfInBounds (s.idx k k) d
  let a2 ← rows.foldlM (fun (acc : Array Nat) i => do
    let l ← chk f k (f.div (g i k) d)
    pure (acc.setIfInBounds (s.idx i k) l)) a1
  let a3 ← rows.foldlM (fun (acc : Array Nat) j =>
    (rows.filter (fun i => decide (j ≤ i))).foldlM (fun (acc2 : Array Nat) i => do
      let v ← chk f k (f.fma (f.negate (a2.getD (s.idx i k) 0)) (g j k) (acc2.getD (s.idx i j) 0))
      pure (acc2.setIfInBounds (s.idx i j) v)) acc) a2
  pure (a3, r)

/-- LDLᵀ without pivoting (R110, R111, R113, R116, R117). -/
def ldl (s : Shape) (a : Array Nat) : KM (Array Nat × Pivots) := do
  let amax := norm s.f ((List.range s.n).map (fun k => a.getD (s.idx k k) 0))
  let tau := s.f.mul amax (pow2 s.f s.pivEps)
  (List.range s.n).foldlM (ldlCol s) (a, { tau := tau })

/-- Replaces entry `i`. -/
def put (v : Array Nat) (i x : Nat) : Array Nat := v.setIfInBounds i x

/-- The triangular solves of R112. -/
def solve (s : Shape) (a : Array Nat) (b : List Nat) : KM (List Nat) := do
  let f := s.f
  let g (i j : Nat) : Nat := a.getD (s.idx i j) 0
  let y1 ← (List.range s.n).foldlM (fun (y : Array Nat) k =>
    (s.cols k).foldlM (fun (z : Array Nat) i => do
      let v ← chk f i (f.fma (f.negate (g i k)) (z.getD k 0) (z.getD i 0))
      pure (put z i v)) y) b.toArray
  let y2 ← (List.range s.n).foldlM (fun (y : Array Nat) k => do
    let v ← chk f k (f.div (y.getD k 0) (g k k))
    pure (put y k v)) y1
  let y3 ← (List.range s.n).reverse.foldlM (fun (y : Array Nat) k =>
    (s.cols k).foldlM (fun (z : Array Nat) i => do
      let v ← chk f k (f.fma (f.negate (g i k)) (z.getD i 0) (z.getD k 0))
      pure (put z k v)) y) y2
  pure y3.toList

/-- The shape of a DENSE matrix, stored whole in rows. -/
def denseShape (f : Fmt) (n npos : Nat) (pivEps : Int) (delta : Nat) : Shape :=
  { f := f, n := n, npos := npos, pivEps := pivEps, delta := delta, cols := fun k => (List.range n).filter (fun i => decide (k < i)), idx := fun i j => i * n + j }

/-- The shape of a BAND matrix: column j holds its diagonal and the B entries below it. -/
def bandShape (f : Fmt) (n npos b : Nat) (pivEps : Int) (delta : Nat) : Shape :=
  { f := f, n := n, npos := npos, pivEps := pivEps, delta := delta
    cols := fun k => (List.range (min b (n - 1 - k))).map (fun i => k + 1 + i), idx := fun i j => j * (b + 1) + (i - j) }

/-- The shape of a KKT_SPLIT matrix with `n` primal pivots and the columns of E. -/
def kktShape (f : Fmt) (n m : Nat) (e : List (List (Nat × Nat))) (pivEps : Int) (delta : Nat) : Shape :=
  { f := f, n := n + m, npos := n, pivEps := pivEps, delta := delta
    cols := fun k => if k < n then (e.getD k []).map (fun x => n + x.1) else (List.range (n + m)).filter (fun i => decide (k < i)), idx := fun i j => i * (n + m) + j }

/-- An array that is zero but for the entries given. -/
def fill (size : Nat) (vs : List (Nat × Nat)) : Array Nat := vs.foldl (fun a x => a.setIfInBounds x.1 x.2) (Array.replicate size 0)

/-! Conjugate gradient (R114). -/

/-- A symmetric sparse matrix by full rows: (column, value), ascending. -/
abbrev Rows := List (List (Nat × Nat))

/-- q = A x, each row an fma chain from +0 in ascending column order. -/
def mulRows (f : Fmt) (a : Rows) (x : List Nat) : KM (List Nat) :=
  tab a.length (fun i => (a.getD i []).foldlM (fun acc e => chk f i (f.fma e.2 (at' x e.1) acc)) 0)

/-- How a PCG run ended. -/
structure CgOut where
  /-- The iterate. -/
  x : List Nat := []
  /-- Iterations. -/
  it : Nat := 0
  /-- The test passed. -/
  converged : Bool := false
  /-- ‖r‖∞. -/
  res : Nat := 0
  /-- Pivot record of the preconditioner. -/
  piv : Pivots := {}
  /-- The fault that stopped it. -/
  fault : Option NumFault := none
  deriving DecidableEq, Repr

/-- One iteration of R114: x, r, p and rz after it. -/
def cgStep (f : Fmt) (g : Nat) (a : Rows) (m : List Nat) (it : Nat) (x r p : List Nat) (rz : Nat) : KM (List Nat × List Nat × List Nat × Nat) := do
  let n := a.length
  let q ← mulRows f a p
  let pq ← dotG f g it (p.zip q)
  if f.le pq 0 then .error ⟨3, it⟩
  let alpha ← chk f it (f.div rz pq)
  let x' ← tab n (fun i => chk f i (f.fma alpha (at' p i) (at' x i)))
  let r' ← tab n (fun i => chk f i (f.fma (f.negate alpha) (at' q i) (at' r i)))
  let z ← tab n (fun i => chk f i (f.div (at' r' i) (at' m i)))
  let rz' ← dotG f g it (r'.zip z)
  let beta ← chk f it (f.div rz' rz)
  let p' ← tab n (fun i => chk f i (f.fma beta (at' p i) (at' z i)))
  pure (x', r', p', rz')

/-- The iterations of R114 from iteration `it` on. -/
def cgLoop (f : Fmt) (g : Nat) (a : Rows) (m : List Nat) (bound cap : Nat) : Nat → Nat → List Nat → List Nat → List Nat → Nat → CgOut
  | 0, it, x, r, _, _ => { x := x, it := it, res := norm f r }
  | fuel + 1, it, x, r, p, rz =>
    if f.le (norm f r) bound then { x := x, it := it, converged := true, res := norm f r }
    else if it = cap then { x := x, it := it, res := norm f r }
    else match cgStep f g a m it x r p rz with
      | .error e => { x := x, it := it, res := norm f r, fault := some e }
      | .ok (x', r', p', rz') => cgLoop f g a m bound cap fuel (it + 1) x' r' p' rz'

/-- PCG from `x0`, stopping at ‖r‖∞ ≤ `bound`; `g` is the gang size. -/
def pcg (f : Fmt) (g : Nat) (a : Rows) (b x0 : List Nat) (pivEps : Int) (delta bound cap : Nat) : KM CgOut := do
  let n := a.length
  let diag := (List.range n).map (fun i => (((a.getD i []).find? (fun e => e.1 = i)).map (fun e => e.2)).getD 0)
  let s := denseShape f n n pivEps delta
  let tau := f.mul (norm f diag) (pow2 f pivEps)
  let (m, piv) := (List.range n).foldl (fun (acc : List Nat × Pivots) i =>
    let (d, r) := pivotRule s acc.2 (at' diag i) i
    (acc.1 ++ [d], r)) ([], { tau := tau })
  let q ← mulRows f a x0
  let r ← tab n (fun i => chk f i (f.sub (at' b i) (at' q i)))
  let z ← tab n (fun i => chk f i (f.div (at' r i) (at' m i)))
  let rz ← dotG f g 0 (r.zip z)
  pure { cgLoop f g a m bound cap (cap + 1) 0 x0 r z rz with piv := piv }

/-! The quadratic program (R135 to R137). -/

/-- The data of a QP: diagonal of P, columns of E by ascending row, q, l, u, b, and the descriptor's numbers. -/
structure QpIn where
  /-- Format. -/
  f : Fmt
  /-- Diagonal of P. -/
  p : List Nat
  /-- Columns of E. -/
  e : List (List (Nat × Nat))
  /-- q. -/
  q : List Nat
  /-- l. -/
  l : List Nat
  /-- u. -/
  u : List Nat
  /-- b. -/
  b : List Nat
  /-- EPS_ABS. -/
  epsAbs : Nat
  /-- EPS_REL. -/
  epsRel : Nat
  /-- RHO. -/
  rho : Nat
  /-- ITER_CAP. -/
  cap : Nat
  /-- Factorised K. -/
  k : Array Nat
  /-- Its shape. -/
  s : Shape
  /-- REG: a pivot of K was regularised. -/
  reg : Bool

/-- The state of the iteration. -/
structure QpSt where
  /-- z. -/
  z : List Nat
  /-- w. -/
  w : List Nat
  /-- y. -/
  y : List Nat
  /-- x of the previous iteration. -/
  xp : List Nat := []

/-- How a QP ended: the status value of Table 06-6, the iterate, iterations and the two figures reported. -/
structure QpOut where
  /-- STATUS. -/
  status : Nat := 0
  /-- The iterate. -/
  st : QpSt
  /-- ITERATIONS. -/
  it : Nat := 0
  /-- PRES. -/
  pres : Nat := 0
  /-- DRES. -/
  dres : Nat := 0
  /-- The fault that stopped it. -/
  fault : Option NumFault := none
  /-- A test ended the job. -/
  ended : Bool := true

/-- σ of R135. -/
def sigma (f : Fmt) : Nat := f.ofRat 1 1000000

/-- Rows of E by ascending column. -/
def rowsOf (e : List (List (Nat × Nat))) (m : Nat) : Rows :=
  (List.range m).map (fun j => (List.range e.length).filterMap (fun i => ((e.getD i []).find? (fun x => x.1 = j)).map (fun x => (i, x.2))))

/-- E v. -/
def mulE (f : Fmt) (rows : Rows) (v : List Nat) : KM (List Nat) :=
  tab rows.length (fun j => blockDot f j ((rows.getD j []).map (fun x => (x.2, at' v x.1))))

/-- Eᵀ v. -/
def mulET (f : Fmt) (e : List (List (Nat × Nat))) (v : List Nat) : KM (List Nat) :=
  tab e.length (fun i => blockDot f i ((e.getD i []).map (fun x => (x.2, at' v x.1))))

/-- A bound that the certificate tests treat as infinite (R136). -/
def unbounded (f : Fmt) (v : Nat) : Bool := decide ((2 ^ f.eb - 3) * 2 ^ f.mb ≤ f.mag v)

/-- PRIMAL_CERT (R137): the figures to report where it holds. -/
def primalCert (i : QpIn) (dy dw : List Nat) : KM (Option (Nat × Nat)) := do
  let f := i.f
  let d := f.max (norm f dy) (norm f dw)
  let pos (v : Nat) : Bool := f.lt 0 v
  let neg (v : Nat) : Bool := f.lt v 0
  let n := i.q.length
  if f.isZero d then pure none
  else if (List.range n).any (fun k => (pos (at' dw k) && unbounded f (at' i.u k)) || (neg (at' dw k) && unbounded f (at' i.l k))) then pure none
  else do
    let by' ← dotG f 1 0 (i.b.zip dy)
    let terms ← tab n (fun k => do
      let a ← chk f k (f.mul (at' i.u k) (f.max (at' dw k) 0))
      let c ← chk f k (f.mul (at' i.l k) (f.min (at' dw k) 0))
      chk f k (f.add a c))
    let sm ← sumV f 0 terms
    let c ← chk f 0 (f.add by' sm)
    let et ← mulET f i.e dy
    let v ← tab n (fun k => chk f k (f.add (at' et k) (at' dw k)))
    let bound ← chk f 0 (f.mul i.epsAbs d)
    if f.le (norm f v) bound && f.le c (f.negate bound) then do
      let r ← chk f 0 (f.div c d)
      pure (some (r, d))
    else pure none

/-- DUAL_CERT (R137). -/
def dualCert (i : QpIn) (rows : Rows) (dx : List Nat) : KM (Option (Nat × Nat)) := do
  let f := i.f
  let d := norm f dx
  let n := i.q.length
  if f.isZero d then pure none
  else do
    let bound ← chk f 0 (f.mul i.epsAbs d)
    let pd ← tab n (fun k => chk f k (f.mul (at' i.p k) (at' dx k)))
    let ed ← mulE f rows dx
    let qd ← dotG f 1 0 (i.q.zip dx)
    let boxOk := (List.range n).all (fun k =>
      let v := at' dx k
      let uu := unbounded f (at' i.u k)
      let lu := unbounded f (at' i.l k)
      (uu || f.le v bound) && (lu || f.le (f.negate bound) v))
    if f.le (norm f pd) bound && f.le (norm f ed) bound && f.le qd (f.negate bound) && boxOk then do
      let r ← chk f 0 (f.div qd d)
      pure (some (r, d))
    else pure none

/-- Iteration `k` (R135): the iterate, the figures and the status, `ended` where a test ends the job (R136). -/
def qpStep (i : QpIn) (rows : Rows) (k : Nat) (s : QpSt) : KM QpOut := do
  let f := i.f
  let n := i.q.length
  let m := i.b.length
  let sg := sigma f
  let ir ← chk f 0 (f.div (f.ofRat 1 1) i.rho)
  let t1 ← tab n (fun j => do
    let a ← chk f j (f.fma sg (at' s.z j) (f.negate (at' s.w j)))
    chk f j (f.sub a (at' i.q j)))
  let t2 ← tab m (fun j => chk f (n + j) (f.fma (f.negate ir) (at' s.y j) (at' i.b j)))
  let sol ← solve i.s i.k (t1 ++ t2)
  let x := sol.take n
  let nu := sol.drop n
  let zn ← tab n (fun j => do
    let v ← chk f j (f.div (at' s.w j) sg)
    let a ← chk f j (f.add (at' x j) v)
    pure (f.clamp a (at' i.l j) (at' i.u j)))
  let wn ← tab n (fun j => do
    let a ← chk f j (f.sub (at' x j) (at' zn j))
    chk f j (f.fma sg a (at' s.w j)))
  let dy ← tab m (fun j => chk f j (f.sub (at' nu j) (at' s.y j)))
  let dw ← tab n (fun j => chk f j (f.sub (at' wn j) (at' s.w j)))
  let dx ← tab n (fun j => chk f j (f.sub (at' x j) (at' s.xp j)))
  let st : QpSt := { z := zn, w := wn, y := nu, xp := x }
  let ex ← mulE f rows x
  let r1 ← tab m (fun j => chk f j (f.sub (at' ex j) (at' i.b j)))
  let r2 ← tab n (fun j => chk f j (f.sub (at' x j) (at' zn j)))
  let rp := f.max (norm f r1) (norm f r2)
  let sp := f.max (f.max (norm f ex) (norm f i.b)) (f.max (norm f x) (norm f zn))
  let px ← tab n (fun j => chk f j (f.mul (at' i.p j) (at' x j)))
  let ety ← mulET f i.e nu
  let rdv ← tab n (fun j => do
    let a ← chk f j (f.add (at' px j) (at' i.q j))
    let b ← chk f j (f.add a (at' ety j))
    chk f j (f.add b (at' wn j)))
  let rd := norm f rdv
  let sd := f.max (f.max (norm f px) (norm f i.q)) (f.max (norm f ety) (norm f wn))
  let bp ← chk f 0 (f.mul i.epsRel sp)
  let bp ← chk f 0 (f.add i.epsAbs bp)
  let bd ← chk f 0 (f.mul i.epsRel sd)
  let bd ← chk f 0 (f.add i.epsAbs bd)
  let out : QpOut := { st := st, it := k, pres := rp, dres := rd }
  if f.le rp bp && f.le rd bd then pure out
  else do
    let pc ← if i.reg && decide (k ≠ i.cap) then pure none else primalCert i dy dw
    match pc, i.reg with
    | some (a, b), _ => pure { out with status := 3, pres := a, dres := b }
    | none, reg => do
      let dc ← if !reg && decide (2 ≤ k) then dualCert i rows dx else pure none
      match dc with
      | some (a, b) => pure { out with status := 4, pres := a, dres := b }
      | none => pure { out with status := 1, ended := decide (k = i.cap) }

/-- Iteration `k` and those after it, `prev` the last that ended. -/
def qpLoop (i : QpIn) (rows : Rows) : Nat → Nat → QpOut → QpOut
  | 0, _, prev => { prev with status := 1 }
  | fuel + 1, k, prev =>
    match qpStep i rows k prev.st with
    | .error e => { prev with status := 2, fault := some e }
    | .ok out => if out.ended then out else qpLoop i rows fuel (k + 1) out

/-- The QP algorithm from a warm start (R135). -/
def qpRun (i : QpIn) (z w y : List Nat) : QpOut := qpLoop i (rowsOf i.e i.b.length) i.cap 1 { st := { z := z, w := w, y := y } }

/-- OBJECTIVE of an output primal (R135). -/
def objective (f : Fmt) (p q z : List Nat) : KM Nat := do
  let half := f.ofRat 1 2
  let t ← tab z.length (fun i => do
    let a ← chk f i (f.mul half (at' p i))
    let a ← chk f i (f.mul a (at' z i))
    let b ← chk f i (f.mul (at' q i) (at' z i))
    chk f i (f.fma a (at' z i) b))
  sumV f 0 t

/-- K of a QP as a dense or a banded matrix (R135): diag(P) + σ, E, and −1/RHO. -/
def kktArray (f : Fmt) (s : Shape) (p : List Nat) (e : List (List (Nat × Nat))) (m rho size : Nat) : KM (Array Nat) := do
  let n := p.length
  let ir ← chk f 0 (f.div (f.ofRat 1 1) rho)
  let d ← tab n (fun i => chk f i (f.add (at' p i) (sigma f)))
  let diag := (List.range n).map (fun i => (s.idx i i, at' d i))
  let low := (List.range m).map (fun j => (s.idx (n + j) (n + j), f.negate ir))
  let ent := (List.range n).flatMap (fun i => (e.getD i []).map (fun x => (s.idx (n + x.1) i, x.2)))
  pure (fill size (diag ++ low ++ ent))

/-! The hydraulic balance (R138). -/

/-- The law of a branch or injection (Table 04-6), its numbers in the job's format. -/
inductive Law where
  /-- A pipe or a valve with RES. -/
  | pipe (res : Nat)
  /-- A running pump with A0, A1, A2 and speed. -/
  | pump (a0 a1 a2 s : Nat)
  /-- A standing pump or a disabled branch: no flow. -/
  | still
  /-- A store's injection towards its pressure point. -/
  | store (p : Nat)
  /-- A fixed flow, out of A. -/
  | fixed (q : Nat)
  /-- A coupling copy with COUPLE_RHO and its linear term. -/
  | copy (rho c : Nat)
  deriving DecidableEq, Repr

/-- A branch: its law, the unknown of A and that of B. -/
structure Edge where
  /-- Law. -/
  law : Law
  /-- Unknown of terminal A. -/
  a : Option Nat := none
  /-- Unknown of terminal B. -/
  b : Option Nat := none
  deriving DecidableEq, Repr

/-- Pressure of a terminal. -/
def hAt (h : List Nat) (t : Option Nat) : Nat := (t.map (at' h)).getD 0

/-- The flow of a branch (R138). -/
def flow (f : Fmt) (h : List Nat) (i : Nat) (e : Edge) : KM Nat :=
  match e.law with
  | .pipe res => do
    let d ← chk f i (f.sub (hAt h e.a) (hAt h e.b))
    let r ← chk f i (f.div (f.abs d) res)
    let q ← chk f i (f.sqrt r)
    pure (if f.isZero d then 0 else f.put (f.neg? d) q)
  | .pump a0 a1 a2 s => do
    let d ← chk f i (f.sub (hAt h e.b) (hAt h e.a))
    let ss ← chk f i (f.mul s s)
    let sa ← chk f i (f.mul ss a0)
    let c0 ← chk f i (f.sub sa d)
    let s1 ← chk f i (f.mul s a1)
    if f.le c0 0 then pure 0
    else if f.lt a2 0 then do
      let sq ← chk f i (f.mul s1 s1)
      let x ← chk f i (f.mul (f.ofRat 4 1) a2)
      let x ← chk f i (f.mul x c0)
      let disc ← chk f i (f.sub sq x)
      if f.lt disc 0 then pure 0
      else do
        let r ← chk f i (f.sqrt disc)
        let nu ← chk f i (f.sub (f.negate s1) r)
        let de ← chk f i (f.mul (f.ofRat 2 1) a2)
        let q ← chk f i (f.div nu de)
        pure (if f.lt q 0 then 0 else q)
    else if f.lt a1 0 then chk f i (f.div c0 (f.negate s1))
    else .error ⟨2, i⟩
  | .still => pure 0
  | .store p => do
    let d ← chk f i (f.sub p (hAt h e.a))
    chk f i (f.mul (f.ofRat 1000 1) d)
  | .fixed q => pure q
  | .copy rho c => do
    let x ← chk f i (f.mul rho (hAt h e.a))
    chk f i (f.add x c)

/-- The residual F and the flows (R138): the terms of each unknown in the order of the branches, each addition rounded. -/
def residual (f : Fmt) (n : Nat) (es : List Edge) (h : List Nat) : KM (List Nat × List Nat) := do
  let qs ← tab es.length (fun k => flow f h k (es.getD k { law := .still }))
  let fv ← (List.range es.length).foldlM (fun (acc : Array Nat) k => do
    let e := es.getD k { law := .still }
    let q := at' qs k
    let inject : Bool := match e.law with
      | .store _ => true
      | _ => false
    let step (acc : Array Nat) (t : Option Nat) (neg : Bool) : KM (Array Nat) :=
      match t with
      | some i => do
        let v ← chk f i ((if neg then f.sub else f.add) (acc.getD i 0) q)
        pure (acc.setIfInBounds i v)
      | none => pure acc
    let a1 ← step acc e.a inject
    step a1 e.b true) (Array.replicate n 0)
  pure (fv.toList, qs)

/-- g of a branch's Jacobian entries (Table 04-6). -/
def slope (f : Fmt) (h : List Nat) (i : Nat) (e : Edge) (q : Nat) : KM Nat :=
  match e.law with
  | .pipe res => do
    let d ← chk f i (f.sub (hAt h e.a) (hAt h e.b))
    let x ← chk f i (f.mul res (f.max (f.abs d) (f.ofRat 1 100)))
    let r ← chk f i (f.sqrt x)
    let r ← chk f i (f.mul (f.ofRat 2 1) r)
    chk f i (f.div (f.ofRat 1 1) r)
  | .pump _ a1 a2 s => do
    let x ← chk f i (f.mul s a1)
    let y ← chk f i (f.mul (f.ofRat 2 1) a2)
    let y ← chk f i (f.mul y q)
    let x ← chk f i (f.add x y)
    chk f i (f.div (f.ofRat 1 1) (f.max (f.abs x) (f.ofRat 1 1000000)))
  | .store _ => pure (f.ofRat 1000 1)
  | .copy rho _ => pure rho
  | _ => pure 0

/-- The contributions to the Jacobian's lower triangle, in the order of the branches. -/
def jacobian (f : Fmt) (es : List Edge) (h qs : List Nat) : KM (List (Nat × Nat × Nat)) := do
  let cs ← (List.range es.length).mapM (fun k => do
    let e := es.getD k { law := .still }
    let g ← slope f h k e (at' qs k)
    let one (t : Option Nat) : List (Nat × Nat × Nat) := match t with
      | some i => [(i, i, g)]
      | none => []
    let off : List (Nat × Nat × Nat) := match e.a, e.b with
      | some a, some b => if a = b then [] else [(max a b, min a b, f.negate g)]
      | _, _ => []
    pure (one e.a ++ one e.b ++ off))
  pure cs.flatten

/-- How a NETBAL solves its linear system: dense, banded, or by conjugate gradient on a gang. -/
inductive NetKernel where
  /-- Dense. -/
  | dense
  /-- Banded with half-bandwidth B. -/
  | band (b : Nat)
  /-- Conjugate gradient on G engines. -/
  | cg (g : Nat)
  deriving DecidableEq, Repr

/-- J d = −F (R138). -/
def newtonStep (f : Fmt) (n : Nat) (k : NetKernel) (pivEps : Int) (delta : Nat) (js : List (Nat × Nat × Nat)) (rhs : List Nat) : KM (List Nat × Pivots) := do
  let solveWith (s : Shape) (size : Nat) : KM (List Nat × Pivots) := do
    let a ← js.foldlM (fun (acc : Array Nat) c => do
      let v ← chk f c.1 (f.add (acc.getD (s.idx c.1 c.2.1) 0) c.2.2)
      pure (acc.setIfInBounds (s.idx c.1 c.2.1) v)) (Array.replicate size 0)
    let (l, r) ← ldl s a
    let x ← solve s l rhs
    pure (x, r)
  match k with
  | .dense => solveWith (denseShape f n n pivEps delta) (n * n)
  | .band b => solveWith (bandShape f n n b pivEps delta) (n * (b + 1))
  | .cg g => do
    let a ← js.foldlM (fun (acc : Array Nat) c => do
      let v ← chk f c.1 (f.add (acc.getD (c.1 * n + c.2.1) 0) c.2.2)
      pure (acc.setIfInBounds (c.1 * n + c.2.1) v)) (Array.replicate (n * n) 0)
    let rows := (List.range n).map (fun i => (List.range n).filterMap (fun j =>
      if js.any (fun c => decide (c.1 = max i j ∧ c.2.1 = min i j)) then some (j, a.getD (max i j * n + min i j) 0) else none))
    let bound ← chk f 0 (f.mul (f.ofRat 1 10) (norm f rhs))
    let out ← pcg f g rows rhs (List.replicate n 0) pivEps delta bound 1000
    match out.fault with
    | some e => .error e
    | none => pure (out.x, out.piv)

/-- How a NETBAL ended. -/
structure NetOut where
  /-- STATUS: 0 or 1. -/
  status : Nat := 1
  /-- h. -/
  h : List Nat
  /-- ITERATIONS. -/
  it : Nat := 0
  /-- PRES. -/
  pres : Nat := 0
  /-- DRES. -/
  dres : Nat := 0
  /-- STEP_LIMITED. -/
  limited : Bool := false
  /-- Pivots of the last factorisation. -/
  piv : Pivots := {}
  /-- The fault that stopped it. -/
  fault : Option NumFault := none

/-- The eight trials of a Newton step: the step length, the trial and its residual, and whether a trial decreased the residual. -/
def trial (f : Fmt) (n : Nat) (es : List Edge) (h d : List Nat) (cur : Nat) : Nat → Nat → KM (Nat × List Nat × List Nat × List Nat × Bool)
  | 0, _ => do
    let a := pow2 f (-8)
    let h' ← tab n (fun i => chk f i (f.fma a (at' d i) (at' h i)))
    let (fv, qs) ← residual f n es h'
    pure (a, h', fv, qs, false)
  | fuel + 1, a => do
    let h' ← tab n (fun i => chk f i (f.fma a (at' d i) (at' h i)))
    let (fv, qs) ← residual f n es h'
    if f.lt (norm f fv) cur then pure (a, h', fv, qs, true)
    else trial f n es h d cur fuel (f.mul a (f.ofRat 1 2))

/-- Newton iteration `k` (R138): F and the flows at the new iterate, and the record so far. -/
def netStep (f : Fmt) (n : Nat) (es : List Edge) (kern : NetKernel) (pivEps : Int) (delta epsAbs epsRel k : Nat) (h fv qs : List Nat) (o : NetOut) :
    KM (List Nat × List Nat × NetOut) := do
  let js ← jacobian f es h qs
  let (d, piv) ← newtonStep f n kern pivEps delta js (fv.map f.negate)
  let (a, h', fv', qs', down) ← trial f n es h d (norm f fv) 8 (f.ofRat 1 1)
  let rd ← chk f 0 (f.mul a (norm f d))
  let rp := norm f fv'
  let sp := norm f qs'
  let bp ← chk f 0 (f.mul epsRel sp)
  let bp ← chk f 0 (f.add epsAbs bp)
  let bd ← chk f 0 (f.mul epsRel (norm f h'))
  let bd ← chk f 0 (f.add epsAbs bd)
  pure (fv', qs', { h := h', it := k, pres := rp, dres := rd, limited := o.limited || !down, piv := piv, status := if f.le rp bp && f.le rd bd then 0 else 1 })

/-- The Newton iterations of R138 from iteration `k` on. -/
def netLoop (f : Fmt) (n : Nat) (es : List Edge) (kern : NetKernel) (pivEps : Int) (delta epsAbs epsRel : Nat) :
    Nat → Nat → List Nat → List Nat → List Nat → NetOut → NetOut
  | 0, _, _, _, _, o => o
  | fuel + 1, k, h, fv, qs, o =>
    match netStep f n es kern pivEps delta epsAbs epsRel k h fv qs o with
    | .error e => { o with status := 2, fault := some e }
    | .ok (fv', qs', o') => if o'.status = 0 then o' else netLoop f n es kern pivEps delta epsAbs epsRel fuel (k + 1) o'.h fv' qs' o'

/-- The hydraulic balance from `h0` (R138). -/
def netbal (f : Fmt) (n : Nat) (es : List Edge) (kern : NetKernel) (pivEps : Int) (delta epsAbs epsRel cap : Nat) (h0 : List Nat) : NetOut :=
  match residual f n es h0 with
  | .error e => { h := h0, status := 2, fault := some e }
  | .ok (fv, qs) => netLoop f n es kern pivEps delta epsAbs epsRel cap 1 h0 fv qs { h := h0 }

end Sys2Proof.Kernel
end

