-- ==== Sys2Proof/Machine/Model.lean ====
section
/-! DEFINITION. The plant model (chapter 04) as a table: elements, the ordering and pattern of each subproblem (R87), its kernel (R89, R125,
Tables 05-5 and 05-6), its signature (R90) and its stamps (Tables 04-5 and 04-6, R85, R86). -/

namespace Sys2Proof.Machine

open Sys2Proof.Bits Sys2Proof.Float Sys2Proof.Crypto

/-! Elements. -/

/-- Element `e` of a model (Table 04-2). -/
def Model.elem (m : Model) (e : Nat) : Element :=
  let a := m.elemWords.rd (3 * e)
  let b := m.elemWords.rd (3 * e + 1)
  let c := m.elemWords.rd (3 * e + 2)
  { kind := BitVec.ofNat 4 (fld a 3 0), subproblem := fld a 15 4, pset := fld a 31 16, pointBase := fld b 19 0, aCoupled := bit b 20, bCoupled := bit b 21,
    nodeA := fld c 15 0, nodeB := fld c 31 16 }

/-- Parameter words of each kind (Table 04-4). -/
def kindWords (k : Nat) : Nat := [4, 2, 4, 2, 1, 4, 5, 3, 6, 3, 1, 2].getD k 0

/-- The kind has two terminals (Tables 04-5 and 04-6). -/
def twoTerm (k : Nat) : Bool := k ≤ 4 || k = 7 || k = 8

/-- Parameter `i` of an element, FP32. -/
def Model.par (m : Model) (e : Element) (i : Nat) : Word := m.pool.rd (e.pset + 1 + i)

/-- Parameter `i` in FP64. -/
def Model.par64 (m : Model) (e : Element) (i : Nat) : Nat := conv b32 b64 (m.par e i).toNat

/-- The entry of subproblem `s`. -/
def Model.sub (m : Model) (s : Nat) : Subproblem := m.subs.rd s

/-- The elements of subproblem `s` in ascending index (R84). -/
def Model.elemsOf (m : Model) (s : Nat) : List (Nat × Element) :=
  (List.range m.elemCount).filterMap (fun e => if (m.elem e).subproblem = s then some (e, m.elem e) else none)

/-- The enabled subproblems, ascending. -/
def Model.enabled (m : Model) : List Nat := (List.range 4096).filter (fun s => (m.sub s).enable)

/-- Inserts a number into a rising list without repeats. -/
def insNat (x : Nat) : List Nat → List Nat
  | [] => [x]
  | y :: t => if x < y then x :: y :: t else if x = y then y :: t else y :: insNat x t

/-- The coupling IDs that a subproblem references, ascending. -/
def coupledIds (els : List (Nat × Element)) : List Nat :=
  els.foldl (fun acc x =>
    let a := if x.2.aCoupled then insNat x.2.nodeA acc else acc
    if twoTerm x.2.kind.toNat && x.2.bCoupled then insNat x.2.nodeB a else a) []

/-! Shapes. -/

/-- A terminal: coupled or not, and its node or ID. -/
abbrev Term := Bool × Nat

/-- Terminal A. -/
def Element.tA (e : Element) : Term := (e.aCoupled, e.nodeA)
/-- Terminal B. -/
def Element.tB (e : Element) : Term := (e.bCoupled, e.nodeB)

/-- The terminals that a kind's QP stamp touches (Table 04-5). -/
def Element.qpTerms (e : Element) : List Term :=
  match e.kind.toNat with
  | 2 | 3 => []
  | 0 | 4 | 7 | 8 => [e.tA, e.tB]
  | _ => [e.tA]

/-- The terminals that a kind's hydraulic law touches (Table 04-6). -/
def Element.hydTerms (e : Element) : List Term :=
  match e.kind.toNat with
  | 0 | 1 | 2 | 3 => [e.tA, e.tB]
  | 5 | 10 => [e.tA]
  | _ => []

/-- The local nodes among terminals, ascending. -/
def localNodes (ts : List Term) : List Nat := (ts.filter (fun t => !t.1)).foldl (fun acc t => insNat t.2 acc) []

/-- Variables per step of a kind (Table 04-5). -/
def kindVars (k : Nat) : Nat :=
  match k with
  | 0 | 4 | 6 | 7 | 8 | 11 => 1
  | 5 | 9 => 2
  | _ => 0

/-- The ordering of a subproblem (R87). -/
structure Plan where
  /-- Its entry. -/
  sub : Subproblem
  /-- Its elements, ascending. -/
  els : List (Nat × Element)
  /-- Coupling IDs, ascending. -/
  ids : List Nat
  /-- Local nodes touched, ascending. -/
  nodes : List Nat
  /-- Elements with a row of their own (S and Z), ascending. -/
  rows : List Nat

/-- The plan of subproblem `s`. -/
def Model.plan (m : Model) (s : Nat) : Plan :=
  let els := m.elemsOf s
  let sub := m.sub s
  let qp := sub.jobKind = 6
  { sub := sub, els := els, ids := coupledIds els
    nodes := localNodes (els.flatMap (fun x => if qp then x.2.qpTerms else x.2.hydTerms))
    rows := if qp then (els.filter (fun x => x.2.kind = 5 || x.2.kind = 9)).map (fun x => x.1) else [] }

/-- The job is a QP. -/
def Plan.qp (p : Plan) : Bool := p.sub.jobKind = 6
/-- H. -/
def Plan.h (p : Plan) : Nat := if p.qp then p.sub.horizon else 1
/-- Element variables per step. -/
def Plan.elemVars (p : Plan) : Nat := (p.els.map (fun x => kindVars x.2.kind.toNat)).sum
/-- Variables per step. -/
def Plan.nv (p : Plan) : Nat := if p.qp then p.elemVars + p.ids.length else p.nodes.length + p.ids.length
/-- Rows per step. -/
def Plan.mr (p : Plan) : Nat := if p.qp then p.nodes.length + p.ids.length + p.rows.length else 0
/-- n. -/
def Plan.n (p : Plan) : Nat := p.h * p.nv
/-- m. -/
def Plan.m (p : Plan) : Nat := p.h * p.mr
/-- The balance row, or the unknown, of a terminal within a step. -/
def Plan.at (p : Plan) (t : Term) : Nat := if t.1 then p.nodes.length + p.ids.idxOf t.2 else p.nodes.idxOf t.2
/-- The row S or Z of element `e` within a step. -/
def Plan.ownRow (p : Plan) (e : Nat) : Nat := p.nodes.length + p.ids.length + p.rows.idxOf e
/-- The coupling copies: ID and place within a step's variables. -/
def Plan.couple (p : Plan) : List (Nat × Nat) :=
  p.ids.zipIdx.map (fun x => (x.1, (if p.qp then p.elemVars else p.nodes.length) + x.2))

/-- The first variable of each element within a step. -/
def varBases (els : List (Nat × Element)) : List (Nat × Nat × Element) :=
  (els.foldl (fun (acc : List (Nat × Nat × Element) × Nat) x => (acc.1 ++ [(acc.2, x)], acc.2 + kindVars x.2.kind.toNat)) ([], 0)).1

/-- The format of a subproblem's precision. -/
def Plan.fmt (p : Plan) : Fmt := if p.sub.precision = 1 then b64 else b32

/-- d of a supply pipe: DELAY_S over STEP_S, halves rounded up. -/
def Model.delay (m : Model) (s : Subproblem) (e : Element) : Nat :=
  let w := (m.par e 2).toNat
  let dn := Float.b32.den * s.stepS
  if dn = 0 then 0 else (2 * (Float.b32.num w).toNat + dn) / (2 * dn)

/-- τ in hours, FP64. -/
def tau64 (s : Subproblem) : Nat := b64.ofRat s.stepS 3600

/-- 1 in FP64. -/
def one64 : Nat := b64.ofRat 1 1

/-- 1 − LOSS_H·τ. -/
def Model.keep (m : Model) (s : Subproblem) (e : Element) : Nat := b64.sub one64 (b64.mul (m.par64 e 1) (tau64 s))

/-- The entries of E that an element writes at step `t`: row, column and FP64 value (Table 04-5). -/
def Model.entries (m : Model) (p : Plan) (x : Nat × Nat × Element) (t : Nat) : List (Nat × Nat × Nat) :=
  let e := x.2.2
  let v := t * p.nv + x.1
  let r (tt : Nat) (i : Nat) : Nat := tt * p.mr + i
  let mone := b64.negate one64
  let own := r t (p.ownRow x.2.1)
  match e.kind.toNat with
  | 0 =>
    let d := m.delay p.sub e
    (r t (p.at e.tA), v, mone) :: (if t + d < p.h then [(r (t + d) (p.at e.tB), v, one64)] else [])
  | 4 => [(r t (p.at e.tA), v, mone), (r t (p.at e.tB), v, one64)]
  | 5 => [(r t (p.at e.tA), v, mone), (own, v + 1, one64), (own, v, b64.negate (tau64 p.sub))] ++
      (if 1 ≤ t then [(own, v + 1 - p.nv, b64.negate (m.keep p.sub e))] else [])
  | 6 => [(r t (p.at e.tA), v, one64)]
  | 7 => [(r t (p.at e.tA), v, one64), (r t (p.at e.tB), v, b64.div mone (m.par64 e 2))]
  | 8 => [(r t (p.at e.tA), v, m.par64 e 2), (r t (p.at e.tB), v, one64)]
  | 9 => [(r t (p.at e.tA), v, mone), (own, v + 1, one64), (own, v, b64.negate (b64.mul (m.par64 e 2) (tau64 p.sub)))] ++
      (if 1 ≤ t then [(own, v + 1 - p.nv, mone)] else [])
  | 11 => [(r t (p.at e.tA), v, one64)]
  | _ => []

/-- Every entry of E, in ascending element index, the copies last. -/
def Model.allEntries (m : Model) (p : Plan) : List (Nat × Nat × Nat) :=
  (varBases p.els).flatMap (fun x => (List.range p.h).flatMap (m.entries p x)) ++
    p.couple.zipIdx.flatMap (fun c => (List.range p.h).map (fun t => (t * p.mr + p.nodes.length + c.2, t * p.nv + c.1.2, one64)))

/-- The off-diagonal positions of a NETBAL pattern: the unknowns of each branch, larger first (Table 04-6). -/
def Plan.hydPairs (p : Plan) : List (Nat × Nat) :=
  (p.els.filterMap (fun x => if x.2.kind.toNat ≤ 3 ∧ p.at x.2.tA ≠ p.at x.2.tB then some (max (p.at x.2.tA) (p.at x.2.tB), min (p.at x.2.tA) (p.at x.2.tB)) else none)).foldl
    (fun acc x => if x ∈ acc then acc else acc ++ [x]) []

/-- The positions of E, or below the diagonal of J, without repeats: row and column. -/
def Model.pattern (m : Model) (p : Plan) : List (Nat × Nat) :=
  if p.qp then ((m.allEntries p).map (fun x => (x.1, x.2.1))).foldl (fun acc x => if x ∈ acc then acc else acc ++ [x]) [] else p.hydPairs

/-- Largest distance of a pattern entry of K from the diagonal. -/
def Model.bandOf (m : Model) (p : Plan) : Nat :=
  ((m.pattern p).map (fun x => if p.qp then p.n + x.1 - x.2 else x.1 - x.2)).foldl max 0

/-! Kernels and sizes. -/

/-- How a job fits the engines: its kernel, gang size, stamp and footprint bytes of one member (Tables 05-5 and 05-6, R119). -/
structure Fit where
  /-- Kernel. -/
  kern : Kernel.NetKernel
  /-- log2 of the gang or chain size. -/
  gang : Nat
  /-- S. -/
  s : Nat
  /-- W. -/
  w : Nat
  deriving DecidableEq, Repr

/-- Rounded up to a granule of 64 bytes. -/
def g64 (n : Nat) : Nat := (n + 63) / 64 * 64

/-- The quotient rounded up. -/
def ceilDiv (a b : Nat) : Nat := (a + b - 1) / (max b 1)

/-- Data bytes of a KKT_SPLIT object. -/
def kktBytes (n m nnz w : Nat) : Nat := n * w + (n + 1) * 4 + nnz * (4 + w) + m * (m + 1) / 2 * w

/-- Member footprint of a PCG gang (R119). -/
def pcgMember (n nnz g w : Nat) : Nat := g64 (64 + ceilDiv nnz g * (4 + w) + (ceilDiv n g + 1) * 4 + 8 * ceilDiv n g * w)

/-- Member footprint of a banded chain with `v` vectors. -/
def chainMember (n b v g w : Nat) : Nat := g64 (64 + ceilDiv n g * (b + 1) * w + v * ceilDiv n g * w)

/-- The first of the gang sizes 2^k, k from `k0` to `k1`, whose member footprint fits. -/
def firstGang (k0 k1 : Nat) (foot : Nat → Nat) (work : Nat) : Option Nat := ((List.range (k1 + 1)).filter (fun k => k0 ≤ k)).find? (fun k => foot (2 ^ k) ≤ work)

/-- The kernel that a subproblem fits first (R89, R125): dense, banded, then ganged conjugate gradient for NETBAL; `small` says that the
control dies are of revision 0xA3, whose gangs are smaller (Table 02-29). -/
def Model.fit (m : Model) (small : Bool) (c : SolverCfg) (work : Nat) (p : Plan) : Option Fit :=
  let n := p.n
  let d := p.n + p.m
  let w := if p.sub.precision = 1 then 8 else 4
  let nnz := (m.pattern p).length
  let v := if p.qp then 12 else 8
  let vs := if p.qp then 3 * n + p.m else n
  let stamp := g64 (64 + (d + nnz) * (w + 2) + 2 * d + w * vs)
  if d ≤ 256 then
    let foot := g64 (64 + (if p.qp then kktBytes n p.m nnz w else d * (d + 1) / 2 * w) + v * d * w)
    if stamp + foot ≤ work then some { kern := .dense, gang := 0, s := stamp, w := foot } else none
  else if d ≤ 16384 ∧ m.bandOf p ≤ 32 then
    let b := m.bandOf p
    let foot := g64 (64 + d * (b + 1) * w + v * d * w)
    if stamp + foot ≤ work then some { kern := .band b, gang := 0, s := stamp, w := foot }
    else (firstGang 1 4 (fun g => chainMember d b v g w) work).map (fun k => { kern := .band b, gang := k, s := g64 (ceilDiv stamp (2 ^ k)), w := chainMember d b v (2 ^ k) w })
  else if !p.qp ∧ n ≤ (if small then 32768 else 65536) ∧ n + 2 * nnz ≤ (if small then 327680 else 655360) then
    (firstGang c.gangMinLog2 (if small then 3 else 4) (fun g => pcgMember n (n + nnz) g w) work).map (fun k =>
      { kern := .cg (2 ^ k), gang := k, s := g64 (ceilDiv stamp (2 ^ k)), w := pcgMember n (n + nnz) (2 ^ k) w })
  else none

/-- Bytes of the Work region under region sizes in 16 KiB units (Table 05-2). -/
def workRegion (hostU retainU : Nat) : Nat := 524288 - (hostU + retainU) * 16384

/-- Every enabled subproblem of a model fits a kernel under a SOLVER_CONFIG (R125). -/
def Model.fitsAll (m : Model) (small : Bool) (c : SolverCfg) : Bool := m.enabled.all (fun s => (m.fit small c (workRegion c.hostUnits c.retainUnits) (m.plan s)).isSome)

/-! Signatures. -/

/-- The bytes of one column of the signature stream: the count and the rows, ascending. -/
def sigCol (rows : List Nat) : List Byte := leBytes 4 rows.length ++ rows.flatMap (leBytes 4)

/-- SIG of subproblem `s` (R90): columns of the upper triangle of K, or of the Jacobian. -/
def Model.sig (m : Model) (rev : BitVec 16) (s : Nat) : Word :=
  let p := m.plan s
  let pat := m.pattern p
  let below (i : Nat) : List Nat := (pat.filter (fun x => x.1 = i)).foldl (fun acc x => insNat x.2 acc) []
  let cols := if p.qp then (List.range p.n).map (fun j => [j]) ++ (List.range p.m).map (fun r => below r ++ [p.n + r])
    else (List.range p.n).map (fun j => below j ++ [j])
  crc32c (leBytes 1 p.sub.jobKind.toNat ++ leBytes 1 p.sub.precision.toNat ++ leBytes 2 0 ++ leBytes 4 p.n ++ leBytes 4 p.m ++ leBytes 2 rev.toNat ++ leBytes 2 0 ++
    cols.flatMap sigCol)

/-- The signatures of a model's enabled subproblems (R91). -/
def Model.sigs (m : Model) : Tbl Word := m.enabled.foldl (fun t s => t.wr s (m.sig m.modelRev s)) []

/-- SIG_FOLD (Table 04-10). -/
def Model.sigFold (m : Model) (sigs : Tbl Word) : Word := m.enabled.foldl (fun a s => a ^^^ sigs.rd s) 0

/-! The checks of R88. -/

/-- An FP32 word is finite and at least 0. -/
def fpNonNeg (w : Word) : Bool := fin32 w && le32 0 w
/-- An FP32 word is finite and above 0. -/
def fpPos (w : Word) : Bool := fin32 w && lt32 0 w
/-- An FP32 word lies within 0 to 1. -/
def fpUnit (w : Word) : Bool := le32 0 w && le32 w 0x3F800000

/-- Every parameter of an element lies within the range of Table 04-4. -/
def Model.inRange (m : Model) (e : Element) : Bool :=
  let q := m.par e
  match e.kind.toNat with
  | 0 => fpPos (q 0) && fpNonNeg (q 1) && fpNonNeg (q 2) && fpPos (q 3)
  | 1 => fpPos (q 0) && fpNonNeg (q 1)
  | 2 => le32 (q 2) 0 && fpUnit (q 3)
  | 3 => fpPos (q 0) && fpUnit (q 1)
  | 4 => fpPos (q 0)
  | 5 => fpPos (q 0) && fpUnit (q 1) && fpPos (q 2)
  | 6 => fpNonNeg (q 0) && le32 (q 0) (q 1) && fpPos (q 2) && fpNonNeg (q 3)
  | 7 => fpNonNeg (q 0) && le32 (q 0) (q 1) && fpPos (q 2)
  | 8 => fpNonNeg (q 0) && le32 (q 0) (q 1) && fpPos (q 2) && fpPos (q 3) && fpNonNeg (q 4)
  | 9 => fpPos (q 0) && fpPos (q 1) && fpUnit (q 2) && lt32 0 (q 2)
  | 10 => fpPos (q 0)
  | 11 => fpNonNeg (q 0) && fpNonNeg (q 1)
  | _ => false

/-- The highest point offset of an element (Table 04-4), none for a kind without points. -/
def topOffset (k h : Nat) : Option Nat :=
  match k with
  | 0 | 2 | 3 | 9 => some 0
  | 4 | 5 | 6 | 8 => some 1
  | 10 => some (h - 1)
  | 11 => some h
  | _ => none

/-- The points that an element reads in a job: offset and role (Tables 04-4 to 04-6). -/
def Model.reads (m : Model) (p : Plan) (e : Element) : List (Nat × Nat) :=
  match e.kind.toNat, p.qp with
  | 0, true => if m.delay p.sub e = 0 then [] else [(0, 0)]
  | 4, true => [(0, 0), (1, 1)]
  | 5, true => [(0, 0)]
  | 6, true => [(0, 0), (1, 1)]
  | 8, true => [(0, 0), (1, 1)]
  | 9, true => [(0, 0)]
  | 10, true => (List.range p.h).map (fun t => (t, 0))
  | 11, true => (0, 0) :: (List.range p.h).map (fun t => (1 + t, 1))
  | 2, false => [(0, 0)]
  | 3, false => [(0, 0)]
  | 5, false => [(1, 1)]
  | 10, false => [(0, 0)]
  | _, _ => []

/-- The rule for a kind and a role. -/
def Model.rule (m : Model) (kind role : Nat) : SubstRule := m.substs.rd (kind * 4 + role)

/-- The points under LAST_GOOD substitution. -/
def Model.lgPoints (m : Model) : List Nat :=
  m.enabled.foldl (fun acc s =>
    let p := m.plan s
    p.els.foldl (fun a x => (m.reads p x.2).foldl (fun b r => if (m.rule x.2.kind.toNat r.2).mode = 0 then insNat (x.2.pointBase + r.1) b else b) a) acc) []

/-- The distinct coupling IDs of a model. -/
def Model.allIds (m : Model) : List Nat := m.enabled.foldl (fun acc s => (coupledIds (m.elemsOf s)).foldl (fun a i => insNat i a) acc) []

/-- The first check of R88 that a staged model fails: its reason and the element or subproblem it names. -/
def Model.reject (m : Model) (small : Bool) (c : SolverCfg) : Option (Nat × Nat) :=
  let es := List.range m.elemCount
  let elemFails (reason : Nat) (f : Element → Bool) : Option (Nat × Nat) := (es.find? (fun e => f (m.elem e))).map (fun e => (reason, e))
  let subFails (reason : Nat) (f : Nat → Bool) : Option (Nat × Nat) := (m.enabled.find? f).map (fun s => (reason, s))
  let head (e : Element) : Word := m.pool.rd e.pset
  let ids (s : Nat) : List Nat := coupledIds (m.elemsOf s)
  (elemFails 1 (fun e => decide (11 < e.kind.toNat))).orElse fun _ =>
  (elemFails 2 (fun e => !(m.sub e.subproblem).enable)).orElse fun _ =>
  (elemFails 3 (fun e => decide (fld (head e) 3 0 ≠ e.kind.toNat ∨ fld (head e) 11 4 ≠ kindWords e.kind.toNat ∨ fld (head e) 31 12 ≠ 0 ∨
      m.paramWords < e.pset + 1 + kindWords e.kind.toNat) || !((List.range (kindWords e.kind.toNat)).all (fun i => fin32 (m.par e i))))).orElse fun _ =>
  (elemFails 4 (fun e => !m.inRange e)).orElse fun _ =>
  (elemFails 5 (fun e => match topOffset e.kind.toNat (m.sub e.subproblem).horizon with
    | some o => decide (0xFFFFF < e.pointBase + o)
    | none => false)).orElse fun _ =>
  (subFails 6 (fun s => decide (64 < (ids s).length) || (!(ids s).isEmpty && !lt32 0 (m.sub s).coupleRho))).orElse fun _ =>
  (subFails 7 (fun s => (m.fit small c (workRegion c.hostUnits c.retainUnits) (m.plan s)).isNone)).orElse fun _ =>
  (elemFails 8 (fun e => !twoTerm e.kind.toNat && e.bCoupled)).orElse fun _ =>
  (if 131072 < m.lgPoints.length then some (9, 0) else none).orElse fun _ =>
  subFails 10 (fun s => decide ((m.sub s).jobKind = 7 ∧ (m.sub s).horizon ≠ 1))

/-! Stamps. -/

/-- What an element's points were taken as: the value at each offset, and whether DISABLE_ELEMENT applies (R94). -/
structure ElemPts where
  /-- Values by point offset, FP32. -/
  vals : List (Nat × Word) := []
  /-- DISABLE_ELEMENT. -/
  off : Bool := false
  deriving DecidableEq, Repr

/-- The value at a point offset, FP64. -/
def ElemPts.v (p : ElemPts) (o : Nat) : Nat := 
  let w : Word := ((p.vals.find? (fun x => x.1 = o)).map (fun x => x.2)).getD 0
  conv b32 b64 w.toNat

/-- The box of a plant's variable at step `t` (R85). -/
def rampBox (lo hi ramp tau x0 : Nat) (t : Nat) : Nat × Nat :=
  let f := b64
  let r := f.mul (f.mul (f.ofRat (t + 1 : Nat) 1) ramp) tau
  let l := f.max lo (f.sub x0 r)
  let u := f.min hi (f.add x0 r)
  if f.lt u l then (if f.lt hi x0 then (hi, hi) else (lo, lo)) else (l, u)

/-- What an element writes for each of its variables at step `t`: contributions to P and q, and the box (Table 04-5), in FP64. -/
def Model.costBox (m : Model) (p : Plan) (e : Element) (x : ElemPts) (t : Nat) : List (Nat × Nat × Nat × Nat) :=
  let f := b64
  let q := m.par64 e
  let tau := tau64 p.sub
  let z := f.ofRat 0 1
  let plant (lo hi ramp ca cb : Nat) : List (Nat × Nat × Nat × Nat) :=
    let b := rampBox lo hi ramp tau (x.v 0) t
    [(f.mul (f.mul (f.mul (f.ofRat 2 1) ca) (x.v 1)) tau, f.mul (f.mul cb (x.v 1)) tau, b.1, b.2)]
  let raw : List (Nat × Nat × Nat × Nat) :=
    match e.kind.toNat with
    | 0 => [(z, z, z, q 3)]
    | 4 => [(z, z, z, f.mul (q 0) (f.max z (f.sub (x.v 0) (x.v 1))))]
    | 5 => [(z, z, f.negate (q 2), q 2), (z, if t + 1 = p.h then f.negate (q 3) else z, z, q 0)]
    | 6 => plant (q 0) (q 1) (q 2) (q 3) (q 4)
    | 7 => [(z, z, q 0, q 1)]
    | 8 => plant (q 0) (q 1) (q 3) (q 4) (q 5)
    | 9 => [(z, z, f.negate (q 1), q 1), (z, z, z, q 0)]
    | 11 => [(z, f.mul (x.v (1 + t)) tau, f.negate (q 1), q 0)]
    | _ => []
  if x.off then raw.map (fun c => (c.1, c.2.1, z, z)) else raw

/-- The constant terms of an element: row and signed FP64 value, in order (Table 04-5); none of a disabled element. -/
def Model.constants (m : Model) (p : Plan) (i : Nat) (e : Element) (x : ElemPts) : List (Nat × Nat) :=
  let f := b64
  let r (t k : Nat) : Nat := t * p.mr + k
  if x.off then []
  else
    match e.kind.toNat with
    | 0 => (List.range p.h).flatMap (fun t => (r t (p.at e.tB), m.par64 e 1) :: (if t < m.delay p.sub e then [(r t (p.at e.tB), f.negate (x.v 0))] else []))
    | 1 => (List.range p.h).map (fun t => (r t (p.at e.tA), m.par64 e 1))
    | 5 => [(r 0 (p.ownRow i), f.mul (m.keep p.sub e) (x.v 0))]
    | 9 => [(r 0 (p.ownRow i), x.v 0)]
    | 10 => (List.range p.h).map (fun t => (r t (p.at e.tA), x.v t))
    | 11 => (List.range p.h).map (fun t => (r t (p.at e.tA), x.v 0))
    | _ => []

/-- Adds a contribution to a position, rounding in the job's format (R86). -/
def addAt (f : Fmt) (v : List Nat) (i x : Nat) : List Nat := setAt v i (f.add (v.getD i 0) (conv b64 f x))

/-- Adds an entry to a column of E, ascending rows, repeats summed. -/
def addEntry (f : Fmt) (r x : Nat) : List (Nat × Nat) → List (Nat × Nat)
  | [] => [(r, x)]
  | (k, v) :: t => if r < k then (r, x) :: (k, v) :: t else if r = k then (k, f.add v x) :: t else (k, v) :: addEntry f r x t

/-- The stamp of a QP (R85 to R87); `pts` holds the points of each element in order. -/
def Model.qpStamp (m : Model) (p : Plan) (pts : List ElemPts) : Qp :=
  let f := p.fmt
  let n := p.n
  let xs := (varBases p.els).zip pts
  let cells : List (Nat × Nat × Nat × Nat × Nat) := xs.flatMap (fun x => (List.range p.h).flatMap (fun t =>
    (m.costBox p x.1.2.2 x.2 t).zipIdx.map (fun c => (t * p.nv + x.1.1 + c.2, c.1))))
  let pm := conv b32 f p.sub.pMin.toNat
  let rho := conv b32 f p.sub.coupleRho.toNat
  let lowest := f.put true ((2 ^ f.eb - 3) * 2 ^ f.mb)
  let base : Qp := {
    p := cells.foldl (fun v c => addAt f v c.1 c.2.1) (List.replicate n 0)
    q := cells.foldl (fun v c => addAt f v c.1 c.2.2.1) (List.replicate n 0)
    l := cells.foldl (fun v c => setAt v c.1 (conv b64 f c.2.2.2.1)) (List.replicate n lowest)
    u := cells.foldl (fun v c => setAt v c.1 (conv b64 f c.2.2.2.2)) (List.replicate n (f.abs lowest))
    b := (xs.flatMap (fun x => m.constants p x.1.2.1 x.1.2.2 x.2)).foldl (fun v c => addAt f v c.1 c.2) (List.replicate p.m 0)
    e := (m.allEntries p).foldl (fun cols x => setAt cols x.2.1 (addEntry f x.1 (conv b64 f x.2.2) (cols.getD x.2.1 []))) (List.replicate n []) }
  { base with p := base.p.zipIdx.map (fun (x : Nat × Nat) => if x.2 % (max p.nv 1) < p.elemVars then f.add x.1 pm else rho) }

/-- The branch records of a NETBAL, the coupling copies last (Table 04-6, R138). -/
def Model.netStamp (m : Model) (p : Plan) (pts : List ElemPts) : List Branch :=
  let f := p.fmt
  let g := b64
  let r (x : Nat) : Nat := conv b64 f x
  let rec1 (x : (Nat × Element) × ElemPts) : Option Branch :=
    let e := x.1.2
    let q := m.par64 e
    let a := p.at e.tA
    let base : Branch := { kind := e.kind, a := a, b := some (p.at e.tB), disabled := x.2.off }
    match e.kind.toNat with
    | 0 => some { base with par := [r (q 0)] }
    | 1 => some { base with par := [r (q 0)] }
    | 2 => some { base with par := [r (q 0), r (q 1), r (q 2), r (x.2.v 0)], disabled := x.2.off || g.lt (x.2.v 0) (q 3) }
    | 3 =>
      let k := g.mul (q 0) (g.max (x.2.v 0) (q 1))
      some { base with par := [r (g.div (g.ofRat 100 1) (g.mul k k))] }
    | 5 => some { base with b := none, par := [r (x.2.v 1)] }
    | 10 => some { base with b := none, par := [r (g.div (g.mul (g.ofRat 860 1) (x.2.v 0)) (q 0))] }
    | _ => none
  (p.els.zip pts).filterMap rec1 ++
    p.couple.map (fun c => { kind := 15, a := c.2, b := none, par := [conv b32 f p.sub.coupleRho.toNat, 0], disabled := false })

/-- A branch record as the kernel takes it. -/
def Branch.edge (b : Branch) : Kernel.Edge :=
  let q (i : Nat) : Nat := b.par.getD i 0
  let law : Kernel.Law :=
    if b.disabled then .still
    else match b.kind.toNat with
      | 0 | 1 | 3 => .pipe (q 0)
      | 2 => .pump (q 0) (q 1) (q 2) (q 3)
      | 5 => .store (q 0)
      | 10 => .fixed (q 0)
      | 15 => .copy (q 0) (q 1)
      | _ => .still
  { law := law, a := some b.a, b := b.b }

end Sys2Proof.Machine
end

