-- ==== Sys2Proof/Machine/Engines.lean ====
section
/-! DEFINITION. Solver engines (chapter 05): local memory and its regions (R99, R100), handles and objects (R101, R102, Tables 05-3 to 05-5),
placement of jobs (R93, R103, R119), the MEM and SOLVER opcodes (R124, R126), parking (R122). -/

namespace Sys2Proof.Machine

open Sys2Proof.Bits Sys2Proof.Float

/-! Allocation. -/

/-- The lowest place at which `need` bytes fit in a region of `size` bytes whose occupied runs are `used` (start, bytes). -/
def firstFit (used : List (Nat × Nat)) (size need : Nat) : Option Nat :=
  ((0 :: used.map (fun u => u.1 + u.2)).filter (fun a => decide (a + need ≤ size) && used.all (fun u => decide (a + need ≤ u.1 ∨ u.1 + u.2 ≤ a ∨ u.2 = 0)))).foldl
    (fun best a => match best with
      | none => some a
      | some b => some (min a b)) none

/-- The place after compaction of the run that starts at `a`: what lies below it moves down as one block (R100). -/
def packedAt (used : List (Nat × Nat)) (a : Nat) : Nat := ((used.filter (fun u => u.1 < a)).map (fun u => u.2)).sum

/-- The place an allocation takes, and whether the region is compacted first (R100); none where the free space does not hold it. -/
def allocIn (used : List (Nat × Nat)) (size need : Nat) : Option (Nat × Bool) :=
  match firstFit used size need with
  | some a => some (a, false)
  | none =>
    let total := (used.map (fun u => u.2)).sum
    if total + need ≤ size then some (total, true) else none

/-! Objects. -/

/-- Bytes of a value. -/
def MemObj.w (o : MemObj) : Nat := if o.fp64 then 8 else 4
/-- The format of an object's values. -/
def MemObj.fmt (o : MemObj) : Fmt := if o.fp64 then b64 else b32
/-- Columns or entries of gang member `i` of `g` (R102). -/
def shareCols (n g i : Nat) : Nat := min (ceilDiv n g) (n - i * ceilDiv n g)
/-- Data bytes of member `i`'s share (Table 05-5). -/
def MemObj.shareBytes (o : MemObj) (i : Nat) : Nat :=
  let g := 2 ^ o.gangLog2
  let c := shareCols o.n g i
  match o.format.toNat with
  | 0 => c * o.w
  | 1 => o.n * (o.n + 1) / 2 * o.w
  | 2 => c * (o.b + 1) * o.w
  | 3 => (c + 1) * 4 + shareCols o.nnz g i * (4 + o.w)
  | _ => kktBytes o.npos (o.n - o.npos) o.nnz o.w
/-- DATA_WORDS: every share in ascending member order. -/
def MemObj.dataWords (o : MemObj) : Nat := ((List.range (2 ^ o.gangLog2)).map (fun i => o.shareBytes i / 4)).sum
/-- Bytes that member `i`'s part occupies, the header on the lead. -/
def MemObj.partBytes (o : MemObj) (i : Nat) : Nat := g64 ((if i = 0 then 64 else 0) + o.shareBytes i)

/-- STATE of an object. -/
def ObjState.num : ObjState → Nat
  | .raw => 0
  | .factored => 1
  | .failed => 2

/-- The header words of an object (Table 05-4). -/
def MemObj.header (o : MemObj) : List Word :=
  [pack [(o.format.toNat, 0), (b1 o.fp64, 3), (o.state.num, 4), (b1 (decide (0 < o.inUse)), 6), (b1 o.retained, 7), (o.gangLog2, 8), (o.lead, 11)],
   w32 o.n, w32 (if o.format.toNat = 0 ∨ o.format.toNat = 3 then 0 else o.npos), w32 o.b, w32 o.nnz, w32 o.dataWords,
   match o.pivFirst with
   | some k => w32 k
   | none => 0xFFFFFFFF,
   w32 o.pivCount, w32 o.wrongSign, w32 o.negCount, o.tau, o.dmin, o.sig, w32 o.subproblem, w32 o.frame.toNat, 0]

/-- Word `i` of an object, header first. -/
def MemObj.word (o : MemObj) (i : Nat) : Word := if i < 16 then nth o.header i else o.data.rd (i - 16)

/-- The value that starts at data word `i`. -/
def MemObj.valAt (o : MemObj) (i : Nat) : Nat :=
  if o.fp64 then (o.data.rd i).toNat + 2 ^ 32 * (o.data.rd (i + 1)).toNat else (o.data.rd i).toNat

/-- Stores a value from data word `i` on. -/
def MemObj.putAt (o : MemObj) (i v : Nat) : MemObj :=
  { o with data := if o.fp64 then (o.data.wr i (w32 v)).wr (i + 1) (w32 (v / 2 ^ 32)) else o.data.wr i (w32 v) }

/-- Words of a value. -/
def MemObj.ww (o : MemObj) : Nat := o.w / 4

/-- `n` values from data word `i` on. -/
def MemObj.vals (o : MemObj) (i n : Nat) : List Nat := (List.range n).map (fun k => o.valAt (i + k * o.ww))

/-- Stores values from data word `i` on. -/
def MemObj.putAll (o : MemObj) (i : Nat) (vs : List Nat) : MemObj := vs.zipIdx.foldl (fun acc x => acc.putAt (i + x.2 * o.ww) x.1) o

/-- No pivot has been recorded. -/
def MemObj.clearPiv (o : MemObj) : MemObj := { o with pivFirst := none, pivCount := 0, wrongSign := 0, negCount := 0, tau := 0, dmin := 0 }

/-- The pivot record of a factorisation enters the header (R117). -/
def MemObj.withPiv (o : MemObj) (r : Kernel.Pivots) : MemObj :=
  { o with pivFirst := r.first, pivCount := r.count, wrongSign := r.wrong, negCount := r.neg, tau := w32 (conv o.fmt b32 r.tau), dmin := w32 (conv o.fmt b32 (r.dmin.getD 0)) }

/-! Matrices in an object's data. -/

/-- Place of (i, j), i ≥ j, among the values of a lower triangle packed by columns. -/
def packIdx (n i j : Nat) : Nat := j * n - j * (j - 1) / 2 + (i - j)

/-- A packed lower triangle as a square array in rows. -/
def unpackTri (n : Nat) (v : Nat → Nat) : Array Nat :=
  Kernel.fill (n * n) ((List.range n).flatMap (fun j => ((List.range n).filter (fun i => j ≤ i)).map (fun i => (i * n + j, v (packIdx n i j)))))

/-- The values of a square array's lower triangle, packed by columns. -/
def packTri (n : Nat) (at' : Nat → Nat → Nat) : List Nat := (List.range n).flatMap (fun j => ((List.range n).filter (fun i => j ≤ i)).map (fun i => at' i j))

/-- Data word of a KKT_SPLIT object's column pointers, row indices, values of E and T. -/
def MemObj.kktOffs (o : MemObj) : Nat × Nat × Nat × Nat :=
  let a := o.npos * o.ww
  let b := a + o.npos + 1
  let c := b + o.nnz
  (a, b, c, c + o.nnz * o.ww)

/-- The first faulty word of a list of sorted columns: pointers from `ptr` on, row indices from `idx` on (Table 05-10, MALFORMED). -/
def MemObj.colFault (o : MemObj) (ptr idx cols cap top : Nat) (diag : Nat → Option Nat) : Option Nat :=
  let p (j : Nat) : Nat := (o.data.rd (ptr + j)).toNat
  let bad (j : Nat) : Option Nat :=
    if (j = 0 ∧ p 0 ≠ 0) ∨ p (j + 1) < p j ∨ cap < p (j + 1) then some (ptr + j + 1)
    else
      let rows := (List.range (p (j + 1) - p j)).map (fun k => (o.data.rd (idx + p j + k)).toNat)
      match diag j with
      | some dg => if rows.head? ≠ some dg then some (idx + p j) else ascend rows (idx + p j)
      | none => ascend rows (idx + p j)
  (List.range cols).findSome? bad
where
  /-- The first row index that is out of range or does not ascend. -/
  ascend (rows : List Nat) (at0 : Nat) : Option Nat :=
    ((List.range rows.length).find? (fun k => decide (top ≤ rows.getD k 0 ∨ (0 < k ∧ rows.getD k 0 ≤ rows.getD (k - 1) 0)))).map (fun k => at0 + k)

/-- The columns that pointers and row indices spell, each entry with its value. -/
def MemObj.columns (o : MemObj) (ptr idx val cols : Nat) : List (List (Nat × Nat)) :=
  (List.range cols).map (fun j =>
    let a := (o.data.rd (ptr + j)).toNat
    let b := (o.data.rd (ptr + j + 1)).toNat
    (List.range (b - a)).map (fun k => ((o.data.rd (idx + a + k)).toNat, o.valAt (val + (a + k) * o.ww))))

/-- The columns of E of a KKT_SPLIT object, or the fault of R118. -/
def MemObj.kktE (o : MemObj) : Kernel.KM (List (List (Nat × Nat))) :=
  let (a, b, c, _) := o.kktOffs
  match o.colFault a b o.npos o.nnz (o.n - o.npos) (fun _ => none) with
  | some w => .error ⟨4, w⟩
  | none => .ok (o.columns a b c o.npos)

/-- Every value of an object passes R118. -/
def MemObj.checkVals (o : MemObj) : Kernel.KM Unit :=
  let f := o.fmt
  match o.format.toNat with
  | 3 => .ok ()
  | 4 =>
    let (_, _, c, t) := o.kktOffs
    Kernel.chkInput f (o.vals 0 o.npos ++ o.vals c o.nnz ++ o.vals t ((o.n - o.npos) * (o.n - o.npos + 1) / 2))
  | _ => Kernel.chkInput f (o.vals 0 (o.dataWords / o.ww))

/-- How a square object is factorised (R110, R111, R113). -/
def MemObj.shape (o : MemObj) (e : List (List (Nat × Nat))) (pivEps : Int) (delta : Nat) : Kernel.Shape :=
  match o.format.toNat with
  | 1 => Kernel.denseShape o.fmt o.n o.npos pivEps delta
  | 2 => Kernel.bandShape o.fmt o.n o.npos o.b pivEps delta
  | _ => Kernel.kktShape o.fmt o.npos (o.n - o.npos) e pivEps delta

/-- The values of a square object as the kernels take them. -/
def MemObj.matrix (o : MemObj) (e : List (List (Nat × Nat))) : Array Nat :=
  match o.format.toNat with
  | 1 => unpackTri o.n (fun k => o.valAt (k * o.ww))
  | 2 => (o.vals 0 (o.n * (o.b + 1))).toArray
  | _ =>
    let (_, _, _, t) := o.kktOffs
    let m := o.n - o.npos
    let tri := ((List.range m).flatMap (fun j => ((List.range m).filter (fun i => j ≤ i)).map (fun i => ((o.npos + i) * o.n + o.npos + j, o.valAt (t + packIdx m i j * o.ww)))))
    Kernel.fill (o.n * o.n) ((List.range o.npos).map (fun k => (k * o.n + k, o.valAt (k * o.ww))) ++
      e.zipIdx.flatMap (fun c => c.1.map (fun x => ((o.npos + x.1) * o.n + c.2, x.2))) ++ tri)

/-- Stores a factorised array back into a square object. -/
def MemObj.putMatrix (o : MemObj) (e : List (List (Nat × Nat))) (a : Array Nat) : MemObj :=
  match o.format.toNat with
  | 1 => o.putAll 0 (packTri o.n (fun i j => a.getD (i * o.n + j) 0))
  | 2 => o.putAll 0 a.toList
  | _ =>
    let (_, _, c, t) := o.kktOffs
    let m := o.n - o.npos
    let vals := e.zipIdx.flatMap (fun c => c.1.map (fun x => a.getD ((o.npos + x.1) * o.n + c.2) 0))
    ((o.putAll 0 ((List.range o.npos).map (fun k => a.getD (k * o.n + k) 0))).putAll c vals).putAll t
      (packTri m (fun i j => a.getD ((o.npos + i) * o.n + o.npos + j) 0))

/-- Writes the pattern of E, its pointers and row indices, into a KKT_SPLIT object. -/
def MemObj.putPattern (o : MemObj) (e : List (List (Nat × Nat))) : MemObj :=
  let (a, b, _, _) := o.kktOffs
  let ptrs := (e.foldl (fun (acc : List Nat × Nat) c => (acc.1 ++ [acc.2 + c.length], acc.2 + c.length)) ([0], 0)).1
  { o with data := (o.data.wrAll a (ptrs.map w32)).wrAll b ((e.flatten).map (fun x => w32 x.1)) }

/-- The symmetric rows of a CSC gang object, or the fault of R118: every share is checked and its columns joined (R102, R114). -/
def MemObj.cscRows (o : MemObj) : Kernel.KM Kernel.Rows :=
  let g := 2 ^ o.gangLog2
  let base (i : Nat) : Nat := ((List.range i).map (fun k => o.shareBytes k / 4)).sum
  let c := ceilDiv o.n g
  let part (i : Nat) : Kernel.KM (List (List (Nat × Nat))) :=
    let cols := shareCols o.n g i
    let nz := shareCols o.nnz g i
    match o.colFault (base i) (base i + cols + 1) cols nz o.n (fun j => some (i * c + j)) with
    | some w => .error ⟨4, w⟩
    | none => .ok (o.columns (base i) (base i + cols + 1) (base i + cols + 1 + nz) cols)
  do
    let ps ← (List.range g).mapM part
    let cols := ps.flatten
    Kernel.chkInput o.fmt (cols.flatten.map (fun x => x.2))
    pure ((List.range o.n).map (fun i => (List.range o.n).filterMap (fun j =>
      ((cols.getD (min i j) []).find? (fun x => x.1 = max i j)).map (fun x => (j, x.2)))))

/-! Engines. -/

/-- Replaces engine `k`. -/
def Dev.setEng (d : Dev) (k : Nat) (e : Engine) : Dev := { d with solver := { d.solver with eng := d.solver.eng.wr k e } }

/-- Engine `k`. -/
def Dev.eng (d : Dev) (k : Nat) : Engine := d.solver.eng.rd k

/-- The members of a gang of 2^g engines whose lead is `k`. -/
def members (k g : Nat) : List Nat := (List.range (2 ^ g)).map (fun i => k + i)

/-- IDLE or BUSY by what the engine holds; other states stay. -/
def Engine.settle (e : Engine) : Engine :=
  if e.state = .idle ∨ e.state = .busy then { e with state := if e.queue = [] ∧ e.round = [] ∧ e.flight = [] then .idle else .busy } else e

/-- STATE as read: OFF while no control die is active (Table 05-12). -/
def Dev.engState (d : Dev) (k : Nat) : EngState := if d.ctlUp then (d.eng k).state else .off

/-- Bytes of the Work region in effect. -/
def Dev.workBytes (d : Dev) : Nat := workRegion d.solver.sizesHost d.solver.sizesRetain

/-- What the Work region holds: stamps of queued jobs and footprints in flight. -/
def Engine.workUsed (e : Engine) : List (Nat × Nat) := e.queue.map (fun j => (j.stampAt, j.stampBytes)) ++ e.flight.map (fun j => (j.workAt, j.workBytes))

/-- Free bytes of the Work region. -/
def Dev.workFree (d : Dev) (k : Nat) : Nat := d.workBytes - (((d.eng k).workUsed).map (fun u => u.2)).sum

/-- The objects of a region: Host, or Retain. -/
def Engine.region (e : Engine) (retain : Bool) : List MemObj := e.objs.filter (fun o => o.retained = retain)

/-- What a region of objects holds. -/
def Engine.regionUsed (e : Engine) (retain : Bool) : List (Nat × Nat) := (e.region retain).map (fun o => (o.place, o.bytes))

/-- Bytes a region of objects holds. -/
def Engine.held (e : Engine) (retain : Bool) : Nat := ((e.region retain).map (fun o => o.bytes)).sum

/-- One more compaction (R100). -/
def Engine.countCompact (e : Engine) : Engine := { e with compactCnt := bump 16 e.compactCnt }

/-- Compacts a region of objects. -/
def Engine.compactObjs (e : Engine) (retain : Bool) : Engine :=
  let u := e.regionUsed retain
  let e1 : Engine := { e with objs := e.objs.map (fun o => if o.retained = retain then { o with place := packedAt u o.place } else o) }
  e1.countCompact

/-- Compacts the Work region. -/
def Engine.compactWork (e : Engine) : Engine :=
  let u := e.workUsed
  let e1 : Engine := { e with queue := e.queue.map (fun j => { j with stampAt := packedAt u j.stampAt }), flight := e.flight.map (fun j => { j with workAt := packedAt u j.workAt }) }
  e1.countCompact

/-- A handle (Table 05-3). -/
def handleOf (die k slot owner chk : Nat) : Word := pack [(chk, 0), (slot, 15), (owner, 25), (k, 27), (die, 31)]

/-- The lowest handle slot of an engine that names no object. -/
def Engine.freeSlot (e : Engine) (k : Nat) : Option Nat :=
  (List.range 1024).find? (fun s => !(e.objs.any (fun o => decide (fld o.handle 30 27 = k ∧ fld o.handle 24 15 = s))))

/-- CHECK of the next allocation of a slot: 1 to 32,767, wrapping to 1. -/
def nextCheck (c : Nat) : Nat := if c = 32767 then 1 else c + 1

/-- The object a handle names, on the engine it names (R101). -/
def Dev.obj (d : Dev) (h : Word) : Option MemObj :=
  if h = 0 ∨ Bits.fld h 31 31 ≠ d.runDie then none else ((d.eng (Bits.fld h 30 27)).objs).find? (fun o => o.handle = h)

/-- Replaces the object a handle names. -/
def Dev.setObj (d : Dev) (o : MemObj) : Dev :=
  let k := Bits.fld o.handle 30 27
  let e := d.eng k
  d.setEng k { e with objs := e.objs.map (fun x => if x.handle = o.handle then o else x) }

/-- Removes an object from every engine that holds a part of it. -/
def Dev.freeObj (d : Dev) (h : Word) : Dev :=
  { d with solver := { d.solver with eng := d.solver.eng.mapD (fun e => { e with objs := e.objs.filter (fun o => o.handle ≠ h) }) } }

/-- Places part `i` of an object on engine `k`, compacting its region where it must (R100); none where it does not fit. -/
def Engine.addPart (e : Engine) (o : MemObj) (i size : Nat) : Option Engine :=
  match allocIn (e.regionUsed o.retained) size (o.partBytes i) with
  | none => none
  | some (a, c) =>
    let e1 := if c then e.compactObjs o.retained else e
    some { e1 with objs := e1.objs ++ [{ o with place := a, bytes := o.partBytes i, data := if i = 0 then o.data else [] }] }

/-- Places an object on its gang's members; none where some part does not fit. -/
def Dev.addObj (d : Dev) (o : MemObj) (size : Nat) : Option Dev :=
  (List.range (2 ^ o.gangLog2)).foldl (fun acc i => acc.bind (fun d => ((d.eng (o.lead + i)).addPart o i size).map (d.setEng (o.lead + i)))) (some d)

/-- Allocates a slot of engine `k` for an object and places it. -/
def Dev.allocObj (d : Dev) (k owner size : Nat) (o : MemObj) : Option (Word × Dev) :=
  match (d.eng k).freeSlot k with
  | none => none
  | some s =>
    let chk := nextCheck ((d.eng k).checks.rd s)
    let h := handleOf d.runDie k s owner chk
    (d.addObj { o with handle := h, lead := k } size).map (fun d1 => (h, d1.setEng k { d1.eng k with checks := (d1.eng k).checks.wr s chk }))

/-! Placement of jobs. -/

/-- The engine takes no automatic job: DRAINING, PARKED, HALTED or OFF (R119, R122). -/
def Dev.noAuto (d : Dev) (k : Nat) : Bool := !(d.engState k = .idle || d.engState k = .busy)

/-- Footprint of a round job that the frame in coordination can still issue (R105). -/
def SubOut.roundBytes (o : SubOut) : Nat :=
  if o.factH = 0 then o.job.workBytes else g64 (64 + (if o.job.kind = 6 then 12 else 8) * (o.job.n + o.job.m) * (if o.job.fp64 then 8 else 4))

/-- Footprints of the round jobs that can still issue to engine `k`. -/
def Dev.roundNeeds (d : Dev) (k : Nat) : List Nat :=
  if d.coord.committed then []
  else d.jobs.outs.filterMap (fun x => if x.2.job.couple ≠ [] ∧ !x.2.failed ∧ k ∈ members x.2.job.engine x.2.job.gangLog2 then some x.2.roundBytes else none)

/-- The test of R103 for a job on engine `k`. -/
def Dev.stampFits (d : Dev) (k : Nat) (j : Job) : Bool :=
  let w := ((d.eng k).queue.map (fun x => x.workBytes) ++ j.workBytes :: d.roundNeeds k).foldl max 0
  decide (j.stampBytes + w ≤ d.workFree k)

/-- Free credits of the Piste queue of engine `k`. -/
def Dev.freeCredits (d : Dev) (k : Nat) : Nat := 8 - (d.eng k).queue.length

/-- Every member of a block has a credit, and passes R103. -/
def Dev.blockOk (d : Dev) (lead g : Nat) (j : Job) : Bool := (members lead g).all (fun k => decide (0 < d.freeCredits k) && d.stampFits k j)

/-- The lead of the block that a job goes to (R93, R119): the block with the most free credits, the lower on a tie; or the fixed one. -/
def Dev.choose (d : Dev) (engine : Option Nat) (g : Nat) (j : Job) : Option Nat :=
  match engine with
  | some k =>
    let lead := k / 2 ^ g * 2 ^ g
    if d.blockOk lead g j then some lead else none
  | none =>
    let leads := ((List.range 16).filter (fun k => k % 2 ^ g = 0)).filter (fun l => d.blockOk l g j && (members l g).all (fun k => !d.noAuto k))
    let credit (l : Nat) : Nat := ((members l g).map d.freeCredits).sum
    leads.foldl (fun best l => match best with
      | none => some l
      | some b => if credit b < credit l then some l else some b) none

/-- Puts a job into the Piste queue of engine `k`, its stamp into the Work region (R103). -/
def Dev.enqueue (d : Dev) (k : Nat) (j : Job) : Dev :=
  let e := d.eng k
  let e1 := match allocIn e.workUsed d.workBytes j.stampBytes with
    | some (a, false) => { e with queue := e.queue ++ [{ j with stampAt := a }] }
    | some (a, true) =>
      let c := e.compactWork
      { c with queue := c.queue ++ [{ j with stampAt := a }] }
    | none => { e with queue := e.queue ++ [j] }
  (d.setEng k e1.settle).mon 0x10 k e1.queue.length

/-- Places a job on the block led by `lead`. -/
def Dev.place (d : Dev) (lead : Nat) (j : Job) : Dev := (members lead j.gangLog2).foldl (fun acc k => acc.enqueue k { j with engine := lead }) d

/-- Two records are of one job. -/
def Job.same (a b : Job) : Bool := a.host = b.host && a.frame = b.frame && a.sub = b.sub && a.round = b.round && a.kind = b.kind

/-! Registers. -/

/-- SE_STATE.STATE. -/
def EngState.num : EngState → Nat
  | .off => 0
  | .idle => 1
  | .busy => 2
  | .draining => 3
  | .parked => 4
  | .halted => 5

/-- SE_STATE of engine `k` (Table 05-17). -/
def Dev.seState (d : Dev) (k : Nat) : Word :=
  let e := d.eng k
  let gang := e.flight.find? (fun j => 0 < j.gangLog2)
  pack [((d.engState k).num, 0), (e.flight.length, 3), (e.queue.length, 6), (b1 e.gangWait, 10), ((gang.map (fun j => j.gangLog2)).getD 0, 11),
    ((gang.map (fun j => j.engine)).getD 0, 14)]

/-- Word at offset `o` of engine `k`'s page. -/
def Dev.seWord (d : Dev) (k o : Nat) : Word :=
  let e := d.eng k
  match o with
  | 0x00 => d.seState k
  | 0x04 => w32 (d.workFree k)
  | 0x08 => w32 (d.workFree k)
  | 0x0C => w32 (d.solver.sizesHost * 16384 - e.held false)
  | 0x10 => w32 (e.held true)
  | 0x14 => e.jobsDone
  | 0x18 => e.busyUs
  | 0x1C => w32 e.util
  | 0x20 => pack [(e.pivregCnt, 0), (e.inertiaCnt, 16)]
  | 0x24 => pack [(e.numericCnt, 0), (e.compactCnt, 16)]
  | 0x28 => pack [(e.eccCorr, 0), (e.retainMiss, 16)]
  | 0x2C => w32 ((e.objs.filter (fun x => Bits.fld x.handle 30 27 = k)).length)
  | 0x30 => e.issueWaitUs
  | _ => 0

/-! Opcodes. -/

/-- The control die that computes is of revision 0xA3, with the smaller gangs of Table 02-29. -/
def Dev.smallGangs (d : Dev) : Bool := (if d.runDie = 0 then d.host.revCtlA else d.host.revCtlB) = 0xA3

/-- MEM_ALLOC's parameters lie within Table 05-14, and under the smaller gangs of Table 02-29. -/
def allocOk (small : Bool) (k fmt g n a1 a2 : Nat) : Bool :=
  (decide (g ≤ (if small then 3 else 4)) && (g = 0 || ((fmt = 0 || fmt = 2 || fmt = 3) && decide (k % 2 ^ g = 0)))) &&
  match fmt with
  | 0 => !outside n 1 65536 && a1 = 0 && a2 = 0
  | 1 => !outside n 2 256 && decide (a1 ≤ n) && a2 = 0
  | 2 => !outside n 1 16384 && decide (a1 ≤ 32 ∧ a2 ≤ n)
  | 3 => !outside n 1 (if small then 32768 else 65536) && !outside a1 n (((if small then 327680 else 655360) + n) / 2) && a2 = 0
  | _ => !outside n 2 256 && !outside a1 1 (n - 1) && decide (a2 ≤ a1 * (n - a1))

/-- The object MEM_ALLOC asks for. -/
def allocObjOf (fmt : Nat) (fp64 : Bool) (g n a1 a2 : Nat) : MemObj :=
  { format := BitVec.ofNat 3 fmt, fp64 := fp64, gangLog2 := g, n := n
    npos := match fmt with
      | 1 => a1
      | 2 => a2
      | 4 => a1
      | _ => 0
    b := if fmt = 2 then a1 else 0
    nnz := match fmt with
      | 3 => a1
      | 4 => a2
      | _ => 0 }

/-- Bytes of an object, total over its gang. -/
def MemObj.total (o : MemObj) : Nat := ((List.range (2 ^ o.gangLog2)).map o.partBytes).sum

/-- MEM_ALLOC (R124). -/
def opMemAlloc : Op where
  code := 0x0410
  target := onInst 0x20 16
  die := true
  params := 4
  body s q :=
    let k := q.pkt.inst
    let fmt := q.f 0 2 0
    let g := q.f 0 6 4
    let o := allocObjOf fmt (q.b 0 3) g (q.f 1 16 0) (q.par 2).toNat (q.par 3).toNat
    guarded s [encIf (q.resv 0 0x7F || decide (4 < fmt)) 0, encIf (q.resv 1 0x1FFFF) 1, rangeIf (!allocOk s.dev.smallGangs k fmt g (q.f 1 16 0) (q.par 2).toNat (q.par 3).toNat) 0]
      (match s.dev.allocObj k 0 (s.dev.solver.sizesHost * 16384) o with
       | none => .err s stNoMemory 0
       | some (h, d) => { st := { s with dev := d }, words := [h, w32 o.total] })

/-- MEM_ALLOC. -/
def execMemAlloc (p : Packet) (s : State) : Host.Outcome State Fault Refusal := .next (packetRow opMemAlloc p s)

/-- The object that P0 names on the packet's engine. -/
def QPacket.obj (q : QPacket) (d : Dev) : Option MemObj := if fld (q.par 0) 30 27 = q.pkt.inst then d.obj (q.par 0) else none

/-- The object belongs to the control die. -/
def MemObj.ctl (o : MemObj) : Bool := fld o.handle 26 25 = 1

/-- MEM_FREE (R124). -/
def opMemFree : Op where
  code := 0x0411
  target := onInst 0x20 16
  die := true
  params := 1
  body s q :=
    match q.obj s.dev with
    | none => .err s stBadHandle 4
    | some o => guarded s [conflictIf o.ctl 0, (decide (0 < o.inUse), stBusy, 4)] (.ok s (s.dev.freeObj o.handle))

/-- MEM_FREE. -/
def execMemFree (p : Packet) (s : State) : Host.Outcome State Fault Refusal := .next (packetRow opMemFree p s)

/-- MEM_WRITE (R124). -/
def opMemWrite : Op where
  code := 0x0412
  target := onInst 0x20 16
  die := true
  params := 2
  body s q :=
    let ofs := q.f 1 19 0
    let ws := q.from' 2
    match q.obj s.dev with
    | none => .err s stBadHandle 4
    | some o =>
      guarded s [encIf (q.resv 1 0xFFFFF) 1, rangeIf (decide (ofs < 16 ∨ 16 + o.dataWords < ofs + ws.length)) 1, conflictIf o.ctl 0, (decide (0 < o.inUse), stBusy, 4)]
        (.ok s (s.dev.setObj ({ o with data := o.data.wrAll (ofs - 16) ws, state := .raw }.clearPiv)))

/-- MEM_WRITE. -/
def execMemWrite (p : Packet) (s : State) : Host.Outcome State Fault Refusal := .next (packetRow opMemWrite p s)

/-- MEM_READ (R124). -/
def opMemRead : Op where
  code := 0x0413
  target := onInst 0x20 16
  die := true
  params := 3
  sizeAt := 6
  body s q :=
    let ofs := q.f 1 19 0
    let n := q.f 2 11 0
    match q.obj s.dev with
    | none => .err s stBadHandle 4
    | some o =>
      guarded s [encIf (q.resv 1 0xFFFFF) 1, encIf (q.resv 2 0xFFF) 2, rangeIf (decide (16 + o.dataWords < ofs + n)) 2]
        (.read s ((List.range n).map (fun i => o.word (ofs + i))))

/-- MEM_READ. -/
def execMemRead (p : Packet) (s : State) : Host.Outcome State Fault Refusal := .next (packetRow opMemRead p s)

/-- The precision block that starts at Pi (Table 05-15). -/
def solverPrecOf (q : QPacket) (i : Nat) : SolverPrec :=
  { iterCap := q.f i 12 0, epsAbs := q.par (i + 1), epsRel := q.par (i + 2), rho := q.par (i + 3), pivEps := BitVec.ofNat 8 (q.f (i + 4) 7 0), regDelta := q.par (i + 5) }

/-- PIV_EPS as an integer. -/
def pivInt (v : BitVec 8) : Int := sgn 8 v.toNat

/-- A precision block's values lie within their ranges; `f` is the block's format. -/
def SolverPrec.checks (c : SolverPrec) (f : Fmt) (i : Nat) : List (Bool × Nat × Nat) :=
  [rangeIf (outside c.iterCap 1 4096) i, rangeIf (!fpPos c.epsAbs) (i + 1), rangeIf (!fpNonNeg c.epsRel) (i + 2), rangeIf (!fpPos c.rho) (i + 3),
   rangeIf (decide (pivInt c.pivEps < -52 ∨ -4 < pivInt c.pivEps)) (i + 4),
   rangeIf (!fpPos c.regDelta || !le32 c.regDelta 0x3F800000 || decide (f.mag (conv b32 f c.regDelta.toNat) < 2 ^ f.mb)) (i + 5)]

/-- The SOLVER_CONFIG a packet carries. -/
def solverCfgOf (q : QPacket) : SolverCfg :=
  { hostUnits := q.f 0 4 0, retainUnits := q.f 0 12 8, pivEvent := q.b 0 16, gangMinLog2 := q.f 0 19 17, p32 := solverPrecOf q 1, p64 := solverPrecOf q 7 }

/-- Frees retained factorisations, oldest first, until the Retain region holds what is left (R126). -/
def Engine.trimRetain (size : Nat) : Nat → Engine → Engine
  | 0, e => e
  | fuel + 1, e =>
    if e.held true ≤ size then e
    else match e.objs.find? (fun o => o.retained) with
      | none => e
      | some o => Engine.trimRetain size fuel { e with objs := e.objs.filter (fun x => x.handle ≠ o.handle) }

/-- The region sizes of SOLVER_CONFIG take effect on every engine (R126). -/
def Dev.applySizes (d : Dev) : Dev :=
  let c := d.solver.cfg
  { d with solver := { d.solver with sizesHost := c.hostUnits, sizesRetain := c.retainUnits,
                                     eng := d.solver.eng.mapD (fun e => e.trimRetain (c.retainUnits * 16384) e.objs.length) } }

/-- The parameter checks of SOLVER_CONFIG (R126), in order. -/
def solverChecks (s : State) (q : QPacket) : List (Bool × Nat × Nat) :=
  let d := s.dev
  let c := solverCfgOf q
  let models := d.piste.active.toList ++ (d.piste.commit.map (fun x => x.model)).toList ++ (d.piste.pend.map (fun x => x.model)).toList
  [encIf (q.resv 0 0xF1F1F) 0, encIf (q.resv 1 0x1FFF) 1, encIf (q.resv 5 0xFF) 5, encIf (q.resv 7 0x1FFF) 7, encIf (q.resv 11 0xFF) 11,
    rangeIf (decide (16 < c.hostUnits ∨ 16 < c.retainUnits ∨ 16 < c.hostUnits + c.retainUnits ∨ 4 < c.gangMinLog2)) 0] ++
    c.p32.checks b32 1 ++ c.p64.checks b64 7 ++
    [conflictIf ((List.range 16).any (fun k => decide (c.hostUnits * 16384 < (d.eng k).held false))) 0, conflictIf (models.any (fun m => !m.fitsAll d.smallGangs c)) 0]

/-- SOLVER_CONFIG (R126). -/
def opSolverConfig : Op where
  code := 0x0414
  target := onUnit 0x20
  die := true
  classN := true
  params := 13
  body s q :=
    guarded s (solverChecks s q)
      (let d1 := { s.dev with solver := { s.dev.solver with cfg := solverCfgOf q } }
       .ok s (if s.dev.frame.state = .stopped then d1.applySizes else d1))

/-- SOLVER_CONFIG. -/
def execSolverConfig (p : Packet) (s : State) : Host.Outcome State Fault Refusal := .next (packetRow opSolverConfig p s)

/-- The mask of engines in one of the states. -/
def Dev.engMask (d : Dev) (ss : List EngState) : Nat := maskOf ((List.range 16).filter (fun k => d.engState k ∈ ss))

/-- SOLVER_STATUS (Table 05-16). -/
def opSolverStatus : Op where
  code := 0x0415
  target := onUnit 0x20
  die := true
  body s _ :=
    let d := s.dev
    .read s ([pack [(d.engMask [.idle, .busy], 0), (d.engMask [.draining, .parked], 16)], pack [(d.engMask [.halted], 0)]] ++
      (List.range 16).flatMap (fun k => [d.seState k, pack [(d.workFree k, 0), ((d.eng k).util, 20)]]))

/-- SOLVER_STATUS. -/
def execSolverStatus (p : Packet) (s : State) : Host.Outcome State Fault Refusal := .next (packetRow opSolverStatus p s)

/-- SE_MEMORY_ECC (R99): a single-bit error is corrected and reported with its address, a free value; an uncorrectable one halts the
engine, whose die asserts its hard-fault line. -/
def execSeMemoryEcc (k : Fin 16) (uncorrectable : Bool) (s : State) : Host.Outcome State Fault Refusal :=
  .next (if !s.dev.ctlUp then s
    else
      let e := s.dev.eng k.val
      if uncorrectable then
        let d := s.dev.setEng k.val { e with state := .halted }
        { s with dev := { d with twin := { d.twin with die := d.twin.die.upd d.runDie (fun x => { x with lineHard := true }) } } }
      else
        let (a, d) := (s.dev.setEng k.val { e with eccCorr := bump 16 e.eccCorr }).freeN 524288
        { s with dev := (d.satAt 0x20 16 (bump 16 e.eccCorr)).raiseCtl 0x33 (0x2000 + k.val) .info a })

/-- ENGINE_DRAINED (R122): a DRAINING engine whose problems in flight and jobs queued before the park order have ended enters PARKED. -/
def execEngineDrained (k : Fin 16) (s : State) : Host.Outcome State Fault Refusal :=
  .next (
    let e := s.dev.eng k.val
    if e.state = .draining ∧ e.flight = [] ∧ e.drain = 0 ∧ e.drainRound = 0 then
      { s with dev := (s.dev.setEng k.val { e with state := .parked }).raiseCtl 0x35 (0x2000 + k.val) .info 1 }
    else s)

/-- Orders engine `k` to park (R122): the jobs already in its queues still run. -/
def Dev.park (d : Dev) (k : Nat) : Dev :=
  let e := d.eng k
  if e.state = .idle ∨ e.state = .busy then d.setEng k { e with state := .draining, drain := e.queue.length, drainRound := e.round.length } else d

/-- Resumes engine `k` (R122). -/
def Dev.unpark (d : Dev) (k : Nat) : Dev :=
  let e := d.eng k
  if e.state = .draining then d.setEng k ({ e with state := .idle, drain := 0, drainRound := 0 }.settle)
  else if e.state = .parked then (d.setEng k ({ e with state := .idle }.settle)).raiseCtl 0x35 (0x2000 + k) .info 0
  else d

end Sys2Proof.Machine
end

