-- ==== Sys2Proof/Machine/Piste.lean ====
section
/-! DEFINITION. Piste (chapter 04): assembly of a frame (R92, R93), point substitution (R94), the stores of the model (R83, R96, R97) and the
model opcodes. -/

namespace Sys2Proof.Machine

open Sys2Proof.Bits Sys2Proof.Float

/-- Piste's part of the device. -/
def Dev.setPiste (d : Dev) (p : Piste) : Dev := { d with piste := p }

/-! Substitution. -/

/-- What a point reference is taken as (R94). -/
inductive PointUse where
  /-- A value. -/
  | val (w : Word)
  /-- DISABLE_ELEMENT. -/
  | off
  /-- FAIL_SUBPROBLEM. -/
  | fail

/-- The point is bad under its rule (R94). -/
def SubstRule.bad (r : SubstRule) (v : PointEntry) (frame : Nat) : Bool :=
  decide (0x80 ≤ v.quality.toNat) || (decide (0x40 ≤ v.quality.toNat) && r.uncertainBad) ||
    (decide (0 < r.staleFrames) && decide (r.staleFrames < (frame + 65536 - v.frameTag.toNat % 65536 + 65536 * (frame / 65536)) % 65536))

/-- Decides one point reference of subproblem `s` (R94): `v` is its entry in the frame's generation. -/
def Dev.usePoint (d : Dev) (r : SubstRule) (kind role frame s : Nat) (id : Nat) (v : PointEntry) : PointUse × Bool × Dev :=
  let p := d.piste
  if !r.bad v frame then
    (.val v.value, false, if r.mode = 0 then d.setPiste { p with lg := p.lg.wr id { value := v.value, frame := frame } } else d)
  else
    let entry := p.lg.find? (fun x => x.1 = id)
    let age := (entry.map (fun x => frame - x.2.frame)).getD 65535
    let held := (entry.map (fun x => decide (frame - x.2.frame ≤ r.maxAge))).getD false
    let expired := r.mode = 0 && !held
    let mode := if expired then r.thenMode.toNat else r.mode.toNat
    let d1 := (d.setPiste { p with substCnt := bump 32 p.substCnt }).satAt 0x21 32 (bump 32 p.substCnt)
    let d2 := d1.raiseCtl 0x22 0x2100 .warn (id + 2 ^ 24 * kind + 2 ^ 28 * role + 2 ^ 30 * mode + 2 ^ 32 * v.quality.toNat)
    let d3 := if expired then d2.raiseCtl 0x23 0x2100 .warn (id + 2 ^ 32 * satN 16 age) else d2
    match mode with
    | 0 => (.val ((entry.map (fun x => x.2.value)).getD 0), true, d3)
    | 1 => (.val r.const, true, d3)
    | 2 => (.off, true, d3)
    | _ =>
      let q := d3.piste
      let d4 := (d3.setPiste { q with failCnt := bump 16 q.failCnt }).satAt 0x21 16 (bump 16 q.failCnt)
      (.fail, true, d4.raiseCtl 0x24 0x2100 .warn (s + 2 ^ 12 * id))

/-- What the check of a subproblem's points gives: the points of each element read so far, SUBST_APPLIED, SUBST_FAILED and the device. -/
structure PtScan where
  /-- Elements done, in order. -/
  done : List ElemPts := []
  /-- SUBST_APPLIED. -/
  applied : Bool := false
  /-- SUBST_FAILED. -/
  failed : Bool := false
  /-- The device. -/
  dev : Dev

/-- One more element of the scan: its points in ascending offset, until FAIL_SUBPROBLEM stops it. -/
def PtScan.elem (c : PtScan) (m : Model) (p : Plan) (gen frame s : Nat) (e : Element) : PtScan :=
  let r := (m.reads p e).foldl (fun (acc : PtScan × ElemPts) x =>
    if acc.1.failed then acc
    else
      let id := e.pointBase + x.1
      let (u, sub, d) := acc.1.dev.usePoint (m.rule e.kind.toNat x.2) e.kind.toNat x.2 frame s id (acc.1.dev.points.view gen id)
      let c1 : PtScan := { acc.1 with dev := d, applied := acc.1.applied || sub }
      match u with
      | .val w => (c1, { acc.2 with vals := acc.2.vals ++ [(x.1, w)] })
      | .off => (c1, { acc.2 with off := true })
      | .fail => ({ c1 with failed := true }, acc.2)) (c, ({} : ElemPts))
  { r.1 with done := r.1.done ++ [r.2] }

/-- Checks every point that a subproblem reads (R94). -/
def Dev.scan (d : Dev) (m : Model) (p : Plan) (gen frame s : Nat) : PtScan :=
  p.els.foldl (fun c x => if c.failed then c else c.elem m p gen frame s x.2) { dev := d }

/-! Jobs. -/

/-- A default of SOLVER_CONFIG where the entry holds 0 (R126, R128), in the job's format. -/
def pick (f : Fmt) (v dflt : Word) : Nat := conv b32 f (if v.toNat % 2 ^ 31 = 0 then dflt else v).toNat

/-- The job of a stamped subproblem (R92). -/
def Dev.pisteJob (d : Dev) (m : Model) (p : Plan) (fit : Fit) (frame tN s : Nat) (c : PtScan) : Job :=
  let f := p.fmt
  let fp64 := decide (p.sub.precision = 1)
  let dp := if fp64 then d.solver.cfg.p64 else d.solver.cfg.p32
  { kind := p.sub.jobKind, fp64 := fp64, gangLog2 := fit.gang, frame := frame, sub := s, sig := d.piste.sigs.rd s, n := p.n, m := p.m, horizon := p.h, stepS := p.sub.stepS
    flags := { retain := p.qp, substApplied := c.applied }
    iterCap := if p.sub.iterCap = 0 then dp.iterCap else p.sub.iterCap
    epsAbs := pick f p.sub.epsAbs dp.epsAbs, epsRel := pick f p.sub.epsRel dp.epsRel, rho := pick f p.sub.rho dp.rho, regDelta := conv b32 f dp.regDelta.toNat
    pivEps := pivInt (if p.sub.pivEps = 0 then dp.pivEps else p.sub.pivEps)
    couple := p.couple, coupleRho := conv b32 f p.sub.coupleRho.toNat, tN := tN, stampBytes := fit.s, workBytes := fit.w
    qp := if p.qp then m.qpStamp p c.done else {}
    branches := if p.qp then [] else m.netStamp p c.done }

/-- The outputs table of frame `n`: that of the frame in coordination, or of the frame assembled ahead of it. -/
def Dev.ahead (d : Dev) (n : Nat) : Bool := !d.coord.committed && decide (d.coord.frame < n)

/-- Records subproblem `s` of frame `n`. -/
def Dev.setOut (d : Dev) (n s : Nat) (o : SubOut) : Dev :=
  if d.ahead n then { d with jobs := { d.jobs with nextOuts := d.jobs.nextOuts.wr s o } } else { d with jobs := { d.jobs with outs := d.jobs.outs.wr s o } }

/-- The fixed engine of a subproblem entry, none for automatic. -/
def Subproblem.fixed (x : Subproblem) : Option Nat := if x.engine = 0xFF then none else some x.engine.toNat

/-- The engine field of the subproblem a held job belongs to. -/
def Dev.fixedOf (d : Dev) (s : Nat) : Option Nat := (d.piste.active.getD {}).sub s |>.fixed

/-- Tries to place a job (R93, R103); true where it was placed. -/
def Dev.tryPlace (d : Dev) (j : Job) : Bool × Dev :=
  match d.choose (d.fixedOf j.sub) j.gangLog2 j with
  | some lead => (true, d.place lead j)
  | none => (false, d)

/-- The last enabled subproblem has been stamped and queued: ASSEMBLE ends, the generation is unpinned and the span taken, a free value
of the pipelines' timing. -/
def Dev.endAssembly (d : Dev) : Dev :=
  let p := d.piste
  if p.cursor = none ∧ p.held0 = none ∧ p.held1 = none ∧ p.asmStart ≠ 0 then
    let (ns, d1) := d.freeN (2 ^ 32)
    let gens := d1.points.gens.map (fun g => if !g.requested && decide (g.gen.toNat = p.asmFrame % 32768) then { g with pinned := false } else g)
    let fr := if d1.frame.frameNum = p.asmFrame ∧ d1.frame.phase = .assemble then { d1.frame with phase := .solve } else d1.frame
    { d1 with piste := { p with asmNs := ns, asmStart := 0 }, points := { d1.points with gens := gens }, frame := fr }
  else d

/-- Stamps the enabled subproblems from the cursor on, until both pipelines hold a job or none is left (R92, R18): the two pipelines take
them from one cursor in ascending ID. -/
def Dev.assemble : Nat → Dev → Dev
  | 0, d => d
  | fuel + 1, d =>
    let p := d.piste
    match p.cursor, p.active with
    | some c, some m =>
      if p.held0.isSome && p.held1.isSome then d
      else
        match m.enabled.find? (fun s => c ≤ s) with
        | none => (d.setPiste { p with cursor := none }).endAssembly
        | some s =>
          let pl := m.plan s
          let gen := (d.points.gens.findIdx? (fun g => !g.requested && decide (g.gen.toNat = p.asmFrame % 32768))).getD 0
          let sc := d.scan m pl gen p.asmFrame s
          let d1 := sc.dev.setPiste { sc.dev.piste with cursor := some (s + 1), doneCnt := sc.dev.piste.doneCnt + 1 }
          match m.fit d1.smallGangs d1.solver.cfg d1.workBytes pl with
          | none => Dev.assemble fuel (d1.setOut p.asmFrame s { failed := true, job := { frame := p.asmFrame, sub := s } })
          | some fit =>
            let tN := d1.frame.tN
            let j := d1.pisteJob m pl fit p.asmFrame tN s sc
            if sc.failed then
              let j' : Job := { j with flags := { j.flags with substFailed := true }, qp := {}, branches := [] }
              Dev.assemble fuel (d1.setOut p.asmFrame s { job := j', failed := true })
            else
              let (ok, d2) := (d1.setOut p.asmFrame s { job := j, busy := true }).tryPlace j
              if ok then Dev.assemble fuel d2
              else
                let q := d2.piste
                if q.held0.isNone then Dev.assemble fuel (d2.setPiste { q with held0 := some j })
                else Dev.assemble fuel (d2.setPiste { q with held1 := some j })
    | some _, none => (d.setPiste { p with cursor := none }).endAssembly
    | none, _ => d.endAssembly

/-- Pipeline `pipe` places the job it holds where an engine has room for it, and goes on with the cursor (R18, R103). -/
def Dev.resumePipe (d : Dev) (pipe : Nat) : Dev :=
  match if pipe = 0 then d.piste.held0 else d.piste.held1 with
  | none => d
  | some j =>
    let (ok, d1) := d.tryPlace j
    if !ok then d
    else
      let q := d1.piste
      Dev.assemble 4097 (d1.setPiste (if pipe = 0 then { q with held0 := none } else { q with held1 := none }))

/-- PISTE_RESUME (R18, R103). -/
def execPisteResume (pipe : Fin 2) (s : State) : Host.Outcome State Fault Refusal := .next { s with dev := s.dev.resumePipe pipe.val }

/-! The model's stores. -/

/-- The active model becomes `c.model` (R96). -/
def Dev.activate (d : Dev) (c : Commit) (frame : Nat) : Dev :=
  let p := d.piste
  let d1 := d.setPiste { p with active := some c.model, sigs := c.sigs, activeSince := frame, pend := none, staging := none }
  { d1 with jobs := { d1.jobs with wsOverflowRaised := false, csOverflow := false } }.raiseCtl 0x20 0x2100 .info
    (frame + 2 ^ 32 * c.model.modelRev.toNat + 2 ^ 48 * c.model.paramEdition.toNat)

/-- The pending model takes effect at the assembly of frame `n` where its frame has come (R96). -/
def Dev.activateDue (d : Dev) (n : Nat) : Dev :=
  match d.piste.pend with
  | some c => if c.effective ≤ n then d.activate c n else d
  | none => d

/-- T of frame `n` by the schedule in force and the pending one (R25, R31). -/
def FrameCtl.tOf (f : FrameCtl) (n : Nat) : Nat :=
  let at' (s : Sched) : Nat := ((s.anchor : Int) + ((n : Int) - s.anchorFrame) * s.len * 10000000).toNat
  match f.pendingSet with
  | some s => if s.anchorFrame ≤ n then at' s else at' f.sched
  | none => at' f.sched

/-- FRAME_LEN in force for frame `n`. -/
def FrameCtl.lenOf (f : FrameCtl) (n : Nat) : Nat :=
  match f.pendingSet with
  | some s => if s.anchorFrame ≤ n then s.len else f.sched.len
  | none => f.sched.len

/-- The first frame from `n` on whose boundary lies at or after `t`. -/
def FrameCtl.frameFrom (f : FrameCtl) (t : Nat) : Nat → Nat → Nat
  | 0, n => n
  | fuel + 1, n => if t ≤ f.tOf n then n else FrameCtl.frameFrom f t fuel (n + 1)

/-- The MODEL_COMMIT reply (Table 04-10). -/
def Commit.reply (c : Commit) (activeFrame : Nat) : List Word :=
  let m := c.model
  let dims := m.enabled.map (fun s => (m.plan s).n + (m.plan s).m)
  [w32 m.enabled.length, w32 m.allIds.length, w32 (dims.foldl max 0), w32 m.lgPoints.length, m.sigFold c.sigs, w32 activeFrame]

/-- The eMRAM write of a commit has ended (R96): the frame of activation is fixed, the command is answered, and with frames STOPPED the
model takes effect. -/
def Dev.modelWritten (d : Dev) : Dev :=
  match d.piste.commit with
  | none => d
  | some c =>
    let f := d.frame
    let stopped := f.state = .stopped
    let late := decide (c.effective = 0) || decide (f.tOf c.effective < d.now + 1000000)
    let eff := if stopped then 0 else if late then f.frameFrom (d.now + 1000000) 64 (f.frameNum + 1) else c.effective
    let d1 := d.setPiste { d.piste with image := some c.model, commit := none, pend := some { c with effective := eff } }
    let d2 := if stopped then d1.activate { c with effective := 0 } 0 else d1
    d2.finish c.pkt stOkPending 0 (c.reply eff)

/-- A loaded model becomes active without a commit's events (R83). -/
def Dev.loadModel (d : Dev) (m : Option Model) (fromImage : Bool) : Dev :=
  match m with
  | some x => d.setPiste { d.piste with active := some x, sigs := x.sigs, activeSince := d.frame.frameNum, staging := if fromImage then none else d.piste.staging }
  | none => (d.setPiste { d.piste with active := none, sigs := [], staging := if fromImage then none else d.piste.staging }).raiseCtl 0x21 0x2100 .crit (b1 fromImage)

/-- MODEL_IMAGE_LOAD (R83): a start-up loads the active model from the eMRAM image into the image copy and Piste where the store holds no
copy, a takeover from the image copy; a failing CRC leaves no model. -/
def execModelImageLoad (s : State) : Host.Outcome State Fault Refusal :=
  .next (if !s.dev.ctlUp then s
    else
      let p := s.dev.piste
      match p.imageCopy with
      | some m => { s with dev := s.dev.loadModel (some m) false }
      | none => { s with dev := (s.dev.setPiste { p with imageCopy := p.image }).loadModel p.image true })

/-! Opcodes. -/

/-- The target Piste: unit 0x21, instance 0. -/
def onPiste (p : Packet) : Bool := onUnit 0x21 p

/-- A commit is in progress (R96). -/
def Dev.committing (d : Dev) : Bool × Nat × Nat := (d.piste.commit.isSome, stBusy, 0)

/-- MODEL_LOAD (R96, Table 04-9). -/
def opModelLoad : Op where
  code := 0x0301
  target := onPiste
  die := true
  params := 2
  body s q :=
    let p := s.dev.piste
    let ofs := (q.par 1).toNat
    let ws := q.from' 2
    let pool := q.b 0 0
    let start : Option Model := if q.b 0 1 then some (if q.b 0 2 then p.active.getD {} else {}) else p.staging
    let badWord (x : Word × Nat) : Bool := !pool && decide ((ofs + x.2) % 3 = 1) && decide (fld x.1 31 22 ≠ 0)
    let size := if pool then 65536 else 786432
    guarded s [encIf (q.resv 0 7) 0, encIf (ws.zipIdx.any badWord) 2, rangeIf (decide (size < ofs + ws.length)) 1, s.dev.committing, stateIf start.isNone]
      (match start with
       | none => .ok s s.dev
       | some m =>
         let m1 := if pool then { m with pool := m.pool.wrAll ofs ws } else { m with elemWords := m.elemWords.wrAll ofs ws }
         .ok s (s.dev.setPiste { p with staging := some m1 }))

/-- MODEL_LOAD. -/
def execModelLoad (p : Packet) (s : State) : Host.Outcome State Fault Refusal := .next (packetRow opModelLoad p s)

/-- MODEL_COMMIT (R88, R96): the checks and the image copy; the reply follows the eMRAM write. -/
def opModelCommit : Op where
  code := 0x0302
  target := onPiste
  die := true
  params := 4
  body s q :=
    let p := s.dev.piste
    let n := (q.par 0).toNat
    let eff := (q.par 3).toNat
    let m : Model := { p.staging.getD {} with elemCount := n, paramWords := (q.par 1).toNat, modelRev := BitVec.ofNat 16 (q.f 2 15 0), paramEdition := BitVec.ofNat 16 (q.f 2 31 16) }
    guarded s [rangeIf (outside n 1 262144) 0, rangeIf (decide (65536 < (q.par 1).toNat)) 1,
        rangeIf (decide (eff ≠ 0 ∧ s.dev.frame.state ≠ .stopped ∧ eff < s.dev.frame.frameNum + 2)) 3, s.dev.committing, stateIf p.staging.isNone]
      (match m.reject s.dev.smallGangs s.dev.solver.cfg with
       | some (r, i) =>
         { st := if q.pkt.checkOnly then s else { s with dev := s.dev.setPiste { p with errReason := BitVec.ofNat 8 r, errIndex := i } }, status := stConfigConflict, detail := 4 }
       | none =>
         let c : Commit := { model := m, effective := eff, sigs := m.sigs, pkt := { q with started := true } }
         let d := s.dev.setPiste { p with commit := some c, imageCopy := some m }
         { st := { s with dev := { d with slalom := d.slalom.request .model } }, status := stOkPending, later := true })

/-- MODEL_COMMIT. -/
def execModelCommit (p : Packet) (s : State) : Host.Outcome State Fault Refusal := .next (packetRow opModelCommit p s)

/-- MODEL_STATE (Table 04-11). -/
def Piste.modelState (p : Piste) : Nat := if p.commit.isSome then 2 else if p.pend.isSome then 3 else if p.active.isSome then 1 else 0

/-- MODEL_STATUS (Table 04-13). -/
def opModelStatus : Op where
  code := 0x0303
  target := onPiste
  die := true
  body s _ :=
    let p := s.dev.piste
    let m := p.active.getD {}
    .read s [pack [(p.modelState, 0), (b1 p.staging.isSome, 2), (b1 p.image.isSome, 3), (m.modelRev.toNat, 16)], w32 m.paramEdition.toNat, w32 m.elemCount,
      w32 p.activeSince, w32 ((p.pend.map (fun c => c.effective)).getD 0), w32 p.errReason.toNat, w32 p.errIndex, m.sigFold p.sigs]

/-- MODEL_STATUS. -/
def execModelStatus (p : Packet) (s : State) : Host.Outcome State Fault Refusal := .next (packetRow opModelStatus p s)

/-- The subproblem entry that starts at Pi (Table 04-7). -/
def subEntryOf (q : QPacket) (i : Nat) : Subproblem :=
  { jobKind := BitVec.ofNat 8 (q.f i 7 0), precision := BitVec.ofNat 2 (q.f i 9 8), enable := q.b i 10, engine := BitVec.ofNat 8 (q.f i 23 16), horizon := q.f i 31 24
    stepS := q.f (i + 1) 15 0, iterCap := q.f (i + 1) 31 16, epsAbs := q.par (i + 2), epsRel := q.par (i + 3), rho := q.par (i + 4), coupleRho := q.par (i + 5)
    pMin := q.par (i + 6), pivEps := BitVec.ofNat 8 (q.f (i + 7) 7 0) }

/-- PIV_EPS of an entry or a descriptor: 0 or −52 to −4. -/
def pivOk (v : BitVec 8) : Bool := v = 0 || decide (-52 ≤ pivInt v ∧ pivInt v ≤ -4)

/-- Checks of a subproblem entry. -/
def subEntryChecks (q : QPacket) (i : Nat) : List (Bool × Nat × Nat) :=
  let x := subEntryOf q i
  let k := x.jobKind
  [encIf (q.resv i 0xFFFF07FF || decide (k ≠ 6 ∧ k ≠ 7) || decide (1 < x.precision.toNat) || decide (15 < x.engine.toNat ∧ x.engine ≠ 0xFF)) i,
   encIf (q.resv (i + 7) 0xFF) (i + 7), rangeIf (outside x.horizon 1 64) i, rangeIf (decide (x.stepS = 0 ∨ 4096 < x.iterCap)) (i + 1),
   rangeIf (!fpNonNeg x.epsAbs) (i + 2), rangeIf (!fpNonNeg x.epsRel) (i + 3), rangeIf (!fpNonNeg x.rho) (i + 4), rangeIf (!fin32 x.coupleRho) (i + 5),
   rangeIf (!fpNonNeg x.pMin) (i + 6), rangeIf (!pivOk x.pivEps) (i + 7)]

/-- PARTITION_SET (Table 04-9). -/
def opPartitionSet : Op where
  code := 0x0304
  target := onPiste
  die := true
  params := 1
  body s q :=
    let p := s.dev.piste
    let first := q.f 0 11 0
    let n := q.f 0 24 16
    let m := p.staging.getD {}
    guarded s ([encIf (q.resv 0 0x1FF0FFF) 0, rangeIf (decide (n = 0 ∨ 256 < n ∨ 4096 < first + n)) 0, (decide (q.n < 1 + 8 * n), stBadLength, 1)] ++
        (List.range n).flatMap (fun i => subEntryChecks q (1 + 8 * i)) ++ [s.dev.committing, stateIf p.staging.isNone])
      (.ok s (s.dev.setPiste { p with staging := some { m with subs := m.subs.wrAll first ((List.range n).map (fun i => subEntryOf q (1 + 8 * i))) } }))

/-- PARTITION_SET. -/
def execPartitionSet (p : Packet) (s : State) : Host.Outcome State Fault Refusal := .next (packetRow opPartitionSet p s)

/-- Checks of a substitution rule at Pi (Table 04-8). -/
def substChecks (q : QPacket) (i : Nat) : List (Bool × Nat × Nat) :=
  [encIf (q.resv i 0x3F || decide (11 < q.f i 3 0 ∨ 1 < q.f i 5 4)) i, encIf (q.resv (i + 1) 0xFFFF001F || decide (q.f (i + 1) 3 2 = 0)) (i + 1),
   encIf (q.resv (i + 3) 0xFFFF) (i + 3), rangeIf (decide (q.f (i + 1) 31 16 = 0)) (i + 1), rangeIf (!fin32 (q.par (i + 2))) (i + 2)]

/-- The rule at Pi. -/
def substOf (q : QPacket) (i : Nat) : SubstRule :=
  { mode := BitVec.ofNat 2 (q.f (i + 1) 1 0), thenMode := BitVec.ofNat 2 (q.f (i + 1) 3 2), uncertainBad := q.b (i + 1) 4, maxAge := q.f (i + 1) 31 16, const := q.par (i + 2),
    staleFrames := q.f (i + 3) 15 0 }

/-- SUBST_SET (Table 04-9): a duplicated KIND and ROLE takes the later entry. -/
def opSubstSet : Op where
  code := 0x0305
  target := onPiste
  die := true
  params := 1
  body s q :=
    let p := s.dev.piste
    let n := q.f 0 5 0
    let m := p.staging.getD {}
    let rules := (List.range n).foldl (fun t i => Tbl.wr t (q.f (1 + 4 * i) 3 0 * 4 + q.f (1 + 4 * i) 5 4) (substOf q (1 + 4 * i))) m.substs
    guarded s ([encIf (q.resv 0 0x3F) 0, rangeIf (outside n 1 48) 0, (decide (q.n < 1 + 4 * n), stBadLength, 1)] ++
        (List.range n).flatMap (fun i => substChecks q (1 + 4 * i)) ++ [s.dev.committing, stateIf p.staging.isNone])
      (.ok s (s.dev.setPiste { p with staging := some { m with substs := rules } }))

/-- SUBST_SET. -/
def execSubstSet (p : Packet) (s : State) : Host.Outcome State Fault Refusal := .next (packetRow opSubstSet p s)

/-- Word at offset `o` of Piste's page (Table 04-11). -/
def Dev.pisteWord (d : Dev) (o : Nat) : Word :=
  let p := d.piste
  match o with
  | 0x00 => pack [(p.modelState, 0), (b1 p.staging.isSome, 2), (b1 p.held0.isSome, 3), (b1 p.held1.isSome, 4), ((p.active.getD {}).modelRev.toNat, 16)]
  | 0x04 => pack [(p.asmFrame % 65536, 0), (p.doneCnt % 65536, 16)]
  | 0x08 => w32 p.asmNs
  | 0x0C => w32 p.substCnt
  | 0x10 => w32 p.failCnt
  | 0x14 => p.stallNs
  | 0x18 => w32 p.sigSel
  | 0x1C => if ((p.active.getD {}).sub p.sigSel).enable then p.sigs.rd p.sigSel else 0
  | _ => 0

end Sys2Proof.Machine
end

