-- ==== Sys2Proof/Machine/Jobs.lean ====
section
/-! DEFINITION. Jobs (chapter 06): warm starts (R133, R134), issue (R104, R105, R119), the runs of the engines (R108, R114, R135, R138), fall-back
(R139), result records (R131), host jobs (R129, R130). -/

namespace Sys2Proof.Machine

open Sys2Proof.Bits Sys2Proof.Float Sys2Proof.Kernel

/-- The format of a job. -/
def Job.fmt (j : Job) : Fmt := if j.fp64 then b64 else b32
/-- Bytes of a value of the job. -/
def Job.w (j : Job) : Nat := if j.fp64 then 8 else 4
/-- Variables of a step. -/
def Job.per (j : Job) : Nat := j.n / max j.horizon 1

/-! Warm starts. -/

/-- The record of subproblem `s` in a bank, absent where its CRC fails. -/
def bankRec (b : Tbl WarmRec) (s : Nat) : Option WarmRec := ((b.find? (fun x => x.1 = s)).map (fun x => x.2)).filter (fun r => r.crcOk)

/-- Records of subproblem `s` whose CRC fails. -/
def Jobs.badRecs (j : Jobs) (s : Nat) : Nat := ([j.bank0, j.bank1].filter (fun b => b.any (fun x => decide (x.1 = s) && !x.2.crcOk))).length

/-- The newer of two records. -/
def newer (a b : Option WarmRec) : Option WarmRec :=
  match a, b with
  | some x, some y => if x.frame < y.frame then some y else some x
  | some x, none => some x
  | none, y => y

/-- The record a round-0 job takes, and whether it carries WARM_FROM_OLDER (R133). -/
def Dev.warmTake (d : Dev) (j : Job) : Option WarmRec × Bool :=
  let a := bankRec d.jobs.bank0 j.sub
  let b := bankRec d.jobs.bank1 j.sub
  let ran := decide (d.frame.firstRun < j.frame)
  let last := (newer a b).filter (fun r => decide (r.frame + 1 = j.frame))
  if ran && last.isSome then (last, false)
  else ((newer a b), ran && (newer a b).isSome)

/-- Why a record is discarded (R133): 1 its signature differs, 2 another field does. -/
def WarmRec.mismatch (r : WarmRec) (j : Job) : Option Nat :=
  if r.sig ≠ j.sig then some 1
  else if r.n ≠ j.n ∨ r.m ≠ j.m ∨ r.fp64 ≠ j.fp64 ∨ r.h ≠ j.horizon ∨ r.stepS ≠ j.stepS then some 2
  else none

/-- Steps between two instants (R134). -/
def shiftSteps (tN ref stepS : Nat) : Nat := (tN - ref) / (stepS * 1000000000)

/-- Moves blocks of a vector of `h` steps down by `s` (R134). -/
def shiftVec {α : Type} [Inhabited α] (h s : Nat) (v : List α) : List α :=
  let per := v.length / max h 1
  (List.range h).flatMap (fun t => (v.drop (min (t + s) (h - 1) * per)).take per)

/-- A record shifted to the frame that begins at `tN` (R134), and whether it moved. -/
def WarmRec.shift (r : WarmRec) (tN : Nat) : WarmRec × Bool :=
  let raw := shiftSteps tN r.ref r.stepS
  let s := min raw (r.h - 1)
  ({ r with z := shiftVec r.h s r.z, w := shiftVec r.h s r.w, y := shiftVec r.h s r.y, ref := r.ref + raw * r.stepS * 1000000000 }, decide (0 < s))

/-- The cold start of R133. -/
def Job.cold (j : Job) : WarmRec :=
  let z0 := j.fmt.ofRat 0 1
  { sub := j.sub, fp64 := j.fp64, sig := j.sig, ref := j.tN, n := j.n, m := j.m, h := j.horizon, stepS := j.stepS
    z := if j.kind = 6 then (List.range j.n).map (fun i => j.fmt.clamp z0 (j.qp.l.getD i z0) (j.qp.u.getD i z0)) else List.replicate j.n z0
    w := if j.kind = 6 then List.replicate j.n z0 else []
    y := if j.kind = 6 then List.replicate j.m z0 else [] }

/-- A round-0 job takes its warm start (R133, R134): the job with it, and the device with what the taking counts and raises. -/
def Dev.takeWarm (d : Dev) (k : Nat) (j : Job) : Job × Dev :=
  let bad := d.jobs.badRecs j.sub
  let d1 := { d with jobs := { d.jobs with wsCrcCnt := satN 16 (d.jobs.wsCrcCnt + bad) } }
  let (r, older) := d1.warmTake j
  match r with
  | none => ({ j with warm := none, flags := { j.flags with cold := true } }, d1)
  | some rec1 =>
    let fl := { j.flags with older := older }
    match rec1.mismatch j with
    | some why => ({ j with warm := none, flags := { fl with rejected := true } }, d1.raiseCtl 0x43 (0x2000 + k) .info (j.sub + 2 ^ 32 * why))
    | none =>
      let (w, moved) := rec1.shift j.tN
      ({ j with warm := some w, flags := { fl with shifted := moved } }, d1)

/-! Coupling terms. -/

/-- Key of the target of a copy. -/
def targetKey (sub id : Nat) : Nat := sub * 65536 + id

/-- The linear terms of a copy: y − ρ·z at each step, FP64 rounded once (R145); 0 for an excluded ID (R143). -/
def Dev.linTerms (d : Dev) (j : Job) (id : Nat) : List Nat :=
  let c := d.coord.couples.rd id
  let t := d.coord.targets.rd (targetKey j.sub id)
  let f := b64
  let rho := conv j.fmt f j.coupleRho
  (List.range j.horizon).map (fun k =>
    if c.excluded then f.ofRat 0 1 else f.fma (f.negate rho) (t.z.getD k 0) (c.y.getD k 0))

/-- Adds the linear terms to a job's vectors (R146). -/
def Dev.addTerms (d : Dev) (j : Job) : Job :=
  let f := j.fmt
  j.couple.foldl (fun acc c =>
    let ts := (d.linTerms j c.1).map (conv b64 f)
    if j.kind = 6 then
      { acc with qp := { acc.qp with q := ts.zipIdx.foldl (fun q x => setAt q (x.2 * j.per + c.2) (f.add (q.getD (x.2 * j.per + c.2) 0) x.1)) acc.qp.q } }
    else
      { acc with branches := acc.branches.map (fun b => if b.kind = 15 ∧ b.a = c.2 then { b with par := [b.par.getD 0 0, ts.getD 0 0] } else b) }) j

/-! Issue. -/

/-- Slalom's cap on a control-die job (R223). -/
def Slalom.capIter (s : Slalom) (n : Nat) : Nat := if s.level = 6 then min n s.cfg.thrIterMin else if s.level = 5 then min n s.cfg.thrIter else n

/-- R27 allows a queued job: a host job always, a control-die job once the frame before it has committed. -/
def Dev.frameRule (d : Dev) (j : Job) : Bool := j.host.isSome || d.coord.committed || decide (j.frame ≤ d.coord.frame)

/-- The engine may issue from its Piste queue, or from its round queue (R104, R122). -/
def Engine.mayIssue (e : Engine) (round : Bool) : Bool :=
  e.state = .idle || e.state = .busy || (e.state = .draining && decide (0 < if round then e.drainRound else e.drain))

/-- The head of a queue. -/
def Engine.head (e : Engine) (round : Bool) : Option Job := (if round then e.round else e.queue).head?

/-- The engine can take the head of that queue into flight: state, free slot, room for its footprint. -/
def Dev.headReady (d : Dev) (k : Nat) (round : Bool) (j : Job) : Bool :=
  let e := d.eng k
  (match e.head round with
   | some h => h.same j
   | none => false) && e.mayIssue round && decide (e.flight.length < 6) && (allocIn e.workUsed d.workBytes j.workBytes).isSome

/-- Moves the head of a queue of engine `k` into flight as `j`. -/
def Dev.toFlight (d : Dev) (k : Nat) (round : Bool) (j : Job) : Dev :=
  let e := d.eng k
  let (a, c) := (allocIn e.workUsed d.workBytes j.workBytes).getD (0, false)
  let e1 := if c then e.compactWork else e
  let e2 : Engine := { e1 with
    flight := e1.flight ++ [{ j with workAt := a }]
    queue := if round then e1.queue else e1.queue.drop 1
    round := if round then e1.round.drop 1 else e1.round
    drain := if round then e1.drain else e1.drain - 1
    drainRound := if round then e1.drainRound - 1 else e1.drainRound
    gangWait := false }
  ((d.setEng k e2.settle).mon 0x10 k e2.queue.length).mon 0x12 k e2.round.length

/-- Places the oldest round job that engine `k` can now take (R105). -/
def Dev.placeRound (d : Dev) : Nat → Dev
  | 0 => d
  | fuel + 1 =>
    match d.coord.toPlace.find? (fun j => (members j.engine j.gangLog2).all (fun k => decide ((d.eng k).round.length < 8))) with
    | none => d
    | some j =>
      let d1 := (members j.engine j.gangLog2).foldl (fun acc k =>
        let e := acc.eng k
        let e1 : Engine := { e with round := e.round ++ [j] }
        (acc.setEng k e1.settle).mon 0x12 k e1.round.length) { d with coord := { d.coord with toPlace := d.coord.toPlace.erase j } }
      Dev.placeRound d1 fuel

/-- The job as it issues: its warm start, its round-0 linear terms and Slalom's cap. -/
def Dev.atIssue (d : Dev) (k : Nat) (j : Job) : Job × Dev :=
  if j.host.isSome then (j, d)
  else
    let capped : Job := { j with iterCap := d.slalom.capIter j.iterCap }
    if j.round = 0 then
      let (j1, d1) := d.takeWarm k capped
      let d2 := if j1.flags.older then { d1 with frame := { d1.frame with olderRun := bump 16 d1.frame.olderRun } } else d1
      (d2.addTerms j1, d2)
    else (capped, d)

/-- Issues the head of a queue of engine `k`, on every member of its gang at once (R119); none where it cannot issue. -/
def Dev.issueHead (d : Dev) (k : Nat) (round : Bool) : Option Dev :=
  match (d.eng k).head round with
  | none => none
  | some j =>
    if !round && !d.frameRule j then none
    else
      let ms := members j.engine j.gangLog2
      if ms.all (fun x => d.headReady x round j) then
        let (j1, d1) := d.atIssue j.engine j
        let d2 := ms.foldl (fun acc x => acc.toFlight x round j1) d1
        let d3 := if j.host.isSome ∨ round then d2 else
          { d2 with jobs := { d2.jobs with outs := d2.jobs.outs.upd j.sub (fun o => { o with job := { j1 with engine := j.engine, qp := j.qp, branches := j.branches } }) } }
        some (d3.placeRound 16)
      else none

/-- JOB_ISSUE (R104, R105): at an issue opportunity of engine `k` the head of its round queue issues first, then the head of its Piste
queue; a head gang job that must wait for its members sets the barrier (R119). -/
def execJobIssue (k : Fin 16) (s : State) : Host.Outcome State Fault Refusal :=
  .next (
    let d := s.dev
    if !d.ctlUp then s
    else match d.issueHead k.val true with
      | some d1 => { s with dev := d1 }
      | none => match d.issueHead k.val false with
        | some d1 => { s with dev := (if d1.frame.phase = .assemble ∧ d1.piste.cursor = none then { d1 with frame := { d1.frame with phase := .solve } } else d1) }
        | none =>
          let e := d.eng k.val
          let gang := ((e.head true).map (fun j => decide (0 < j.gangLog2))).getD false || ((e.head false).map (fun j => decide (0 < j.gangLog2) && d.frameRule j)).getD false
          { s with dev := d.setEng k.val { e with gangWait := gang } })

/-! Runs. -/

/-- What an engine computes for a job. -/
structure Run where
  /-- STATUS by Table 06-6: 0 to 4. -/
  status : Nat := 0
  /-- z, x or h. -/
  z : List Nat := []
  /-- w. -/
  w : List Nat := []
  /-- y. -/
  y : List Nat := []
  /-- ITERATIONS. -/
  it : Nat := 0
  /-- PRES. -/
  pres : Nat := 0
  /-- DRES. -/
  dres : Nat := 0
  /-- Pivot record. -/
  piv : Pivots := {}
  /-- The fault. -/
  fault : Option NumFault := none
  /-- STEP_LIMITED. -/
  limited : Bool := false
  /-- The factorised object, its data and header. -/
  fact : Option MemObj := none

/-- A run that a fault stopped before its first iteration. -/
def Run.stop (e : NumFault) : Run := { status := 2, fault := some e }

/-- Factorises a square object (R108): the object with its factors, or FAILED with the fault. -/
def MemObj.factorise (o : MemObj) (pivEps : Int) (delta : Nat) : MemObj × Option NumFault :=
  let r : KM (MemObj × Pivots) := do
    o.checkVals
    let e ← if o.format = 4 then o.kktE else pure []
    let (a, p) ← ldl (o.shape e pivEps delta) (o.matrix e)
    pure (o.putMatrix e a, p)
  match r with
  | .ok (o1, p) => ({ o1.withPiv p with state := .factored }, none)
  | .error x => ({ o with state := .failed }.clearPiv, some x)

/-- Solves with a factorised object (R112). -/
def MemObj.solveWith (o : MemObj) (b : List Nat) : KM (List Nat) := do
  let e ← if o.format = 4 then o.kktE else pure []
  solve (o.shape e 0 0) (o.matrix e) b

/-- The pivot record that an object's header holds. -/
def MemObj.piv (o : MemObj) : Pivots := { first := o.pivFirst, count := o.pivCount, wrong := o.wrongSign, neg := o.negCount }

/-- The QP run on the data of `j`, its K given factorised or to be factorised (R135). -/
def qpOn (j : Job) (p : List Nat) (e : List (List (Nat × Nat))) (kObj : MemObj) (z w y : List Nat) : Run :=
  let f := j.fmt
  let full := kObj.shape e j.pivEps j.regDelta
  let base : KM (Array Nat × Pivots) :=
    if j.flags.useFactor then pure (kObj.matrix e, kObj.piv)
    else do
      let size := if kObj.format = 2 then kObj.n * (kObj.b + 1) else kObj.n * kObj.n
      let k ← kktArray f full p e j.m j.rho size
      ldl full k
  match base with
  | .error x => { Run.stop x with fact := some ({ kObj with state := .failed }.clearPiv) }
  | .ok (k, piv) =>
    let i : QpIn := { f := f, p := p, e := e, q := j.qp.q, l := j.qp.l, u := j.qp.u, b := j.qp.b, epsAbs := j.epsAbs, epsRel := j.epsRel, rho := j.rho, cap := j.iterCap
                      k := k, s := full, reg := decide (0 < piv.count) }
    let o := qpRun i z w y
    let fo : MemObj := if j.flags.useFactor then kObj else { ((if kObj.format = 4 then kObj.putPattern e else kObj).putMatrix e k).withPiv piv with state := .factored }
    { status := o.status, z := o.st.z, w := o.st.w, y := o.st.y, it := o.it, pres := o.pres, dres := o.dres, piv := piv, fault := o.fault, fact := some fo }

/-- Half-bandwidth of a QP's K. -/
def Job.band (j : Job) : Nat := (j.qp.e.zipIdx.flatMap (fun c => c.1.map (fun x => j.n + x.1 - c.2))).foldl max 0

/-- The empty object that a control-die QP factorises into: KKT_SPLIT for the dense kernel, BAND otherwise. -/
def Job.kktObj (j : Job) : MemObj :=
  let nnz := (j.qp.e.map List.length).sum
  if j.n + j.m ≤ 256 then { format := 4, fp64 := j.fp64, n := j.n + j.m, npos := j.n, nnz := nnz }
  else { format := 2, fp64 := j.fp64, n := j.n + j.m, npos := j.n, b := j.band }

/-- The run of a control-die QP (R135). -/
def Dev.runQp (d : Dev) (j : Job) : Run :=
  let f := j.fmt
  let c := (j.warm.getD j.cold)
  let check : KM Unit := do
    chkInput f (j.qp.p ++ j.qp.e.flatten.map (fun x => x.2))
    chkInput f (j.qp.q ++ j.qp.l ++ j.qp.u ++ j.qp.b)
  match check with
  | .error x => Run.stop x
  | .ok _ =>
    match if j.flags.useFactor then d.obj j.factH else some j.kktObj with
    | none => Run.stop ⟨4, 0⟩
    | some o => qpOn j j.qp.p j.qp.e o c.z c.w c.y

/-- The kernel of a NETBAL's linear systems (R89, R119). -/
def Job.netKernel (j : Job) : NetKernel :=
  let es := j.branches.map Branch.edge
  let band := (es.filterMap (fun e => match e.a, e.b with
    | some a, some b => some (max a b - min a b)
    | _, _ => none)).foldl max 0
  if j.n ≤ 256 then .dense else if j.n ≤ 16384 ∧ band ≤ 32 then .band band else .cg (2 ^ j.gangLog2)

/-- The run of a NETBAL (R138). -/
def Job.runNet (j : Job) : Run :=
  let f := j.fmt
  let c := (j.warm.getD j.cold)
  match chkInput f (j.branches.flatMap (fun b => b.par)) with
  | .error x => Run.stop x
  | .ok _ =>
    let o := netbal f j.n (j.branches.map Branch.edge) j.netKernel j.pivEps j.regDelta j.epsAbs j.epsRel j.iterCap c.z
    { status := o.status, z := o.h, it := o.it, pres := o.pres, dres := o.dres, piv := o.piv, fault := o.fault, limited := o.limited }

/-- The values of a vector object. -/
def MemObj.vec (o : MemObj) : List Nat := o.vals 0 o.n

/-- The warm-start content of a host QP: z, w and y of WARM, or the cold values. -/
def hostWarm (j : Job) (warm : Option MemObj) : List Nat × List Nat × List Nat :=
  match warm with
  | some o =>
    let v := o.vec
    (v.take j.n, (v.drop j.n).take j.n, v.drop (2 * j.n))
  | none =>
    let c := j.cold
    (c.z, c.w, c.y)

/-- The run of a host job, and the objects it leaves written: MAT or FACT (R108, R114, R127, R135). -/
def Dev.runHost (d : Dev) (j : Job) : Job × Run :=
  let f := j.fmt
  let warm := if j.flags.noWarm then none else d.obj j.warmH
  match d.obj j.matH with
  | none => (j, Run.stop ⟨4, 0⟩)
  | some mat =>
    let vec := ((d.obj j.vecH).map MemObj.vec).getD []
    let direct (o : MemObj) (err : Option NumFault) (keep : Bool) : Run :=
      match err with
      | some x => { Run.stop x with fact := some o }
      | none =>
        match (do chkInput f vec; o.solveWith vec : KM (List Nat)) with
        | .error x => { Run.stop x with piv := o.piv, fact := if keep then some o else none }
        | .ok x => { z := x, piv := o.piv, fact := if keep then some o else none }
    match j.kind.toNat with
    | 1 =>
      let (o, err) := mat.factorise j.pivEps j.regDelta
      match err with
      | some x => (j, { Run.stop x with fact := some o })
      | none => (j, { piv := o.piv, fact := some o })
    | 2 => (j, if mat.state = .factored then direct mat none false else Run.stop ⟨4, 0⟩)
    | 3 | 4 =>
      let (o, err) := mat.factorise j.pivEps j.regDelta
      (j, direct o err true)
    | 5 =>
      let r : KM CgOut := do
        let rows ← mat.cscRows
        chkInput f vec
        let x0 := (warm.map MemObj.vec).getD (List.replicate j.n (f.ofRat 0 1))
        chkInput f x0
        let rel ← chk f 0 (f.mul j.epsRel (norm f vec))
        let bound ← chk f 0 (f.add j.epsAbs rel)
        pcg f (2 ^ mat.gangLog2) rows vec x0 j.pivEps j.regDelta bound j.iterCap
      match r with
      | .error x => (j, Run.stop x)
      | .ok o => (j, { status := if o.fault.isSome then 2 else if o.converged then 0 else 1, z := o.x, it := o.it, pres := o.res, piv := o.piv, fault := o.fault })
    | _ =>
      let n := j.n
      let j1 : Job := { j with qp := { q := vec.take n, l := (vec.drop n).take n, u := (vec.drop (2 * n)).take n, b := vec.drop (3 * n) } }
      let pre : KM (List (List (Nat × Nat))) := do
        mat.checkVals
        chkInput f vec
        mat.kktE
      match pre, d.obj j.factH with
      | .error x, _ => (j1, Run.stop x)
      | .ok _, none => (j1, Run.stop ⟨4, 0⟩)
      | .ok e, some fo =>
        let (z, w, y) := hostWarm j1 warm
        let p := mat.vals 0 n
        let j2 : Job := { j1 with qp := { j1.qp with p := p, e := e } }
        match chkInput f (z ++ w ++ y) with
        | .error x => (j2, Run.stop x)
        | .ok _ => (j2, qpOn j2 p e { fo with nnz := fo.nnz } z w y)

/-! Results. -/

/-- A job status by its value. -/
def statusOf (n : Nat) : JobStatus :=
  match n with
  | 0 => .converged
  | 1 => .capFallback
  | 2 => .numericFault
  | 3 => .infeasPrimal
  | 4 => .infeasDual
  | 5 => .notSolved
  | 6 => .abandoned
  | _ => .cancelled

/-- The value of a job status (Table 06-6). -/
def JobStatus.num : JobStatus → Nat
  | .converged => 0
  | .capFallback => 1
  | .numericFault => 2
  | .infeasPrimal => 3
  | .infeasDual => 4
  | .notSolved => 5
  | .abandoned => 6
  | .cancelled => 7

/-- The result FLAGS (Table 06-7). -/
def JobFlags.result (f : JobFlags) : Nat :=
  b1 f.older + 2 * b1 f.rejected + 4 * b1 f.cold + 8 * b1 f.pivReg + 16 * b1 f.inertia + 32 * b1 f.substApplied + 64 * b1 f.substFailed + 128 * b1 f.shifted +
    256 * b1 f.noAccepted + 512 * b1 f.factorReused + 1024 * b1 f.retainMissed + 2048 * b1 f.deadline + 4096 * b1 f.stepLimited

/-- The result record (Table 06-5). -/
def JobResult.words (r : JobResult) : List Word :=
  [pack [(r.status.num, 0), (r.flags.result, 16)], pack [(r.iterations % 8192, 0), (r.cause % 8, 13), (r.elapsed, 16)],
   pack [(match r.pivFirst with
     | some k => k % 131072
     | none => 0x1FFFF, 0), (satN 15 r.pivCount, 17)], r.pres, r.dres, r.objective, r.solH, r.factH]

/-- Clamps a QP fall-back primal to the job's bounds, entries with a bound out of range left as they are (R139). -/
def Job.clampZ (j : Job) (z : List Nat) : List Nat :=
  let f := j.fmt
  z.zipIdx.map (fun x =>
    match j.qp.l[x.2]?, j.qp.u[x.2]? with
    | some l, some u => if f.outOfRange l || f.outOfRange u then x.1 else f.clamp x.1 l u
    | _, _ => x.1)

/-- The fall-back output of a control-die job (R139): an earlier round's converged output, the shifted record, or nothing behind it. -/
def Job.fallback (j : Job) (converged : Option JobResult) (warm : Option WarmRec) : WarmRec × Bool :=
  match converged with
  | some r => ({ r.out with basis := .accepted }, false)
  | none =>
    let fix (r : WarmRec) : WarmRec := if j.kind = 6 then { r with z := j.clampZ r.z } else r
    match warm.filter (fun r => r.basis ≠ .none) with
    | some r => (fix { r with basis := .carried, frame := j.frame }, false)
    | none => (fix { j.cold with basis := .none, frame := j.frame }, true)

/-- OBJECTIVE of an output primal, binary32; a free value where it cannot be formed in range (R118). -/
def Dev.objectiveOf (d : Dev) (j : Job) (z : List Nat) : Word × Dev :=
  if j.kind ≠ 6 then (0, d)
  else match Kernel.objective j.fmt j.qp.p j.qp.q z with
    | .ok v => (w32 (conv j.fmt b32 v), d)
    | .error _ => d.freeW

/-- Counts and raises what the end of a problem on engine `k` brings: JOBS_DONE, pivots (R117) and a numeric fault (R118). -/
def Dev.countRun (d : Dev) (k : Nat) (j : Job) (r : Run) : Dev :=
  let e := d.eng k
  let reg := decide (0 < r.piv.count) && !j.flags.useFactor
  let wrong := decide (0 < r.piv.wrong) && !j.flags.useFactor
  let e1 : Engine := { e with
    pivregCnt := if reg then bump 16 e.pivregCnt else e.pivregCnt
    inertiaCnt := if wrong then bump 16 e.inertiaCnt else e.inertiaCnt
    numericCnt := if r.fault.isSome then bump 16 e.numericCnt else e.numericCnt }
  let ev := d.solver.cfg.pivEvent
  let d1 := ((((d.setEng k e1).satAt 0x20 16 e1.pivregCnt).satAt 0x20 16 e1.inertiaCnt).satAt 0x20 16 e1.numericCnt)
  let d2 := d1.raiseIf (ev && reg) ((3 + d.runDie) * 256 + 0x31) (0x2000 + k) .info
    (j.sub % 65536 + 2 ^ 16 * ((r.piv.first.getD 0) % 131072) + 2 ^ 33 * (r.piv.count % 131072) + 2 ^ 50 * b1 j.fp64)
  let d3 := d2.raiseIf (ev && wrong) ((3 + d.runDie) * 256 + 0x32) (0x2000 + k) .info
    (j.sub % 65536 + 2 ^ 16 * (r.piv.wrong % 131072) + 2 ^ 33 * (r.piv.neg % 131072))
  match r.fault with
  | some x => d3.raiseCtl 0x30 (0x2000 + k) .warn (j.sub + 2 ^ 32 * x.cause + 2 ^ 36 * (j.kind.toNat % 16) + 2 ^ 40 * (x.index % 2 ^ 24))
  | none => d3

/-- Retains a control-die factorisation (R109): its handle and whether it was kept. -/
def Dev.retain (d : Dev) (k : Nat) (j : Job) (o : MemObj) : Word × Bool × Dev :=
  let obj : MemObj := { o with retained := true, sig := j.sig, subproblem := j.sub, frame := BitVec.ofNat 16 j.frame, madeIn := j.frame }
  match d.allocObj k 1 (d.solver.sizesRetain * 16384) obj with
  | some (h, d1) => (h, true, d1)
  | none =>
    let e := d.eng k
    (0, false, ((d.setEng k { e with retainMiss := bump 16 e.retainMiss }).satAt 0x20 16 (bump 16 e.retainMiss)).raiseCtl 0x34 (0x2000 + k) .info
      (j.sub % 65536 + 2 ^ 16 * (obj.total % 2 ^ 20)))

/-- What every result record takes from its run. -/
def resultBase (j : Job) (r : Run) (cycles : Nat) (fl : JobFlags) : JobResult :=
  { status := statusOf r.status
    flags := { fl with pivReg := decide (0 < r.piv.count), inertia := decide (0 < r.piv.wrong), factorReused := j.flags.useFactor, stepLimited := r.limited }
    iterations := r.it, cause := (r.fault.map (fun x => x.cause)).getD 0, elapsed := satN 16 (cycles / 1024), pivFirst := r.piv.first, pivCount := r.piv.count
    pres := w32 (conv j.fmt b32 r.pres), dres := w32 (conv j.fmt b32 r.dres) }

/-- A control-die problem ends (R107, R131, R139): its result goes to the coordinator. -/
def Dev.endCtl (d : Dev) (j : Job) (r : Run) (cycles : Nat) : Dev :=
  let so := d.jobs.outs.rd j.sub
  let (h, kept, d1) := if j.flags.retain && r.fact.isSome && decide (r.status ≠ 2 ∨ (r.fact.map (fun o => o.state)).getD .raw = .factored)
    then d.retain j.engine j (r.fact.getD {}) else (0, false, d)
  let missed := j.flags.retainMissed || (j.flags.retain && !kept)
  let fact := if j.flags.useFactor then j.factH else h
  let ok : WarmRec := { j.cold with basis := .accepted, frame := j.frame, z := r.z, w := r.w, y := r.y }
  let (out, none') := if r.status = 0 then (ok, false) else j.fallback so.converged so.job.warm
  let (ob, d2) := d1.objectiveOf j out.z
  let base := resultBase j r cycles { j.flags with noAccepted := none', retainMissed := missed }
  let res : JobResult := { base with objective := ob, factH := fact, out := { out with status := statusOf r.status } }
  let so' : SubOut := { so with res := some res, busy := false, converged := if r.status = 0 then some res else so.converged, factH := fact }
  ({ d2 with jobs := { d2.jobs with outs := d2.jobs.outs.wr j.sub so' } }.mon 0x11 j.engine 1).mon 0x11 j.engine 0

/-- The objects that a job references. -/
def Job.handles (j : Job) : List Word := ([j.matH, j.vecH, j.solH, j.warmH, j.factH].filter (fun h => h ≠ 0)).eraseDups

/-- A host job's hold on its objects begins or ends (R107). -/
def Dev.holdObjs (d : Dev) (j : Job) (up : Bool) : Dev :=
  j.handles.foldl (fun acc h => match acc.obj h with
    | some o => acc.setObj { o with inUse := if up then o.inUse + 1 else o.inUse - 1 }
    | none => acc) d

/-- A host job's record enters the job table (R130, R131). -/
def Dev.endHostWith (d : Dev) (j : Job) (res : JobResult) : Dev :=
  let num := j.host.getD 0
  let d1 := d.holdObjs j false
  let d2 := { d1 with jobs := { d1.jobs with table := d1.jobs.table.map (fun (x : HostJob) => if x.num = num then { x with result := some res } else x) } }
  d2.raiseIf j.flags.notify ((3 + d.runDie) * 256 + 0x40) (0x2000 + j.engine) .info (num + 2 ^ 16 * res.status.num + 2 ^ 32 * res.flags.result)

/-- A host problem ends: its objects are written, its record goes to the job table. -/
def Dev.endHost (d : Dev) (j : Job) (r : Run) (cycles : Nat) : Dev :=
  let warm := d.obj j.warmH
  let stamp (o : MemObj) : MemObj := { o with subproblem := j.sub, frame := 0 }
  let d1 := match r.fact with
    | some o => if j.kind = 6 ∧ j.flags.useFactor then d else d.setObj (stamp o)
    | none => d
  let zeros := List.replicate j.n (j.fmt.ofRat 0 1)
  let (vec, none') : List Nat × Bool :=
    if r.status = 0 then (r.z ++ r.w ++ r.y, false)
    else match warm with
      | some o => (if j.kind = 6 then j.clampZ (o.vec.take j.n) ++ o.vec.drop j.n else o.vec, false)
      | none => (if j.kind = 6 then j.clampZ j.cold.z ++ j.cold.w ++ j.cold.y else zeros, true)
  let d2 := if j.kind = 1 then d1 else match d1.obj j.solH with
    | some o => d1.setObj (stamp { o.putAll 0 vec with state := .raw })
    | none => d1
  let (ob, d3) := d2.objectiveOf j (vec.take j.n)
  let iter := j.kind = 5 || j.kind = 6
  let base := resultBase j r cycles { j.flags with noAccepted := none' && decide (j.kind ≠ 1), cold := iter && (j.flags.noWarm || warm.isNone) }
  d3.endHostWith j { base with objective := ob, solH := j.solH, factH := if j.kind = 6 then j.factH else 0 }

/-- Takes a job out of flight on every member of its gang. -/
def Dev.unflight (d : Dev) (j : Job) (done : Bool) : Dev :=
  (members j.engine j.gangLog2).foldl (fun acc k =>
    let e := acc.eng k
    let e1 : Engine := { e with flight := e.flight.filter (fun x => !x.same j), jobsDone := if done then e.jobsDone + 1 else e.jobsDone }
    acc.setEng k e1.settle) d

/-- JOB_END (R107): the `i`-th problem in flight on engine `k` ends after `cycles` CK_SOL cycles. -/
def execJobEnd (k : Fin 16) (i cycles : Nat) (s : State) : Host.Outcome State Fault Refusal :=
  .next (
    let d := s.dev
    match ((d.eng k.val).flight)[i]? with
    | none => s
    | some j =>
      if d.engState k.val = .halted ∨ d.engState k.val = .off then s
      else
        let d1 := d.unflight j true
        if j.host.isSome then
          let (j1, r) := d1.runHost j
          { s with dev := (d1.countRun j.engine j1 r).endHost j1 r cycles }
        else
          let r := if j.kind = 6 then d1.runQp j else j.runNet
          { s with dev := (d1.countRun j.engine j r).endCtl j r cycles })

/-! Host jobs. -/

/-- The unit of the job opcodes: 0x20, instance 0. -/
def onJobs (p : Packet) : Bool := onUnit 0x20 p

/-- The descriptor a packet carries (Table 06-2), its defaults resolved (R126). -/
def jobOf (d : Dev) (q : QPacket) : Job :=
  let fp64 := decide (q.f 0 9 8 = 1)
  let f := if fp64 then b64 else b32
  let c := if fp64 then d.solver.cfg.p64 else d.solver.cfg.p32
  let pe := BitVec.ofNat 8 (q.f 0 31 24)
  { kind := BitVec.ofNat 8 (q.f 0 7 0), fp64 := fp64
    flags := { useFactor := q.b 1 1, noWarm := q.b 1 2, notify := q.b 1 3 }
    sub := (q.par 2).toNat, sig := q.par 3, n := q.f 4 16 0, m := q.f 5 16 0, iterCap := if q.f 4 29 17 = 0 then c.iterCap else q.f 4 29 17
    matH := q.par 6, vecH := q.par 7, solH := q.par 8, warmH := q.par 9, factH := q.par 10
    epsAbs := pick f (q.par 11) c.epsAbs, epsRel := pick f (q.par 12) c.epsRel, rho := pick f (q.par 13) c.rho, regDelta := pick f (q.par 14) c.regDelta
    pivEps := pivInt (if pe = 0 then c.pivEps else pe), engine := fld (q.par 6) 30 27 }

/-- REG_DELTA of a descriptor: 0.0, or positive, at most 1.0 and normal in the job's precision. -/
def regDeltaOk (f : Fmt) (w : Word) : Bool := w.toNat % 2 ^ 31 = 0 || (fpPos w && le32 w 0x3F800000 && decide (2 ^ f.mb ≤ f.mag (conv b32 f w.toNat)))

/-- 0.0, or finite and positive. -/
def zeroOrPos (w : Word) : Bool := w.toNat % 2 ^ 31 = 0 || fpPos w

/-- Formats that a kind's MAT may have (Table 06-1). -/
def matFormats (kind : Nat) : List Nat :=
  match kind with
  | 1 | 3 => [1, 4]
  | 2 => [1, 2, 4]
  | 4 => [2]
  | 5 => [3]
  | _ => [4]

/-- Length of the vector objects of a job: VEC, then SOL and WARM. -/
def Job.vecLens (j : Job) : Nat × Nat := if j.kind = 6 then (3 * j.n + j.m, 2 * j.n + j.m) else (j.n, j.n)

/-- The handles fit the kind (R129, fifth check). -/
def Dev.jobFits (d : Dev) (q : QPacket) (j : Job) : Bool :=
  let k := j.kind.toNat
  let obj (h : Word) : Option MemObj := d.obj h
  let host (o : MemObj) : Bool := !o.ctl && decide (o.fp64 = j.fp64) && decide (Bits.fld o.handle 30 27 = j.engine)
  let vec (h : Word) (n : Nat) : Bool := match obj h with
    | some o => host o && o.format = 0 && decide (o.n = n) && (k ≠ 5 || decide (o.gangLog2 = ((obj j.matH).map (fun m => m.gangLog2)).getD 0))
    | none => false
  let dim := if k = 6 then j.n + j.m else j.n
  let mat := match obj j.matH with
    | some o => host o && decide (o.format.toNat ∈ matFormats k) && decide (o.n = dim) && (k ≠ 6 || decide (o.npos = j.n)) &&
        (q.f 0 23 16 = 0xFF || decide (q.f 0 23 16 / 2 ^ o.gangLog2 * 2 ^ o.gangLog2 = j.engine))
    | none => false
  let fact : Bool := if k ≠ 6 then decide (j.factH = 0) else match obj j.factH, obj j.matH with
    | some o, some m => host o && o.format = 4 && decide (o.n = m.n ∧ o.npos = m.npos ∧ o.nnz = m.nnz) && (!j.flags.useFactor || o.state = .factored)
    | _, _ => false
  let (lv, ls) := j.vecLens
  mat && fact && (k = 6 || decide (j.m = 0)) &&
    (if k = 1 then j.vecH = 0 && j.solH = 0 && j.warmH = 0 else vec j.vecH lv && vec j.solH ls) &&
    (if k = 2 then j.warmH = 0 else j.warmH = 0 || vec j.warmH ls)

/-- The objects that a job writes. -/
def Job.writes (j : Job) : List Word :=
  (if j.kind = 1 ∨ j.kind = 3 ∨ j.kind = 4 then [j.matH] else []) ++ (if j.kind = 1 then [] else [j.solH]) ++
    (if j.kind = 6 ∧ !j.flags.useFactor then [j.factH] else [])

/-- V of Table 05-6. -/
def vectorsOf (kind : Nat) : Nat :=
  match kind with
  | 1 => 0
  | 5 | 7 => 8
  | 6 => 12
  | _ => 2

/-- The job with its gang size and footprint (Table 05-6). -/
def Dev.sized (d : Dev) (j : Job) : Job :=
  let g := ((d.obj j.matH).map (fun o => o.gangLog2)).getD 0
  let n := if j.kind = 6 then j.n + j.m else j.n
  { j with gangLog2 := g, workBytes := g64 (64 + vectorsOf j.kind.toNat * ceilDiv n (2 ^ g) * j.w) }

/-- R125 for a host job. -/
def Dev.jobRoom (d : Dev) (j : Job) : Bool :=
  decide (j.workBytes ≤ d.workBytes) &&
    (j.kind ≠ 5 || decide (pcgMember j.n (((d.obj j.matH).map (fun o => o.nnz)).getD 0) 16 j.w ≤ d.workBytes))

/-- The parameter checks of JOB_SUBMIT (R129), in order. -/
def jobChecks (s : State) (q : QPacket) : List (Bool × Nat × Nat) :=
  let d := s.dev
  let j := d.sized (jobOf d q)
  let k := q.f 0 7 0
  [encIf (decide (k = 0 ∨ 7 < k)) 0, conflictIf (decide (k = 7)) 0,
      encIf (decide (1 < q.f 0 9 8 ∨ q.f 0 15 10 ≠ 0 ∨ (15 < q.f 0 23 16 ∧ q.f 0 23 16 ≠ 0xFF))) 0, encIf (q.resv 1 0xE) 1, encIf (q.resv 4 0x3FFFFFFF) 4,
      encIf (q.resv 5 0x1FFFF) 5, encIf (decide (q.par 15 ≠ 0)) 15,
      rangeIf (decide (4096 < q.f 4 29 17)) 4, rangeIf (!zeroOrPos (q.par 11)) 11, rangeIf (!zeroOrPos (q.par 12)) 12, rangeIf (!zeroOrPos (q.par 13)) 13,
      rangeIf (!regDeltaOk j.fmt (q.par 14)) 14, rangeIf (!pivOk (BitVec.ofNat 8 (q.f 0 31 24))) 0,
      (j.handles.any (fun h => (d.obj h).isNone), stBadHandle, 10), conflictIf (!d.jobFits q j) 6,
      (j.writes.any (fun h => decide (0 < ((d.obj h).map (fun o => o.inUse)).getD 0)), stBusy, 10),
      (decide (64 ≤ d.jobs.table.length), stBusy, 0), (!d.jobRoom j, stNoMemory, 8)]

/-- JOB_SUBMIT (R129). -/
def opJobSubmit : Op where
  code := 0x0401
  target := onJobs
  die := true
  params := 16
  body s q :=
    let d := s.dev
    let j := d.sized (jobOf d q)
    guarded s (jobChecks s q)
      (if !((members j.engine j.gangLog2).all (fun x => decide (0 < d.freeCredits x))) then { st := s, waits := true }
       else
         let cnt := (d.jobs.hostCount + 1) % 32768
         let num := cnt + 32768 * d.runDie
         let j1 : Job := { j with host := some num }
         let d1 := (d.holdObjs j1 true).place j1.engine j1
         { st := { s with dev := { d1 with jobs := { d1.jobs with hostCount := cnt, table := d1.jobs.table ++ [{ num := num }] } } }, words := [w32 num] })

/-- JOB_SUBMIT. -/
def execJobSubmit (p : Packet) (s : State) : Host.Outcome State Fault Refusal := .next (packetRow opJobSubmit p s)

/-- JOB_RESULT (R130). -/
def opJobResult : Op where
  code := 0x0402
  target := onJobs
  die := true
  params := 1
  body s q :=
    let d := s.dev
    match d.jobs.table.find? (fun x => x.num = q.f 0 15 0) with
    | none => guarded s [encIf (q.resv 0 0x1FFFF) 0] (.err s stBadHandle 4)
    | some x =>
      guarded s [encIf (q.resv 0 0x1FFFF) 0]
        (match x.result with
         | none => { st := s, status := stOkPending }
         | some r =>
           let d1 : Dev := if q.b 0 16 then { d with jobs := { d.jobs with table := d.jobs.table.filter (fun y => y.num ≠ x.num) } } else d
           { st := { s with dev := d1 }, words := r.words })

/-- JOB_RESULT. -/
def execJobResult (p : Packet) (s : State) : Host.Outcome State Fault Refusal := .next (packetRow opJobResult p s)

/-- Cancels a host job (R130): a queued one leaves its queue, one in flight stops; the iterations done are a free value. -/
def Dev.cancelJob (d : Dev) (num : Nat) : Dev :=
  let mine (j : Job) : Bool := j.host = some num
  match (List.range 16).findSome? (fun k => (d.eng k).queue.find? mine) with
  | some j =>
    let d1 := (members j.engine j.gangLog2).foldl (fun acc k =>
      let e := acc.eng k
      let e1 : Engine := { e with queue := e.queue.filter (fun x => !mine x) }
      (acc.setEng k e1.settle).mon 0x10 k e1.queue.length) d
    d1.endHostWith j { status := .cancelled, flags := j.flags, solH := j.solH, factH := if j.kind = 6 then j.factH else 0 }
  | none =>
    match (List.range 16).findSome? (fun k => (d.eng k).flight.find? mine) with
    | none => d
    | some j =>
      let d1 := d.unflight j true
      let hs := if j.kind = 1 ∨ j.kind = 3 ∨ j.kind = 4 then [j.matH] else if j.kind = 6 ∧ !j.flags.useFactor then [j.factH] else []
      let d2 := hs.foldl (fun acc h => match acc.obj h with
        | some o => acc.setObj { o with state := .failed }
        | none => acc) d1
      let (it, d3) := if j.kind = 5 ∨ j.kind = 6 then d2.freeN (j.iterCap + 1) else (0, d2)
      d3.endHostWith j { status := .cancelled, flags := j.flags, iterations := it, solH := j.solH, factH := if j.kind = 6 then j.factH else 0 }

/-- JOB_CANCEL (R130). -/
def opJobCancel : Op where
  code := 0x0403
  target := onJobs
  die := true
  params := 1
  body s q :=
    let d := s.dev
    match d.jobs.table.find? (fun x => x.num = q.f 0 15 0) with
    | none => guarded s [encIf (q.resv 0 0xFFFF) 0] (.err s stBadHandle 4)
    | some x =>
      guarded s [encIf (q.resv 0 0xFFFF) 0]
        (if x.result.isSome then { st := s, status := stOkNoChange } else .ok s (d.cancelJob x.num))

/-- JOB_CANCEL. -/
def execJobCancel (p : Packet) (s : State) : Host.Outcome State Fault Refusal := .next (packetRow opJobCancel p s)

end Sys2Proof.Machine
end

