-- ==== Sys2Proof/Machine/Coord.lean ====
section
/-! DEFINITION. The coordinator (chapter 07): the consensus step (R143 to R147), rounds, waits and commit (R148 to R151), late, lost and islanded
devices (R154 to R157), the frame outputs and solver PUBLISH (R140, R141), COORD_CONFIG and COORD_STATUS. -/

namespace Sys2Proof.Machine

open Sys2Proof.Bits Sys2Proof.Float

/-- Changes the coordinator. -/
def Dev.setCoord (d : Dev) (c : Coord) : Dev := { d with coord := c }
/-- Changes one DOWN port as the coordinator sees it. -/
def Dev.setPort (d : Dev) (p : Nat) (x : DownPort) : Dev := d.setCoord { d.coord with ports := d.coord.ports.wr p x }
/-- An event of the coordinator. -/
def Dev.coordEvent (d : Dev) (num : Nat) (sev : Severity) (data : Nat) : Dev := d.raiseCtl num 0x2200 sev data
/-- Data of the worker events: port and worker address. -/
def Dev.workerData (d : Dev) (p : Nat) : Nat := p + 256 * d.childAddr p

/-! Messages. -/

/-- COORD_UP as words (Table 07-5). -/
def UpMsg.words (m : UpMsg) : List Word :=
  [w32 m.frame, pack [(m.round, 0), (m.sender.toNat, 16)], w32 m.entries.length, m.rp, m.rd, m.sp, m.sd, 0] ++
    m.entries.flatMap (fun e => [pack [(e.id, 0), (e.h, 16)], w32 e.stepS, e.w] ++ e.sums)

/-- COORD_DOWN as words (Table 07-6). -/
def DownMsg.words (m : DownMsg) : List Word :=
  [w32 m.frame, pack [(m.round, 0), (b1 m.commit, 16), (b1 m.deadline, 17), (b1 m.frozen, 18)], w32 m.sNext, pack [(m.cap, 0), (m.waitUs, 16)],
   pack [(m.wait0Ms, 0), (m.freezeFrames, 16)], w32 m.entries.length] ++
    m.entries.flatMap (fun e => [pack [(e.id, 0), (e.h, 16), (b1 e.frozen, 24)]] ++ e.mu ++ e.y)

/-- The instant nearest to now with these low 32 bits. -/
def near32 (now ns : Nat) : Nat :=
  let c := now - now % 2 ^ 32 + ns % 2 ^ 32
  if c + 2 ^ 31 < now then c + 2 ^ 32 else if now + 2 ^ 31 < c then c - 2 ^ 32 else c

/-! Participants. -/

/-- The local copies of an ID: subproblem, its output record and the copy's place within a step, ascending subproblem. -/
def Dev.copiesOf (d : Dev) (c : Nat) : List (Nat × SubOut × Nat) :=
  d.jobs.outs.filterMap (fun x => if x.2.failed then none else (x.2.job.couple.find? (fun y => y.1 = c)).map (fun y => (x.1, x.2, y.2)))

/-- The IDs of local copies, ascending. -/
def Dev.localIds (d : Dev) : List Nat :=
  (d.jobs.outs.filter (fun x => !x.2.failed)).foldl (fun acc x => x.2.job.couple.foldl (fun a c => insNat c.1 a) acc) []

/-- The report that port `p` contributes to the running round, and whether it is a frozen one (R154, R155). -/
def Dev.contribution (d : Dev) (p : Nat) : Option (UpMsg × Bool) :=
  let x := d.coord.ports.rd p
  match x.cur with
  | some m => some (m, false)
  | none => if x.dropped then none else x.last.map (fun m => (m, true))

/-- The entry of an ID in a report. -/
def UpMsg.entry (m : UpMsg) (c : Nat) : Option UpEntry := m.entries.find? (fun e => e.id = c)

/-- The IDs held here: of local copies and of the reports that contribute, ascending (R144). -/
def Dev.heldIds (d : Dev) : List Nat :=
  (d.portOf .down).foldl (fun acc p => match d.contribution p with
    | some (m, _) => m.entries.foldl (fun a e => insNat e.id a) acc
    | none => acc) d.localIds

/-- The ID has UP scope in this frame (R144): on the top manager, and where the UP link never came up, every ID is LOCAL. -/
def Dev.scopeUp (d : Dev) (c : Nat) : Bool := d.coord.cfg.upScope.rd c && (!d.coord.asTop || d.coord.islanded)

/-- H and STEP_S of an ID here: of its local copies, else of the lowest port whose report names it (R143). -/
def Dev.shapeOf (d : Dev) (c : Nat) : Option (Nat × Nat) :=
  match d.copiesOf c with
  | (_, o, _) :: _ => some (o.job.horizon, o.job.stepS)
  | [] => (d.portOf .down).findSome? (fun p => (d.contribution p).bind (fun m => (m.1.entry c).map (fun e => (e.h, e.stepS))))

/-- The ID's local participants differ in H or STEP_S (R143). -/
def Model.mismatched (m : Model) (c : Nat) : Bool :=
  let ps := (m.enabled.map m.plan).filter (fun p => p.ids.contains c)
  match ps with
  | [] => false
  | p :: _ => ps.any (fun q => decide (q.h ≠ p.h ∨ q.sub.stepS ≠ p.sub.stepS))

/-- At model activation the coordinator checks its own participants (R143). -/
def Dev.checkIds (d : Dev) : Dev :=
  match d.piste.active with
  | none => d
  | some m =>
    m.allIds.foldl (fun acc c =>
      let bad := m.mismatched c
      let acc1 := acc.setCoord { acc.coord with couples := acc.coord.couples.upd c (fun x => { x with excluded := bad }) }
      acc1.raiseIf bad ((3 + acc.runDie) * 256 + 0x57) 0x2200 .warn (c + 2 ^ 16 * 0xFF)) d

/-! Arithmetic: FP64, each assignment rounded once (R145). -/

/-- w + 1/ρ. -/
def addRecip (w rho : Nat) : Nat :=
  let f := b64
  if f.finite w && f.finite rho && decide (0 < f.val rho) then f.ofQ false (f.val w * f.val rho + (2 ^ (2 * f.k) : Nat)) (f.val rho).toNat
  else f.add w (f.div (f.ofRat 1 1) rho)

/-- x − μ/ρ. -/
def subQuot (x mu rho : Nat) : Nat :=
  let f := b64
  if f.finite x && f.finite mu && f.finite rho && decide (0 < f.val rho) then
    f.ofQ false (f.val x * f.val rho - f.val mu * (2 ^ f.k : Nat)) (f.val rho).toNat
  else f.sub x (f.div mu rho)

/-- ρ·|x − x'|. -/
def rhoDiff (rho x x' : Nat) : Nat :=
  let f := b64
  if f.finite x && f.finite x' && f.finite rho then f.ofQ false (f.val rho * (f.val x - f.val x').natAbs) (2 ^ f.k)
  else f.mul rho (f.abs (f.sub x x'))

/-- The larger of a FP64 maximum and the absolute value of `v`. -/
def maxAbs (a v : Nat) : Nat := b64.max a (b64.abs v)

/-- A value widened from binary32. -/
def wide (w : Word) : Nat := conv b32 b64 w.toNat
/-- A value rounded to binary32. -/
def narrow (v : Nat) : Word := w32 (conv b64 b32 v)
/-- +0. -/
def zero64 : Nat := b64.ofRat 0 1

/-- The value of a copy at step `t` in the newest output of its subproblem, FP64. -/
def SubOut.x (o : SubOut) (place t : Nat) : Nat :=
  match o.res with
  | some r => conv o.job.fmt b64 (r.out.z.getD (t * o.job.per + place) 0)
  | none => zero64

/-- ρ of a subproblem, FP64. -/
def Job.rho64 (j : Job) : Nat := conv j.fmt b64 j.coupleRho

/-- The aggregate of one ID. -/
structure Agg where
  /-- H. -/
  h : Nat
  /-- STEP_S. -/
  stepS : Nat
  /-- S at each step. -/
  s : List Nat
  /-- W. -/
  w : Nat
  /-- A frozen contribution was used. -/
  frozen : Bool

/-- A report's sums shifted into the running frame (R146). -/
def UpEntry.shift (e : UpEntry) (tN ref : Nat) : List Word := shiftVec e.h (min (shiftSteps tN ref (max e.stepS 1)) (e.h - 1)) e.sums

/-- The aggregate of ID `c` over local copies and counted or frozen reports (R145). -/
def Dev.aggregate (d : Dev) (c : Nat) : Option Agg :=
  match d.shapeOf c with
  | none => none
  | some (h, stepS) =>
    let f := b64
    let a0 : Agg := { h := h, stepS := stepS, s := List.replicate h zero64, w := zero64, frozen := false }
    let a1 := (d.copiesOf c).foldl (fun (a : Agg) x =>
      { a with s := a.s.zipIdx.map (fun v => f.add v.1 (x.2.1.x x.2.2 v.2)), w := addRecip a.w x.2.1.job.rho64 }) a0
    some ((d.portOf .down).foldl (fun (a : Agg) p =>
      match d.contribution p with
      | none => { a with frozen := a.frozen || ((d.coord.ports.rd p).dropped && (((d.coord.ports.rd p).last.bind (fun m => m.entry c)).isSome)) }
      | some (m, fr) => match m.entry c with
        | none => a
        | some e =>
          if e.h ≠ h ∨ e.stepS ≠ stepS then a
          else
            let sums := e.shift d.coord.tN (if fr then (d.coord.ports.rd p).ref else d.coord.tN)
            { a with s := a.s.zipIdx.map (fun v => f.add v.1 (wide (sums.getD v.2 0))), w := f.add a.w (wide e.w), frozen := a.frozen || fr }) a1)

/-- ID `c` takes part: it is not excluded (R143). -/
def Dev.takesPart (d : Dev) (c : Nat) : Bool := !(d.coord.couples.rd c).excluded

/-! The step. -/

/-- What a step forms: the new state of each LOCAL ID, the report entries of each UP ID, and the four maxima. -/
structure StepOut where
  /-- New states of LOCAL IDs. -/
  stepped : Tbl CoupleState := []
  /-- Report entries. -/
  entries : List UpEntry := []
  /-- RP_SUB. -/
  rp : Nat := 0
  /-- RD_SUB. -/
  rd : Nat := 0
  /-- SP_SUB. -/
  sp : Nat := 0
  /-- SD_SUB. -/
  sd : Nat := 0

/-- One ID of the step (R145): a LOCAL ID moves its price, a UP ID enters the report, a held ID of an islanded device stays (R156). -/
def Dev.stepId (d : Dev) (o : StepOut) (c : Nat) : StepOut :=
  match d.aggregate c with
  | none => o
  | some a =>
    let f := b64
    if d.scopeUp c then
      if d.coord.islanded then o
      else { o with entries := o.entries ++ [{ id := c, h := a.h, stepS := a.stepS, w := narrow a.w, sums := a.s.map narrow }] }
    else
      let old := d.coord.couples.rd c
      let mu := a.s.map (fun s => f.div s a.w)
      let y := mu.zipIdx.map (fun m => f.add (old.y.getD m.2 zero64) m.1)
      { o with
        stepped := o.stepped.wr c { old with y := y, mu := mu, ref := d.coord.tN, h := a.h, stepS := a.stepS, frozen := a.frozen }
        rp := a.s.foldl maxAbs o.rp
        sd := y.foldl maxAbs o.sd }

/-- The local copies of IDs that take part: subproblem, ID, place and output. -/
def Dev.allCopies (d : Dev) : List (Nat × Nat × Nat × SubOut) :=
  d.jobs.outs.flatMap (fun x => if x.2.failed then [] else (x.2.job.couple.filter (fun c => d.takesPart c.1)).map (fun c => (x.1, c.1, c.2, x.2)))

/-- The step of the running round over this subtree. -/
def Dev.formStep (d : Dev) : StepOut :=
  let f := b64
  let o1 := (d.heldIds.filter d.takesPart).foldl d.stepId {}
  let o2 := d.allCopies.foldl (fun (o : StepOut) x =>
    let prev := (d.coord.targets.rd (targetKey x.1 x.2.1)).xPrev
    (List.range x.2.2.2.job.horizon).foldl (fun (o : StepOut) t =>
      let v := x.2.2.2.x x.2.2.1 t
      { o with rd := f.max o.rd (rhoDiff x.2.2.2.job.rho64 v (prev.getD t zero64)), sp := maxAbs o.sp v }) o) o1
  (d.portOf .down).foldl (fun (o : StepOut) p => match d.contribution p with
    | none => o
    | some (m, _) => { o with rp := f.max o.rp (wide m.rp), rd := f.max o.rd (wide m.rd), sp := f.max o.sp (wide m.sp), sd := f.max o.sd (wide m.sd) }) o2

/-- Keeps the copies' values for the next step's RD (R147). -/
def Dev.keepX (d : Dev) : Dev :=
  d.allCopies.foldl (fun acc x =>
    acc.setCoord { acc.coord with targets := acc.coord.targets.upd (targetKey x.1 x.2.1)
                                    (fun t => { t with xPrev := (List.range x.2.2.2.job.horizon).map (fun k => x.2.2.2.x x.2.2.1 k) }) }) d

/-- The targets of the IDs in `ids` after their step: z = x − μ/ρ at each local copy (R145). -/
def Dev.moveTargets (d : Dev) (ids : List Nat) : Dev :=
  (d.allCopies.filter (fun x => ids.contains x.2.1)).foldl (fun acc x =>
    let mu := (acc.coord.couples.rd x.2.1).mu
    acc.setCoord { acc.coord with targets := acc.coord.targets.upd (targetKey x.1 x.2.1)
                                    (fun t => { t with z := (List.range x.2.2.2.job.horizon).map (fun k => subQuot (x.2.2.2.x x.2.2.1 k) (mu.getD k zero64) x.2.2.2.job.rho64) }) }) d

/-- The prices that the step formed take effect with their targets. -/
def Dev.closeStep (d : Dev) : Dev :=
  let st := d.coord.stepped
  let d1 := d.setCoord { d.coord with couples := st.foldl (fun t x => t.wr x.1 x.2) d.coord.couples, stepped := [] }
  d1.moveTargets (st.map (fun x => x.1))

/-! Rounds. -/

/-- Slalom's limit on the device's own GLOBAL_CAP (R223). -/
def Slalom.capGlobal (s : Slalom) (n : Nat) : Nat := if s.level = 6 then 1 else if s.level = 5 then min n s.cfg.thrGlobal else n

/-- GLOBAL_CAP in force. -/
def Dev.capNow (d : Dev) : Nat := if d.coord.asTop then d.slalom.capGlobal d.coord.cfg.cap else d.coord.treeCap

/-- The first frame that carries it is now assembled: its phase as the newest frame. -/
def Dev.phaseOf (d : Dev) (n : Nat) (p : FramePhase) : Dev := if d.frame.frameNum = n then { d with frame := { d.frame with phase := p } } else d

/-- A report counts for the running round (R151, R155): it is kept as the last one, and a dropped or lost port rejoins. -/
def Dev.countUp (d : Dev) (p : Nat) (m : UpMsg) : Dev :=
  let x := d.coord.ports.rd p
  let d1 := d.setPort p { x with cur := some m, last := some m, ref := d.coord.tN, gotInFrame := true, dropped := false, lost := false }
  let d2 := d1.raiseIf (x.dropped || x.lost) ((3 + d.runDie) * 256 + 0x54) 0x2200 .info (d.workerData p)
  m.entries.foldl (fun acc e =>
    match acc.copiesOf e.id with
    | (_, o, _) :: _ =>
      if e.h ≠ o.job.horizon ∨ e.stepS ≠ o.job.stepS then
        ((acc.setCoord { acc.coord with mismatchCnt := bump 16 acc.coord.mismatchCnt }).satAt 0x22 16 (bump 16 acc.coord.mismatchCnt)).coordEvent 0x57 .warn
          (e.id + 2 ^ 16 * m.sender.toNat)
      else acc
    | [] => acc) d2

/-- The round job of a coupled subproblem (R105, R146): the round-0 data with the new terms, the previous output as warm start. -/
def Dev.roundJob (d : Dev) (k : Nat) (o : SubOut) : Job :=
  let j := o.job
  let qp := j.kind = 6
  let reuse := qp && decide (o.factH ≠ 0)
  let fl : JobFlags := { j.flags with useFactor := reuse, retain := qp && !reuse, retainMissed := qp && !reuse }
  d.addTerms { j with round := k, flags := fl, factH := if reuse then o.factH else 0, warm := o.res.map (fun r => r.out), workBytes := o.roundBytes, stampBytes := 0 }

/-- Round `k` begins: its jobs go to the round queues, and reports that arrived early count (R105, R151). -/
def Dev.beginRound (d : Dev) (k : Nat) : Dev :=
  let js := d.jobs.outs.filterMap (fun x => if x.2.job.couple ≠ [] ∧ !x.2.failed ∧ x.2.res.isSome then some (d.roundJob k x.2) else none)
  let outs := d.jobs.outs.map (fun x => (x.1, if x.2.job.couple ≠ [] ∧ !x.2.failed ∧ x.2.res.isSome then { x.2 with busy := true } else x.2))
  let early := (List.range 4).filterMap (fun p => ((d.coord.ports.rd p).next.filter (fun m => m.round = k)).map (fun m => (p, m)))
  let ports := d.coord.ports.mapD (fun x => { x with cur := none, deadlinePassed := false, next := x.next.filter (fun m => k < m.round) })
  let d1 : Dev := { d with
    jobs := { d.jobs with outs := outs }
    coord := { d.coord with round := k, phase := .solving, ports := ports, toPlace := js, committedDown := none } }
  early.foldl (fun acc x => acc.countUp x.1 x.2) (((d1.phaseOf d.coord.frame .solve)).placeRound 4096)

/-- COORD_DOWN for port `p` (Table 07-6): one entry for each ID of the recipient's report, from `fresh` where it holds the ID. -/
def Dev.downFor (d : Dev) (p : Nat) (fresh : List DownEntry) (round : Nat) (commit deadline : Bool) (sNext : Nat) : DownMsg :=
  let x := d.coord.ports.rd p
  let ids := ((x.cur.orElse (fun _ => x.last)).map (fun m => m.entries.map (fun e => (e.id, e.h)))).getD []
  let entries := ids.filterMap (fun c =>
    match fresh.find? (fun e => e.id = c.1) with
    | some e => some e
    | none =>
      let s := d.coord.couples.rd c.1
      if s.y = [] then none else some { id := c.1, h := s.h, frozen := s.frozen, mu := s.mu.map narrow, y := s.y.map narrow })
  let c := d.coord
  let (wu, w0, fz) := if c.asTop then (c.cfg.waitUs, c.cfg.wait0Ms, c.cfg.freezeFrames) else (c.treeWaitUs, c.treeWait0Ms, c.treeFreeze)
  { frame := c.frame, round := round, commit := commit, deadline := deadline, frozen := x.late, sNext := sNext, cap := d.capNow, waitUs := wu, wait0Ms := w0
    freezeFrames := fz, entries := if deadline then [] else entries }

/-- Sends COORD_DOWN to every DOWN port whose link is up (R149). -/
def Dev.sendDown (d : Dev) (fresh : List DownEntry) (round : Nat) (commit deadline : Bool) (sNext : Nat) : Dev :=
  d.downUp.foldl (fun acc p => acc.jlSend p 4 (d.downFor p fresh round commit deadline sNext).words) d

/-! Frame outputs. -/

/-- The warm start that a job which never issued would have taken (R133, R134), with its flags. -/
def Dev.recordOf (d : Dev) (j : Job) : Option WarmRec × JobFlags :=
  let (r, older) := d.warmTake j
  match r with
  | none => (none, { j.flags with cold := true })
  | some x =>
    if (x.mismatch j).isSome then (none, { j.flags with older := older, rejected := true })
    else
      let (w, moved) := x.shift j.tN
      (some w, { j.flags with older := older, shifted := moved })

/-- The result of a subproblem that delivers its fall-back with no ended round (R139, R141). -/
def Dev.unsolved (d : Dev) (o : SubOut) (status : JobStatus) (deadline : Bool) : JobResult :=
  let (w, fl) : Option WarmRec × JobFlags := if o.job.warm.isSome then (o.job.warm, o.job.flags) else d.recordOf o.job
  let (out, none') := o.job.fallback none w
  { status := status, flags := { fl with noAccepted := none', deadline := deadline }, out := { out with status := status } }

/-- The frame output of a subproblem (R141). -/
def Dev.frameOut (d : Dev) (o : SubOut) (deadline : Bool) : JobResult :=
  if o.failed then d.unsolved o .notSolved deadline
  else match o.res with
    | some r => { r with flags := { r.flags with deadline := deadline } }
    | none => d.unsolved o .abandoned deadline

/-- QUALITY of the points of an output (R140, R157). -/
def Dev.outQuality (d : Dev) (o : SubOut) (r : JobResult) : Nat :=
  let base := if r.status = .converged then 0 else if r.flags.noAccepted then 0x80 else 0x42
  let late := if o.job.couple.any (fun c => (d.coord.couples.rd c.1).frozen) then 0x43 else 0
  let isl := if d.coord.islanded ∧ o.job.couple.any (fun c => d.coord.cfg.upScope.rd c.1) then 0x44 else 0
  max base (max late isl)

/-- Solver PUBLISH of one subproblem (R140): the points and entries that Config.publishMap names. -/
def Dev.publish (d : Dev) (s : Nat) (o : SubOut) (r : JobResult) : Dev :=
  let q := BitVec.ofNat 8 (d.outQuality o r)
  let src := BitVec.ofNat 8 (0x70 + d.runDie)
  (Config.publishMap s).foldl (fun acc x =>
    match r.out.z[x.2]? with
    | none => acc
    | some v => acc.writePoint { id := x.1 % 2 ^ 20, value := w32 (conv o.job.fmt b32 v), time := w32 d.coord.tN, frameTag := some (BitVec.ofNat 16 d.coord.frame),
                                 quality := q, source := src }) d

/-- Data of CTL_JOB_FALLBACK. -/
def outData (s : Nat) (r : JobResult) : Nat := s + 2 ^ 32 * r.status.num + 2 ^ 48 * r.flags.result

/-- Events and PUBLISH of one frame output. -/
def Dev.deliverOut (d : Dev) (s : Nat) (o : SubOut) (r : JobResult) : Dev :=
  let infeasible := r.status = .infeasPrimal || r.status = .infeasDual
  let fall := r.status ≠ .converged && !infeasible
  ((d.raiseIf fall ((3 + d.runDie) * 256 + 0x41) 0x2200 .warn (outData s r)).raiseIf infeasible ((3 + d.runDie) * 256 + 0x42) 0x2200 .warn (outData s r)).publish s o r

/-- The outcome counts of a committed frame (Table 06-9). -/
def Jobs.counts (j : Jobs) (n : Nat) (rs : List (SubOut × JobResult)) : Jobs :=
  let cnt (f : SubOut × JobResult → Bool) : Nat := (rs.filter f).length
  { j with
    fConverged := cnt (fun x => x.2.status = .converged)
    fInfeasible := cnt (fun x => x.2.status = .infeasPrimal || x.2.status = .infeasDual)
    fFallback := cnt (fun x => !(x.2.status = .converged || x.2.status = .infeasPrimal || x.2.status = .infeasDual))
    fRejected := cnt (fun x => x.1.job.flags.rejected)
    fNoAccepted := cnt (fun x => x.2.flags.noAccepted)
    fShifted := cnt (fun x => x.1.job.flags.shifted)
    countsFrame := n }

/-- Removes the jobs of frame `n` from queues and flight (R141, R142). -/
def Dev.abandon (d : Dev) (n : Nat) : Dev :=
  let keep (j : Job) : Bool := j.host.isSome || decide (j.frame ≠ n)
  let d1 := (List.range 16).foldl (fun acc k =>
    let e := acc.eng k
    let e1 : Engine := { e with queue := e.queue.filter keep, round := e.round.filter keep, flight := e.flight.filter keep, gangWait := false }
    ((acc.setEng k e1.settle).mon 0x10 k e1.queue.length).mon 0x12 k e1.round.length) d
  let p := d1.piste
  { d1 with piste := { p with held0 := p.held0.filter keep, held1 := p.held1.filter keep }, coord := { d1.coord with toPlace := d1.coord.toPlace.filter keep } }

/-- The assembly of frame `n` ends where it stands: subproblems not stamped have no job (R141). -/
def Dev.cutAssembly (d : Dev) (n : Nat) : Dev :=
  let p := d.piste
  if p.asmFrame ≠ n ∨ (p.cursor = none ∧ p.held0 = none ∧ p.held1 = none) then d
  else
    let m := p.active.getD {}
    let left := match p.cursor with
      | some c => m.enabled.filter (fun s => c ≤ s)
      | none => []
    let d1 := left.foldl (fun acc s =>
      let pl := m.plan s
      acc.setOut n s { job := { kind := pl.sub.jobKind, fp64 := decide (pl.sub.precision = 1), frame := n, sub := s, sig := p.sigs.rd s, n := pl.n, m := pl.m
                                horizon := pl.h, stepS := pl.sub.stepS, tN := d.coord.tN } }) d
    (d1.setPiste { d1.piste with cursor := none, held0 := none, held1 := none }).endAssembly

/-- Lane utilisation over the frame, a free value of each engine's timing (Table 05-17). -/
def Dev.drawUtil (d : Dev) : Dev :=
  (List.range 16).foldl (fun acc k =>
    let (u, acc1) := acc.freeN 101
    acc1.setEng k { acc1.eng k with util := u }) d

/-- Retained factorisations of the frames before `n` are freed (R109). -/
def Dev.freeRetained (d : Dev) (n : Nat) : Dev :=
  (List.range 16).foldl (fun acc k =>
    let e := acc.eng k
    acc.setEng k { e with objs := e.objs.filter (fun o => !o.retained || decide (n ≤ o.madeIn)) }) d

/-- D_N (R29): T of the next frame and a quarter of the lesser of the two lengths. -/
def FrameCtl.deadlineOf (f : FrameCtl) (n : Nat) : Nat := f.tOf (n + 1) + min (f.lenOf n) (f.lenOf (n + 1)) * 2500000

/-- Prices and targets shifted into the frame that begins at `tN` (R146). -/
def Dev.shiftCoord (d : Dev) (tN : Nat) : Dev :=
  let c := d.coord
  let steps (x : CoupleState) : Nat := shiftSteps tN x.ref (max x.stepS 1)
  let couples := c.couples.map (fun x => (x.1, { x.2 with y := shiftVec x.2.h (min (steps x.2) (x.2.h - 1)) x.2.y, ref := x.2.ref + steps x.2 * x.2.stepS * 1000000000 }))
  let targets := c.targets.map (fun x =>
    let s := c.couples.rd (x.1 % 65536)
    (x.1, { x.2 with z := shiftVec s.h (min (steps s) (s.h - 1)) x.2.z }))
  d.setCoord { c with couples := couples, targets := targets }

/-- Frame `n` enters coordination with the outputs its assembly fills (R144, R146, R148). -/
def Dev.startCoord (d : Dev) (n tN dN : Nat) (outs : Tbl SubOut) : Dev :=
  let up := match d.upPort with
    | some p => (d.jalow.port.rd p).link = .up
    | none => false
  let d0 := d.shiftCoord tN
  let c := d0.coord
  { d0 with
    jobs := { d0.jobs with outs := outs, nextOuts := [] }
    coord := { c with
      phase := .solving, frame := n, round := 0, tN := tN, dN := dN, roundStart := max tN c.roundStart, asTop := !up || c.islanded, committed := false
      committedDown := none, toPlace := [], stepped := [], ports := c.ports.mapD (fun x => { x with cur := none, next := none, deadlinePassed := false, gotInFrame := false }) } }

/-- The frame in coordination commits (R149, R150): its outputs are fixed and published, the counts taken, earlier factorisations freed, the
frame assembled ahead takes its place. -/
def Dev.commitFrame (d : Dev) (deadline : Bool) (steps instant : Nat) : Dev :=
  let n := d.coord.frame
  let d0 := if deadline then (d.cutAssembly n).abandon n else d
  let rs := d0.jobs.outs.map (fun x => (x.1, x.2, d0.frameOut x.2 deadline))
  let d1 := rs.foldl (fun acc x => acc.deliverOut x.1 x.2.1 x.2.2) d0
  let recs : Tbl WarmRec := rs.map (fun x => (x.1, { x.2.2.out with status := x.2.2.status }))
  let next := d1.frame.tOf (n + 1)
  let lag := if d1.now < next then -(((next - d1.now) / 1000 : Nat) : Int) else ((d1.now - next) / 1000 : Nat)
  let f := d1.frame
  let c := d1.coord
  let ports := (d1.portOf .down).foldl (fun (t : Tbl DownPort) p => t.upd p (fun x => { x with missed := if x.gotInFrame then 0 else satN 8 (x.missed + 1) })) c.ports
  let d2 : Dev := { d1 with
    jobs := { d1.jobs.counts n (rs.map (fun x => (x.2.1, x.2.2))) with toCkpt := d1.jobs.toCkpt ++ [(n, recs)] }
    frame := { f with globalIter := satN 16 steps, commitLagUs := BitVec.ofInt 32 lag, olderCnt := f.olderRun, olderRun := 0, committedFrame := n
                      deadlineCnt := if deadline then bump 16 f.deadlineCnt else f.deadlineCnt }
    coord := { c with committed := true, phase := .committed, stepped := [], roundStart := instant, ports := ports, toPlace := []
                      islandFrames := if c.islanded then c.islandFrames + 1 else c.islandFrames
                      islandRun := if c.islanded then c.islandRun + 1 else c.islandRun } }
  let d3 := (((d2.phaseOf n .checkpoint).raiseIf deadline ((3 + d.runDie) * 256 + 0x01) d.ctlSource .warn (n + 2 ^ 32 * satN 16 steps)).freeRetained n).drawUtil
  if n < d3.frame.genCommitted then
    d3.startCoord d3.frame.genCommitted d3.frame.tN (d3.frame.deadlineOf d3.frame.genCommitted) d3.jobs.nextOuts
  else d3

/-! Decisions. -/

/-- The test of R147. -/
def Coord.test (c : Coord) : Bool :=
  let f := b64
  let within (r s : Word) : Bool := f.le (wide r) (f.add (wide c.cfg.epsAbs) (f.mul (wide c.cfg.epsRel) (wide s)))
  within c.rp c.sp && within c.rd c.sd

/-- The tree holds no copy at all. -/
def Dev.noCopies (d : Dev) : Bool :=
  d.allCopies.isEmpty && (d.portOf .down).all (fun p => match d.contribution p with
    | some (m, _) => m.entries.isEmpty && b32.isZero m.sp.toNat
    | none => true)

/-- The decision that ends a step of the top manager or of an islanded device (R149): commit or continue. -/
def Dev.decide' (d : Dev) : Dev :=
  let k := d.coord.round
  let pass := if d.noCopies then true else decide (1 ≤ k) && d.coord.test
  let capped := !pass && decide (d.capNow ≤ k + 1)
  if pass || capped then
    let d1 := if capped then
        ((d.setCoord { d.coord with capCnt := bump 16 d.coord.capCnt }).satAt 0x22 16 (bump 16 d.coord.capCnt)).coordEvent 0x50 .warn
          (d.coord.rp.toNat + 2 ^ 32 * d.coord.rd.toNat)
      else d
    (d1.sendDown [] k true false d1.now).commitFrame false (k + 1) d1.now
  else
    let d1 := d.sendDown [] k false false d.now
    (d1.setCoord { d1.coord with roundStart := d.now }).beginRound (k + 1)

/-- Applies a COORD_DOWN (R145, R149): prices and steps of UP IDs, the step's own LOCAL prices, the tree's values, and the decision. -/
def Dev.applyDown (d : Dev) (m : DownMsg) : Dev :=
  let c := d.coord
  let couples := m.entries.foldl (fun (t : Tbl CoupleState) e =>
    t.upd e.id (fun x => { x with y := e.y.map wide, mu := e.mu.map wide, ref := c.tN, h := e.h, frozen := e.frozen || x.frozen
                                  stepS := ((d.shapeOf e.id).map (fun s => s.2)).getD x.stepS })) (c.couples.mapD (fun x => { x with frozen := false }))
  let d1 := (d.setCoord { c with couples := couples, treeCap := m.cap, treeWaitUs := m.waitUs, treeWait0Ms := m.wait0Ms, treeFreeze := m.freezeFrames
                                 committedDown := none }).moveTargets (m.entries.map (fun e => e.id))
  let late := (d1.portOf .down).filter (fun p => (d1.coord.ports.rd p).late || (d1.coord.ports.rd p).dropped)
  let mark := late.foldl (fun (t : Tbl CoupleState) p => ((((d1.coord.ports.rd p).last).map (fun u => u.entries)).getD []).foldl
    (fun t e => if t.any (fun x => x.1 = e.id) then t.upd e.id (fun x => { x with frozen := true }) else t) t) d1.coord.couples
  let d2 := (d1.setCoord { d1.coord with couples := mark }).closeStep
  let s := near32 d.now m.sNext
  if m.commit then d2.commitFrame false (m.round + 1) s
  else (d2.setCoord { d2.coord with roundStart := s }).beginRound (m.round + 1)

/-- The device's SOLVE round has ended (R148). -/
def Dev.roundEnded (d : Dev) : Bool :=
  d.jobs.outs.all (fun x => !x.2.busy) && d.coord.toPlace.isEmpty &&
    (decide (d.piste.asmFrame ≠ d.coord.frame) || (d.piste.cursor.isNone && d.piste.held0.isNone && d.piste.held1.isNone && decide (d.coord.frame ≤ d.frame.genCommitted)))

/-- Port `p` has reported for the running round or passed its deadline. -/
def Dev.portReady (d : Dev) (p : Nat) : Bool := (d.coord.ports.rd p).cur.isSome || (d.coord.ports.rd p).deadlinePassed

/-- The device waits for nothing more before its step. -/
def Dev.stepReady (d : Dev) : Bool :=
  d.ctlUp && !d.coord.committed && decide (d.coord.phase = .solving) && d.roundEnded && (d.portOf .down).all d.portReady && decide (d.now < d.coord.dN)

/-- Entries of counted reports that differ in H or STEP_S from the ID's shape here, where no local copy decides (R143). -/
def Dev.portMismatches (d : Dev) : List (Nat × Nat) :=
  (d.portOf .down).flatMap (fun p => match d.contribution p with
    | some (m, false) => m.entries.filterMap (fun e =>
        if (d.copiesOf e.id).isEmpty ∧ d.shapeOf e.id ≠ some (e.h, e.stepS) then some (e.id, m.sender.toNat) else none)
    | _ => [])

/-- COORD_STEP (R145). -/
def Dev.coordStep (d : Dev) : Dev :=
  let o := d.formStep
  let k := d.coord.round
  let d0 := d.portMismatches.foldl (fun acc x =>
    ((acc.setCoord { acc.coord with mismatchCnt := bump 16 acc.coord.mismatchCnt }).satAt 0x22 16 (bump 16 acc.coord.mismatchCnt)).coordEvent 0x57 .warn
      (x.1 + 2 ^ 16 * x.2)) d
  let (ns, d1) := (d0.keepX).freeN (2 ^ 32)
  let inf : Word := 0x7F800000
  let rdw := if k = 0 then inf else narrow o.rd
  let maxima := [narrow o.rp, rdw, narrow o.sp, narrow o.sd]
  let ports := (d.portOf .down).foldl (fun (t : Tbl DownPort) p => t.upd p (fun x => { x with late := x.cur.isNone && !x.dropped })) d1.coord.ports
  let d2 := (d1.setCoord { d1.coord with
    stepNs := ns, rp := narrow o.rp, rd := rdw, sp := narrow o.sp, sd := narrow o.sd, subMax := maxima, stepped := o.stepped, ports := ports }).phaseOf d.coord.frame .coordinate
  if d2.coord.asTop then d2.closeStep.decide'
  else
    let msg : UpMsg := { frame := d2.coord.frame, round := k, sender := d2.jalow.ownAddr, rp := narrow o.rp, rd := rdw, sp := narrow o.sp, sd := narrow o.sd, entries := o.entries }
    let d3 := match d2.upPort with
      | some p => d2.jlSend p 3 msg.words
      | none => d2
    match d3.coord.committedDown with
    | some m => d3.applyDown m
    | none => d3.setCoord { d3.coord with phase := .waitDown }

/-- COORD_STEP: nothing happens before the round has ended and every DOWN port has reported or passed its deadline, or from D_N on (R151). -/
def execCoordStep (s : State) : Host.Outcome State Fault Refusal :=
  .next (if s.dev.stepReady then { s with dev := s.dev.coordStep } else s)

/-- The report deadline of the running round (R148). -/
def Dev.reportDeadline (d : Dev) : Nat :=
  let c := d.coord
  let lvl := if d.jalow.ownAddr = 0xFF then 0 else d.jalow.ownAddr.toNat % 4
  let wait := if c.round = 0 then (if c.asTop then c.cfg.wait0Ms else c.treeWait0Ms) * 1000000 else (if c.asTop then c.cfg.waitUs else c.treeWaitUs) * 1000
  c.roundStart + wait - 50000 * lvl

/-- A late port is counted and raises CTL_WORKER_LATE; a dropped one is no longer late (R154). -/
def Dev.latePort (d : Dev) (p : Nat) : Dev :=
  let x := d.coord.ports.rd p
  if d.portReady p then d
  else
    let d1 := d.setPort p { x with deadlinePassed := true }
    if x.dropped then d1
    else ((d1.setCoord { d1.coord with lateCnt := bump 16 d1.coord.lateCnt }).satAt 0x22 16 (bump 16 d1.coord.lateCnt)).coordEvent 0x51 .warn (d.workerData p)

/-- REPORT_DEADLINE (R148, R154): the deadline of the running round passes; it lies before D_N. -/
def execReportDeadline (s : State) : Host.Outcome State Fault Refusal :=
  .next (
    let d := s.dev
    if !d.ctlUp || d.coord.committed || !decide (d.coord.phase = .solving) || (d.portOf .down).all d.portReady || decide (d.coord.dN ≤ d.reportDeadline) then s
    else { s with dev := (d.portOf .down).foldl Dev.latePort (d.toCt d.reportDeadline) })

/-- FREEZE_FRAMES in force. -/
def Dev.freezeNow (d : Dev) : Nat := if d.coord.asTop then d.coord.cfg.freezeFrames else d.coord.treeFreeze

/-- WORKER_DROP (R155): the port has contributed no accepted report for FREEZE_FRAMES consecutive frames. -/
def execWorkerDrop (port : Fin 4) (s : State) : Host.Outcome State Fault Refusal :=
  .next (
    let d := s.dev
    let x := d.coord.ports.rd port.val
    if (d.jalow.port.rd port.val).cfg.role = .down ∧ d.ctlUp ∧ x.dropped = false ∧ d.freezeNow ≤ x.missed then
      { s with dev := (d.setPort port.val { x with dropped := true }).coordEvent 0x53 .crit (d.workerData port.val) }
    else s)

/-- COORD_UP_RECEIVE (R148, R151): a report for another frame or a closed round, or one that lands at the deadline or later, is discarded. -/
def execCoordUpReceive (port : Fin 4) (m : UpMsg) (s : State) : Host.Outcome State Fault Refusal :=
  .next (
    let d := s.dev
    let p := port.val
    let q := d.jalow.port.rd p
    let x := d.coord.ports.rd p
    if !d.ctlUp || q.cfg.role ≠ .down || q.link ≠ .up || d.coord.committed || decide (m.frame ≠ d.coord.frame) || decide (m.round < d.coord.round) then s
    else if m.round = d.coord.round then
      if d.coord.phase = .solving ∧ x.cur = none ∧ x.deadlinePassed = false ∧ d.now < d.reportDeadline then { s with dev := d.countUp p m } else s
    else { s with dev := d.setPort p { x with next := some m } })

/-- COORD_DOWN_RECEIVE (R149 to R151): the decision goes on at once to the DOWN ports; the device applies it when its own round has ended. -/
def execCoordDownReceive (m : DownMsg) (s : State) : Host.Outcome State Fault Refusal :=
  .next (
    let d := s.dev
    let linked := match d.upPort with
      | some p => decide ((d.jalow.port.rd p).link = .up)
      | none => false
    if !d.ctlUp || !linked || d.coord.asTop || d.coord.committed || decide (m.frame ≠ d.coord.frame) || (decide (m.round < d.coord.round) && !m.deadline) then s
    else
      let c := d.coord
      let seen : Dev := d.setCoord { c with treeCap := m.cap, treeWaitUs := m.waitUs, treeWait0Ms := m.wait0Ms, treeFreeze := m.freezeFrames }
      let d1 := seen.sendDown m.entries m.round m.commit m.deadline m.sNext
      if m.commit && m.deadline then { s with dev := d1.commitFrame true c.round (near32 d.now m.sNext) }
      else if c.phase = .waitDown then { s with dev := d1.applyDown m }
      else { s with dev := d1.setCoord { d1.coord with committedDown := some m } })

/-- The UP link went down (R156): the device goes on as its own top manager, from the frame in progress. -/
def Dev.island (d : Dev) : Dev :=
  if !d.ctlUp || d.coord.islanded then d
  else
    let ups := (d.heldIds.filter (fun c => d.coord.cfg.upScope.rd c)).length
    let d1 := (d.setCoord { d.coord with islanded := true, islandEnding := false, asTop := true, islandRun := 0, committedDown := none }).coordEvent 0x55 .crit ups
    if !d1.coord.committed ∧ d1.coord.phase = .waitDown then d1.closeStep.decide' else d1

/-! Commands. -/

/-- The target coordinator: unit 0x22, instance 0. -/
def onCoord (p : Packet) : Bool := onUnit 0x22 p

/-- Settings take effect at the next frame boundary, or at once while frames are STOPPED (R166). -/
def Dev.coordCfg (d : Dev) (f : CoordCfg → CoordCfg) : Dev :=
  let c := d.coord
  let new := f (c.cfgNext.getD c.cfg)
  d.setCoord (if d.frame.state = .stopped then { c with cfg := new, cfgNext := none } else { c with cfgNext := some new })

/-- COORD_CONFIG, section 0 (Table 07-9). -/
def opCoordConfigSettings : Op where
  code := 0x0501
  sel p := !bit (p.par 0) 0
  target := onCoord
  die := true
  classN := true
  params := 5
  body s q :=
    guarded s [encIf (q.resv 0 1) 0, encIf (q.resv 1 0xFFFF01FF) 1, encIf (q.resv 2 0x00FFFFFF) 2,
        rangeIf (outside (q.f 1 8 0) 1 256) 1, rangeIf (decide (q.f 1 31 16 < 100)) 1, rangeIf (outside (q.f 2 15 0) 1 60000) 2, rangeIf (decide (q.f 2 23 16 = 0)) 2,
        rangeIf (!fpPos (q.par 3)) 3, rangeIf (!fpNonNeg (q.par 4)) 4]
      (.ok s (s.dev.coordCfg (fun c => { c with
        cap := q.f 1 8 0, waitUs := q.f 1 31 16, wait0Ms := q.f 2 15 0, freezeFrames := q.f 2 23 16, epsAbs := q.par 3, epsRel := q.par 4 })))

/-- COORD_CONFIG, section 0. -/
def execCoordConfigSettings (p : Packet) (s : State) : Host.Outcome State Fault Refusal := .next (packetRow opCoordConfigSettings p s)

/-- COORD_CONFIG, section 1 (Table 07-9). -/
def opCoordConfigScope : Op where
  code := 0x0501
  sel p := bit (p.par 0) 0
  target := onCoord
  die := true
  classN := true
  params := 2
  body s q :=
    let first := q.f 1 15 0
    let n := q.f 1 31 16
    guarded s [encIf (q.resv 0 1) 0, rangeIf (decide (first % 32 ≠ 0)) 1, rangeIf (decide (n % 32 ≠ 0) || outside n 32 32768) 1, rangeIf (decide (65536 < first + n)) 1,
        (decide (q.n ≠ 2 + n / 32), stBadLength, 1)]
      (.ok s (s.dev.coordCfg (fun c => { c with
        upScope := (List.range n).foldl (fun (t : Tbl Bool) i => t.wr (first + i) (bit (q.par (2 + i / 32)) (i % 32))) c.upScope })))

/-- COORD_CONFIG, section 1. -/
def execCoordConfigScope (p : Packet) (s : State) : Host.Outcome State Fault Refusal := .next (packetRow opCoordConfigScope p s)

/-- STATE (Table 07-11): a round whose jobs have ended waits for reports. -/
def Dev.coordState (d : Dev) : Nat :=
  match d.coord.phase with
  | .idle => 0
  | .solving => if d.roundEnded then 2 else 1
  | .waitReports => 2
  | .waitDown => 3
  | .committed => 4

/-- Mask of ports with a property. -/
def portMask (f : Nat → Bool) : Nat := maskOf ((List.range 4).filter f)

/-- Word at offset `o` of the coordinator's page (Table 07-11). -/
def Dev.coordWord (d : Dev) (o : Nat) : Word :=
  let c := d.coord
  let ids := d.heldIds
  match o with
  | 0x00 => pack [(d.coordState, 0), (b1 c.islanded, 3), (b1 d.upPort.isNone, 4)]
  | 0x04 => w32 c.frame
  | 0x08 => w32 c.round
  | 0x0C => c.rp
  | 0x10 => c.rd
  | 0x14 => c.sp
  | 0x18 => c.sd
  | 0x1C => pack [(portMask (fun p => (c.ports.rd p).late), 0), (portMask (fun p => (c.ports.rd p).dropped), 4),
      (portMask (fun p => decide ((d.jalow.port.rd p).cfg.role = .down) && decide ((d.jalow.port.rd p).link ≠ .up)), 8)]
  | 0x20 => w32 (ids.filter (fun i => !d.scopeUp i)).length
  | 0x24 => w32 (ids.filter d.scopeUp).length
  | 0x28 => pack [(c.lateCnt, 0), (c.capCnt, 16)]
  | 0x2C => w32 c.mismatchCnt
  | 0x30 => c.islandFrames
  | 0x34 => w32 c.stepNs
  | _ => 0

/-- COORD_STATUS (Table 07-8). -/
def opCoordStatus : Op where
  code := 0x0502
  target := onCoord
  die := true
  body s _ := .read s ((List.range 14).map (fun i => s.dev.coordWord (4 * i)))

/-- COORD_STATUS. -/
def execCoordStatus (p : Packet) (s : State) : Host.Outcome State Fault Refusal := .next (packetRow opCoordStatus p s)

end Sys2Proof.Machine
end

