-- ==== Sys2Proof/Machine/Recorder.lean ====
section
/-! DEFINITION. The event recorder (chapter 17) and the routing of one event to it (R23). -/

namespace Sys2Proof.Machine

open Sys2Proof.Bits Sys2Proof.Crypto

/-- A six-byte tag, the empty list standing for six zero bytes. -/
def six (m : List Byte) : List Byte := if m = [] then List.replicate 6 0 else m

/-- Bytes 0x00 to 0x19 of a record (Table 17-1). -/
def Record.body (r : Record) : List Byte :=
  leBytes 4 r.seq.toNat ++ leBytes 4 r.opTime ++ leBytes 3 r.cycles ++ leBytes 1 r.subSec ++ leBytes 2 r.code.toNat ++ leBytes 2 r.source.toNat ++
    leBytes 8 r.data.toNat ++ leBytes 2 r.rep

/-- The eight words of a record. -/
def Record.words (r : Record) : List Word := wordsOf (r.body ++ six r.mac)

/-- The chain key K (R368): slot 63 while VALID, purpose MAC, lifetime PERSISTENT. -/
def Dev.chainKey (d : Dev) : Option (List Byte) :=
  let k := d.keys.slots.rd 63
  if k.state = .valid ∧ k.purpose = 1 ∧ k.lifetime = 0 ∧ d.keys.root.isSome then some k.key else none

/-- CHAIN_MAC of a record after a predecessor's tag (R368); empty while no K is usable (R369). -/
def chainMac (k : Option (List Byte)) (r : Record) (prev : List Byte) : List Byte :=
  match k with
  | none => []
  | some key => (hmac key (r.body ++ six prev)).take 6

/-- PINNED_USED. -/
def Recorder.pinnedUsed (r : Recorder) : Nat := r.pinned.length + b1 (r.head.isSome && r.headPinned)
/-- RING_USED. -/
def Recorder.ringUsed (r : Recorder) : Nat := r.ring.length + b1 (r.head.isSome && !r.headPinned)
/-- HEAD_SEQ. -/
def Recorder.headSeq (r : Recorder) : BitVec 32 := ((r.head).map (fun h => h.seq)).getD 0
/-- The newest tag. -/
def Recorder.headMac (r : Recorder) : List Byte := ((r.head).map (fun h => six h.mac)).getD (List.replicate 6 0)
/-- OLDEST_RING_SEQ. -/
def Recorder.oldestRing (r : Recorder) : BitVec 32 :=
  match r.ring.getLast? with
  | some x => x.seq
  | none => match r.head with
    | some h => if r.headPinned then 0 else h.seq
    | none => 0

/-- Puts the newest record into its region, where a successor fixes its tag. -/
def Recorder.settle (r : Recorder) : Recorder :=
  match r.head with
  | none => r
  | some h => if r.headPinned then { r with pinned := r.pinned ++ [h], head := none } else { r with ring := h :: r.ring, head := none }

/-- Writes a new record (R364, R366, R368): the next SEQUENCE, the region that its severity gives, the tag chained to its predecessor's,
or to six zero bytes for REC_CHAIN_START. -/
def Dev.record (d : Dev) (code source : BitVec 16) (data : BitVec 64) (origin : Option (BitVec 8)) (crit chainStart : Bool) : Dev :=
  let r := d.recorder
  let prev := if chainStart then [] else ((r.head).map (fun h => h.mac)).getD []
  let body : Record := { seq := if r.ever then r.headSeq + 1 else 1, opTime := r.opTime, cycles := r.cycles, subSec := r.opSub, code := code,
                         source := source, data := data, origin := origin }
  let h := { body with mac := chainMac d.chainKey body prev }
  let pin := crit && !r.pinnedFull
  let s := r.settle
  let full := pin && decide (s.pinned.length + 1 = 8192)
  let ring := if pin then s.ring else s.ring.take 122879
  let r' := { s with
    ring := ring, head := some h, headPinned := pin, ever := true, pinnedFull := r.pinnedFull || full, headSaved := 0, prevMac := prev,
    recent := d.time.raw :: r.recent.filter (fun t => decide (d.time.raw < t + 100000)) }
  ({ d with recorder := r' }).raiseIf full 0x4101 0x4100 .warn h.seq.toNat

/-- Merges `n` repeats into the newest record (R365). -/
def Dev.mergeRep (d : Dev) (n : Nat) : Dev :=
  match d.recorder.head with
  | none => d
  | some h =>
    let b := { h with rep := h.rep + n }
    let h' := { b with mac := chainMac d.chainKey b d.recorder.prevMac }
    { d with recorder := { d.recorder with head := some h', saturated := d.recorder.saturated || decide (65535 ≤ b.rep) } }

/-- The newest record takes an equal event as a repeat (R365). -/
def Recorder.merges (r : Recorder) (e : EventRec) : Bool :=
  match r.head with
  | none => false
  | some h => h.code = e.code && h.source = e.source && h.data = e.data && h.origin = e.origin && decide (h.rep < 65535)

/-- Delivers `n` occurrences of an event to the recorder. -/
def Dev.deliver : Nat → Dev → EventRec → Nat → Dev
  | 0, d, _, _ => d
  | fuel + 1, d, e, n =>
    if n = 0 then d
    else if d.recorder.merges e then
      let m := min n (65535 - ((d.recorder.head).map (fun h => h.rep)).getD 0)
      Dev.deliver fuel (d.mergeRep m) e (n - m)
    else Dev.deliver fuel (d.record e.code e.source e.data e.origin (e.sev = .crit) false) e (n - 1)

/-- Number of a severity (Table 01-9). -/
def Severity.num : Severity → Nat
  | .info => 0
  | .warn => 1
  | .crit => 2

/-- Host and tree notifications of an event (Table 01-10): of its unit class, at its least severity or above. -/
def Dev.notify (d : Dev) (e : EventRec) : Dev :=
  let rt := d.evr.routes.rd (e.code.toNat / 256)
  if e.sev.num < rt.minSev.toNat then d
  else
    let seq := d.recorder.headSeq
    let d1 := if rt.msixEn then d.emit (.msix rt.vector.toNat) else d
    let ev := d1.evr
    let d2 := { d1 with evr := { ev with irq0 := ev.irq0 || rt.irq0En, irqSeq0 := if rt.irq0En then seq else ev.irqSeq0,
                                         irq1 := ev.irq1 || rt.irq1En, irqSeq1 := if rt.irq1En then seq else ev.irqSeq1 } }
    if !rt.fwdUp then d2
    else match d2.upPort, d2.recorder.head with
      | some p, some h => d2.jlSend p 8 (h.words ++ [w32 (e.origin.getD d2.jalow.ownAddr).toNat])
      | _, _ => d2

/-- A unit that holds an event hands it to the router once there is room (R24), ascending by source. -/
def EvRouter.refill (r : EvRouter) : EvRouter :=
  match r.held with
  | [] => r
  | (_, h) :: t => if r.queue.length < 512 then { r with queue := r.queue ++ [{ h.ev with reps := h.repeats }], held := t } else r

/-- EVENT_ROUTE (R23): the oldest event of the router goes to the recorder, then to the notifications that its class selects. -/
def execEventRoute (s : State) : Host.Outcome State Fault Refusal :=
  hubStep' s fun d =>
    match d.evr.queue with
    | [] => d
    | e :: t =>
      let d1 := { d with evr := { d.evr with queue := t } }
      let d2 := d1.deliver (e.reps / 65536 + 3) e (e.reps + 1)
      let d3 := d2.notify e
      { d3 with evr := d3.evr.refill }
where
  /-- A step of the hub. -/
  hubStep' (s : State) (f : Dev → Dev) : Host.Outcome State Fault Refusal := .next (if s.dev.hubUp then { s with dev := f s.dev } else s)

/-- EVR_QUEUE_DRAIN (R24): the router has room again after losses, and reports how many events were lost. -/
def execEvrQueueDrain (s : State) : Host.Outcome State Fault Refusal :=
  .next (if s.dev.hubUp && decide (0 < s.dev.evr.lost ∧ s.dev.evr.held = [] ∧ s.dev.evr.queue.length < 512) then
      let n := s.dev.evr.lost
      { s with dev := ({ s.dev with evr := { s.dev.evr with lost := 0 } }).raise 0x0104 0x0100 .warn (n % 2 ^ 32) }
    else s)

/-- Writes REC_CHAIN_START as the next record where K has become usable, was replaced or stopped being usable (R369). `before` is the
chain key before the change and `touched` says that slot 63 was given a new key. -/
def Dev.chainChange (d : Dev) (before : Option (List Byte)) (touched : Bool) : Dev :=
  let after := d.chainKey
  let cause : Nat := match before, after with
    | none, some _ => 1
    | some _, none => 3
    | some a, some b => if touched || a ≠ b then 2 else 0
    | none, none => 0
  let d1 := { d with recorder := { d.recorder with keyOk := after.isSome } }
  if cause = 0 then d1
  else
    let e : EventRec := { code := 0x4102, source := 0x4100, sev := .warn, data := BitVec.ofNat 64 (cause + 256 * b1 after.isSome) }
    (d1.record e.code e.source e.data none false true).notify e

/-- The held records of the regions that REGION selects, ascending by SEQUENCE: the pinned ones, the ring's, and the newest. -/
def Recorder.held (r : Recorder) (region : Nat) : List Record :=
  let p := if region = 2 then [] else r.pinned
  let g := if region = 1 then [] else r.ring.reverse
  let h := match r.head with
    | none => []
    | some x => if (r.headPinned ∧ region = 2) ∨ (!r.headPinned ∧ region = 1) then [] else [x]
  merge (p.length + g.length + 1) r.headSeq p g ++ h
where
  /-- Two ascending lists as one, by distance from HEAD. -/
  merge : Nat → BitVec 32 → List Record → List Record → List Record
    | 0, _, _, _ => []
    | _ + 1, _, [], ys => ys
    | _ + 1, _, xs, [] => xs
    | fuel + 1, hd, x :: xs, y :: ys =>
      if (hd - y.seq).toNat < (hd - x.seq).toNat then x :: merge fuel hd xs (y :: ys) else y :: merge fuel hd (x :: xs) ys

/-- Largest COUNT of REC_READ on a transport (R370). -/
def recCountMax : Transport → Nat
  | .pcie => 510
  | .spi => 126
  | .relay => 126
  | .eth => 44

/-- READ_MARK after records were returned, and the IRQ pins that it releases (R371). -/
def Dev.markRead (d : Dev) (rs : List Record) : Dev :=
  let hd := d.recorder.headSeq
  let m := rs.foldl (fun acc r => if (hd - r.seq).toNat < (hd - acc).toNat then r.seq else acc) d.recorder.readMark
  let passed (x : BitVec 32) : Bool := decide ((m - x).toNat < 2 ^ 31)
  { d with recorder := { d.recorder with readMark := m }
           evr := { d.evr with irq0 := d.evr.irq0 && !passed d.evr.irqSeq0, irq1 := d.evr.irq1 && !passed d.evr.irqSeq1 } }

/-- REC_READ (R370). -/
def opRecRead : Op where
  code := 0x0A01
  target := onUnit 0x41
  params := 2
  sizeAt := 5
  body s q :=
    let r := s.dev.recorder
    let count := q.f 1 9 0
    let bySlot := q.b 1 16
    let region := q.f 1 18 17
    let first := q.par 0
    let hd := r.headSeq
    let slots := r.held 1
    let sel := if bySlot then slots.drop first.toNat
      else (r.held region).filter (fun x => decide ((hd - x.seq).toNat ≤ (hd - first).toNat))
    let ahead := !bySlot && decide (1 ≤ (first - hd).toNat ∧ (first - hd).toNat ≤ 2 ^ 31)
    let rs := if ahead then [] else sel.take count
    let gap := if bySlot then decide (slots.length ≤ first.toNat) else !((r.held region).any (fun x => x.seq = first))
    guarded s [encIf (q.resv 1 0x703FF || decide (region = 3)) 1, rangeIf (outside count 1 (recCountMax q.pkt.transport)) 1,
        rangeIf (bySlot && decide (8191 < first.toNat)) 0]
      { st := { s with dev := s.dev.markRead rs }
        words := [pack [(rs.length, 0), (b1 gap, 16)], hd, w32 (natLE (r.headMac.take 4)), w32 (natLE (r.headMac.drop 4))] ++ rs.flatMap Record.words }

/-- REC_READ. -/
def execRecRead (p : Packet) (s : State) : Host.Outcome State Fault Refusal := .next (packetRow opRecRead p s)

/-- A word of the recorder's page (Table 17-3). -/
def Dev.recWord (d : Dev) (off : Nat) : Word :=
  let r := d.recorder
  match off with
  | 0x00 => r.headSeq
  | 0x04 => w32 (natLE (r.headMac.take 4))
  | 0x08 => pack [(natLE (r.headMac.drop 4), 0), (b1 r.pinnedFull, 16), (b1 r.keyOk, 17), (b1 r.saturated, 18)]
  | 0x0C => r.oldestRing
  | 0x10 => w32 r.ringUsed
  | 0x14 => w32 r.pinnedUsed
  | 0x18 => w32 r.opTime
  | 0x1C => pack [(r.cycles, 0), (r.opSub, 24)]
  | 0x20 => r.readMark
  | _ => 0

/-- REC_STATUS (Table 17-2): the recorder page words 0x0000 to 0x001C. -/
def opRecStatus : Op where
  code := 0x0A02
  target := onUnit 0x41
  body s _ := .read s ((List.range 8).map (fun i => s.dev.recWord (4 * i)))

/-- REC_STATUS. -/
def execRecStatus (p : Packet) (s : State) : Host.Outcome State Fault Refusal := .next (packetRow opRecStatus p s)

/-- REC_MARK (Table 17-2): a host annotation, recorded as REC_HOST_MARK. -/
def opRecMark : Op where
  code := 0x0A03
  target := onUnit 0x41
  params := 3
  body s q :=
    guarded s [encIf (q.resv 0 0xFFFF) 0]
      (.ok s (s.dev.raise 0x4110 (q.f 0 15 0) .info ((q.par 1).toNat + 2 ^ 32 * (q.par 2).toNat)))

/-- REC_MARK. -/
def execRecMark (p : Packet) (s : State) : Host.Outcome State Fault Refusal := .next (packetRow opRecMark p s)

/-- Nanoseconds to the next instant at which OP_TIME is a whole multiple of `k` seconds. -/
def Recorder.toMultiple (r : Recorder) (k : Nat) : Nat :=
  let ns := (r.opTime % k) * 1000000000 + r.opSub * 3906250 + r.opNs
  if ns = 0 then 0 else k * 1000000000 - ns

/-- REPEAT_FLUSH (R365): at the next whole second of operating time a changed REPEAT and its tag reach the eMRAM. -/
def execRepeatFlush (s : State) : Host.Outcome State Fault Refusal :=
  .next (match s.dev.recorder.head with
    | none => s
    | some h =>
      if !s.dev.power.on || decide (h.rep = s.dev.recorder.headSaved) then s
      else
        let d := s.dev.pass (s.dev.recorder.toMultiple 1)
        { s with dev := { d with recorder := { d.recorder with headSaved := h.rep } } })

/-- Saves the operating time and POWER_CYCLES to eMRAM (R362). -/
def Recorder.save (r : Recorder) : Recorder := { r with savedOp := r.opTime, savedSub := r.opSub, savedCycles := r.cycles }

/-- OP_TIME_SAVE (R362): OP_TIME reaches a multiple of 16 s, to which time is brought forward. -/
def execOpTimeSave (s : State) : Host.Outcome State Fault Refusal :=
  .next (if !s.dev.power.on then s
    else
      let d := s.dev.pass (s.dev.recorder.toMultiple 16)
      { s with dev := { d with recorder := d.recorder.save } })

/-- REC_SATURATED_WRITE (Table 17-3): a 1 written to bit 18 clears SATURATED. -/
def execRecSaturatedWrite (v : Word) (s : State) : Host.Outcome State Fault Refusal :=
  .next (if s.dev.hubUp then { s with dev := { s.dev with recorder := { s.dev.recorder with saturated := s.dev.recorder.saturated && !bit v 18 } } } else s)

end Sys2Proof.Machine
end

