-- ==== Sys2Proof/Machine/Causes.lean ====
section
/-! DEFINITION. Reset-cause records (R400, R406). -/

namespace Sys2Proof.Machine

open Sys2Proof.Bits

/-- KIND of Table 19-5. -/
def ResetKind.num : ResetKind → Nat
  | .por => 1 | .device => 2 | .die => 3 | .field => 4 | .backupLoss => 5 | .tamper => 6

/-- CAUSE of Table 19-5. -/
def ResetCauseCode.num : ResetCauseCode → Nat
  | .powerUp => 1 | .hubCoreUv => 2 | .railPg => 3 | .lastBreath => 4 | .keepWake => 5 | .resetPin => 6 | .command => 7 | .fwActivate => 8
  | .clock => 9 | .hubFault => 10 | .thermal => 11 | .twin => 12 | .fieldPll => 13 | .feed => 14 | .tamper => 15 | .backup => 16

/-- CLASSES of Table 19-5: the classes that a kind returns to default or zeroes (Table 19-4), as bits [5:0] of Z, B, K, D, L, F. -/
def ResetKind.classes : ResetKind → Nat
  | .por => 0x3C | .device => 0x38 | .die => 0x10 | .field => 0x20 | .backupLoss => 0x03 | .tamper => 0x01

/-- DATA of a reset-cause record (Table 19-5). -/
def causeData (k : ResetKind) (c : ResetCauseCode) (inst flags other detail : Nat) : Nat :=
  k.num + 2 ^ 4 * c.num + 2 ^ 12 * k.classes + 2 ^ 18 * inst + 2 ^ 20 * flags + 2 ^ 24 * other + 2 ^ 32 * (detail % 2 ^ 32)

/-- Writes a reset-cause record and keeps it among the last 16 (R406). -/
def Dev.causeRecord (d : Dev) (k : ResetKind) (c : ResetCauseCode) (inst flags other detail : Nat) : Dev :=
  let data := BitVec.ofNat 64 (causeData k c inst flags other detail)
  let d1 := d.record 0x5001 0x5000 data none true false
  let r : CauseRec := { data := data, seq := d1.recorder.headSeq, opTime := d1.recorder.opTime }
  let d2 := d1.notify { code := 0x5001, source := 0x5000, sev := .crit, data := data }
  { d2 with power := { d2.power with causes := (r :: d2.power.causes).take 16 } }

end Sys2Proof.Machine
end

