-- ==== Sys2Proof/Machine/Digital.lean ====
section
/-! DEFINITION. Digital channels, outputs and the safe state (chapter 12): inputs and counting (R254 to R258), overloads and shorts (R260,
R263, R264), PWM (R261), groups (R262), arming (R268), the Snowplough (R269 to R271) and FIELD resets (R275, R439). -/

namespace Sys2Proof.Machine

open Sys2Proof.Bits Sys2Proof.Float

/-! Fault bits. -/

/-- A fault bit of Table 12-7 by its number. -/
def DigChan.bitAt (x : DigChan) (b : Nat) : Bool :=
  match b with
  | 8 => x.shortSup | 9 => x.extDrive | 10 => x.overload | 11 => x.overloadOff | 12 => x.overtemp | 13 => x.wireBreak | 17 => x.openLoad | _ => false

/-- Sets or clears a fault bit by its number. -/
def DigChan.withBit (x : DigChan) (b : Nat) (v : Bool) : DigChan :=
  match b with
  | 8 => { x with shortSup := v } | 9 => { x with extDrive := v } | 10 => { x with overload := v } | 11 => { x with overloadOff := v }
  | 12 => { x with overtemp := v } | 13 => { x with wireBreak := v } | 17 => { x with openLoad := v } | _ => x

/-- The lead of a channel: a group acts and reports on its lead (R262). -/
def Dev.lead (d : Dev) (k c : Nat) : Nat := (d.dig k c).memberOf.getD c

/-- A fault bit is set or cleared on the lead of channel `c`, with FLD_DCH_FAULT (Table 12-8); nothing where it stands so already. -/
def Dev.dchFault (d : Dev) (k c b : Nat) (v : Bool) : Dev :=
  let l := d.lead k c
  let x := d.dig k l
  if x.bitAt b = v then d
  else
    let n := if v then bump 16 x.faultCnt else x.faultCnt
    let d1 := d.setDig k l { x.withBit b v with faultCnt := n }
    let d2 := if v then d1.satAt 0x10 16 n else d1
    d2.raise 0x1020 (fldSrc k) .warn (l + 32 * (c - l) + 256 * b + 65536 * b1 v)

/-! Inputs. -/

/-- The channel is a DI of a die that runs. -/
def Dev.isDi (d : Dev) (k c : Nat) : Bool := d.fldRuns k && decide ((d.dig k c).cfg.mode = 1)

/-- The state a DI reports (R255, R257). -/
def DigChan.reported (x : DigChan) : Bool := !x.wireBreak && (x.diState != x.cfg.invert)

/-- A DI sample (R256): 1.0 or 0.0, with QUALITY 0x81 while a wire break stands. -/
def DigChan.sample (x : DigChan) (c time : Nat) (forLoop : Bool) : TaggedSample :=
  { value := if x.reported then one32 else 0, time := time, chan := c, native := forLoop, quality := if x.wireBreak then 0x81 else 0,
    point := if forLoop then none else some x.cfg.point, source := (if forLoop then 96 else 64) + c, forLoop := forLoop }

/-- Sends the state as a point sample where TO_POINT is set. -/
def Dev.diPoint (d : Dev) (k c : Nat) : Dev :=
  let x := d.dig k c
  if x.cfg.toPoint then d.offerSample k (x.sample c x.stateTime false) else d

/-- The first read of a channel that became DI, or of a die that left reset (R255): the level is the terminal's, and so free. -/
def Dev.diInit (d : Dev) (k c : Nat) : Dev :=
  let (b, d1) := d.freeB
  let x := d1.dig k c
  let y := { x with raw := b, diState := b, tEdge := d1.now, stateTime := d1.now, wireBreak := false, sentAt := d1.time.raw }
  (d1.setDig k c { y with state := y.reported }).diPoint k c

/-- Debounce time in ns. -/
def DigCfg.debounceNs (c : DigCfg) : Nat := c.debounce * (if c.debUnit10 then 10000 else 1000)

/-- DI_EDGE_ACCEPT (R255): the raw state has differed from the state for the debounce time; TIME is the first of its reads, 480 ns apart. -/
def execDiEdgeAccept (die : Fin 4) (c : Fin 24) (s : State) : Host.Outcome State Fault Refusal :=
  .next (
    let d := s.dev
    let k := die.val
    if !d.isDi k c.val then s
    else
      let x := d.dig k c.val
      let t := d.now - (x.cfg.debounceNs + 479) / 480 * 480
      let y := { x with raw := !x.diState, diState := !x.diState, tEdge := t, stateTime := t }
      let rep := y.reported
      let counts := !x.wireBreak && (if rep then x.cfg.cntEdge = 1 || x.cfg.cntEdge = 3 else x.cfg.cntEdge = 2 || x.cfg.cntEdge = 3)
      { s with dev := (d.setDig k c.val { y with state := rep, count := if counts then x.count + 1 else x.count }).diPoint k c.val })

/-- DI_POINT_REFRESH (R256): REFRESH_MS after the last one; time is brought forward. -/
def execDiPointRefresh (die : Fin 4) (c : Fin 24) (s : State) : Host.Outcome State Fault Refusal :=
  .next (
    let d := s.dev
    let k := die.val
    let x := d.dig k c.val
    if !d.isDi k c.val || !x.cfg.toPoint || decide (x.cfg.refreshMs = 0) then s
    else
      let d1 := d.toRaw (x.sentAt + x.cfg.refreshMs * 1000000)
      { s with dev := (d1.setDig k c.val { d1.dig k c.val with sentAt := d1.time.raw }).diPoint k c.val })

/-- The first tick of a loop whose instant less 1 µs is at or after `t` and after `last` (R169). -/
def LoopSlot.tickAfter (l : LoopSlot) (t last : Nat) : Nat := gridAt (max t (last + 1) + 1000) (l.cfg.periodM * 10000) (l.cfg.phase * 10000)

/-- DI_LOOP_SAMPLE (R256): 1 µs before the next tick of a loop that reads the channel; time is brought forward. -/
def execDiLoopSample (die : Fin 4) (c : Fin 24) (s : State) : Host.Outcome State Fault Refusal :=
  .next (
    let d := s.dev
    let k := die.val
    let g := 24 * k + c.val
    let x := d.dig k c.val
    let ticks := (d.loops.slot.filter (fun l => l.2.reads g)).map (fun l => l.2.tickAfter d.now x.loopAt)
    match ticks with
    | [] => s
    | t :: ts =>
      if !d.isDi k c.val then s
      else
        let tk := ts.foldl min t
        let d1 := d.toCt (tk - 1000)
        { s with dev := (d1.setDig k c.val { x with loopAt := tk - 1000 }).offerSample k (x.sample c.val (tk - 1000) true) })

/-- A wire break is declared or cleared (R257); a point sample follows, and nothing is counted. -/
def Dev.wireBreak (d : Dev) (k c : Nat) (v : Bool) : Dev :=
  let d1 := d.dchFault k c 13 v
  (d1.setDig k c { d1.dig k c with state := (d1.dig k c).reported }).diPoint k c

/-- WIRE_BREAK_DECLARE. -/
def execWireBreakDeclare (die : Fin 4) (c : Fin 24) (s : State) : Host.Outcome State Fault Refusal :=
  .next (
    let d := s.dev
    let x := d.dig die.val c.val
    if !d.isDi die.val c.val || !x.cfg.wbEn || x.wireBreak then s else { s with dev := d.wireBreak die.val c.val true })

/-- WIRE_BREAK_CLEAR. -/
def execWireBreakClear (die : Fin 4) (c : Fin 24) (s : State) : Host.Outcome State Fault Refusal :=
  .next (
    let d := s.dev
    if !d.isDi die.val c.val || !(d.dig die.val c.val).wireBreak then s else { s with dev := d.wireBreak die.val c.val false })

/-- The pulses of one channel go into its accumulator (R258). -/
def Dev.accumulate (d : Dev) (g : Nat) : Dev :=
  let c := (d.dig (g / 24) (g % 24)).count
  let f := d.field
  { d with field := { f with countAcc := f.countAcc.wr g (f.countAcc.rd g + (c - f.countPrev.rd g)), countPrev := f.countPrev.wr g c } }

/-- COUNT_ACCUMULATE (R258): every 1 ms; time is brought forward. -/
def execCountAccumulate (s : State) : Host.Outcome State Fault Refusal :=
  .next (
    if !s.dev.hubUp then s
    else
      let d := s.dev.toRaw (s.dev.field.countAt + 1000000)
      let d1 := (List.range 96).foldl (fun acc g => if acc.fldRuns (g / 24) then acc.accumulate g else acc) d
      { s with dev := { d1 with field := { d1.field with countAt := d1.time.raw } } })

/-! Overloads, shorts and open loads. -/

/-- The channel is a DO or PWM, itself or as a member, of a die that runs. -/
def Dev.isSwitch (d : Dev) (k c : Nat) : Bool := d.fldRuns k && decide (2 ≤ (d.dig k (d.lead k c)).cfg.mode.toNat)

/-- Folds the lead back to 0.1 A (R260). -/
def Dev.foldBack (d : Dev) (k c : Nat) : Dev :=
  let l := d.lead k c
  (d.setDig k l { d.dig k l with folded := true, foldAt := d.time.raw }).dchFault k c 10 true

/-- OUTPUT_FOLDBACK (R260): an output that is on has been at its limit for 1 ms. -/
def execOutputFoldback (die : Fin 4) (c : Fin 24) (s : State) : Host.Outcome State Fault Refusal :=
  .next (
    let d := s.dev
    let x := d.dig die.val (d.lead die.val c.val)
    if !d.isSwitch die.val c.val || !x.on || x.folded || x.overtemp || x.overloadOff then s else { s with dev := d.foldBack die.val c.val })

/-- A switch stays off until an OUTPUT_SET or a DCH_CONFIG for it (R260). -/
def Dev.overloadOff (d : Dev) (k c : Nat) : Dev :=
  let l := d.lead k c
  let d1 := d.switchOff k l
  let d2 := d1.setDig k l { d1.dig k l with folded := false }
  d2.dchFault k c 11 true

/-- OUTPUT_RETRY (R260): RETRY_MS after the fold-back; `still` says that the retry reached the limit within 1 ms. -/
def execOutputRetry (die : Fin 4) (c : Fin 24) (still : Bool) (s : State) : Host.Outcome State Fault Refusal :=
  .next (
    let d := s.dev
    let k := die.val
    let l := d.lead k c.val
    let x := d.dig k l
    if !d.isSwitch k c.val || !(x.folded || x.overtemp) || x.overloadOff then s
    else
      let d1 := d.toRaw (x.foldAt + x.cfg.retryMs * 1000000)
      if x.cfg.retryMax = 0 then { s with dev := d1.overloadOff k c.val }
      else
        let d2 := d1.pass 1000000
        if still then
          let n := min 255 (x.retries + 1)
          let d3 := d2.setDig k l { d2.dig k l with retries := n, foldAt := d2.time.raw }
          if x.cfg.retryMax ≠ 255 ∧ x.cfg.retryMax < x.retries + 1 then { s with dev := d3.overloadOff k c.val } else { s with dev := d3 }
        else
          let d3 := d2.setDig k l { d2.dig k l with retries := 0, folded := false }
          let d4 := (d3.dchFault k c.val 10 false).dchFault k c.val 12 false
          { s with dev := if x.overtemp && decide ((d4.fld k).outState = .armed) then d4.applyCmd k l else d4 })

/-- OUTPUT_OVERTEMP (R260): the switch goes off at once, as an overload that has already folded back. -/
def execOutputOvertemp (die : Fin 4) (c : Fin 24) (s : State) : Host.Outcome State Fault Refusal :=
  .next (
    let d := s.dev
    let k := die.val
    let l := d.lead k c.val
    if !d.isSwitch k c.val || (d.dig k l).overtemp then s
    else
      let d1 := d.switchOff k l
      { s with dev := (d1.setDig k l { d1.dig k l with foldAt := d1.time.raw }).dchFault k c.val 12 true })

/-- OPEN_LOAD_DETECT (R260). -/
def execOpenLoadDetect (die : Fin 4) (c : Fin 24) (s : State) : Host.Outcome State Fault Refusal :=
  .next (
    let d := s.dev
    let x := d.dig die.val (d.lead die.val c.val)
    if !d.isSwitch die.val c.val || !x.cfg.olEn || !x.on then s else { s with dev := d.dchFault die.val c.val 17 true })

/-- OPEN_LOAD_CLEAR (R260). -/
def execOpenLoadClear (die : Fin 4) (c : Fin 24) (s : State) : Host.Outcome State Fault Refusal :=
  .next (if !s.dev.isSwitch die.val c.val then s else { s with dev := s.dev.dchFault die.val c.val 17 false })

/-- SHORT_TO_SUPPLY_DETECT (R263): an output that is off. -/
def execShortToSupplyDetect (die : Fin 4) (c : Fin 24) (s : State) : Host.Outcome State Fault Refusal :=
  .next (
    let d := s.dev
    if !d.isSwitch die.val c.val || (d.dig die.val (d.lead die.val c.val)).on then s else { s with dev := d.dchFault die.val c.val 8 true })

/-- SHORT_TO_SUPPLY_CLEAR (R263). -/
def execShortToSupplyClear (die : Fin 4) (c : Fin 24) (s : State) : Host.Outcome State Fault Refusal :=
  .next (if !s.dev.isSwitch die.val c.val then s else { s with dev := s.dev.dchFault die.val c.val 8 false })

/-- EXTERNAL_DRIVE_DETECT (R264): an output that is on. -/
def execExternalDriveDetect (die : Fin 4) (c : Fin 24) (s : State) : Host.Outcome State Fault Refusal :=
  .next (
    let d := s.dev
    if !d.isSwitch die.val c.val || !(d.dig die.val (d.lead die.val c.val)).on then s else { s with dev := d.dchFault die.val c.val 9 true })

/-- EXTERNAL_DRIVE_CLEAR (R264). -/
def execExternalDriveClear (die : Fin 4) (c : Fin 24) (s : State) : Host.Outcome State Fault Refusal :=
  .next (if !s.dev.isSwitch die.val c.val then s else { s with dev := s.dev.dchFault die.val c.val 9 false })

/-! PWM and clamp events. -/

/-- PWM_PERIOD_START (R261): the next base tick that is a multiple of PWM_PERIOD; a new duty takes effect. -/
def execPwmPeriodStart (die : Fin 4) (c : Fin 24) (s : State) : Host.Outcome State Fault Refusal :=
  .next (
    let d := s.dev
    let k := die.val
    let p := (d.dig k c.val).cfg.pwmPeriod
    if !d.fldRuns k || decide ((d.dig k c.val).cfg.mode ≠ 3) then s
    else
      let d1 := d.toCt (gridAt (max d.now (d.fld k).pwmFrom) (p * 10000) 0)
      let x := d1.dig k c.val
      let duty := x.pwmNext.getD x.applied
      let on := x.driving && !(x.overloadOff || x.overtemp || x.clampOver)
      { s with dev := d1.setDig k c.val { x with applied := if on then duty else x.applied, pwmNext := none,
                                                 onCycles := if on then (b32.toInt duty.toNat (500 * p)).toNat else 0 } })

/-- CLAMP_EVENT_START (R266): the deferred turn-off that is next, 250 µs after the previous one; time is brought forward. -/
def execClampEventStart (die : Fin 4) (c : Fin 24) (s : State) : Host.Outcome State Fault Refusal :=
  .next (
    let d := s.dev
    let f := d.fld die.val
    if f.clampQ.head? = some c.val then
      { s with dev := (d.toRaw ((f.lastClampStart.map (fun t => t + 250000)).getD d.time.raw)).clampStart die.val c.val }
    else s)

/-- CLAMP_EVENT_END (R266): the measured energy is booked; above 200 mJ per channel the output stays off. -/
def execClampEventEnd (die : Fin 4) (c : Fin 24) (uj : Nat) (s : State) : Host.Outcome State Fault Refusal :=
  .next (
    let d := s.dev
    let k := die.val
    let x := d.dig k c.val
    if x.clampStart.isNone then s
    else
      let f := d.fld k
      let bad := decide (200000 * x.cfg.members < uj)
      let d1 := d.setFld k { f with eWin := (d.time.raw, uj) :: f.eWin.filter (fun e => decide (d.time.raw < e.1 + 100000000)) }
      let d2 := d1.setDig k c.val { x with clampStart := none, clampEst := 0, clampOver := x.clampOver || bad }
      { s with dev := d2.raiseIf bad 0x1021 (fldSrc k) .crit (c.val + 65536 * satN 16 (uj / 1000)) })

/-- CYCLE_HOLD_RELEASE (R266): 100 ms after the channel's last clamp event; time is brought forward. -/
def execCycleHoldRelease (die : Fin 4) (c : Fin 24) (s : State) : Host.Outcome State Fault Refusal :=
  .next (
    let d := s.dev
    let k := die.val
    let x := d.dig k c.val
    if !x.held then s
    else
      let d1 := d.toRaw ((x.lastClamp.map (fun t => t + 100000000)).getD d.time.raw)
      { s with dev := d1.setDig k c.val { x with held := false, applied := one32, driving := true } })

/-- E_WIN in mJ: the energy of the last 100 ms, rounded up (R217). -/
def FieldDie.eWinMj (f : FieldDie) (raw : Nat) : Nat :=
  satN 11 (((f.eWin.filter (fun e => decide (raw < e.1 + 100000000))).map (fun e => e.2)).sum / 1000 + b1 (decide
    (((f.eWin.filter (fun e => decide (raw < e.1 + 100000000))).map (fun e => e.2)).sum % 1000 ≠ 0)))

/-- E_PEND in mJ: the estimates of the events deferred or in progress, rounded up (R266). -/
def FieldDie.ePendMj (f : FieldDie) : Nat := satN 11 (((f.dig.map (fun x => x.2.clampEst)).sum + 999) / 1000)

/-- E_ADMIT in mJ, rounded up (R265). -/
def FieldDie.eAdmitMj (f : FieldDie) : Nat := satN 11 (((f.dig.map (fun x => x.2.cfg.eMax)).sum + 7199) / 7200)

/-! Arming and the Snowplough. -/

/-- OUT_STATE of Table 12-7. -/
def OutState.num : OutState → Nat
  | .disarmed => 0 | .armed => 1 | .snowplough => 2

/-- Changes OUT_STATE. -/
def Dev.setOutState (d : Dev) (k : Nat) (o : OutState) : Dev := d.setFld k { d.fld k with outState := o }

/-- Length of the silence in µs; before the first refresh no rule states it, and it is free. -/
def Dev.silence (d : Dev) (k : Nat) : Nat × Dev :=
  match (d.fld k).refreshRaw with
  | some t => ((d.time.raw - t) / 1000 % 2 ^ 32, d)
  | none => d.freeN (2 ^ 32)

/-- The silence has reached TIMEOUT_MS (R269). -/
def Dev.silent (d : Dev) (k : Nat) : Bool :=
  match (d.fld k).refreshRaw with
  | some t => decide (t + (d.fld k).safeCfg.timeoutMs * 1000000 ≤ d.time.raw)
  | none => true

/-- The die enters the Snowplough (R269). -/
def Dev.enterSnow (d : Dev) (k : Nat) : Dev :=
  let (us, d1) := d.silence k
  let d2 := d1.allSafe k
  let f := d2.fld k
  let n := bump 16 f.snowCnt
  ((d2.setFld k { f with outState := .snowplough, snowCnt := n, refreshBack := none }).satAt 0x10 16 n).raise 0x1022 (fldSrc k) .crit (256 + 65536 * us)

/-- The die leaves the Snowplough (R270): every output goes to its commanded value. -/
def Dev.leaveSnow (d : Dev) (k : Nat) : Dev :=
  let us := (d.fld k).silenceUs
  ((d.setFld k { d.fld k with outState := .armed, refreshBack := none }).allCmd k).raise 0x1022 (fldSrc k) .crit (65536 * us)

/-- SNOWPLOUGH_TIMEOUT (R269): TIMEOUT_MS after the last refresh of an armed die; time is brought forward. -/
def execSnowploughTimeout (die : Fin 4) (s : State) : Host.Outcome State Fault Refusal :=
  .next (
    let d := s.dev
    let f := d.fld die.val
    if !d.fldRuns die.val ∨ f.outState ≠ .armed then s
    else { s with dev := (d.toRaw ((f.refreshRaw.map (fun t => t + f.safeCfg.timeoutMs * 1000000)).getD d.time.raw)).enterSnow die.val })

/-- SNOWPLOUGH_RESUME (R270): with RESUME AUTO, at the first base tick at least 1 ms after the first refresh that followed the silence. -/
def execSnowploughResume (die : Fin 4) (s : State) : Host.Outcome State Fault Refusal :=
  .next (
    let d := s.dev
    let f := d.fld die.val
    match f.refreshBack with
    | some t => if !d.fldRuns die.val || decide (f.outState ≠ .snowplough) || !f.safeCfg.resumeAuto then s
                else { s with dev := (d.toCt (baseTick (t + 1000000) * 10000)).leaveSnow die.val }
    | none => s)

/-- REFRESH_SEND (R269): every 250 µs the active control die sends a refresh to each field die; time is brought forward. -/
def execRefreshSend (s : State) : Host.Outcome State Fault Refusal :=
  .next (
    if !s.dev.ctlUp then s
    else
      let d := s.dev.toRaw s.dev.field.refreshNext
      let d1 := { d with field := { d.field with refreshNext := d.time.raw + 250000 } }
      { s with dev := (List.range 4).foldl (fun acc k =>
          if acc.fldUp k then ((acc.setFld k { acc.fld k with refreshSent := some acc.time.raw }).emit (.refresh k)).through 0x02 k else acc) d1 })

/-- A valid refresh lands at a field die. -/
def Dev.refreshAt (d : Dev) (k : Nat) : Dev :=
  let f := d.fld k
  let first := decide (f.outState = .snowplough) && f.refreshBack.isNone
  let us := match f.refreshRaw with
    | some t => (d.time.raw - t) / 1000 % 2 ^ 32
    | none => f.silenceUs
  d.setFld k { f with refreshSent := none, lastRefresh := some d.now, refreshRaw := some d.time.raw, refreshBack := if first then some d.now else f.refreshBack,
                      silenceUs := if first then us else f.silenceUs }

/-- REFRESH_RECEIVE (R269): the refresh on its way lands 0.6 µs to 1.24 µs after it was sent. -/
def execRefreshReceive (die : Fin 4) (s : State) : Host.Outcome State Fault Refusal :=
  .next (match (s.dev.fld die.val).refreshSent with
    | none => s
    | some t =>
      if !s.dev.fldRuns die.val then s
      else
        let (ns, d) := s.dev.freeNs 600 1240
        { s with dev := (d.toRaw (t + ns)).refreshAt die.val })

/-- ARM_TAKE_EFFECT (R268, R269): an accepted arming or disarming at its base tick; time is brought forward. -/
def execArmTakeEffect (die : Fin 4) (s : State) : Host.Outcome State Fault Refusal :=
  .next (
    let k := die.val
    match (s.dev.fld k).armAt with
    | none => s
    | some (arm, t) =>
      if !s.dev.fldRuns k then s
      else
        let d := s.dev.toCt t
        let d1 := d.setFld k { d.fld k with armAt := none }
        let say (x : Dev) : Dev := x.raise 0x1023 (fldSrc k) .info (x.fld k).outState.num
        { s with dev :=
            if !arm then (if (d1.fld k).outState = .disarmed then d1 else say ((d1.allOff k).setOutState k .disarmed))
            else match (d1.fld k).outState with
              | .armed => d1
              | .disarmed => if d1.silent k then d1.enterSnow k else say ((d1.setOutState k .armed).allCmd k)
              | .snowplough => if d1.silent k then d1 else say (d1.leaveSnow k) })

/-! FIELD resets (R275, R439). -/

/-- A FIELD reset is ordered: every output is turned off first. -/
def Dev.orderFieldReset (d : Dev) (k cause : Nat) : Dev :=
  if d.fldRuns k then
    let d1 := d.allOff k
    d1.setFld k { d1.fld k with run := .resetWait, resetCause := cause }
  else d

/-- A field die with its class F fields at default (Table 19-4): the class N ones stay, a committed sequence table as the active one. -/
def FieldDie.reset (f : FieldDie) : FieldDie :=
  { ana := f.ana.mapD (fun a => { cfg := a.cfg, cal := a.cal })
    dig := f.dig.mapD (fun x => { cfg := x.cfg, memberOf := x.memberOf })
    seq := { table := f.seq.committed.getD f.seq.table, pendTable := f.seq.pendTable, set := f.seq.set, savedRun := f.seq.savedRun }
    cal := f.cal, safeCfg := f.safeCfg, resetCause := f.resetCause, pllLost := f.pllLost }

/-- A FIELD reset takes hold: class F fields go to default, samples that wait in the die are discarded, COUNT starts again (R258). -/
def Dev.fieldReset (d : Dev) (k : Nat) (state : DieRun) : Dev :=
  let d1 := d.setFld k { (d.fld k).reset with run := state, stageAt := d.time.raw }
  { d1 with
    fabric := { d1.fabric with epochs := d1.fabric.epochs.upd (16 + k) (fun n => n + 1) }
    field := { d1.field with countPrev := d1.field.countPrev.filter (fun x => decide (x.1 / 24 ≠ k)) }
    power := { d1.power with feeds := d1.power.feeds.wr k {} } }

/-- Cause of a FIELD reset by its number. -/
def fieldCause (n : Nat) : ResetCauseCode :=
  match n with
  | 11 => .thermal | 13 => .fieldPll | 14 => .feed | _ => .command

/-- FIELD_RESET_TAKE_HOLD (R275): once the outputs are off, at most 2 ms after the order; its record names the die. -/
def execFieldResetTakeHold (die : Fin 4) (s : State) : Host.Outcome State Fault Refusal :=
  .next (
    let k := die.val
    if (s.dev.fld k).run ≠ .resetWait then s
    else
      let d := Dev.clampDrain k 24 s.dev
      let c := (d.fld k).resetCause
      { s with dev := (d.fieldReset k .inReset).causeRecord .field (fieldCause c) k 0 0 (if c = 11 then 3 + k else 0) })

/-- A self-test run is under way on field die `k` (R418). -/
def Dev.fieldTested (d : Dev) (k : Nat) : Bool := d.test.state = .running && d.test.die = 2 + k

/-- The die is held in its reset: its feeds or its temperature (R388, R403), a self-test run or a failing one (R420), or RECOVERY (R398). -/
def Dev.fieldHeld (d : Dev) (k : Nat) : Bool :=
  d.power.fieldThermal.rd k || d.power.fieldFeed.rd k || d.test.fieldHeld.rd k || d.fieldTested k || decide (d.power.boot = .recovery)

/-- FIELD_RESET_RELEASE (R439): 1.0 ms to 1.2 ms after taking hold; time is brought forward. -/
def execFieldResetRelease (die : Fin 4) (s : State) : Host.Outcome State Fault Refusal :=
  .next (
    let k := die.val
    if (s.dev.fld k).run ≠ .inReset ∨ s.dev.fieldHeld k then s
    else
      let (ns, d) := s.dev.freeNs 1000000 1200000
      let d1 := d.toRaw ((d.fld k).stageAt + ns)
      { s with dev := d1.setFld k { d1.fld k with run := .released, stageAt := d1.time.raw, pllLost := false } })

/-- FIELD_DIE_CONFIGURED (R439, R252, R255): class N configuration is loaded 20 ms to 100 ms later, the die is DISARMED, its inputs read their
first state, and a saved run of the sequence waits for its first cycle. -/
def execFieldDieConfigured (die : Fin 4) (s : State) : Host.Outcome State Fault Refusal :=
  .next (
    let k := die.val
    if (s.dev.fld k).run ≠ .released ∨ !s.dev.hubUp ∨ s.dev.fieldHeld k then s
    else
      let (ns, d) := s.dev.freeNs 20000000 100000000
      let d1 := d.toRaw ((d.fld k).stageAt + ns)
      let f := d1.fld k
      let seq := if f.seq.savedRun then { f.seq with startWait := some f.seq.set, startAt := d1.now + 1000000, auto := true } else f.seq
      let d2 := d1.setFld k { f with run := .run, outState := .disarmed, seq := seq, stageAt := d1.time.raw, resetCause := 0 }
      { s with dev := (List.range 24).foldl (fun acc c => if (acc.dig k c).cfg.mode = 1 then acc.diInit k c else acc) d2 })

/-! Commands (Table 12-5). -/

/-- The settings of a DCH_CONFIG (Table 12-1). -/
def dchCfgOf (q : QPacket) : DigCfg :=
  { mode := BitVec.ofNat 4 (q.f 0 3 0), invert := q.b 0 4, type3 := q.b 0 5, debUnit10 := q.b 0 6, wbEn := q.b 0 7, cntEdge := BitVec.ofNat 2 (q.f 0 9 8), toPoint := q.b 0 10
    group := BitVec.ofNat 2 (q.f 0 12 11), extFw := q.b 0 13, olEn := q.b 0 14, debounce := q.f 0 31 16, point := q.f 1 19 0, refreshMs := q.f 2 15 0, wbThresh := q.f 2 20 16
    wbMs := q.f 2 30 21, limit := q.f 3 6 0, retryMax := q.f 3 15 8, retryMs := q.f 3 31 16, lLoad := q.f 4 13 0, pwmPeriod := q.f 5 19 0 }

/-- Channels that a configuration on lead `c` takes besides the lead (R262). -/
def DigCfg.others (g : DigCfg) (c : Nat) : List Nat := if g.mode.toNat < 2 then [] else (List.range (g.members - 1)).map (fun i => c + 1 + i)

/-- The channel is OFF and free to be a member of the group led by `l`. -/
def Dev.freeFor (d : Dev) (k c l : Nat) : Bool :=
  decide ((d.ana k c).cfg.mode = 0 ∧ (d.dig k c).cfg.mode = 0 ∧ c < 24) &&
    ((d.dig k c).memberOf.isNone || (d.dig k c).memberOf = some l) && !(c % 2 = 1 && (d.ana k (c - 1)).cfg.threeWire)

/-- The configuration breaks R265 on its die. -/
def Dev.clampConflict (d : Dev) (k c : Nat) (g : DigCfg) : Bool :=
  let e := ((List.range 24).map (fun i => if i = c then g.eMax else (d.dig k i).cfg.eMax))
  decide (200 * 7200 * g.members < g.eMax) || decide (1500 * 7200 < e.sum) || decide (8 < (e.filter (fun x => decide (0 < x))).length)

/-- DCH_CONFIG takes effect (R253, R259, R262). -/
def Dev.dchApply (d : Dev) (k c : Nat) (g : DigCfg) : Dev :=
  let old := (d.dig k c).cfg
  let d1 := (old.others c).foldl (fun acc m => acc.setDig k m { acc.dig k m with memberOf := none }) d
  let d2 := (g.others c).foldl (fun acc m => acc.setDig k m { acc.dig k m with memberOf := some c }) d1
  if g.mode = old.mode then
    let d3 := d2.setDig k c { d2.dig k c with cfg := g }
    if (d3.dig k c).overloadOff || (d3.dig k c).clampOver then
      let d4 := (d3.setDig k c { d3.dig k c with clampOver := false, retries := 0 }).dchFault k c 11 false
      if (d4.fld k).outState = .armed then d4.applyCmd k c else d4
    else if g.mode = 1 then d3.setDig k c { d3.dig k c with state := (d3.dig k c).reported } else d3
  else
    let d3 := Dev.clampDrain k 8 (if 2 ≤ old.mode.toNat then d2.outOff k c else d2)
    let d4 := d3.voidEntries k c
    let x : DigChan := { cfg := g, memberOf := none, count := (d4.dig k c).count, faultCnt := (d4.dig k c).faultCnt, lastClamp := (d4.dig k c).lastClamp, clampStart := (d4.dig k c).clampStart,
                         clampEst := (d4.dig k c).clampEst, fresh := decide (2 ≤ g.mode.toNat) }
    let d5 := d4.setDig k c x
    if g.mode = 1 ∧ d5.fldRuns k then d5.diInit k c else d5

/-- The parameter checks of DCH_CONFIG, in order. -/
def dchChecks (s : State) (q : QPacket) : List (Bool × Nat × Nat) :=
  let d := s.dev
  let k := q.pkt.inst
  let c := q.pkt.sub
  let g := dchCfgOf q
  let old := (d.dig k c).cfg
  let di := decide (g.mode = 1)
  let out := decide (2 ≤ g.mode.toNat)
  let busy := !((g.others c).all (fun m => d.freeFor k m c))
  let align := decide (g.group = 1 ∧ c % 2 ≠ 0) || decide (g.group = 2 ∧ c % 4 ≠ 0)
  [encIf (decide (3 < g.mode.toNat) || (out && decide (g.group = 3)) || q.resv 0 0xFFFF7FFF) 0, encIf (q.resv 1 0xFFFFF) 1, encIf (q.resv 2 0x7FFFFFFF) 2,
      encIf (q.resv 3 0xFFFFFF7F) 3, encIf (q.resv 4 0x3FFF) 4, encIf (q.resv 5 0xFFFFF) 5,
      rangeIf (di && (outside g.wbThresh 2 30 || outside g.wbMs 1 1000)) 2, rangeIf (out && (outside g.limit 10 100 || outside g.retryMs 10 10000)) 3,
      rangeIf (out && decide (10000 < g.lLoad)) 4, rangeIf (decide (g.mode = 3) && outside g.pwmPeriod 50 100000) 5,
      conflictIf (decide ((d.ana k c).cfg.mode ≠ 0) || (d.dig k c).memberOf.isSome || (c % 2 = 1 && (d.ana k (c - 1)).cfg.threeWire)) 0,
      conflictIf (out && (align || busy)) 0, conflictIf (decide (g.mode = 3 ∧ 0 < g.lLoad) && !g.extFw) 4, conflictIf (out && d.clampConflict k c g) 4,
      stateIf (decide (g.mode ≠ old.mode) && d.owned (24 * k + c))]

/-- DCH_CONFIG (R253, R440, R262, R265). -/
def opDchConfig : Op where
  code := 0x0701
  target := onChan 24
  classN := true
  params := 6
  body s q :=
    let d := s.dev
    let k := q.pkt.inst
    let c := q.pkt.sub
    let g := dchCfgOf q
    guarded s (dchChecks s q)
      (.ok s (d.dchApply k c g))

/-- DCH_CONFIG. -/
def execDchConfig (p : Packet) (s : State) : Host.Outcome State Fault Refusal := .next (packetRow opDchConfig p s)

/-- The four words of a channel block (Table 12-7); a member reads its lead's MODE and output state. -/
def FieldDie.chanWords (f : FieldDie) (c now : Nat) : List Word :=
  let x := f.dig.rd c
  let l := f.dig.rd (x.memberOf.getD c)
  let cmd := if l.cmdSafe then (f.safeCfg.codes.rd (x.memberOf.getD c) = 1 || (f.safeCfg.codes.rd (x.memberOf.getD c) = 2 && l.on))
    else match f.received (x.memberOf.getD c) now with
      | some t => !isZero32 t.value
      | none => !isZero32 l.cmd
  [pack [(l.cfg.mode.toNat, 0), (b1 cmd, 4), (b1 (l.on && !l.overloadOff && !l.overtemp), 5), (b1 x.state, 6), (b1 x.raw, 7), (b1 x.shortSup, 8), (b1 x.extDrive, 9),
     (b1 x.overload, 10), (b1 x.overloadOff, 11), (b1 x.overtemp, 12), (b1 x.wireBreak, 13), (b1 x.clampOver, 14), (b1 x.safe, 15), (b1 x.deferred, 16), (b1 x.openLoad, 17)],
   pack [(x.iOut.toNat, 0), (x.vTerm.toNat, 16)], pack [(x.retries, 0), (x.faultCnt, 16)], x.count]

/-- The current, the voltage and the comparator of a channel as they are read: measurements, and so free. -/
def Dev.measureChan (d : Dev) (k c : Nat) : Dev :=
  let (w, d1) := d.freeW
  let (b, d2) := d1.freeB
  let x := d2.dig k c
  let raw := if x.cfg.mode ≠ 1 then x.raw else if x.cfg.debounce = 0 then x.diState else b
  d2.setDig k c { x with iOut := BitVec.ofNat 16 (Sys2Proof.Bits.fld w 15 0), vTerm := BitVec.ofNat 16 (Sys2Proof.Bits.fld w 31 16), raw := raw }

/-- DCH_STATUS (Table 12-7). -/
def opDchStatus : Op where
  code := 0x0702
  target := onInst 0x10 4
  params := 1
  body s q :=
    let k := q.pkt.inst
    let first := q.f 0 4 0
    let count := q.f 0 12 8
    let cs := (List.range count).map (fun i => first + i)
    guarded s [encIf (q.resv 0 0x1F1F) 0, rangeIf (outside count 1 24 || decide (24 < first + count)) 0]
      (let d := cs.foldl (fun acc c => acc.measureChan k c) s.dev
       { st := { s with dev := d }, words := cs.flatMap (fun c => (d.fld k).chanWords c d.now) })

/-- DCH_STATUS. -/
def execDchStatus (p : Packet) (s : State) : Host.Outcome State Fault Refusal := .next (packetRow opDchStatus p s)

/-- ARM_OUTPUTS (R268). -/
def opArmOutputs : Op where
  code := 0x0703
  target := onUnit 0x10
  params := 1
  body s q :=
    let d := s.dev
    let arm := bitsOf (q.f 0 3 0) 4
    let dis := bitsOf (q.f 0 7 4) 4
    let t := baseTick (d.now + 50000) * 10000
    let armNew := arm.filter (fun k => (d.fld k).outState ≠ .armed)
    let disNew := dis.filter (fun k => d.fldRuns k && decide ((d.fld k).outState ≠ .disarmed))
    guarded s [encIf (q.resv 0 0xFF) 0, conflictIf (arm.any (fun k => dis.contains k)) 0, stateIf (arm.any (fun k => !d.fldRuns k || d.fieldTested k))]
      (if armNew = [] ∧ disNew = [] then { st := s, status := stOkNoChange }
       else
         let d1 := armNew.foldl (fun (acc : Dev) k => acc.setFld k { acc.fld k with armAt := some (true, t) }) d
         let d2 := disNew.foldl (fun (acc : Dev) k => acc.setFld k { acc.fld k with armAt := some (false, t) }) d1
         { st := { s with dev := d2 }, status := stOkPending })

/-- ARM_OUTPUTS. -/
def execArmOutputs (p : Packet) (s : State) : Host.Outcome State Fault Refusal := .next (packetRow opArmOutputs p s)

/-- OUTPUT_SET (R259, R274); it ends an overload switch-off (R260). -/
def opOutputSet : Op where
  code := 0x0704
  target := onChan 24
  params := 1
  body s q :=
    let d := s.dev
    let k := q.pkt.inst
    let c := q.pkt.sub
    let v := q.par 0
    let m := (d.dig k c).cfg.mode
    guarded s [rangeIf (!fin32 v || (decide (m = 2) && !(isZero32 v || decide (v = one32))) || (decide (m = 3) && !(le32 0 v && le32 v one32))) 0,
        conflictIf (!d.isOut k c || d.owned (24 * k + c)) 0]
      (let x := d.dig k c
       let d1 := if x.overloadOff || x.clampOver then (d.setDig k c { x with clampOver := false, retries := 0 }).dchFault k c 11 false else d
       { st := { s with dev := d1.sendOutput k c v (baseTick (d.now + 50000)) none false }, status := stOkPending })

/-- OUTPUT_SET. -/
def execOutputSet (p : Packet) (s : State) : Host.Outcome State Fault Refusal := .next (packetRow opOutputSet p s)

/-- A safe code that Table 12-4 does not allow for the channel's function. -/
def Dev.badCode (d : Dev) (k c : Nat) (code : BitVec 2) : Bool :=
  if isAo (d.ana k c).cfg.mode then code = 1
  else match (d.dig k (d.lead k c)).cfg.mode.toNat with
    | 2 => code = 3
    | 3 => false
    | _ => code ≠ 0

/-- The safe code that a SAFE_CONFIG gives channel `c`. -/
def safeCodeOf (q : QPacket) (c : Nat) : BitVec 2 :=
  if c < 16 then BitVec.ofNat 2 (q.f 1 (2 * c + 1) (2 * c)) else BitVec.ofNat 2 (q.f 2 (2 * (c - 16) + 1) (2 * (c - 16)))

/-- The settings of a SAFE_CONFIG (Table 12-4). -/
def safeCfgOf (q : QPacket) : SafeCfg :=
  { timeoutMs := q.f 0 13 0, resumeAuto := q.b 0 14, pf := BitVec.ofNat 24 (q.f 3 23 0)
    codes := (List.range 24).foldl (fun (t : Tbl (BitVec 2)) c => t.wr c (safeCodeOf q c)) []
    values := (List.range 24).foldl (fun (t : Tbl Word) c => t.wr c (q.par (4 + c))) [] }

/-- The parameter checks of SAFE_CONFIG, in order. -/
def safeChecks (s : State) (q : QPacket) : List (Bool × Nat × Nat) :=
  let d := s.dev
  let k := q.pkt.inst
  [encIf (q.resv 0 0x7FFF) 0, encIf ((List.range 16).any (fun c => d.badCode k c (safeCodeOf q c))) 1,
    encIf (q.resv 2 0xFFFF || ((List.range 8).any (fun c => d.badCode k (16 + c) (safeCodeOf q (16 + c))))) 2, encIf (q.resv 3 0xFFFFFF) 3,
    rangeIf (outside (q.f 0 13 0) 1 10000) 0] ++
    (List.range 24).map (fun c => rangeIf (!fin32 (q.par (4 + c)) || (decide ((d.dig k c).cfg.mode = 3) && !(le32 0 (q.par (4 + c)) && le32 (q.par (4 + c)) one32))) (4 + c)) ++
    [conflictIf (d.twin.enabled && decide (q.f 0 13 0 < 60)) 0]

/-- SAFE_CONFIG (R271, R274). -/
def opSafeConfig : Op where
  code := 0x0705
  target := onInst 0x10 4
  classN := true
  params := 28
  body s q := guarded s (safeChecks s q) (.ok s (s.dev.setFld q.pkt.inst { s.dev.fld q.pkt.inst with safeCfg := safeCfgOf q }))

/-- SAFE_CONFIG. -/
def execSafeConfig (p : Packet) (s : State) : Host.Outcome State Fault Refusal := .next (packetRow opSafeConfig p s)

/-- COUNTER_READ (R258). -/
def opCounterRead : Op where
  code := 0x0706
  target := onUnit 0x10
  params := 1
  body s q :=
    let first := q.f 0 6 0
    let count := q.f 0 14 8
    guarded s [encIf (q.resv 0 0x7F7F) 0, rangeIf (outside count 1 96 || decide (96 < first + count)) 0]
      (.read s ((List.range count).map (fun i => s.dev.field.countAcc.rd (first + i))))

/-- COUNTER_READ. -/
def execCounterRead (p : Packet) (s : State) : Host.Outcome State Fault Refusal := .next (packetRow opCounterRead p s)

/-- Word of the digital part of a field-die page at offset `o` (Table 12-7). -/
def FieldDie.digWord (f : FieldDie) (o now raw : Nat) : Word :=
  if 0x900 ≤ o ∧ o < 0xA80 then nth (f.chanWords ((o - 0x900) / 16) now) ((o % 16) / 4)
  else match o with
    | 0xB00 => w32 f.outState.num
    | 0xB04 => w32 (f.lastRefresh.getD 0)
    | 0xB08 => pack [(f.snowCnt, 0), (f.cycleHold, 16)]
    | 0xB0C => pack [(f.eWinMj raw, 0), (f.ePendMj, 16)]
    | 0xB10 => w32 f.eAdmitMj
    | 0xB14 => f.clampEvents
    | _ => 0

end Sys2Proof.Machine
end

