-- ==== Sys2Proof/Machine/Frames.lean ====
section
/-! DEFINITION. The control frame (chapter 01): boundaries and their capture, assembly, the deadline, CHECKPOINT into the banks (R132, R283), and
FRAME_SET, FRAME_STOP and FRAME_STATUS. -/

namespace Sys2Proof.Machine

open Sys2Proof.Bits

/-- Changes the frame. -/
def Dev.setFrame (d : Dev) (f : FrameCtl) : Dev := { d with frame := f }

/-- The first frame of a schedule from `lo` on whose boundary lies at or after `t`. -/
def Sched.firstFrom (s : Sched) (t lo : Nat) : Nat :=
  let len := max 1 s.len * 10000000
  max lo (((s.anchorFrame : Int) + ((t : Int) - s.anchor + (len - 1)) / len).toNat)

/-- The next boundary that starts a frame: its frame and instant (R25, R31, R32, R288). -/
def FrameCtl.nextFrame (f : FrameCtl) : Option (Nat × Nat) :=
  let after :=
    let n := f.sched.firstFrom f.resumeAt (f.frameNum + 1)
    match f.pendingSet with
    | some s => if s.anchorFrame ≤ n then s.firstFrom f.resumeAt (max s.anchorFrame (f.frameNum + 1)) else n
    | none => n
  match f.state with
  | .stopped => f.pendingSet.map (fun s =>
      let n := s.firstFrom f.resumeAt s.anchorFrame
      (n, s.anchor + (n - s.anchorFrame) * s.len * 10000000))
  | .running => if f.awaitSet then none else some (after, f.tOf after)
  | .stopping => match f.stopFrame with
    | some m => if after ≤ m then some (after, f.tOf after) else none
    | none => none

/-- A pending schedule takes effect at its anchor boundary (R31). -/
def Dev.schedule (d : Dev) (n : Nat) : Dev :=
  match d.frame.pendingSet with
  | some s =>
    if s.anchorFrame ≤ n then
      (d.setFrame { d.frame with sched := s, pendingSet := none, deadlineCnt := 0 }).raiseCtl 0x02 d.ctlSource .info (s.anchorFrame + 2 ^ 32 * s.len)
    else d
  | none => d

/-- Settings that wait for a boundary take effect (R126, R166), and an islanded device whose UP link is back rejoins (R156). -/
def Dev.atBoundary (d : Dev) : Dev :=
  let c := d.coord
  let back := c.islanded && c.islandEnding
  let d1 := d.setCoord { c with cfg := c.cfgNext.getD c.cfg, cfgNext := none, islanded := c.islanded && !back, islandEnding := false }
  (d1.raiseIf back ((3 + d.runDie) * 256 + 0x56) 0x2200 .info c.islandRun).applySizes

/-- FRAME_BOUNDARY (R25): the snapshot of frame N is captured before anything else of T_N (R30), and frame N begins. -/
def execFrameBoundary (s : State) : Host.Outcome State Fault Refusal :=
  .next (match s.dev.frame.nextFrame with
    | none => s
    | some (n, t) =>
      if !s.dev.ctlUp then s
      else
        let d := s.dev.toCt t
        let gen := BitVec.ofNat 16 (n % 32768)
        let cap := (d.points.capture gen false t)
        let pinned := cap.gens.map (fun g => if g.gen = gen ∧ !g.requested then { g with pinned := true } else g)
        let d0 : Dev := { d with points := { cap with gens := pinned } }
        let d1 := d0.schedule n
        let f := d1.frame
        let st := if f.state = .stopped then .running else f.state
        let d2 := d1.setFrame { f with
          state := st, frameNum := n, everRun := true, phase := .snapshot, tN := t, maxFrameRun := max f.maxFrameRun n
          firstRun := if d.frame.state = .stopped then n else f.firstRun, resumeAt := 0 }
        { s with dev := d2.atBoundary.freeSnap.reserve, frameBank := { gen := some (n % 32768), dev := { d with out := [] } } })

/-- QUALITY of an exported point (R157, R164). -/
def Dev.exportQuality (d : Dev) (p : Nat) (q : Nat) : Nat :=
  let q1 := if q = 0xFF then 0x80 else q
  if d.coord.islanded ∧ (d.jalow.port.rd p).cfg.role = .down then max q1 0x44 else q1

/-- The POINTS message of a port from generation `n` (Table 07-7). -/
def Dev.pointsMsg (d : Dev) (p n : Nat) : List Word :=
  let c := (d.jalow.port.rd p).cfg
  let i := (d.points.heldAt (n % 32768)).getD 0
  [w32 n, w32 c.expCount] ++ (List.range c.expCount).flatMap (fun k =>
    let e := d.points.view i (c.expFirst + k)
    [e.value, e.time, pack [(d.exportQuality p e.quality.toNat, 0), (e.frameTag.toNat, 8)]])

/-- Every port with an export window sends it from the committed generation (R164). -/
def Dev.exportPoints (d : Dev) (n : Nat) : Dev :=
  ((List.range 4).filter (fun p => decide (0 < (d.jalow.port.rd p).cfg.expCount) && decide ((d.jalow.port.rd p).link = .up))).foldl
    (fun acc p => acc.jlSend p 7 (acc.pointsMsg p n)) d

/-- Assembly of frame `n` begins (R26, R92, R96): a model whose frame has come becomes active, and the frame enters coordination where the one
before it has committed. -/
def Dev.beginAssembly (d : Dev) (n : Nat) : Dev :=
  let due := d.piste.pend.any (fun c => decide (c.effective ≤ n))
  let d1 := d.activateDue n
  let d2 := if due then d1.checkIds else d1
  let d3 := if d2.coord.committed then d2.startCoord n d2.frame.tN (d2.frame.deadlineOf n) [] else { d2 with jobs := { d2.jobs with nextOuts := [] } }
  let d4 := d3.setPiste { d3.piste with cursor := some 0, held0 := none, held1 := none, asmFrame := n, doneCnt := 0, asmStart := d.time.raw + 1 }
  Dev.assemble 4097 (d4.setFrame { d4.frame with genCommitted := n, phase := .assemble })

/-- The old die assembles nothing for the frame of a planned swap (R295). -/
def Dev.swapAt (d : Dev) (n : Nat) : Bool := d.twin.swapPending && decide (d.twin.swapFrame = n)

/-- GENERATION_COMMIT (R92): nothing happens before a boundary, while an earlier assembly runs, or while an earlier frame than the last is open. -/
def execGenerationCommit (s : State) : Host.Outcome State Fault Refusal :=
  .next (
    let d := s.dev
    let n := d.frame.frameNum
    let p := d.piste
    if !d.ctlUp || !d.frame.everRun || decide (n ≤ d.frame.genCommitted) || p.cursor.isSome || p.held0.isSome || p.held1.isSome ||
        (!d.coord.committed && decide (d.coord.frame + 1 < n)) || d.swapAt n then s
    else { s with dev := (d.exportPoints n).beginAssembly n })

/-- FRAME_DEADLINE (R29, R150): D_N passes without a commit; a device that decides by itself tells the devices below. -/
def execFrameDeadline (s : State) : Host.Outcome State Fault Refusal :=
  .next (
    let d := s.dev
    if !d.ctlUp || d.coord.committed then s
    else
      let d1 := d.toCt d.coord.dN
      let d2 := if d1.coord.asTop then d1.sendDown [] d1.coord.round true true d1.now else d1
      { s with dev := d2.commitFrame true d2.coord.round d2.now })

/-! CHECKPOINT. -/

/-- Bytes of a warm-start record (Table 06-8). -/
def WarmRec.bytes (r : WarmRec) : Nat := 32 + (r.z.length + r.w.length + r.y.length) * (if r.fp64 then 8 else 4)

/-- Records in ascending subproblem for as long as they fit: those written, and the first that is not (R132). -/
def takeRecs : Nat → Tbl WarmRec → Tbl WarmRec × Option Nat
  | _, [] => ([], none)
  | left, (s, r) :: t =>
    if r.bytes ≤ left then
      let (a, b) := takeRecs (left - r.bytes) t
      ((s, r) :: a, b)
    else ([], some s)

/-- The warm-start records of frame `n` go into their bank; a record that does not fit invalidates the bank's copy (R132). -/
def Dev.writeRecs (d : Dev) (n : Nat) (recs : Tbl WarmRec) : Dev :=
  let (ok, cut) := takeRecs 2097152 recs
  let j := d.jobs
  let bank := if n % 2 = 0 then j.bank0 else j.bank1
  let kept := bank.filter (fun x => !(recs.any (fun y => y.1 = x.1)) && (match cut with
    | some s => decide (x.1 < s)
    | none => true))
  let new := if cut.isSome then ok else ok.foldl (fun (t : Tbl WarmRec) x => t.ins x.1 x.2) kept
  let need := (recs.map (fun x => x.2.bytes)).sum
  let overflow := cut.isSome && !j.wsOverflowRaised
  let j1 : Jobs := { j with
    bank0 := if n % 2 = 0 then new else j.bank0, bank1 := if n % 2 = 0 then j.bank1 else new
    wsBytes := (ok.map (fun x => x.2.bytes)).sum, wsOverflowRaised := j.wsOverflowRaised || cut.isSome }
  ({ d with jobs := j1 }).raiseIf overflow ((3 + d.runDie) * 256 + 0x44) 0x2200 .warn (cut.getD 0 + 2 ^ 16 * need)

/-- Coordination state as written: IDs in ascending order with their prices and targets, then the frozen reports, for as long as they fit 524,288
bytes (R33), 8 bytes a value and a report in its message form; and the bytes that all of it needs. -/
def Dev.coordState' (d : Dev) : Tbl CoupleState × Tbl TargetState × Tbl DownPort × Bool × Nat :=
  let c := d.coord
  let size (x : Nat × CoupleState) : Nat := 8 * x.2.y.length + 8 * ((c.targets.filter (fun t => t.1 % 65536 = x.1)).map (fun t => t.2.z.length)).sum
  let (ids, used, cut) := c.couples.foldl (fun (a : List Nat × Nat × Bool) x =>
    if a.2.2 || decide (524288 < a.2.1 + size x) then (a.1, a.2.1, true) else (x.1 :: a.1, a.2.1 + size x, false)) ([], 0, false)
  let rep (x : DownPort) : Nat := ((x.last).map (fun m => 4 * m.words.length)).getD 0
  let (ports, used2, cut2) := c.ports.foldl (fun (a : Tbl DownPort × Nat × Bool) x =>
    if x.2.last.isNone then a
    else if a.2.2 || decide (524288 < a.2.1 + rep x.2) then (a.1, a.2.1, true)
    else (a.1 ++ [(x.1, ({ last := x.2.last, ref := x.2.ref } : DownPort))], a.2.1 + rep x.2, false)) ([], used, cut)
  let _ := used2
  (c.couples.filter (fun x => ids.contains x.1), c.targets.filter (fun t => ids.contains (t.1 % 65536)), ports, cut2,
    (c.couples.map size).sum + (c.ports.map (fun x => rep x.2)).sum)

/-- Items 2 to 7 of R283 into bank `b`, carrying frame `n`. -/
def Dev.writeBank (d : Dev) (b n : Nat) : Dev :=
  let (couples, targets, ports, cut, need) := d.coordState'
  let bank : CkptBank := {
    frame := n, complete := true, time := d.now, lg := d.piste.lg, mogul := d.aux.mem, couples := couples, targets := targets, frozen := ports, sched := d.frame
    modelPend := d.piste.pend.map (fun c => c.effective), level := d.slalom.level, dPwr := d.slalom.dPwr, dTherm := d.slalom.dTherm }
  let d1 : Dev := { d with
    twin := { d.twin with ckpt := d.twin.ckpt.wr b bank, ckptFrame := n }
    jobs := { d.jobs with csOverflow := d.jobs.csOverflow || cut } }
  d1.raiseIf (cut && !d.jobs.csOverflow) ((3 + d.runDie) * 256 + 0x44) 0x2200 .warn (0xFFF + 2 ^ 16 * need)

/-- The last frame before a stop has completed CHECKPOINT (R32). -/
def Dev.stopAfter (d : Dev) (n : Nat) : Dev :=
  let f := d.frame
  if f.state = .stopping ∧ f.stopFrame = some n then
    let pend := f.pendingSet.filter (fun s => decide (s.anchorFrame ≤ n))
    ((d.setFrame { f with state := .stopped, stopFrame := none, pendingSet := pend, phase := .done }).raiseCtl 0x03 d.ctlSource .info n).abortSnap
  else d

/-- FRAME_CHECKPOINT (R132, R283): PUBLISH and the CHECKPOINT before it have ended. -/
def execFrameCheckpoint (s : State) : Host.Outcome State Fault Refusal :=
  .next (
    let d := s.dev
    match d.jobs.toCkpt with
    | [] => s
    | (n, recs) :: rest =>
      if !d.ctlUp then s
      else
        let d1 := ({ d with jobs := { d.jobs with toCkpt := rest } }).writeRecs n recs
        let d2 := (d1.setFrame { d1.frame with checkpointed := n }).phaseOf n .done
        let d3 := d2.writeBank (n % 2) n
        { s with dev := d3.stopAfter n })

/-- STOPPED_CHECKPOINT (R284): while frames are STOPPED items 2 to 7 are written every 1 s, alternating banks; time is brought forward. -/
def execStoppedCheckpoint (s : State) : Host.Outcome State Fault Refusal :=
  .next (
    let d := s.dev
    if !d.ctlUp ∨ d.frame.state ≠ .stopped then s
    else
      let t0 := (d.twin.ckpt.rd 0).time
      let t1 := (d.twin.ckpt.rd 1).time
      let d1 := if t0 = 0 ∧ t1 = 0 then d else d.toCt (max t0 t1 + 1000000000)
      { s with dev := d1.writeBank (if t1 < t0 then 1 else 0) d1.frame.frameNum })

/-! Commands. -/

/-- The packet came from the manager where the device has an UP port (R31, R32). -/
def Dev.fromManager (d : Dev) (q : QPacket) : Bool := d.upPort.isNone || decide (q.pkt.transport = .relay)

/-- FRAME_SET (R31), refused in QUIESCE (R408); its reply waits for a stream record that holds it (R282). -/
def opFrameSet : Op where
  code := 0x0110
  target := onDie
  die := true
  params := 4
  body s q :=
    let d := s.dev
    let f := d.frame
    let n := (q.par 3).toNat
    let anchor := nearEra d.now (q.par 1) (q.f 2 15 0)
    let sch : Sched := { len := q.f 0 15 0, anchor := anchor.toNat, anchorFrame := n }
    let own : FrameCtl := { f with pendingSet := none }
    guarded s [encIf (q.resv 0 0xFFFF) 0, encIf (q.resv 2 0xFFFF) 2, rangeIf (outside sch.len 10 60000) 0,
        conflictIf (decide (anchor < 0)) 1, conflictIf (decide (f.state = .stopped ∧ anchor.toNat < d.now + 10000000)) 1,
        conflictIf (decide (f.state = .stopped ∧ n ≤ f.maxFrameRun ∧ f.everRun)) 3,
        conflictIf (decide (f.state ≠ .stopped ∧ f.awaitSet = false ∧ (n < f.frameNum + 2 ∨ anchor.toNat ≠ own.tOf n))) 3, conflictIf (!d.fromManager q) 0,
        stateIf (decide (d.power.lp = .quiesce))]
      (let d1 := d.setFrame { f with pendingSet := some sch, awaitSet := false }
       { st := { s with dev := { d1 with twin := { d1.twin with waiting := d1.twin.waiting ++ [{ q with started := true }] } } }, later := true })

/-- FRAME_SET. -/
def execFrameSet (p : Packet) (s : State) : Host.Outcome State Fault Refusal := .next (packetRow opFrameSet p s)

/-- FRAME_STOP (R32); its reply waits for a stream record that holds it (R282). -/
def opFrameStop : Op where
  code := 0x0111
  target := onDie
  die := true
  params := 1
  body s q :=
    let d := s.dev
    let f := d.frame
    let m := if (q.par 0).toNat = 0 then f.frameNum else (q.par 0).toNat
    guarded s [conflictIf (!d.fromManager q) 0]
      (if f.state = .stopped then { st := s, status := stOkNoChange }
       else guarded s [rangeIf (decide (m < f.frameNum)) 0]
         (let done := decide (m = f.frameNum ∧ f.checkpointed = m)
          let f1 := { f with state := .stopping, stopFrame := some m }
          let d1 := if done then (d.setFrame f1).stopAfter m else (d.setFrame f1).abortSnap
          { st := { s with dev := { d1 with twin := { d1.twin with waiting := d1.twin.waiting ++ [{ q with started := true }] } } }, later := true }))

/-- FRAME_STOP. -/
def execFrameStop (p : Packet) (s : State) : Host.Outcome State Fault Refusal := .next (packetRow opFrameStop p s)

/-- STATE of Table 01-14. -/
def FrameState.num : FrameState → Nat
  | .stopped => 0
  | .running => 1
  | .stopping => 2

/-- PHASE of Table 01-14. -/
def FramePhase.num : FramePhase → Nat
  | .snapshot => 0
  | .assemble => 1
  | .solve => 2
  | .coordinate => 3
  | .publish => 4
  | .checkpoint => 5
  | .done => 6

/-- Table 01-14. -/
def FrameCtl.words (f : FrameCtl) : List Word :=
  [w32 f.frameNum, pack [(f.sched.len, 0), (f.state.num, 16), (f.phase.num, 18), (b1 f.pendingSet.isSome, 21)], w32 f.tN, pack [(eraOf f.tN, 0), (f.globalIter, 16)],
   f.commitLagUs, pack [(f.deadlineCnt, 0), (f.olderCnt, 16)], w32 ((f.pendingSet.map (fun s => s.anchorFrame)).getD 0)]

/-- FRAME_STATUS (Table 01-13). -/
def opFrameStatus : Op where
  code := 0x0112
  target := onDie
  die := true
  body s _ := .read s s.dev.frame.words

/-- FRAME_STATUS. -/
def execFrameStatus (p : Packet) (s : State) : Host.Outcome State Fault Refusal := .next (packetRow opFrameStatus p s)

end Sys2Proof.Machine
end

