-- ==== Sys2Proof/Machine/Ptp.lean ====
section
/-! DEFINITION. PTP (R308 to R313): the ordinary clock and the transparent clock. A message is its PTP bytes in the layout of IEEE 1588-2019,
without the encapsulation of its transport and the FCS. -/

namespace Sys2Proof.Machine

open Sys2Proof.Bits

/-- Byte `i` of a message. -/
def pb (m : List Byte) (i : Nat) : Nat := (m.getD i 0).toNat
/-- The `n`-byte big-endian number at byte `i`. -/
def pn (m : List Byte) (i n : Nat) : Nat := natBE ((m.drop i).take n)
/-- messageType. -/
def ptpType (m : List Byte) : Nat := pb m 0 % 16
/-- twoStepFlag. -/
def ptpTwoStep (m : List Byte) : Bool := pb m 6 / 2 % 2 = 1
/-- correctionField, in 2^-16 ns. -/
def ptpCorr (m : List Byte) : Int := sgn 64 (pn m 8 8)
/-- sourcePortIdentity. -/
def ptpSource (m : List Byte) : Nat := pn m 20 10
/-- sequenceId. -/
def ptpSeq (m : List Byte) : Nat := pn m 30 2
/-- The timestamp of the body, in 2^-16 ns. -/
def ptpStamp (m : List Byte) : Int := ((pn m 34 6 * 1000000000 + pn m 40 4 : Nat) : Int) * 65536
/-- Replaces `n` bytes at byte `i` by a number. -/
def ptpPut (m : List Byte) (i n v : Nat) : List Byte := m.take i ++ beBytes n v ++ m.drop (i + n)
/-- Adds to correctionField. -/
def ptpAddCorr (m : List Byte) (v : Int) : List Byte := ptpPut m 8 8 (usgn 64 (ptpCorr m + v))

/-- The length a message type requires, 0 for a reserved type. -/
def ptpLen (t : Nat) : Nat :=
  match t with
  | 0 => 44 | 1 => 44 | 2 => 54 | 3 => 54 | 8 => 44 | 9 => 54 | 10 => 54 | 11 => 64 | 12 => 44 | 13 => 48 | _ => 0

/-- The number of PORT_STATE (Table 14-9). -/
def PtpState.num : PtpState → Nat
  | .initializing => 1 | .faulty => 2 | .disabled => 3 | .listening => 4 | .preMaster => 5 | .master => 6 | .passive => 7 | .uncalibrated => 8 | .slave => 9

/-- The number of a port's state, 0 while PTP is not enabled. -/
def ptpNum (s : Option PtpState) : Nat := (s.map PtpState.num).getD 0

/-- Changes one port. -/
def Dev.setPtp (d : Dev) (p : Nat) (q : PtpPort) : Dev := d.setTime { d.time with port := d.time.port.wr p q }

/-- A port's PORT_STATE becomes `v`: ETH_PTP_STATE at each change. -/
def Dev.ptpState (d : Dev) (p : Nat) (v : Option PtpState) : Dev :=
  let q := d.time.port.rd p
  if q.state = v then d
  else (d.setPtp p { q with state := v }).raise 0x3001 (0x3000 + p) .info (ptpNum v + 16 * ptpNum q.state)

/-- The clock identity (R309): EUI-64 from the MAC address of the OC port, of port 0 where there is none. -/
def Dev.clockId (d : Dev) : Nat :=
  let m := (d.macAddr ((((List.range 3).find? (fun p => (d.time.port.rd p).cfg.oc))).getD 0)).toNat
  m / 2 ^ 24 * 2 ^ 40 + 0xFFFE * 2 ^ 24 + m % 2 ^ 24

/-- The port identity of port `p`. -/
def Dev.portId (d : Dev) (p : Nat) : Nat := d.clockId * 65536 + (p + 1)

/-- PTP starts on a port with its configuration (R323, R325). -/
def PtpPort.restart (q : PtpPort) (raw : Nat) : PtpPort :=
  { cfg := q.cfg, state := if q.cfg.enable then some .listening else none, annAt := raw, rxEvent := q.rxEvent, txEvent := q.txEvent, tcFwd := q.tcFwd,
    badMsg := q.badMsg, residMaxNs := q.residMaxNs }

/-- Restarts PTP on a port. -/
def Dev.ptpRestart (d : Dev) (p : Nat) : Dev :=
  let q := d.time.port.rd p
  let v := (q.restart d.time.raw).state
  (d.setPtp p { q.restart d.time.raw with state := q.state }).ptpState p v

/-- A PTP message leaves port `p`; event messages count in TX_EVENT. -/
def Dev.ptpSend (d : Dev) (p : Nat) (m : List Byte) : Dev :=
  let q := d.time.port.rd p
  let d1 := if ptpType m < 4 then d.setPtp p { q with txEvent := q.txEvent + 1 } else d
  d1.emit (.ethFrame p m)

/-- A header of 34 bytes for a message of this clock. -/
def Dev.ptpHead (d : Dev) (p t seq : Nat) (log : Int) (corr : Int) : List Byte :=
  beBytes 1 t ++ beBytes 1 2 ++ beBytes 2 (ptpLen t) ++ beBytes 1 (d.time.port.rd p).cfg.domain.toNat ++ beBytes 3 0 ++ beBytes 8 (usgn 64 corr) ++
    beBytes 4 0 ++ beBytes 10 (d.portId p) ++ beBytes 2 seq ++ beBytes 1 (if t = 0 then 0 else if t = 1 then 1 else if t = 9 then 3 else 5) ++
    beBytes 1 (usgn 8 log)

/-- The ten bytes of a PTP timestamp (R311). -/
def ptpTime (ns : Nat) : List Byte := beBytes 6 (ns / 1000000000) ++ beBytes 4 (ns % 1000000000)

/-- The ingress stamp of a message that arrives now (R310), in 2^-16 ns. -/
def Dev.rxStamp (d : Dev) (q : PtpPort) : Int := d.time.ctFix d.time.raw - q.cfg.rxLat * 65536

/-- The egress stamp of a message that leaves now (R310). -/
def Dev.txStamp (d : Dev) (q : PtpPort) : Int := d.time.ctFix d.time.raw + q.cfg.txLat * 65536

/-- Whole nanoseconds of a stamp. -/
def stampNs (v : Int) : Nat := (v / 65536).toNat

/-- The profile measures link delays (R309). -/
def PtpCfg.p2p (c : PtpCfg) : Bool := c.profile ≠ 0

/-! The transparent clock (R312). -/

/-- Forwards a message from port `p` to port `e`. -/
def Dev.tcForward (d : Dev) (p e : Nat) (m : List Byte) : Dev :=
  let (r, d1) := d.freeN 3000
  let i := d1.time.port.rd p
  let q := d1.time.port.rd e
  let t := ptpType m
  let res : Int := (r : Int) * 65536 + (r : Int) * d1.time.rate / 16777216
  let link : Int := if i.cfg.p2p ∧ t = 0 then i.meanDelay * 4096 else 0
  let held := q.resid.rd (ptpSeq m)
  let m' := if t = 0 ∧ ptpTwoStep m then m else if t < 4 then ptpAddCorr m (res + link) else if t = 8 then ptpAddCorr m held else m
  let resid := if t = 0 ∧ ptpTwoStep m then q.resid.wr (ptpSeq m) (res + link) else if t = 8 then q.resid.wr (ptpSeq m) 0 else q.resid
  (d1.setPtp e { q with resid := resid, tcFwd := q.tcFwd + 1, residMaxNs := if t < 4 then max q.residMaxNs r else q.residMaxNs }).ptpSend e m'

/-- The ports a message from port `p` is forwarded to (R309). -/
def Dev.tcPorts (d : Dev) (p : Nat) (m : List Byte) : List Nat :=
  let t := ptpType m
  if (d.time.port.rd p).cfg.p2p && (t = 2 || t = 3 || t = 10) then []
  else (List.range 3).filter (fun e => decide (e ≠ p) && (d.time.port.rd e).cfg.enable)

/-! The ordinary clock (R308, R313). -/

/-- What the best master clock algorithm compares, the better one smaller. -/
def PtpMaster.key (m : PtpMaster) : List Nat := [m.prio1, m.cls, m.acc, m.var, m.prio2, m.gm.toNat, m.steps, m.source.toNat]

/-- The first list is smaller at the first place where they differ. -/
def lexLt : List Nat → List Nat → Bool
  | a :: as, b :: bs => if a < b then true else if b < a then false else lexLt as bs
  | _, _ => false

/-- This clock's own data set. -/
def Dev.ownMaster (d : Dev) (p : Nat) : PtpMaster :=
  let c := (d.time.port.rd p).cfg
  { prio1 := c.prio1.toNat, cls := c.clockClass.toNat, acc := 0xFE, var := 0xFFFF, prio2 := c.prio2.toNat, gm := BitVec.ofNat 64 d.clockId,
    source := BitVec.ofNat 80 (d.portId p) }

/-- The data set of an Announce. -/
def announceOf (m : List Byte) : PtpMaster :=
  { prio1 := pb m 47, cls := pb m 48, acc := pb m 49, var := pn m 50 2, prio2 := pb m 52, gm := BitVec.ofNat 64 (pn m 53 8), steps := pn m 61 2,
    source := BitVec.ofNat 80 (ptpSource m) }

/-- The parent of the OC port becomes `a`: ETH_PTP_GM_CHANGE where its grandmaster is another one. -/
def Dev.setParent (d : Dev) (p : Nat) (a : PtpMaster) : Dev :=
  let q := d.time.port.rd p
  let changed := decide (q.parent.map (fun x => x.gm) ≠ some a.gm)
  (d.setPtp p { q with parent := some a, annAt := d.time.raw }).raiseIf changed 0x3002 (0x3000 + p) .warn a.gm.toNat

/-- An Announce reaches the ordinary clock: the state decision of the default best master clock algorithm. -/
def Dev.ptpAnnounce (d : Dev) (p : Nat) (m : List Byte) : Dev :=
  let q := d.time.port.rd p
  let a := announceOf m
  let own := d.ownMaster p
  let mine : Bool := match q.parent with
    | some b => decide (b.source = a.source)
    | none => false
  let better : Bool := match q.parent with
    | some b => lexLt a.key b.key
    | none => true
  if !(mine || better) then d
  else if q.cfg.masterCap && lexLt own.key a.key then
    (d.setPtp p { q with parent := none, annAt := d.time.raw }).ptpState p (some .master)
  else
    let d1 := d.setParent p a
    if q.cfg.masterCap && decide (q.cfg.clockClass.toNat < 128) then d1.ptpState p (some .passive)
    else if mine && (q.state = some .slave || q.state = some .uncalibrated) then d1
    else d1.ptpState p (some .uncalibrated)

/-- An offset sample is computed (R313): it goes to the servo's queue, and an uncalibrated port becomes SLAVE. -/
def Dev.ptpSample (d : Dev) (p : Nat) (fix : Int) : Dev :=
  let d1 := if d.time.cfg.source = 1 then d.setTime { d.time with sampleQ := d.time.sampleQ ++ [divRoundEven fix 65536] } else d
  d1.ptpState p (some .slave)

/-- A complete Sync: t1 with corrections applied, and t2. -/
def Dev.ptpSync (d : Dev) (p : Nat) (t1 t2 : Int) : Dev :=
  let q := d.time.port.rd p
  if q.cfg.p2p then (d.setPtp p { q with t1 := t1, t2 := t2 }).ptpSample p (t2 - t1 - q.meanDelay * 4096)
  else d.setPtp p { q with t1 := t1, t2 := t2, haveSync := true }

/-- A message from this clock's parent while the port follows it. -/
def PtpPort.fromParent (q : PtpPort) (m : List Byte) : Bool :=
  (q.state = some .slave || q.state = some .uncalibrated) && decide (q.parent.map (fun x => x.source.toNat) = some (ptpSource m))

/-- The ordinary clock's handling of a message on the OC port. -/
def Dev.ocReceive (d : Dev) (p : Nat) (m : List Byte) : Dev :=
  let q := d.time.port.rd p
  match ptpType m with
  | 0 =>
    if !q.fromParent m then d
    else if ptpTwoStep m then d.setPtp p { q with syncWait := some (ptpSeq m, d.rxStamp q, ptpCorr m), syncRaw := d.time.raw }
    else d.ptpSync p (ptpStamp m + ptpCorr m) (d.rxStamp q)
  | 1 =>
    if q.state ≠ some .master then d
    else d.ptpSend p (d.ptpHead p 9 (ptpSeq m) q.cfg.logDelay (ptpCorr m) ++ ptpTime (stampNs (d.rxStamp q)) ++ beBytes 10 (ptpSource m))
  | 8 =>
    match q.syncWait with
    | some (n, t2, c) =>
      if q.fromParent m && decide (ptpSeq m = n ∧ d.time.raw ≤ q.syncRaw + 1000000000) then
        (d.setPtp p { q with syncWait := none }).ptpSync p (ptpStamp m + c + ptpCorr m) t2
      else d
    | none => d
  | 9 =>
    if q.fromParent m && q.haveSync && !q.cfg.p2p && decide (pn m 44 10 = d.portId p ∧ ptpSeq m + 1 = q.reqSeq.toNat) then
      let t4 := ptpStamp m - ptpCorr m
      let up := t4 - q.t3
      let down := q.t2 - q.t1
      (d.setPtp p { q with haveSync := false, meanDelay := satI 32 ((down + up) / 8192) }).ptpSample p ((down - up) / 2)
    else d
  | 11 => d.ptpAnnounce p m
  | _ => d

/-- Peer delay on a port (R309, R311, R313). -/
def Dev.peerReceive (d : Dev) (p : Nat) (m : List Byte) : Dev :=
  let q := d.time.port.rd p
  let mine := decide (pn m 44 10 = d.portId p ∧ ptpSeq m + 1 = q.reqSeq.toNat)
  match ptpType m with
  | 2 =>
    let turn := Config.freeNat d.free
    let d1 := { d with free := d.free + 1 }
    d1.ptpSend p (d1.ptpHead p 3 (ptpSeq m) 127 (ptpCorr m + (turn : Int) * 65536 + (q.cfg.rxLat + q.cfg.txLat) * 65536) ++ ptpTime 0 ++
      beBytes 10 (ptpSource m))
  | 3 =>
    if !mine then d
    else if ptpTwoStep m then d.setPtp p { q with pdWait := some (ptpStamp m - ptpCorr m, d.rxStamp q) }
    else d.setPtp p { q with meanDelay := satI 32 ((d.rxStamp q - q.t3 - ptpCorr m) / 8192) }
  | 10 =>
    match q.pdWait with
    | some (t2, t4) =>
      if mine then d.setPtp p { q with pdWait := none, meanDelay := satI 32 ((t4 - q.t3 - (ptpStamp m + ptpCorr m - t2)) / 8192) } else d
    | none => d
  | _ => d

/-- PTP_MESSAGE_RECEIVE (R309, R312, R313): a bad message is counted, one of another domain is left; the others are forwarded and delivered. -/
def execPtpMessageReceive (port : Fin 3) (m : List Byte) (s : State) : Host.Outcome State Fault Refusal :=
  hubStep s fun d =>
    let p := port.val
    let q := d.time.port.rd p
    if !q.cfg.enable then d
    else if ptpLen (ptpType m) = 0 ∨ m.length < ptpLen (ptpType m) ∨ pn m 2 2 < ptpLen (ptpType m) then
      (d.setPtp p { q with badMsg := bump 16 q.badMsg }).satAt 0x30 16 (bump 16 q.badMsg)
    else
      let d1 := if ptpType m < 4 then d.setPtp p { q with rxEvent := q.rxEvent + 1 } else d
      if pb m 4 ≠ q.cfg.domain.toNat then d1
      else
        let d2 := (d1.tcPorts p m).foldl (fun acc e => acc.tcForward p e m) d1
        let d3 := if q.cfg.p2p then d2.peerReceive p m else d2
        if q.cfg.oc then d3.ocReceive p m else d3

/-- 10^9 · 2^log ns. -/
def logNs (log : Int) : Nat := if log < 0 then 1000000000 / 2 ^ log.natAbs else 1000000000 * 2 ^ log.toNat

/-- The interval of a message type that a port sends by itself. -/
def PtpCfg.interval (c : PtpCfg) (t : Nat) : Nat := logNs (if t = 0 then c.logSync else if t = 11 then c.logAnnounce else c.logDelay)

/-- The port sends messages of type `t` by itself in its present state (R311). -/
def PtpPort.sends (q : PtpPort) (t : Nat) : Bool :=
  q.cfg.enable && (match t with
    | 0 => q.cfg.oc && q.state = some .master
    | 11 => q.cfg.oc && q.state = some .master
    | 1 => q.cfg.oc && !q.cfg.p2p && (q.state = some .slave || q.state = some .uncalibrated)
    | 2 => q.cfg.p2p
    | _ => false)

/-- PTP_TRANSMIT_TIMER (R310, R311): the interval of a message type has passed since the last one; the port sends the next. -/
def execPtpTransmitTimer (port : Fin 3) (kind : BitVec 4) (s : State) : Host.Outcome State Fault Refusal :=
  hubStep s fun d0 =>
    let p := port.val
    let t := kind.toNat
    if !(d0.time.port.rd p).sends t then d0
    else
      let q0 := d0.time.port.rd p
      let d := d0.toRaw (q0.txAt.rd t + q0.cfg.interval t)
      let q := { q0 with txAt := q0.txAt.wr t d.time.raw }
      let e := d.txStamp q
      match t with
      | 0 =>
        (d.setPtp p { q with syncSeq := q.syncSeq + 1 }).ptpSend p
          (d.ptpHead p 0 q.syncSeq.toNat q.cfg.logSync (e % 65536) ++ ptpTime (stampNs e))
      | 11 =>
        let c := q.cfg
        (d.setPtp p { q with annSeq := q.annSeq + 1 }).ptpSend p
          (d.ptpHead p 11 q.annSeq.toNat c.logAnnounce 0 ++ ptpTime 0 ++ beBytes 2 c.utcOffset.toNat ++ beBytes 1 0 ++ beBytes 1 c.prio1.toNat ++
            beBytes 1 c.clockClass.toNat ++ beBytes 1 0xFE ++ beBytes 2 0xFFFF ++ beBytes 1 c.prio2.toNat ++ beBytes 8 d.clockId ++ beBytes 2 0 ++ beBytes 1 0xA0)
      | _ =>
        (d.setPtp p { q with reqSeq := q.reqSeq + 1, t3 := e, pdWait := none }).ptpSend p
          (d.ptpHead p t q.reqSeq.toNat 127 0 ++ ptpTime 0 ++ (if t = 2 then beBytes 10 0 else []))

/-- ANNOUNCE_RECEIPT_TIMEOUT (R308): no Announce of the parent has come for ANNOUNCE_TO intervals. -/
def execAnnounceReceiptTimeout (port : Fin 3) (s : State) : Host.Outcome State Fault Refusal :=
  hubStep s fun d0 =>
    let p := port.val
    let q := d0.time.port.rd p
    if !q.cfg.enable || !q.cfg.oc || q.state = some .master then d0
    else
      let d := d0.toRaw (q.annAt + q.cfg.announceTo * logNs q.cfg.logAnnounce)
      let q' := { q with parent := none, syncWait := none, haveSync := false, annAt := d.time.raw }
      (d.setPtp p q').ptpState p (some (if q.cfg.masterCap then .master else .listening))

/-- FOLLOWUP_TIMEOUT (R313): a two-step Sync that no Follow_Up has matched for 1 s is discarded. -/
def execFollowupTimeout (port : Fin 3) (s : State) : Host.Outcome State Fault Refusal :=
  hubStep s fun d =>
    let q := d.time.port.rd port.val
    if q.syncWait.isNone then d else (d.toRaw (q.syncRaw + 1000000000)).setPtp port.val { q with syncWait := none }

/-- The settings a PTP_CONFIG carries (Table 14-6). -/
def ptpCfgOf (q : QPacket) : PtpCfg :=
  { enable := q.b 0 0, profile := BitVec.ofNat 2 (q.f 0 2 1), udp := q.b 0 3, oc := q.b 0 4, masterCap := q.b 0 5, domain := BitVec.ofNat 8 (q.f 0 15 8),
    prio1 := BitVec.ofNat 8 (q.f 0 23 16), prio2 := BitVec.ofNat 8 (q.f 0 31 24), clockClass := BitVec.ofNat 8 (q.f 1 7 0), logSync := sgn 4 (q.f 1 11 8),
    logAnnounce := sgn 4 (q.f 1 15 12), logDelay := sgn 4 (q.f 1 19 16), announceTo := q.f 1 23 20, rxLat := sgn 16 (q.f 2 15 0),
    txLat := sgn 16 (q.f 2 31 16), utcOffset := BitVec.ofNat 16 (q.f 3 15 0) }

/-- The profile forbids a value (R308, Table 14-1): IEC/IEEE 61850-9-3 runs on IEEE 802.3 only, with intervals of 1 s and a receipt timeout of 3. -/
def PtpCfg.forbidden (c : PtpCfg) : Bool :=
  decide (c.profile = 2) && (c.udp || decide (c.logSync ≠ 0 ∨ c.logAnnounce ≠ 0 ∨ c.logDelay ≠ 0 ∨ c.announceTo ≠ 3))

/-- The parameter checks of PTP_CONFIG, in order. -/
def ptpChecks (s : State) (q : QPacket) : List (Bool × Nat × Nat) :=
  let c := ptpCfgOf q
  let p := q.pkt.inst
  let others := ((List.range 3).filter (fun e => decide (e ≠ p))).map (fun e => (s.dev.time.port.rd e).cfg)
  let e := s.dev.host.eth.rd p
  [encIf (decide (c.profile = 3) || q.resv 0 0xFFFFFF3F) 0, encIf (q.resv 1 0xFFFFFF) 1,
      rangeIf (decide (c.logSync < -4 ∨ 1 < c.logSync ∨ c.logAnnounce < -3 ∨ 3 < c.logAnnounce ∨ c.logDelay < -4 ∨ 5 < c.logDelay) ||
        outside c.announceTo 2 10) 1,
      rangeIf (decide (2000 < c.rxLat.natAbs ∨ 2000 < c.txLat.natAbs)) 2, encIf (q.resv 3 0xFFFF) 3,
      conflictIf (c.oc && others.any (fun o => o.oc)) 0,
      conflictIf (c.enable && others.any (fun o => o.enable && decide (o.profile ≠ c.profile ∨ o.domain ≠ c.domain))) 0,
      conflictIf c.forbidden 0, conflictIf (c.enable && !e.enable) 0, conflictIf (c.udp && decide (e.ipv4 = 0)) 0]

/-- PTP_CONFIG (R323): the port restarts PTP after the reply. -/
def opPtpConfig : Op where
  code := 0x0803
  target := onInst 0x30 3
  classN := true
  params := 4
  body s q :=
    guarded s (ptpChecks s q) (.ok s s.dev)
  after q s :=
    let p := q.pkt.inst
    let x := s.dev.time.port.rd p
    { s with dev := (s.dev.setPtp p { x with cfg := ptpCfgOf q }).ptpRestart p }

/-- PTP_CONFIG. -/
def execPtpConfig (p : Packet) (s : State) : Host.Outcome State Fault Refusal := .next (packetRow opPtpConfig p s)

/-- Word of the PTP port block at offset 0x400 + 4·i (Table 14-9). -/
def PtpPort.word (q : PtpPort) (i : Nat) : Word :=
  let a : PtpMaster := q.parent.getD {}
  match i with
  | 0 => pack [(ptpNum q.state, 0), (b1 q.cfg.oc, 4), (a.steps % 256, 8), (a.cls, 16)]
  | 1 => w32 a.gm.toNat
  | 2 => w32 (a.gm.toNat / 2 ^ 32)
  | 3 => wInt q.meanDelay
  | 4 => q.rxEvent
  | 5 => q.txEvent
  | 6 => q.tcFwd
  | 7 => pack [(q.badMsg, 0), (q.residMaxNs, 16)]
  | 8 => pack [(usgn 16 q.cfg.rxLat, 0), (usgn 16 q.cfg.txLat, 16)]
  | _ => 0

/-- Word of the time-base registers at hub offset 0xA00 + 4·i (Table 14-8). -/
def NetTime.word (t : NetTime) (i : Nat) : Word :=
  match i with
  | 0 => w32 t.raw
  | 1 => t.shRawHi
  | 2 => w32 (t.ctAt t.raw)
  | 3 => t.shTimeHi
  | 4 => pack [(t.shFrac.toNat % 65536, 0)]
  | 5 => wInt (t.ofs / 65536)
  | 6 => pack [(usgn 16 (t.ofs / 65536 / 4294967296), 0), (usgn 16 t.ofs, 16)]
  | 7 => wInt t.rate
  | 8 => w32 t.tRef
  | 9 => pack [(t.servo.num, 0), (t.stepGen.toNat, 16)]
  | 10 => wInt t.lastOffset
  | 11 => w32 t.timeErr
  | 12 => pack [(t.stepCnt, 0), (t.outlierCnt, 16)]
  | 13 => wInt t.lastStepNs
  | 14 => t.acc
  | 15 => w32 (t.tRef / 2 ^ 32)
  | _ => 0

/-- PTP_STATUS (Table 14-8): the port block and the words 0x0A24 to 0x0A2C. -/
def opPtpStatus : Op where
  code := 0x0804
  target := onInst 0x30 3
  body s q := .read s ((List.range 9).map (s.dev.time.port.rd q.pkt.inst).word ++ [s.dev.time.word 9, s.dev.time.word 10, s.dev.time.word 11])

/-- PTP_STATUS. -/
def execPtpStatus (p : Packet) (s : State) : Host.Outcome State Fault Refusal := .next (packetRow opPtpStatus p s)

end Sys2Proof.Machine
end

