-- ==== Sys2Proof/Machine/Keys.lean ====
section
/-! DEFINITION. The key store (chapter 18): roots, slots, provisioning, derivation, challenge and erasure. -/

namespace Sys2Proof.Machine

open Sys2Proof.Bits Sys2Proof.Crypto

/-- Number of a slot's STATE (Table 18-4). -/
def SlotState.num : SlotState → Nat
  | .empty => 0
  | .valid => 1
  | .exhausted => 2
  | .expired => 3

/-- Number of EMPTY_WHY (Table 18-4). -/
def EmptyWhy.num : EmptyWhy → Nat
  | .never => 0
  | .erased => 1
  | .cascade => 2
  | .zeroised => 3
  | .rootChanged => 4

/-- Changes one slot. -/
def Dev.setKeySlot (d : Dev) (i : Nat) (k : KeySlot) : Dev := { d with keys := { d.keys with slots := d.keys.slots.wr i k } }

/-- A slot emptied for a reason: GEN_LAST and RESP_CNT stay, and USE_CNT until it is filled again. -/
def KeySlot.emptied (k : KeySlot) (why : EmptyWhy) : KeySlot :=
  { state := .empty, why := why, genLast := k.genLast, respCnt := k.respCnt, useCnt := k.useCnt }

/-- The next bytes of the hub's true random number generator. -/
def Dev.random (d : Dev) (n : Nat) : List Byte × Dev := ((List.range n).map (fun i => Config.randomByte (d.free + i)), { d with free := d.free + n })

/-- The hub generates a root where the backup domain holds none (R374): the persistent slots that another root sealed become EMPTY. -/
def Dev.genRoot (d : Dev) : Dev :=
  if d.keys.root.isSome then d
  else
    let (root, d1) := d.random 32
    let fp := w32 (natLE ((hmac root (ascii "fp")).take 4))
    let slots := (List.range 63).foldl (fun t i =>
      let k := Tbl.rd t (i + 1)
      if k.state ≠ .empty ∧ k.lifetime ≠ 2 ∧ k.sealFp ≠ fp then t.wr (i + 1) (k.emptied .rootChanged) else t) d1.keys.slots
    { d1 with keys := { d1.keys with root := some root, rootFp := fp, slots := slots } }

/-- The slots whose PARENT chain leads to one of a set (R380). -/
def KeyStore.children (k : KeyStore) : Nat → List Nat → List Nat
  | 0, set => set
  | fuel + 1, set =>
    let new := ((List.range 64).filter (fun i => 0 < i)).filter (fun i =>
      i ∉ set && decide ((k.slots.rd i).state ≠ .empty) && decide ((k.slots.rd i).parent ∈ set))
    if new = [] then set else KeyStore.children k fuel (set ++ new)

/-- The slots that fall with slot `i`, itself left out; slot 0 has no dependants. -/
def KeyStore.dependants (k : KeyStore) (i : Nat) : List Nat := if i = 0 then [] else (k.children 64 [i]).filter (fun x => x ≠ i)

/-- Erases the dependants of a slot (R380) and, where `self` is given, the slot itself; KEY_ERASED carries their mask. -/
def Dev.cascade (d : Dev) (i : Nat) (self : Bool) : Dev :=
  let deps := d.keys.dependants i
  let d1 := deps.foldl (fun acc x => acc.setKeySlot x ((acc.keys.slots.rd x).emptied .cascade)) d
  let d2 := if self then d1.setKeySlot i ((d1.keys.slots.rd i).emptied .erased) else d1
  let all := if self then i :: deps else deps
  d2.raiseIf (decide (all ≠ [])) 0x4203 0x4200 .info (maskOf all)

/-- L of a slot returns to 0 on every transport (R381). -/
def Dev.clearSeq (d : Dev) (slot : Nat) : Dev :=
  { d with host := { d.host with lastSeq := (List.range 4).foldl (fun t n => t.wr (n * 64 + slot) 0) d.host.lastSeq } }

/-- Fills a slot with a key (R380 to R383). -/
def Dev.fillSlot (d : Dev) (i : Nat) (k : KeySlot) (derived : Bool) : Dev :=
  let before := d.chainKey
  let old := d.keys.slots.rd i
  let d1 := (d.cascade i false).setKeySlot i { k with state := .valid, why := .never, respCnt := old.respCnt, useCnt := 0, sealFp := d.keys.rootFp }
  let d2 := (d1.clearSeq i).raise 0x4202 0x4200 .info (i + 256 * b1 derived + 512 * k.purpose.toNat + 65536 * k.genLast)
  d2.chainChange before (decide (i = 63))

/-- The KCV of a key: the first 3 bytes of HMAC(key, "kcv"). -/
def kcv (key : List Byte) : Word := w32 (natLE ((hmac key (ascii "kcv")).take 3))

/-- A purpose code of Table 18-2. -/
def purposeOk (p : Nat) : Bool := decide (1 ≤ p ∧ p ≤ 5)

/-- The parameter checks of KEY_PROVISION, in order. -/
def keyProvisionChecks (d : Dev) (q : QPacket) : List (Bool × Nat × Nat) :=
  let slot := q.f 0 5 0
  let wrap := q.f 0 13 8
  let purpose := q.f 0 18 16
  let life := q.f 0 20 19
  let uses := q.f 1 15 0
  let gen := q.f 1 31 16
  let refusal := if wrap = 0 then (if (d.keys.slots.rd 0).state = .valid then none else some stKeyUnusable) else d.keyRefusal wrap 4
  [encIf (q.resv 0 0x1F3F3F || !purposeOk purpose || decide (life = 3)) 0, encIf (decide (life ≠ 1 ∧ uses ≠ 0)) 1,
    rangeIf (decide ((life = 1 ∧ uses = 0) ∨ gen = 0)) 1,
    conflictIf (if slot = 0 then decide (purpose ≠ 1 ∨ life ≠ 0 ∨ wrap ≠ 0) else decide (wrap = slot)) 0,
    (refusal.isSome, refusal.getD 0, 4), (decide (gen ≤ (d.keys.slots.rd slot).genLast), stAuthReplay, 5), (d.keyWaits wrap, stBusy, 4)]

/-- The key that a KEY_PROVISION carries, none where its tag is not right (R382). -/
def Dev.unwrapKey (d : Dev) (q : QPacket) : Option (List Byte) :=
  gcmOpen (hkdf32 (d.keys.slots.rd (q.f 0 13 8)).key d.serialBytes (ascii "wrap")) (bytesAll ((q.from' 2).take 3))
    (bytesAll (q.pkt.params.take 5) ++ d.serialBytes) (bytesAll ((q.from' 5).take 8)) (bytesAll ((q.from' 13).take 4))

/-- KEY_PROVISION (R382): unwraps a key into a slot. -/
def opKeyProvision : Op where
  code := 0x0B01
  target := onUnit 0x42
  params := 17
  body s q :=
    let d := s.dev
    let slot := q.f 0 5 0
    let wrap := q.f 0 13 8
    let purpose := q.f 0 18 16
    let life := q.f 0 20 19
    let uses := q.f 1 15 0
    let gen := q.f 1 31 16
    guarded s (keyProvisionChecks d q)
      (match d.unwrapKey q with
       | none =>
         { st := { s with dev := d.raise 0x4206 0x4200 .warn (slot + 256 * wrap + 2 ^ 32 * gen) }, status := stAuthFail, detail := 0x11 }
       | some k =>
         .ok s ((d.useKey wrap).fillSlot slot { purpose := BitVec.ofNat 3 purpose, lifetime := BitVec.ofNat 2 life, parent := wrap, usesLeft := uses,
                                                genLast := gen, key := k } false))

/-- KEY_PROVISION. -/
def execKeyProvision (p : Packet) (s : State) : Host.Outcome State Fault Refusal := .next (packetRow opKeyProvision p s)

/-- The parameter checks of KEY_DERIVE, in order. -/
def keyDeriveChecks (d : Dev) (q : QPacket) : List (Bool × Nat × Nat) :=
  let child := q.f 0 5 0
  let parent := q.f 0 13 8
  let purpose := q.f 0 18 16
  let life := q.f 0 20 19
  let len := q.f 0 29 24
  let uses := q.f 1 15 0
  let label := bytesAll ((q.from' 2).take 12)
  let ck := d.keys.slots.rd child
  let pk := d.keys.slots.rd parent
  let refusal := d.keyRefusal parent 2
  [encIf (q.resv 0 0x3F1F3F3F || !purposeOk purpose || decide (life = 3)) 0, encIf (q.resv 1 0xFFFF || decide (life ≠ 1 ∧ uses ≠ 0)) 1,
    encIf ((label.drop len).any (fun b => b ≠ 0)) 2,
    rangeIf (decide (child = 0 ∨ parent = 0 ∨ len = 0 ∨ 48 < len)) 0, rangeIf (decide (life = 1 ∧ uses = 0)) 1,
    conflictIf (decide (child = parent ∨ ck.state = .valid ∨ purpose = 4 ∨ (pk.state ≠ .empty ∧ pk.lifetime = 2 ∧ life ≠ 2))) 0,
    (refusal.isSome, refusal.getD 0, 4), (decide (ck.state = .exhausted), stKeyExhausted, 4), (d.keyWaits parent, stBusy, 4)]

/-- KEY_DERIVE (R383, R384): forms a child key from a DERIVE parent. -/
def opKeyDerive : Op where
  code := 0x0B02
  target := onUnit 0x42
  params := 14
  body s q :=
    let d := s.dev
    let child := q.f 0 5 0
    let parent := q.f 0 13 8
    let purpose := q.f 0 18 16
    let life := q.f 0 20 19
    let len := q.f 0 29 24
    let uses := q.f 1 15 0
    let label := bytesAll ((q.from' 2).take 12)
    let ck := d.keys.slots.rd child
    let pk := d.keys.slots.rd parent
    let key := hkdf32 pk.key d.serialBytes (BitVec.ofNat 8 purpose :: label.take len)
    guarded s (keyDeriveChecks d q)
      { st := { s with dev := (d.useKey parent).fillSlot child { purpose := BitVec.ofNat 3 purpose, lifetime := BitVec.ofNat 2 life, parent := parent,
                                                                 usesLeft := uses, genLast := ck.genLast, key := key } true }
        words := [kcv key] }

/-- KEY_DERIVE. -/
def execKeyDerive (p : Packet) (s : State) : Host.Outcome State Fault Refusal := .next (packetRow opKeyDerive p s)

/-- Word `i` of a slot's registers (Table 18-4). -/
def KeySlot.word (k : KeySlot) (i : Nat) : Word :=
  match i with
  | 0 => pack [(k.state.num, 0), (k.purpose.toNat, 2), (k.lifetime.toNat, 5), (k.parent, 7), (k.why.num, 13), (k.usesLeft, 16)]
  | 1 => w32 k.genLast
  | 2 => w32 k.respCnt
  | _ => w32 k.useCnt.toNat

/-- A word of the key store's page (Table 18-4). -/
def Dev.keyWord (d : Dev) (off : Nat) : Word :=
  if off = 0 then pack [(b1 d.keys.root.isSome, 0), (d.keys.cause.toNat, 2), (d.keys.pend.toNat, 5), (d.keys.cnt, 16)]
  else if off = 4 then d.keys.rootFp
  else if 0x100 ≤ off ∧ off < 0x500 then (d.keys.slots.rd ((off - 0x100) / 16)).word ((off % 16) / 4)
  else 0

/-- KEY_STATUS (Table 18-7). -/
def opKeyStatus : Op where
  code := 0x0B03
  target := onUnit 0x42
  params := 1
  body s q :=
    let k := s.dev.keys.slots.rd (q.f 0 5 0)
    guarded s [encIf (q.resv 0 0x3F) 0] (.read s ((List.range 4).map k.word ++ [if k.state = .valid then kcv k.key else 0]))

/-- KEY_STATUS. -/
def execKeyStatus (p : Packet) (s : State) : Host.Outcome State Fault Refusal := .next (packetRow opKeyStatus p s)

/-- KEY_CHALLENGE (R385). -/
def opKeyChallenge : Op where
  code := 0x0B04
  target := onUnit 0x42
  params := 9
  body s q :=
    let d := s.dev
    let slot := q.f 0 5 0
    let k := d.keys.slots.rd slot
    let refusal := d.keyRefusal slot 3
    let cnt := k.respCnt + 1
    let resp := hmac k.key (bytesAll ((q.from' 1).take 8) ++ d.serialBytes ++ leBytes 4 cnt)
    let d1 := d.useKey slot
    let d2 := (d1.setKeySlot slot { d1.keys.slots.rd slot with respCnt := cnt }).satAt 0x42 32 cnt
    guarded s [encIf (q.resv 0 0x3F) 0, (refusal.isSome, refusal.getD 0, 4), (decide (2 ^ 32 ≤ cnt), stKeyExhausted, 4), (d.keyWaits slot, stBusy, 4)]
      { st := { s with dev := d2 }, words := [w32 cnt, d.serialLo, d.serialHi] ++ wordsOf resp }

/-- KEY_CHALLENGE. -/
def execKeyChallenge (p : Packet) (s : State) : Host.Outcome State Fault Refusal := .next (packetRow opKeyChallenge p s)

/-- KEY_ERASE (R379, R380). -/
def opKeyErase : Op where
  code := 0x0B05
  target := onUnit 0x42
  params := 1
  body s q :=
    let d := s.dev
    let slot := q.f 0 5 0
    let k := d.keys.slots.rd slot
    guarded s [encIf (q.resv 0 0x3F) 0, rangeIf (decide (slot = 0)) 0, (decide (k.state = .exhausted), stKeyExhausted, 4)]
      (if k.state = .empty then { st := s, status := stOkNoChange }
       else .ok s ((d.cascade slot true).chainChange d.chainKey false))

/-- KEY_ERASE. -/
def execKeyErase (p : Packet) (s : State) : Host.Outcome State Fault Refusal := .next (packetRow opKeyErase p s)

end Sys2Proof.Machine
end

