-- ==== Sys2Proof/Machine/Jalow.lean ====
section
/-! DEFINITION. The Jalow ports (chapter 07): link-up and HELLO (R152, R153, R162, R163), data frames, acknowledgement and resending (R158 to R160),
link loss (R155, R156, R159, R164), POINTS and EVENT messages (R164, R165), JL_PORT_CONFIG and JL_STATUS. -/

namespace Sys2Proof.Machine

open Sys2Proof.Bits Sys2Proof.Crypto

/-- Port `p`. -/
def Dev.jl (d : Dev) (p : Nat) : JlPort := d.jalow.port.rd p
/-- Changes port `p`. -/
def Dev.setJl (d : Dev) (p : Nat) (q : JlPort) : Dev := { d with jalow := { d.jalow with port := d.jalow.port.wr p q } }
/-- An event of port `p`. -/
def Dev.jlEvent (d : Dev) (p code : Nat) (sev : Severity) (data : Nat) : Dev := d.raise code (0x3200 + p) sev data

/-- ROLE of Table 07-10. -/
def JlRole.num : JlRole → Nat
  | .off => 0
  | .up => 1
  | .down => 2
/-- LINK of Table 07-12. -/
def JlLink.num : JlLink → Nat
  | .off => 0
  | .noSignal => 1
  | .training => 2
  | .hello => 3
  | .up => 4
  | .refused => 5

/-- HKDF-SHA-256 with an output of 64 bytes (R163). -/
def hkdf64 (ikm salt info : List Byte) : List Byte :=
  let prk := hmac salt ikm
  let t1 := hmac prk (info ++ [1])
  t1 ++ hmac prk (t1 ++ info ++ [2])

/-! Link loss. -/

/-- A port with its link down: its session, its sequence numbers and its queues are gone (R159, R163). -/
def JlPort.dropped (q : JlPort) (link : JlLink) (raw : Nat) : JlPort :=
  { q with
    link := link, encActive := false, txSeq := 0, rxSeq := 0, unacked := [], waitTx := [], rxPart := [], resends := 0, tagFails := 0, discarding := false
    sessUp := [], sessDown := [], txCount := 0, rxCount := 0, owed := 0, txCredits := 0, partnerRelayFree := 0, hsAt := raw, gotHello := false, nonce := [] }

/-- Every point of the import window is written once more with its last value and QUALITY BAD_COMM (R164). -/
def Dev.importsBad (d : Dev) (p : Nat) : Dev :=
  let c := (d.jl p).cfg
  (List.range c.impCount).foldl (fun acc i =>
    let id := c.impBase + i
    let e := acc.points.live.rd id
    acc.writePoint { id := id, value := e.value, time := e.time, frameTag := some e.frameTag, quality := 0x84, source := BitVec.ofNat 8 (0x60 + p) }) d

/-- A worker's link is gone (R155). -/
def Dev.workerLost (d : Dev) (p : Nat) : Dev :=
  if !d.ctlUp then d
  else (d.setPort p { d.coord.ports.rd p with lost := true }).coordEvent 0x52 .crit (d.workerData p)

/-- The link of port `p` goes down; `cause` is that of JL_LINK_DOWN where R159 declares it. -/
def Dev.jlDown (d : Dev) (p : Nat) (link : JlLink) (cause : Option Nat) : Dev :=
  let q := d.jl p
  let q1 := { q.dropped link d.time.raw with downCnt := if cause.isSome then bump 16 q.downCnt else q.downCnt }
  let d1 := (((d.setJl p q1).mon 0x05 p 0).monHeld 0x05 p 0)
  let d2 := match cause with
    | some c => (d1.satAt 0x32 16 q1.downCnt).jlEvent p 0x3202 .warn c
    | none => d1
  if q.link ≠ .up then d2
  else
    let d3 := d2.importsBad p
    match q.cfg.role with
    | .up => d3.island
    | .down => d3.workerLost p
    | .off => d3

/-- The device takes address `a`: a change takes every DOWN link down (R153). -/
def Dev.setAddr (d : Dev) (a : BitVec 8) : Dev :=
  if a = d.jalow.ownAddr then d
  else ((d.portOf .down).filter (fun p => decide ((d.jl p).link ≠ .off))).foldl (fun acc p => acc.jlDown p .training none)
    { d with jalow := { d.jalow with ownAddr := a } }

/-! Link-up. -/

/-- The HELLO payload of port `p` (Table 07-4). -/
def Dev.helloWords (d : Dev) (p : Nat) : List Word :=
  let q := d.jl p
  [d.serialLo, d.serialHi, pack [(q.cfg.role.num, 0), (b1 q.cfg.enc, 2), (d.jalow.ownAddr.toNat, 8), (p, 16)], d.hubRev] ++ wordsOf q.nonce

/-- Sends HELLO. -/
def Dev.sendHello (d : Dev) (p : Nat) : Dev := (d.setJl p { d.jl p with hsAt := d.time.raw }).emit (.jlHello p (d.helloWords p))

/-- BIT_AND_WORD_LOCK (R162): a new link-up attempt draws its NONCE and sends HELLO. -/
def execBitAndWordLock (port : Fin 4) (s : State) : Host.Outcome State Fault Refusal :=
  .next (
    let d := s.dev
    let q := d.jl port.val
    if !d.hubUp ∨ (q.link ≠ .noSignal ∧ q.link ≠ .training) then s
    else
      let (n, d1) := d.random 16
      { s with dev := (d1.setJl port.val { q with link := .hello, nonce := n, gotHello := false, refuse := 0 }).sendHello port.val })

/-- JL_HELLO_TIMER (R162): every 100 µs until the partner's HELLO has arrived; time is brought forward. -/
def execJlHelloTimer (port : Fin 4) (s : State) : Host.Outcome State Fault Refusal :=
  .next (
    let q := s.dev.jl port.val
    if q.link ≠ .hello ∨ q.gotHello then s
    else { s with dev := (s.dev.toRaw (q.hsAt + 100000)).sendHello port.val })

/-- The reason that refuses a pairing (R162, Table 07-12), from this port's role and the partner's HELLO. -/
def Dev.helloRefusal (d : Dev) (p : Nat) (m : List Word) : Option Nat :=
  let q := d.jl p
  let w := nth m 2
  let role := Bits.fld w 1 0
  let addr := Bits.fld w 15 8
  let owner := if q.cfg.role = .down then d.jalow.ownAddr.toNat else addr
  if !((q.cfg.role = .up && role = 2) || (q.cfg.role = .down && role = 1)) then some 1
  else if owner = 0xFF ∨ owner % 4 = 3 then some 2
  else if bit w 2 ≠ q.cfg.enc then some 3
  else if q.cfg.enc && ((d.keyRefusal q.cfg.keySlot.toNat 5).isSome || d.keyWaits q.cfg.keySlot.toNat) then some 4
  else none

/-- A port is REFUSED with a reason and retries in 10 ms (R162). -/
def Dev.jlRefuse (d : Dev) (p reason : Nat) : Dev :=
  (d.setJl p { (d.jl p).dropped .refused d.time.raw with refuse := BitVec.ofNat 8 reason }).jlEvent p 0x3203 .warn reason

/-- The link comes up (R153, R162, R163): session keys, full credits, and on an UP port the device's address. -/
def Dev.jlUp (d : Dev) (p : Nat) (m : List Word) : Dev :=
  let q := d.jl p
  let w := nth m 2
  let serial : Nat := (nth m 0).toNat + 2 ^ 32 * (nth m 1).toNat
  let theirs := bytesAll ((m.drop 4).take 4)
  let own := d.serialBytes
  let other := leBytes 8 serial
  let (dn, up, dser, user) := if q.cfg.role = .down then (q.nonce, theirs, own, other) else (theirs, q.nonce, other, own)
  let keys := hkdf64 (d.keys.slots.rd q.cfg.keySlot.toNat).key (dn ++ up) (ascii "jalow link 1" ++ dser ++ user)
  let d0 := if q.cfg.enc then d.useKey q.cfg.keySlot.toNat else d
  let q1 : JlPort := { q with
    link := .up, encActive := q.cfg.enc, refuse := 0, gotHello := true, partnerAddr := BitVec.ofNat 8 (Bits.fld w 15 8), partnerSerial := BitVec.ofNat 64 serial
    sessUp := if q.cfg.enc then keys.take 32 else [], sessDown := if q.cfg.enc then keys.drop 32 else [], txCount := 0, rxCount := 0, txSeq := 0, rxSeq := 0
    txCredits := 32, owed := 0, heardAt := d.time.raw, sentAt := d.time.raw, ackAt := d.time.raw, resends := 0, tagFails := 0 }
  let d1 := d0.setJl p q1
  let pa := Bits.fld w 15 8
  let a := (pa + 1 + Bits.fld w 17 16 * 4 ^ (pa % 4 + 1)) % 256
  let d2 := if q.cfg.role = .up then d1.setAddr (BitVec.ofNat 8 a) else d1
  let d3 := if q.cfg.role = .up ∧ d2.coord.islanded then d2.setCoord { d2.coord with islandEnding := true } else d2
  d3.jlEvent p 0x3201 .info (d3.jalow.ownAddr.toNat + 2 ^ 8 * pa + 2 ^ 16 * (nth m 0).toNat)

/-- JL_HELLO_RECEIVE (R162): the partner's HELLO arrives after bit and word lock; the link comes up or the port is REFUSED. -/
def execJlHelloReceive (port : Fin 4) (m : List Word) (s : State) : Host.Outcome State Fault Refusal :=
  .next (
    let d := s.dev
    let p := port.val
    if (d.jl p).link ≠ .hello then s
    else match d.helloRefusal p m with
      | some r => { s with dev := (d.setJl p { d.jl p with partnerAddr := BitVec.ofNat 8 (fld (nth m 2) 15 8)
                                                           partnerSerial := BitVec.ofNat 64 ((nth m 0).toNat + 2 ^ 32 * (nth m 1).toNat) }).jlRefuse p r }
      | none => { s with dev := d.jlUp p m })

/-- JL_RETRY_TIMER (R159, R162): a down or refused port tries again every 10 ms; time is brought forward. -/
def execJlRetryTimer (port : Fin 4) (s : State) : Host.Outcome State Fault Refusal :=
  .next (
    let q := s.dev.jl port.val
    if q.link = .off ∨ q.link = .up ∨ q.link = .hello then s
    else
      let d := s.dev.toRaw (q.hsAt + 10000000)
      { s with dev := d.setJl port.val { q with link := if q.link = .refused then .training else q.link, refuse := 0, hsAt := d.time.raw } })

/-! Frames. -/

/-- An ACK covers every unacknowledged frame up to it, in SEQ order. -/
def JlPort.acked (q : JlPort) (ack : BitVec 8) (raw : Nat) : JlPort :=
  match q.unacked.findIdx? (fun f => f.seq = ack) with
  | some i => { q with unacked := q.unacked.drop (i + 1), resends := 0, ackAt := raw }
  | none => q

/-- What every valid frame carries: ACK, returned credits, RELAY_FREE. -/
def Dev.jlHeard (d : Dev) (p : Nat) (f : JlFrame) : Dev :=
  let q := d.jl p
  let q1 : JlPort := { q.acked f.ack d.time.raw with txCredits := min 32 (q.txCredits + f.credits), partnerRelayFree := f.relayFree, heardAt := d.time.raw }
  let d1 := (d.setJl p q1).mon 0x05 p q1.unacked.length
  Dev.jlPump p (q1.waitTx.length + 1) d1

/-- Sends a frame that carries no data. -/
def Dev.jlControl (d : Dev) (p : Nat) (ftype : BitVec 4) (payload : List Word) : Dev :=
  let q := d.jl p
  let f : JlFrame := { ftype := ftype, ack := q.rxSeq - 1, credits := min 32 q.owed, relayFree := d.relayFree, payload := payload }
  (d.setJl p { q with owed := q.owed - f.credits, sentAt := d.time.raw }).emit (.jlFrame p { f with crc := f.crcOf })

/-- A data frame is discarded: the first one asks for the expected SEQ (R159). -/
def Dev.jlNak (d : Dev) (p : Nat) (tag : Bool) : Dev :=
  let q := d.jl p
  if q.discarding then d
  else (d.setJl p { q with discarding := true }).jlControl p 1 [pack [(q.rxSeq.toNat, 0), (b1 tag, 8)]]

/-- One more frame discarded for its CRC or its reserved TYPE. -/
def Dev.jlCrcErr (d : Dev) (p : Nat) : Dev :=
  let q := d.jl p
  (d.setJl p { q with crcErr := bump 16 q.crcErr }).satAt 0x32 16 (bump 16 q.crcErr)

/-- Resends every unacknowledged frame, unless the first one has been resent eight times (R159). -/
def Dev.jlResend (d : Dev) (p : Nat) : Dev :=
  let q := d.jl p
  if q.unacked = [] then d
  else if 8 ≤ q.resends then d.jlDown p .training (some 2)
  else
    let again (f : JlFrame) : JlFrame :=
      let g := { f with ack := q.rxSeq - 1, credits := 0, relayFree := d.relayFree }
      { g with crc := g.crcOf }
    let fs := q.unacked.map again
    let d1 := d.setJl p { q with resends := q.resends + 1, resent := q.resent + BitVec.ofNat 32 fs.length, sentAt := d.time.raw, ackAt := d.time.raw }
    fs.foldl (fun acc f => acc.emit (.jlFrame p f)) d1

/-- A frame's tag verifies, or none is due: the payload in clear (R163). -/
def JlPort.open' (q : JlPort) (f : JlFrame) : Option (List Word) :=
  if f.enc ≠ q.encActive then none
  else if !q.encActive then some f.payload
  else (gcmOpen (if q.cfg.role = .up then q.sessDown else q.sessUp) (jlIv q.rxCount) f.aad (bytesAll f.payload) (bytesAll f.tag)).map wordsOf

/-- A data frame with a valid CRC (R159, R163). -/
def Dev.jlData (d : Dev) (p : Nat) (f : JlFrame) : Dev :=
  let q := d.jl p
  if f.seq ≠ q.rxSeq then d.jlNak p false
  else match q.open' f with
    | none =>
      let q1 := { q with authErr := bump 16 q.authErr, tagFails := q.tagFails + 1 }
      let d1 := ((d.setJl p q1).satAt 0x32 16 q1.authErr).jlEvent p 0x3204 .crit f.seq.toNat
      if q.rxCount = 0 then (d1.jlDown p .refused none).jlRefuse p 5
      else if 8 ≤ q1.tagFails then d1.jlDown p .training (some 3)
      else (d1.setJl p { q1 with discarding := false }).jlNak p true
    | some ws =>
      let part := if f.first then ws else q.rxPart ++ ws
      (d.setJl p { q with rxSeq := q.rxSeq + 1, rxCount := q.rxCount + 1, rxFrames := q.rxFrames + 1, owed := q.owed + 1, tagFails := 0, discarding := false
                          rxPart := if f.last then [] else part }).through 0x06 p

/-- JL_FRAME_RECEIVE (R159): a frame arrives on a port whose link is up. -/
def execJlFrameReceive (port : Fin 4) (f : JlFrame) (s : State) : Host.Outcome State Fault Refusal :=
  .next (
    let d := s.dev
    let p := port.val
    let t := f.ftype.toNat
    if (d.jl p).link ≠ .up then s
    else if f.crc ≠ f.crcOf then { s with dev := (d.jlCrcErr p).jlNak p false }
    else if 9 ≤ t then { s with dev := d.jlCrcErr p }
    else
      let d1 := d.jlHeard p f
      if t = 1 then { s with dev := (d1.setJl p ((d1.jl p).acked (BitVec.ofNat 8 (fld (nth f.payload 0) 7 0) - 1) d.time.raw)).jlResend p }
      else if t < 3 then { s with dev := d1 }
      else { s with dev := d1.jlData p f })

/-- JL_NAK_RECEIVE (R159): the frames before NAK_SEQ have arrived; the sender resends from it. -/
def execJlNakReceive (port : Fin 4) (seq : BitVec 8) (s : State) : Host.Outcome State Fault Refusal :=
  .next (
    let d := s.dev
    let p := port.val
    if (d.jl p).link ≠ .up then s
    else
      let q := { (d.jl p).acked (seq - 1) d.time.raw with heardAt := d.time.raw }
      { s with dev := (d.setJl p q).jlResend p })

/-- JL_ACK_TIMEOUT (R159): 20 µs without an ACK; the sender resends from the oldest unacknowledged frame. -/
def execJlAckTimeout (port : Fin 4) (s : State) : Host.Outcome State Fault Refusal :=
  .next (
    let q := s.dev.jl port.val
    if q.link ≠ .up ∨ q.unacked = [] then s
    else { s with dev := (s.dev.toRaw (q.ackAt + 20000)).jlResend port.val })

/-- JL_IDLE_TIMER (R158, Table 07-3): 5 µs after the last frame. -/
def execJlIdleTimer (port : Fin 4) (s : State) : Host.Outcome State Fault Refusal :=
  .next (
    let q := s.dev.jl port.val
    if q.link ≠ .up then s
    else { s with dev := (s.dev.toRaw (q.sentAt + 5000)).jlControl port.val 0 [] })

/-- JL_LINK_LOSS (R159): the signal is lost, or no valid frame has arrived for 50 µs. -/
def execJlLinkLoss (port : Fin 4) (signal : Bool) (s : State) : Host.Outcome State Fault Refusal :=
  .next (
    let d := s.dev
    let p := port.val
    let q := d.jl p
    if q.link = .off then s
    else if q.link = .up then
      if signal then { s with dev := d.jlDown p .noSignal (some 0) }
      else { s with dev := (d.toRaw (q.heardAt + 50000)).jlDown p .training (some 1) }
    else if signal then { s with dev := d.setJl p { q with link := .noSignal } }
    else s)

/-! Messages. -/

/-- JL_POINTS_RECEIVE (R164): entries within the import window are written, the others counted. -/
def execJlPointsReceive (port : Fin 4) (m : List Word) (s : State) : Host.Outcome State Fault Refusal :=
  .next (
    let d := s.dev
    let p := port.val
    let q := d.jl p
    if q.link ≠ .up then s
    else
      let n := fld (nth m 1) 14 0
      let d1 := (List.range (min n q.cfg.impCount)).foldl (fun acc i =>
        let w := nth m (4 + 3 * i)
        acc.writePoint { id := q.cfg.impBase + i, value := nth m (2 + 3 * i), time := nth m (3 + 3 * i), frameTag := some (BitVec.ofNat 16 (fld w 23 8))
                         quality := BitVec.ofNat 8 (fld w 7 0), source := BitVec.ofNat 8 (0x60 + p) }) d
      let q1 := d1.jl p
      let disc := satN 16 (q1.impDiscard + (n - q.cfg.impCount))
      { s with dev := (d1.setJl p { q1 with impDiscard := disc }).satAt 0x32 16 disc })

/-- Severity of an event by its code, as its owning chapter gives it: a forwarded record carries none. -/
def sevOf (code : Nat) : Severity :=
  let c := if code / 256 = 3 ∨ code / 256 = 4 then code % 256 else code
  if c ∈ [0x0102, 0x0112, 0x0124, 0x1001, 0x1021, 0x1022, 0x21, 0x3103, 0x3107, 0x3204, 0x400A, 0x4201, 0x5001, 0x5003, 0x5004, 0x5006, 0x5008, 0x5101, 0x5103, 0x5108,
      0x52, 0x53, 0x55, 0x6002, 0x73] then .crit
  else if c ∈ [0x0101, 0x0103, 0x0114, 0x0121, 0x0131, 0x02, 0x03, 0x1011, 0x1023, 0x20, 0x3001, 0x3105, 0x3108, 0x31, 0x32, 0x3201, 0x33, 0x34, 0x35, 0x40, 0x4001, 0x4004,
      0x4006, 0x4008, 0x4110, 0x4202, 0x4203, 0x4205, 0x43, 0x5009, 0x5102, 0x5104, 0x5105, 0x5109, 0x54, 0x56, 0x6001, 0x62, 0x64, 0x65, 0x66, 0x69, 0x6A, 0x70, 0x74, 0x77] then .info
  else .warn

/-- JL_EVENT_RECEIVE (R165): the record's event enters this device's router with the address it comes from. -/
def execJlEventReceive (port : Fin 4) (m : List Word) (s : State) : Host.Outcome State Fault Refusal :=
  .next (
    let d := s.dev
    if (d.jl port.val).link ≠ .up then s
    else
      let code := fld (nth m 3) 15 0
      let e : EventRec := { code := BitVec.ofNat 16 code, source := BitVec.ofNat 16 (fld (nth m 3) 31 16), sev := sevOf code
                            data := BitVec.ofNat 64 ((nth m 4).toNat + 2 ^ 32 * (nth m 5).toNat), origin := some (BitVec.ofNat 8 (fld (nth m 8) 7 0)) }
      { s with dev := { d with evr := d.evr.accept e } })

/-! Commands. -/

/-- The target of the port opcodes. -/
def onJl (p : Packet) : Bool := onInst 0x32 4 p

/-- A role of Table 07-10. -/
def roleOf (n : Nat) : JlRole := if n = 1 then .up else if n = 2 then .down else .off

/-- The settings a JL_PORT_CONFIG carries. -/
def jlCfgOf (q : QPacket) : JlCfg :=
  { role := roleOf (q.f 0 1 0), enc := q.b 0 2, txPreset := BitVec.ofNat 3 (q.f 0 5 3), keySlot := BitVec.ofNat 6 (q.f 0 13 8), expFirst := q.f 1 19 0, expCount := q.f 2 14 0
    impBase := q.f 3 19 0, impCount := q.f 4 14 0 }

/-- The port retrains with its configuration (R167); the device's address follows the roles (R153). -/
def Dev.jlRetrain (d : Dev) (p : Nat) : Dev :=
  let d1 := d.jlDown p (if (d.jl p).cfg.role = .off then .off else .training) none
  let d2 := d1.setJl p { d1.jl p with refuse := 0 }
  match d2.upPort with
  | none => d2.setAddr 0
  | some u => if (d2.jl u).link = .up then d2 else if u = p then d2.setAddr 0xFF else d2

/-- JL_PORT_CONFIG (R167): the settings stand, and the port retrains once the reply has been sent. -/
def opJlPortConfig : Op where
  code := 0x0503
  target := onJl
  classN := true
  params := 5
  body s q :=
    let d := s.dev
    let p := q.pkt.inst
    let c := jlCfgOf q
    let old := d.jl p
    guarded s [encIf (q.resv 0 0x3F3F || decide (q.f 0 1 0 = 3)) 0, encIf (q.resv 1 0xFFFFF) 1, encIf (q.resv 2 0x7FFF) 2, encIf (q.resv 3 0xFFFFF) 3, encIf (q.resv 4 0x7FFF) 4,
        rangeIf (decide (16384 < c.expCount ∨ 2 ^ 20 < c.expFirst + c.expCount)) 2, rangeIf (decide (16384 < c.impCount ∨ 2 ^ 20 < c.impBase + c.impCount)) 4,
        conflictIf (decide (c.role = .up) && (d.portOf .up).any (fun x => decide (x ≠ p))) 0,
        conflictIf (c.enc && (d.keyRefusal c.keySlot.toNat 5).isSome) 0,
        stateIf (decide (c.role ≠ old.cfg.role ∧ d.frame.state ≠ .stopped ∧ old.link = .up))]
      (.ok s (d.setJl p { old with cfg := c }))
  after q s := { s with dev := s.dev.jlRetrain q.pkt.inst }

/-- JL_PORT_CONFIG. -/
def execJlPortConfig (p : Packet) (s : State) : Host.Outcome State Fault Refusal := .next (packetRow opJlPortConfig p s)

/-- Word at offset `o` of port `p`'s page (Table 07-12). -/
def Dev.jlWord (d : Dev) (p o : Nat) : Word :=
  let q := d.jl p
  match o with
  | 0x00 => pack [(q.link.num, 0), (q.cfg.role.num, 3), (b1 q.encActive, 5), (q.refuse.toNat, 8), (d.jalow.ownAddr.toNat, 16), (q.partnerAddr.toNat, 24)]
  | 0x04 => w32 q.partnerSerial.toNat
  | 0x08 => w32 (q.partnerSerial.toNat / 2 ^ 32)
  | 0x0C => pack [(q.crcErr, 0), (q.authErr, 16)]
  | 0x10 => q.resent
  | 0x14 => q.txFrames
  | 0x18 => q.rxFrames
  | 0x1C => pack [(q.downCnt, 0), (q.impDiscard, 16)]
  | 0x20 => pack [(q.txCredits, 0), (q.partnerRelayFree, 8)]
  | _ => 0

/-- JL_STATUS (Table 07-8). -/
def opJlStatus : Op where
  code := 0x0504
  target := onJl
  body s q := .read s ((List.range 9).map (fun i => s.dev.jlWord q.pkt.inst (4 * i)))

/-- JL_STATUS. -/
def execJlStatus (p : Packet) (s : State) : Host.Outcome State Fault Refusal := .next (packetRow opJlStatus p s)

end Sys2Proof.Machine
end

