-- ==== Sys2Proof/Machine/Supervise.lean ====
section
/-! DEFINITION. What stands beside the loop engine (chapter 09): plausibility supervision (R197 to R203), the Mogul learner (R204 to R208), the
trace units (R209 to R211), their opcodes (R212) and register words. -/

namespace Sys2Proof.Machine

open Sys2Proof.Bits Sys2Proof.Float

/-- Loop slot `i`. -/
def Dev.slot (d : Dev) (i : Nat) : LoopSlot := d.loops.slot.rd i
/-- Changes loop slot `i`. -/
def Dev.setSlot (d : Dev) (i : Nat) (l : LoopSlot) : Dev := { d with loops := { d.loops with slot := d.loops.slot.wr i l } }
/-- Override group `g`. -/
def Dev.grp (d : Dev) (g : Nat) : OvrGroup := d.loops.group.rd g
/-- Changes override group `g`. -/
def Dev.setGrp (d : Dev) (g : Nat) (x : OvrGroup) : Dev := { d with loops := { d.loops with group := d.loops.group.wr g x } }
/-- Supervisor of loop `i`. -/
def Dev.sup (d : Dev) (i : Nat) : Superv := d.aux.sup.rd i
/-- Changes the supervisor of loop `i`. -/
def Dev.setSup (d : Dev) (i : Nat) (x : Superv) : Dev := { d with aux := { d.aux with sup := d.aux.sup.wr i x } }
/-- Learner of loop `i`. -/
def Dev.mog (d : Dev) (i : Nat) : Mogul := d.aux.mogul.rd i
/-- Changes the learner of loop `i`. -/
def Dev.setMog (d : Dev) (i : Nat) (x : Mogul) : Dev := { d with aux := { d.aux with mogul := d.aux.mogul.wr i x } }
/-- Trace unit `u`. -/
def Dev.trc (d : Dev) (u : Nat) : TraceUnit := d.aux.trace.rd u
/-- Changes trace unit `u`. -/
def Dev.setTrc (d : Dev) (u : Nat) (x : TraceUnit) : Dev := { d with aux := { d.aux with trace := d.aux.trace.wr u x } }

/-- MODE (Table 08-10). -/
def LoopMode.num : LoopMode → Nat
  | .off => 0 | .manual => 1 | .auto => 2
/-- STATE (Table 08-10). -/
def LoopState.num : LoopState → Nat
  | .off => 0 | .manual => 1 | .auto => 2 | .tracking => 3 | .held => 4 | .supervised => 5
/-- ACTION (Table 09-2). -/
def SupAction.num : SupAction → Nat
  | .none => 0 | .event => 1 | .hold => 2 | .fallback => 3 | .safe => 4
/-- STATE (Table 09-11). -/
def TraceState.num : TraceState → Nat
  | .idle => 0 | .armed => 1 | .triggered => 2 | .done => 3 | .aborted => 4

/-- A MODE field. -/
def modeOf (n : Nat) : LoopMode := if n = 1 then .manual else if n = 2 then .auto else .off

/-- The enabled override group that holds loop `i`. -/
def Dev.groupOf (d : Dev) (i : Nat) : Option Nat := (d.loops.group.find? (fun x => x.2.cfg.enable && x.2.cfg.members.contains i)).map (fun x => x.1)

/-- The loops computed together with loop `i`: the members of its group, lead first, or itself. -/
def Dev.membersOf (d : Dev) (i : Nat) : List Nat := match d.groupOf i with
  | some g => (d.grp g).cfg.members
  | none => [i]

/-- OUT_TYPE and OUT_ID of the destination of loop `i`: its group's while it is in one. -/
def Dev.destOf (d : Dev) (i : Nat) : Nat × Nat := match d.groupOf i with
  | some g => ((d.grp g).cfg.outType.toNat, (d.grp g).cfg.outId)
  | none => ((d.slot i).cfg.outType.toNat, (d.slot i).cfg.outId)

/-- A point as it stood before instant `t` (R171). -/
def Dev.pointBefore (d : Dev) (id t : Nat) : PointEntry :=
  let m := d.points.marks.rd id
  if m.prec ≠ 0 ∧ t / 10000 ≤ m.tick then m.before else d.points.live.rd id

/-- The present value of the destination of loop `i` at tick `t` (R182); without a destination, its last output. -/
def Dev.presentOf (d : Dev) (i t : Nat) : Word :=
  match d.destOf i with
  | (1, c) => d.presentChan c
  | (2, c) => d.presentChan c
  | (3, p) => let e := d.pointBefore p t
    if e.quality = 0xFF then 0 else e.value
  | _ => (d.slot i).uPrev

/-- The destination of loop `i` accepts outputs (R184). -/
def Dev.destAccepts (d : Dev) (i : Nat) : Bool :=
  match d.destOf i with
  | (1, c) => d.accepting c
  | (2, c) => d.accepting c
  | _ => true

/-- Shows an event that loops `ls` have raised to the trace units that wait for it (Table 09-4). -/
def Dev.markEvent (d : Dev) (num : Nat) (ls : List Nat) : Dev :=
  let mark (t : TraceUnit) : TraceUnit := if t.state = .armed ∧ ls.contains t.cfg.loop = true ∧ t.cfg.trigSrc = 2 ∧ t.cfg.trigArg.toNat = num then { t with evSeen := true } else t
  { d with aux := { d.aux with trace := d.aux.trace.mapD mark } }

/-- Raises an event of a loop (Tables 08-11, 09-12). -/
def Dev.loopEvent (d : Dev) (num i : Nat) (sev : Severity) (data : Nat) : Dev := (d.markEvent num [i]).raiseCtl num (0x2300 + i) sev data

/-- T = M × 10 µs in binary32 (R176). -/
def stepT (m : Nat) : Word := rat32 m 100000

/-! Supervision. -/

/-- The enabled counters that stand at PERSIST (R199): residual, range, rate. -/
def Superv.atPersist (s : Superv) : BitVec 3 :=
  BitVec.ofNat 3 (b1 (s.cfg.modelEn && decide (s.nRes = s.cfg.persist)) + 2 * b1 (s.cfg.rangeEn && decide (s.nRange = s.cfg.persist)) +
    4 * b1 (s.cfg.rateEn && decide (s.nRate = s.cfg.persist)))

/-- Re-initialises the model (R203). -/
def Superv.restart (s : Superv) (y present : Word) : Superv :=
  { s with yhat1 := y, yhat2 := y, hist := List.replicate 66 present, f := 0, nRes := 0, nRange := 0, nRate := 0, quiet := 0, reinit := false }

/-- yhat of R198. -/
def Superv.predict (s : Superv) : Word :=
  let c := s.cfg
  let h (n : Nat) : Word := s.hist.getD n 0
  sub32 (sub32 (add32 (add32 c.c0 (mul32 c.b1 (h (c.delay - 1)))) (mul32 c.b2 (h c.delay))) (mul32 c.a1 s.yhat1)) (mul32 c.a2 s.yhat2)

/-- A check counter after a counted tick (R198). -/
def Superv.count (s : Superv) (en x : Bool) (n : Nat) : Nat := if !en then n else if x then min (n + 1) s.cfg.persist else n - 1

/-- The evaluation of one tick (R198): `y` the input, `h` the output in force from the next tick, `present` the present value, `t` T. -/
def Superv.evaluate (s : Superv) (y h present t : Word) : Superv :=
  let c := s.cfg
  let first := s.reinit && !s.paused
  let s0 := if first then s.restart y present else s
  let p := s0.predict
  let s1 := if !c.modelEn || first then s0
    else if b32.outOfRange p.toNat then s0.restart y present
    else { s0 with yhat2 := s0.yhat1, yhat1 := p }
  let res := sub32 y s1.yhat1
  let f := add32 s1.f (mul32 c.filtK (sub32 res s1.f))
  let s2 : Superv := if c.modelEn then { s1 with res := res, f := if s.counted then f else s1.f } else s1
  let xRes := c.modelEn && lt32 c.thresh (abs32 s2.f)
  let xRng := c.rangeEn && (lt32 y c.yMin || lt32 c.yMax y)
  let xRate := c.rateEn && lt32 (mul32 c.yRate t) (abs32 (sub32 y s2.yLast))
  let s3 : Superv := if !s.counted then s2 else
    { s2 with nRes := s2.count c.modelEn xRes s2.nRes, nRange := s2.count c.rangeEn xRng s2.nRange, nRate := s2.count c.rateEn xRate s2.nRate, yLast := y,
              quiet := if xRes || xRng || xRate then 0 else min (s2.quiet + 1) 65535 }
  { s3 with hist := (h :: s3.hist).take 66, due := false, cause := if s3.inForce then s3.atPersist else s3.cause }

/-- The output in force from the next tick (R198). -/
def Dev.inForceOut (d : Dev) (i : Nat) : Word := if (d.groupOf i).isSome then (d.slot i).out else (d.slot i).uPrev

/-- Evaluates the tick of loop `i` that awaits it. -/
def Dev.supEval (d : Dev) (i : Nat) : Dev :=
  let s := d.sup i
  let l := d.slot i
  if !s.due then d
  else if !s.cfg.enable then d.setSup i { s with due := false }
  else d.setSup i (s.evaluate l.y (d.inForceOut i) l.present (stepT l.cfg.periodM))

/-- SUPERV_EVALUATION (R198): the 16 cycles of the pipe pass. -/
def execSupervEvaluation (i : Fin 128) (s : State) : Host.Outcome State Fault Refusal :=
  .next (if (s.dev.sup i.val).due && s.dev.ctlUp then { s with dev := (s.dev.pass 40).supEval i.val } else s)

/-- Declares a failure of loop `i` where an enabled counter has reached PERSIST (R199). -/
def Dev.supDeclare (d : Dev) (i : Nat) : Dev :=
  let s := d.sup i
  if !s.cfg.enable || s.inForce || decide (s.atPersist = 0) then d
  else
    let n := bump 16 s.failCnt
    let d1 := (d.setSup i { s with inForce := true, latched := s.cfg.latch, cause := s.atPersist, failCnt := n, failTime := (d.slot i).lastTick,
                                   pointWritten := false }).satAt 0x23 16 n
    if s.cfg.action = .none then d1
    else d1.loopEvent 0x68 i .warn (i + 2 ^ 8 * s.atPersist.toNat + 2 ^ 12 * s.cfg.action.num + 2 ^ 32 * s.f.toNat)

/-- SUPERV_PERSIST_REACHED (R199). -/
def execSupervPersistReached (i : Fin 128) (s : State) : Host.Outcome State Fault Refusal :=
  .next (if s.dev.ctlUp then { s with dev := (s.dev.supEval i.val).supDeclare i.val } else s)

/-- Releases the failure in force on loop `i` (R202): cause 0 automatic, 1 ACK, 2 configuration. -/
def Dev.supRelease (d : Dev) (i cause : Nat) : Dev :=
  let s := d.sup i
  if !s.inForce then d
  else
    let d1 := d.setSup i { s with inForce := false, latched := false, cause := 0 }
    let l := d1.slot i
    let again := decide (s.cfg.action = .hold ∨ s.cfg.action = .fallback) && decide (l.mode = .auto)
    (if again then d1.setSlot i { l with superRelease := true } else d1).loopEvent 0x69 i .info (i + 2 ^ 8 * cause)

/-- Releases an unlatched failure whose QUIET has reached CLEAR_TICKS (R202). -/
def Dev.supQuiet (d : Dev) (i : Nat) : Dev :=
  let s := d.sup i
  if s.inForce && !s.latched && decide (s.cfg.clearTicks ≤ s.quiet) then d.supRelease i 0 else d

/-- SUPERV_QUIET_REACHED (R202). -/
def execSupervQuietReached (i : Fin 128) (s : State) : Host.Outcome State Fault Refusal :=
  .next (if s.dev.ctlUp then { s with dev := (s.dev.supEval i.val).supQuiet i.val } else s)

/-- What the evaluation of the previous tick of loop `i` brings before its next computation (R197). -/
def Dev.supSettle (d : Dev) (i : Nat) : Dev := ((d.supEval i).supDeclare i).supQuiet i

/-- ACK takes effect (R202). -/
def Dev.supAck (d : Dev) (i : Nat) : Dev :=
  let d1 := d.supRelease i 1
  d1.setSup i { d1.sup i with f := 0, nRes := 0, nRange := 0, nRate := 0, quiet := 0, reinit := true, ackNext := false }

/-- A supervisor configuration takes effect (R203). -/
def Dev.supApply (d : Dev) (i : Nat) (c : SupCfg) : Dev :=
  let d1 := if c.enable then d else d.supRelease i 2
  let s := d1.sup i
  d1.setSup i { s with cfg := c, cfgNext := none, reinit := true,
                       nRes := min s.nRes c.persist, nRange := min s.nRange c.persist, nRate := min s.nRate c.persist }

/-- The supervision changes of loop `i` that tick `t` brings into effect (R191, R212). -/
def Dev.supPending (d : Dev) (i t : Nat) : Dev :=
  let s := d.sup i
  let d1 := match s.cfgNext with
    | some c => if s.cfgAt ≤ t then d.supApply i c else d
    | none => d
  let d2 := if s.ackNext && decide (s.opAt ≤ t) then d1.supAck i else d1
  if s.restartNext && decide (s.opAt ≤ t) then d2.setSup i { d2.sup i with reinit := true, restartNext := false } else d2

/-- The settings a SUPERV_CONFIG carries (Table 09-6). -/
def supCfgOf (q : QPacket) : SupCfg :=
  { enable := q.b 0 2
    action := match q.f 0 5 3 with
      | 0 => .none | 2 => .hold | 3 => .fallback | 4 => .safe | _ => .event
    latch := q.b 0 6, modelEn := q.b 0 7, rangeEn := q.b 0 8, rateEn := q.b 0 9, delay := q.f 0 22 16, a1 := q.par 1, a2 := q.par 2, b1 := q.par 3, b2 := q.par 4,
    c0 := q.par 5, filtK := q.par 6, thresh := q.par 7, persist := q.f 8 15 0, clearTicks := q.f 8 31 16, yMin := q.par 9, yMax := q.par 10, yRate := q.par 11,
    fbOut := q.par 12 }

/-- 0 < v. -/
def pos32 (v : Word) : Bool := fin32 v && lt32 0 v

/-- The parameter checks of SUPERV_CONFIG, in order. -/
def supervChecks (q : QPacket) : List (Bool × Nat × Nat) :=
  let c := supCfgOf q
  ([encIf (decide (q.f 0 1 0 = 3 ∨ 4 < q.f 0 5 3) || q.resv 0 0x7F03FF) 0, rangeIf (outside c.delay 2 64) 0] ++
      (List.range 5).map (fun k => rangeIf (!fin32 (q.par (k + 1))) (k + 1)) ++
      [rangeIf (!pos32 c.filtK || lt32 one32 c.filtK) 6, rangeIf (!pos32 c.thresh) 7, rangeIf (decide (c.persist = 0 ∨ c.clearTicks = 0)) 8,
       rangeIf (!fin32 c.yMin) 9, rangeIf (!fin32 c.yMax || !lt32 c.yMin c.yMax) 10, rangeIf (!pos32 c.yRate) 11, rangeIf (!fin32 c.fbOut) 12])

/-- SUPERV_CONFIG with OP CONFIG (R212). -/
def opSupervConfig : Op where
  code := 0x0610
  sel p := decide (fld (p.par 0) 1 0 = 0 ∨ fld (p.par 0) 1 0 = 3)
  target := onInst 0x23 128
  die := true
  classN := true
  params := 13
  body s q :=
    let d := s.dev
    let i := q.pkt.inst
    let c := supCfgOf q
    let off := decide ((d.slot i).mode = .off)
    let x := d.sup i
    guarded s (supervChecks q)
      (if off then .ok s (d.supApply i c) else
        { st := { s with dev := d.setSup i { x with cfgNext := some c, cfgAt := d.now + 50000 } }, status := stOkPending })

/-- SUPERV_CONFIG. -/
def execSupervConfig (p : Packet) (s : State) : Host.Outcome State Fault Refusal := .next (packetRow opSupervConfig p s)

/-- SUPERV_CONFIG with OP ACK (R202, R212). -/
def opSupervAck : Op where
  code := 0x0610
  sel p := decide (fld (p.par 0) 1 0 = 1)
  target := onInst 0x23 128
  die := true
  params := 1
  body s q :=
    let d := s.dev
    let i := q.pkt.inst
    let x := d.sup i
    guarded s [stateIf (!(x.inForce && x.latched))]
      (if (d.slot i).mode = .off then .ok s (d.supAck i) else
        { st := { s with dev := d.setSup i { x with ackNext := true, opAt := d.now + 50000 } }, status := stOkPending })

/-- SUPERV_ACK. -/
def execSupervAck (p : Packet) (s : State) : Host.Outcome State Fault Refusal := .next (packetRow opSupervAck p s)

/-- SUPERV_CONFIG with OP RESTART_MODEL (R203, R212). -/
def opSupervRestartModel : Op where
  code := 0x0610
  sel p := decide (fld (p.par 0) 1 0 = 2)
  target := onInst 0x23 128
  die := true
  params := 1
  body s q :=
    let d := s.dev
    let i := q.pkt.inst
    let x := d.sup i
    if (d.slot i).mode = .off then .ok s (d.setSup i { x with reinit := true })
    else { st := { s with dev := d.setSup i { x with restartNext := true, opAt := d.now + 50000 } }, status := stOkPending }

/-- SUPERV_RESTART_MODEL. -/
def execSupervRestartModel (p : Packet) (s : State) : Host.Outcome State Fault Refusal := .next (packetRow opSupervRestartModel p s)

/-- The supervision block (Table 09-9). -/
def Superv.words (s : Superv) : List Word :=
  [pack [(b1 s.cfg.enable, 0), (b1 s.inForce, 1), (b1 s.latched, 2), (s.cause.toNat, 3), (s.cfg.action.num, 6), (b1 s.paused, 9)], s.f, s.yhat1,
   pack [(s.nRes, 0), (s.nRange, 16)], pack [(s.nRate, 0), (s.quiet, 16)], w32 s.failCnt, w32 s.failTime, w32 (eraOf s.failTime)]

/-- SUPERV_STATUS (Table 09-5). -/
def opSupervStatus : Op where
  code := 0x0611
  target := onInst 0x23 128
  die := true
  body s q := .read s (s.dev.sup q.pkt.inst).words

/-- SUPERV_STATUS. -/
def execSupervStatus (p : Packet) (s : State) : Host.Outcome State Fault Refusal := .next (packetRow opSupervStatus p s)

/-! The Mogul learner. -/

/-- Pages of a learner (R204). -/
def MogulCfg.pages (c : MogulCfg) : Nat := (c.n + 1023) / 1024

/-- Index of position `j` in the Mogul memory. -/
def MogulCfg.at (c : MogulCfg) (j : Nat) : Nat := c.pageBase * 1024 + j

/-- Zeroes `n` words of the Mogul memory from `a` on. -/
def clearMem (m : Tbl Word) (a n : Nat) : Tbl Word := m.filter (fun x => decide (x.1 < a ∨ a + n ≤ x.1))

/-- The learner runs on loop `i`. -/
def Dev.learns (d : Dev) (i : Nat) : Bool := (d.slot i).cfg.mogulEn && decide (0 < (d.mog i).cfg.n)

/-- Position of loop `i` at tick `t` (R205). -/
def Dev.mogPos (d : Dev) (i t : Nat) : Nat := (t / 10000 / (d.slot i).cfg.periodM) % (d.mog i).cfg.n

/-- The contribution m of loop `i` at tick `t` (R204, R205). -/
def Dev.mogPlay (d : Dev) (i t : Nat) : Word := if d.learns i then d.aux.mem.rd ((d.mog i).cfg.at (d.mogPos i t)) else 0

/-- The learner's work at tick `t` (R206, R207): `abandoned` says that the tick's computation committed nothing. -/
def Dev.mogTick (d : Dev) (i t : Nat) (abandoned : Bool) : Dev :=
  if !d.learns i then d
  else
    let x := d.mog i
    let c := x.cfg
    let l := d.slot i
    let s := d.sup i
    let j := d.mogPos i t
    let a := (j + c.n - c.pLead % c.n) % c.n
    let wa := add32 (d.aux.mem.rd (c.at a)) (mul32 c.l l.e)
    let notAuto := decide (l.mode ≠ .auto ∨ l.state = .tracking ∨ l.state = .held ∨ l.state = .supervised)
    let why := pack [(b1 notAuto, 0), (b1 (l.clampHi || l.clampLo), 1),
      (b1 (s.inForce || (s.cfg.enable && s.cfg.modelEn && lt32 s.cfg.thresh (abs32 s.f))), 2), (b1 l.stale, 3), (b1 c.freeze, 4), (b1 (abandoned || !fin32 wa), 5)]
    if why ≠ 0 then
      d.setMog i { x with v1 := false, v2 := false, wa := 0, frozen := true, freezeWhy := BitVec.ofNat 7 why.toNat, refill := 2, pos := j,
                          frozenTicks := x.frozenTicks + 1 }
    else if x.v1 && x.v2 then
      let q2 := sub32 one32 (mul32 0x40000000 c.q)
      let v := add32 (add32 (mul32 c.q x.w2) (mul32 q2 x.w1)) (mul32 c.q wa)
      let u := w32 (b32.clamp v.toNat (neg32 c.mlim).toNat c.mlim.toNat)
      let d1 : Dev := { d with aux := { d.aux with mem := d.aux.mem.wr (c.at ((a + c.n - 1) % c.n)) u } }
      d1.setMog i { x with w2 := x.w1, w1 := wa, wa := wa, frozen := false, refill := 0, pos := j, updates := x.updates + 1 }
    else
      d.setMog i { x with w2 := x.w1, w1 := wa, v2 := x.v1, v1 := true, wa := wa, frozen := true, freezeWhy := 0x40, refill := x.refill - 1, pos := j,
                          frozenTicks := x.frozenTicks + 1 }

/-- Restarts the chain of loop `i` (R207). -/
def Dev.mogRestart (d : Dev) (i : Nat) : Dev := d.setMog i { d.mog i with v1 := false, v2 := false }

/-- A learner configuration takes effect (R208); `clear` zeroes the loop's pages. -/
def Dev.mogApply (d : Dev) (i : Nat) (c : MogulCfg) (clear : Bool) : Dev :=
  let x := d.mog i
  let moved := decide (c.n ≠ x.cfg.n ∨ c.pageBase ≠ x.cfg.pageBase)
  let mem := if clear || moved then clearMem d.aux.mem (c.pageBase * 1024) (c.pages * 1024) else d.aux.mem
  let d1 : Dev := { d with aux := { d.aux with mem := mem } }
  let d2 := d1.setMog i { x with cfg := c, cfgNext := none, cfgClear := false }
  if clear || moved || decide (c.pLead ≠ x.cfg.pLead) then d2.mogRestart i else d2

/-- The learner change of loop `i` that tick `t` brings into effect. -/
def Dev.mogPending (d : Dev) (i t : Nat) : Dev :=
  let x := d.mog i
  match x.cfgNext with
  | some c => if x.cfgAt ≤ t then d.mogApply i c x.cfgClear else d
  | none => d

/-- Two page ranges overlap. -/
def MogulCfg.overlaps (a b : MogulCfg) : Bool :=
  decide (0 < a.n ∧ 0 < b.n ∧ a.pageBase < b.pageBase + b.pages ∧ b.pageBase < a.pageBase + a.pages)

/-- The settings a MOGUL_CONFIG carries, over the newest accepted ones (Table 09-7). -/
def mogCfgOf (q : QPacket) (old : MogulCfg) : MogulCfg :=
  { freeze := q.b 0 2, n := if q.b 0 0 then old.n else q.f 1 16 0, pageBase := if q.b 0 0 then old.pageBase else q.f 2 8 0, pLead := q.f 2 31 16, l := q.par 3,
    q := q.par 4, mlim := q.par 5 }

/-- The parameter checks of MOGUL_CONFIG, in order. -/
def mogulChecks (s : State) (q : QPacket) : List (Bool × Nat × Nat) :=
  let d := s.dev
  let i := q.pkt.inst
  let x := d.mog i
  let l := d.slot i
  let full := !q.b 0 0
  let c := mogCfgOf q (x.cfgNext.getD x.cfg)
  let others := (d.aux.mogul.filter (fun y => y.1 ≠ i)).flatMap (fun y => y.2.cfg :: y.2.cfgNext.toList)
  let auto := decide (l.mode = .auto) || decide (l.modeNext = some .auto)
  [encIf (q.resv 0 7) 0, encIf (full && q.resv 1 0x1FFFF) 1, encIf (full && q.resv 2 0xFFFF01FF) 2,
      rangeIf (full && decide (c.n ≠ 0) && outside c.n 4 65536) 1, rangeIf (decide (c.pLead ≠ 0 ∧ c.n < c.pLead + 2)) 2, rangeIf (!fin32 c.l) 3,
      rangeIf (!fin32 c.q || lt32 c.q 0 || lt32 0x3E800000 c.q) 4, rangeIf (!pos32 c.mlim) 5,
      conflictIf (decide (0 < c.n) && (decide (512 < c.pageBase + c.pages) || others.any (fun o => c.overlaps o))) 2,
      stateIf (full && l.cfg.mogulEn && auto)]

/-- MOGUL_CONFIG (R208, R212). -/
def opMogulConfig : Op where
  code := 0x0618
  target := onInst 0x23 128
  die := true
  classN := true
  params := 6
  body s q :=
    let d := s.dev
    let i := q.pkt.inst
    let x := d.mog i
    let l := d.slot i
    let c := mogCfgOf q (x.cfgNext.getD x.cfg)
    guarded s (mogulChecks s q)
      (if l.mode = .off then .ok s (d.mogApply i c (q.b 0 1)) else
        { st := { s with dev := d.setMog i { x with cfgNext := some c, cfgClear := x.cfgClear || q.b 0 1, cfgAt := d.now + 50000 } }, status := stOkPending })

/-- MOGUL_CONFIG. -/
def execMogulConfig (p : Packet) (s : State) : Host.Outcome State Fault Refusal := .next (packetRow opMogulConfig p s)

/-- The largest COUNT of a block read on a transport (R211). -/
def Transport.maxCount (t : Transport) : Nat := t.limit - 8

/-- MOGUL_PAGE_READ (Table 09-5). -/
def opMogulPageRead : Op where
  code := 0x0619
  target := onInst 0x23 128
  die := true
  params := 3
  sizeAt := 6
  body s q :=
    let c := (s.dev.mog q.pkt.inst).cfg
    let page := q.f 0 6 0
    let first := q.f 1 9 0
    let n := q.f 2 10 0
    guarded s [encIf (q.resv 0 0x7F) 0, encIf (q.resv 1 0x3FF) 1, encIf (q.resv 2 0x7FF) 2, rangeIf (decide (c.pages ≤ page)) 0,
        rangeIf (outside n 1 (min 1024 q.pkt.transport.maxCount) || decide (1024 < first + n)) 2]
      (.read s (s.dev.aux.mem.rdAll ((c.pageBase + page) * 1024 + first) n))

/-- MOGUL_PAGE_READ. -/
def execMogulPageRead (p : Packet) (s : State) : Host.Outcome State Fault Refusal := .next (packetRow opMogulPageRead p s)

/-- The Mogul block (Table 09-10). -/
def Mogul.words (x : Mogul) : List Word :=
  [pack [(x.cfg.n, 0), (b1 (x.v1 && x.v2), 17), (b1 x.frozen, 18), (x.freezeWhy.toNat, 19)], pack [(x.pos, 0), (x.cfg.pageBase, 16)],
   w32 x.updates.toNat, w32 x.frozenTicks.toNat]

/-- PAGES_USED (Table 09-10). -/
def LoopAux.pagesUsed (a : LoopAux) : Nat := (a.mogul.map (fun x => x.2.cfg.pages)).sum

/-! Trace units. -/

/-- DEPTH (R209). -/
def TraceCfg.depth (c : TraceCfg) : Nat := c.blocks * 1024 / c.nodes.length
/-- PRE_N (R210). -/
def TraceCfg.preN (c : TraceCfg) : Nat := c.depth * c.pre / 256
/-- Records readable. -/
def TraceUnit.valid (t : TraceUnit) : Nat := t.recs.length
/-- TRIG_RECORD: the trigger record counted from the oldest valid one. -/
def TraceUnit.trigRecord (t : TraceUnit) : Nat := t.trigAt - (t.written - t.valid)

/-- The register word 0x0400 + 32l (Table 08-10). -/
def LoopSlot.stateWord (l : LoopSlot) : Word :=
  pack [(l.mode.num, 0), (l.state.num, 2), (b1 l.intFrozen, 5), (b1 l.stale, 6), (b1 l.spBad, 7), (b1 l.destHeld, 8), (b1 l.clampHi, 9), (b1 l.clampLo, 10)]

/-- What a trace node holds (Table 09-3). -/
def Dev.node (d : Dev) (i : Nat) (n : BitVec 8) : Word :=
  let l := d.slot i
  let s := d.sup i
  match n.toNat with
  | 0x00 => l.y
  | 0x01 => l.rt
  | 0x02 => l.rPrev
  | 0x03 => l.e
  | 0x10 => l.uc
  | 0x11 => l.out
  | 0x12 => l.m
  | 0x13 => (d.mog i).wa
  | 0x14 => s.yhat1
  | 0x15 => s.res
  | 0x16 => s.f
  | 0x17 => l.present
  | 0x18 => l.stateWord
  | k => if 8 ≤ k ∧ k < 16 then l.secOut.getD (k - 8) 0 else 0

/-- The node codes of Table 09-3. -/
def nodeOk (n : Nat) : Bool := decide (n ≤ 3 ∨ (8 ≤ n ∧ n ≤ 0x18))

/-- The trigger's condition at a record (Table 09-4): `prev` the record before it, `t` its tick. -/
def TraceUnit.fires (u : TraceUnit) (prev : Option (List Word)) (r : List Word) (t : Nat) : Bool :=
  u.force ||
  (match u.cfg.trigSrc.toNat with
   | 0 => decide (u.written = 0)
   | 1 =>
     match prev with
     | none => false
     | some p =>
       let a := p.getD u.cfg.trigNode 0
       let b := r.getD u.cfg.trigNode 0
       let up := lt32 a u.cfg.level && le32 u.cfg.level b
       let dn := lt32 u.cfg.level a && le32 b u.cfg.level
       if u.cfg.edge = 0 then up else if u.cfg.edge = 1 then dn else up || dn
   | 2 => u.evSeen
   | 3 => decide (nearEra t (w32 u.cfg.trigTime) (eraOf u.cfg.trigTime) ≤ t)
   | 4 => u.unitSeen
   | _ => false)

/-- Ends trace `u` as DONE or ABORTED (R210). -/
def Dev.traceEnd (d : Dev) (u : Nat) (aborted : Bool) : Dev :=
  let x := d.trc u
  let y : TraceUnit := if aborted then { x with state := .aborted } else { x with state := .done, captures := x.captures + 1 }
  ((d.setTrc u y).markEvent 0x6A [x.cfg.loop]).raiseCtl 0x6A (0x2300 + u) .info (u + 4 * b1 aborted + 2 ^ 8 * x.cfg.loop + 2 ^ 32 * (x.trigTime % 2 ^ 32))

/-- A triggered trace has written its last record. -/
def TraceUnit.full (x : TraceUnit) : Bool := x.state = .triggered && decide (x.post = 0)

/-- TRACE_COMPLETE (R210). -/
def execTraceComplete (u : Fin 4) (s : State) : Host.Outcome State Fault Refusal :=
  .next (if (s.dev.trc u.val).full then { s with dev := s.dev.traceEnd u.val false } else s)

/-- Writes a record of unit `u` at grid tick `t` and tests its trigger. -/
def Dev.traceWrite (d : Dev) (u t : Nat) : Dev :=
  let x := d.trc u
  let i := x.cfg.loop
  let step := x.cfg.decim * (d.slot i).cfg.periodM * 10000
  let r := x.cfg.nodes.map (d.node i)
  let fire := decide (x.state = .armed) && x.fires x.recs.head? r t
  let recs := (r :: x.recs).take x.cfg.depth
  let first := if x.written = 0 then t else if recs.length ≤ x.recs.length then x.firstTime + step else x.firstTime
  let y : TraceUnit := { x with recs := recs, written := x.written + 1, firstTime := first, evSeen := false, unitSeen := false, force := false }
  if fire then
    let d1 := d.setTrc u { y with state := .triggered, trigAt := x.written, trigTime := t, post := x.cfg.depth - x.cfg.preN - 1 }
    let seen (z : TraceUnit) : TraceUnit := if z.state = .armed ∧ z.cfg.trigSrc = 4 ∧ z.cfg.trigArg.toNat = u then { z with unitSeen := true } else z
    { d1 with aux := { d1.aux with trace := d1.aux.trace.mapD seen } }
  else d.setTrc u { y with post := if x.state = .triggered then x.post - 1 else x.post }

/-- A unit that captures loop `i`. -/
def TraceUnit.captures? (x : TraceUnit) (i : Nat) : Bool := decide (x.cfg.loop = i ∧ (x.state = .armed ∨ x.state = .triggered))

/-- A grid tick of loop `i` as its trace units see it (R209). -/
def Dev.traceTick (d : Dev) (i t : Nat) : Dev :=
  (List.range 4).foldl (fun acc u =>
    let acc1 := if (acc.trc u).full then acc.traceEnd u false else acc
    let x := acc1.trc u
    if !x.captures? i then acc1
    else if x.tickDiv = 0 then
      let acc2 := acc1.traceWrite u t
      acc2.setTrc u { acc2.trc u with tickDiv := x.cfg.decim - 1 }
    else acc1.setTrc u { x with tickDiv := x.tickDiv - 1 }) d

/-- A change of PERIOD_M or PHASE ends the traces of loop `i` (R209). -/
def Dev.traceAbort (d : Dev) (i : Nat) : Dev :=
  (List.range 4).foldl (fun acc u => if (acc.trc u).captures? i && !(acc.trc u).full then acc.traceEnd u true else acc) d

/-- A unit captures loop `i`. -/
def Dev.traced (d : Dev) (i : Nat) : Bool := d.aux.trace.any (fun x => x.2.captures? i)

/-- The settings a TRACE_CONFIG carries (Table 09-8). -/
def traceCfgOf (q : QPacket) : TraceCfg :=
  { loop := q.f 0 6 0
    nodes := (((List.range 4).map (fun k => q.f 2 (8 * k + 7) (8 * k))) ++ ((List.range 4).map (fun k => q.f 3 (8 * k + 7) (8 * k)))).take (q.f 0 11 8) |>.map (BitVec.ofNat 8)
    baseBlk := q.f 0 23 16, blocks := q.f 1 8 0, pre := q.f 0 31 24, decim := q.f 4 15 0, trigSrc := BitVec.ofNat 3 (q.f 4 18 16), edge := BitVec.ofNat 2 (q.f 4 20 19),
    trigNode := q.f 4 23 21, trigArg := BitVec.ofNat 8 (q.f 4 31 24), level := q.par 5, trigTime := (q.par 6).toNat + 2 ^ 32 * q.f 7 15 0 }

/-- The parameter checks of TRACE_CONFIG, in order. -/
def traceChecks (s : State) (q : QPacket) : List (Bool × Nat × Nat) :=
  let d := s.dev
  let u := q.pkt.inst
  let x := d.trc u
  let c := traceCfgOf q
  let n := q.f 0 11 8
  let src := c.trigSrc.toNat
  let arg := c.trigArg.toNat
  let all := ((List.range 4).map (fun k => q.f 2 (8 * k + 7) (8 * k))) ++ ((List.range 4).map (fun k => q.f 3 (8 * k + 7) (8 * k)))
  let clash (v : Nat) : Bool := let o := d.trc v
    o.configured && decide (v ≠ u ∧ c.baseBlk < o.cfg.baseBlk + o.cfg.blocks ∧ o.cfg.baseBlk < c.baseBlk + c.blocks)
  [encIf (q.resv 0 0xFFFF0F7F) 0, encIf (q.resv 1 0x1FF) 1, encIf ((all.take (min n 4)).any (fun k => !nodeOk k)) 2,
      encIf (((all.take n).drop 4).any (fun k => !nodeOk k)) 3, encIf (decide (5 < src) || decide (c.edge = 3)) 4, encIf (q.resv 7 0xFFFF) 7,
      rangeIf (outside n 1 8) 0, rangeIf (outside c.blocks 1 256 || decide (256 < c.baseBlk + c.blocks)) 1,
      rangeIf ((((all.take 4).drop n)).any (fun k => k ≠ 0)) 2, rangeIf (((all.drop (max 4 n))).any (fun k => k ≠ 0)) 3,
      rangeIf (decide (c.decim = 0 ∨ n ≤ c.trigNode) || (decide (src = 2) && outside arg 0x60 0x6A) || (decide (src = 4) && decide (3 < arg))) 4,
      rangeIf (!fin32 c.level) 5, conflictIf (decide (src = 4 ∧ arg = u)) 4, conflictIf ((List.range 4).any clash) 0,
      stateIf (decide (x.state = .armed ∨ x.state = .triggered))]

/-- TRACE_CONFIG (R212). -/
def opTraceConfig : Op where
  code := 0x0620
  target := onInst 0x23 4
  die := true
  params := 8
  body s q :=
    let d := s.dev
    let u := q.pkt.inst
    let x := d.trc u
    let c := traceCfgOf q
    guarded s (traceChecks s q)
      (.ok s (d.setTrc u { x with cfg := c, configured := true }))

/-- TRACE_CONFIG. -/
def execTraceConfig (p : Packet) (s : State) : Host.Outcome State Fault Refusal := .next (packetRow opTraceConfig p s)

/-- TRACE_ARM with ARM = 1 (R210). -/
def opTraceArm : Op where
  code := 0x0621
  sel p := bit (p.par 0) 0
  target := onInst 0x23 4
  die := true
  params := 1
  body s q :=
    let d := s.dev
    let u := q.pkt.inst
    let x := d.trc u
    guarded s [encIf (q.resv 0 3) 0]
      (match x.state with
       | .armed => .ok s (d.setTrc u { x with force := x.force || q.b 0 1 })
       | .triggered => .ok s d
       | _ => .ok s (d.setTrc u { cfg := x.cfg, configured := x.configured, state := .armed, captures := x.captures }))

/-- TRACE_ARM. -/
def execTraceArm (p : Packet) (s : State) : Host.Outcome State Fault Refusal := .next (packetRow opTraceArm p s)

/-- TRACE_ARM with ARM = 0 (Table 09-5). -/
def opTraceDisarm : Op where
  code := 0x0621
  sel p := !bit (p.par 0) 0
  target := onInst 0x23 4
  die := true
  params := 1
  body s q :=
    let d := s.dev
    let u := q.pkt.inst
    guarded s [encIf (q.resv 0 3) 0] (.ok s (d.setTrc u { d.trc u with state := .idle }))

/-- TRACE_DISARM. -/
def execTraceDisarm (p : Packet) (s : State) : Host.Outcome State Fault Refusal := .next (packetRow opTraceDisarm p s)

/-- TRACE_READ (R211). -/
def opTraceRead : Op where
  code := 0x0622
  target := onInst 0x23 4
  die := true
  params := 2
  sizeAt := 5
  body s q :=
    let x := s.dev.trc q.pkt.inst
    let all := x.recs.reverse.flatten
    let n := q.f 1 11 0
    guarded s [encIf (q.resv 0 0x3FFFFF) 0, encIf (q.resv 1 0xFFF) 1, stateIf (decide (x.state ≠ .done ∧ x.state ≠ .aborted)),
        rangeIf (outside n 1 q.pkt.transport.maxCount) 1, rangeIf (decide (all.length < q.f 0 21 0 + n)) 0]
      (.read s ((all.drop (q.f 0 21 0)).take n))

/-- TRACE_READ. -/
def execTraceRead (p : Packet) (s : State) : Host.Outcome State Fault Refusal := .next (packetRow opTraceRead p s)

/-- The trace block (Table 09-11). -/
def TraceUnit.words (x : TraceUnit) : List Word :=
  [pack [(x.state.num, 0), (x.cfg.loop, 8)], w32 x.valid, w32 x.trigRecord, w32 x.firstTime, w32 (eraOf x.firstTime), w32 x.trigTime, w32 (eraOf x.trigTime),
   w32 x.captures.toNat]

end Sys2Proof.Machine
end

