-- ==== Sys2Proof/Machine/Loops.lean ====
section
/-! DEFINITION. The loop engine (chapter 08): sections and their arithmetic (R176 to R180), ticks of loops and override groups (R169 to R174,
R182 to R190, R200 to R203), outputs applied at base ticks (R172, R173), and the loop opcodes (R175, R188, R191 to R195). -/

namespace Sys2Proof.Machine

open Sys2Proof.Bits Sys2Proof.Float

/-! Arithmetic. Every function also answers the values it computed, for the test of R187. -/

/-- Output of a section (Table 08-3). -/
def Section.outOf (s : Section) (st : SecState) (x : Word) : Word × List Word :=
  let p := mul32 s.b0 x
  let y := add32 p st.s1
  (y, [p, y])

/-- State update of a section (Table 08-3). -/
def Section.upd (s : Section) (st : SecState) (x y : Word) : SecState × List Word :=
  let a := mul32 s.b1 x
  let b := mul32 s.a1 y
  let c := sub32 a b
  let h := add32 c st.s2
  let e := mul32 s.b2 x
  let g := mul32 s.a2 y
  let k := sub32 e g
  if s.delta then
    let s1 := add32 st.s1 h
    let s2 := add32 st.s2 k
    ({ s1 := s1, s2 := s2 }, [a, b, c, h, e, g, k, s1, s2])
  else ({ s1 := h, s2 := k }, [a, b, c, h, e, g, k])

/-- Steady state of a section for a constant input (Table 08-3); zero states where G is not finite (R192). -/
def Section.steady (s : Section) (x : Word) : SecState × List Word :=
  let g := if s.delta then div32 s.b2 s.a2 else div32 (add32 (add32 s.b0 s.b1) s.b2) (add32 (add32 one32 s.a1) s.a2)
  if !fin32 g then ({}, [])
  else
    let y := mul32 g x
    let p := mul32 s.b0 x
    let s1 := sub32 y p
    let a := mul32 s.a1 y
    let b := mul32 s.b1 x
    let e := mul32 s.b2 x
    let h := mul32 s.a2 y
    if s.delta then
      let s2 := sub32 a b
      ({ s1 := s1, s2 := s2 }, [g, y, p, s1, a, b, s2])
    else
      let s2 := sub32 e h
      ({ s1 := s1, s2 := s2 }, [g, y, p, s1, e, h, s2])

/-- A run of sections from the first on. -/
structure SecRun where
  /-- What leaves the last section run. -/
  x : Word
  /-- Inputs of the sections, in order. -/
  ins : List Word := []
  /-- Outputs of the sections, in order. -/
  outs : List Word := []
  /-- States before the outputs were computed. -/
  start : Tbl SecState
  /-- States after the updates. -/
  next : Tbl SecState
  /-- Values computed. -/
  vals : List Word := []

/-- Runs the first `n` sections of a loop on `e` (R177); a section whose FORM changed starts from its steady state (R192). -/
def LoopSlot.forward (l : LoopSlot) (e : Word) (n : Nat) : SecRun :=
  (List.range n).foldl (fun f i =>
    let s := l.sec.rd i
    let (st0, v0) := if l.secForm.contains i then s.steady f.x else (l.st.rd i, [])
    let (y, v1) := s.outOf st0 f.x
    let (st1, v2) := s.upd st0 f.x y
    { x := y, ins := f.ins ++ [f.x], outs := f.outs ++ [y], start := f.start.wr i st0, next := f.next.wr i st1, vals := f.vals ++ v0 ++ v1 ++ v2 })
    { x := e, start := l.st, next := l.st }

/-- clamp(v, prev - dn, prev + up) with the open sides of R176. -/
def limitStep (v prev dn up : Word) : Word :=
  let isOpen (s : Word) : Bool := isZero32 s || !fin32 s
  let lo := sub32 prev dn
  let hi := add32 prev up
  let v1 := if isOpen dn || b32.outOfRange lo.toNat then v else w32 (b32.max v.toNat lo.toNat)
  if isOpen up || b32.outOfRange hi.toNat then v1 else w32 (b32.min v1.toNat hi.toNat)

/-- clamp(v, lo, hi). -/
def clamp32 (v lo hi : Word) : Word := w32 (b32.clamp v.toNat lo.toNat hi.toNat)

/-- The rate limiter and the absolute limits (R177). -/
def LoopSlot.limitOut (l : LoopSlot) (u : Word) : Word :=
  let t := stepT l.cfg.periodM
  clamp32 (limitStep u l.uPrev (mul32 l.cfg.rateDn t) (mul32 l.cfg.rateUp t)) l.cfg.uMin l.cfg.uMax

/-- The ramped set-point r (R177). -/
def LoopSlot.ramp (l : LoopSlot) : Word :=
  let t := stepT l.cfg.periodM
  limitStep l.rt l.rPrev (mul32 l.cfg.rampDn t) (mul32 l.cfg.rampUp t)

/-- The error for set-point `r`. -/
def LoopSlot.err (l : LoopSlot) (r : Word) : Word := if l.cfg.reverse then sub32 l.y r else sub32 r l.y

/-- What one tick of one loop computes, nothing committed yet. -/
structure TickOut where
  /-- r. -/
  r : Word
  /-- e. -/
  e : Word
  /-- u. -/
  u : Word
  /-- uc, none in a TRACK. -/
  uc : Option Word := none
  /-- Section states to commit. -/
  st : Tbl SecState
  /-- Section outputs. -/
  outs : List Word
  /-- The integrator's states are held. -/
  frozen : Bool := false
  /-- Values computed. -/
  vals : List Word

/-- R177 with the contribution `m`. -/
def LoopSlot.auto (l : LoopSlot) (m : Word) : TickOut :=
  let c := l.cfg
  let r := l.ramp
  let e := l.err r
  let f := l.forward e c.sections
  let b := add32 f.x c.bias
  let uc := add32 b m
  let u := l.limitOut uc
  let xI := f.ins.getD c.intSec 0
  let dir := if c.intDir then neg32 xI else xI
  let freeze := decide (c.intSec < c.sections) && ((lt32 u uc && lt32 0 dir) || (lt32 uc u && lt32 dir 0))
  { r := r, e := e, u := u, uc := some uc, st := if freeze then f.next.wr c.intSec (f.start.rd c.intSec) else f.next, outs := f.outs, frozen := freeze,
    vals := [r, e, b, uc, u] ++ f.vals }

/-- The backward pass of TRACK through the sections after the integrator (R180): value that leaves them, outputs, states, values. -/
def LoopSlot.backward (l : LoopSlot) (start : Tbl SecState) (v : Word) : Word × List Word × Tbl SecState × List Word :=
  let c := l.cfg
  (List.range (c.sections - 1 - c.intSec)).foldl (fun acc k =>
    let j := c.sections - 1 - k
    let s := l.sec.rd j
    let st := start.rd j
    let a := sub32 acc.1 st.s1
    let x := div32 a s.b0
    let (st1, vs) := s.upd st x acc.1
    (x, acc.1 :: acc.2.1, acc.2.2.1.wr j st1, acc.2.2.2 ++ [a, x] ++ vs)) (v, [], start, [])

/-- TRACK(ut) with the contribution `m` (R180); `atInput` says that r follows y (R183). -/
def LoopSlot.track (l : LoopSlot) (m ut : Word) (atInput : Bool) : TickOut :=
  let c := l.cfg
  let r := if atInput then l.y else l.ramp
  let e := l.err r
  if c.sections ≤ c.intSec then
    let f := l.forward e c.sections
    { r := r, e := e, u := ut, st := f.next, outs := f.outs, vals := [r, e, ut] ++ f.vals }
  else
    let i := c.intSec
    let f := l.forward e i
    let xI := f.x
    let s := l.sec.rd i
    let (stI, v0) := if l.secForm.contains i then s.steady xI else (l.st.rd i, [])
    let g := if l.secForm.any (fun j => decide (i < j)) then l.forward e c.sections else f
    let w := sub32 ut m
    let v := sub32 w c.bias
    let (vI, outs, st, v1) := l.backward g.start v
    let (stN, v2) := s.upd stI xI vI
    let merged := (List.range c.sections).foldl (fun t j => if j < i then t.wr j (f.next.rd j) else if j = i then t.wr j stN else t.wr j (st.rd j)) l.st
    { r := r, e := e, u := ut, st := merged, outs := f.outs ++ [vI] ++ outs, vals := [r, e, ut, w, v] ++ f.vals ++ v0 ++ (if f.ins.length = g.ins.length then [] else g.vals) ++ v1 ++ v2 }

/-- A value computed in the tick is out of range (R187). -/
def TickOut.bad (o : TickOut) : Bool := o.vals.any (fun v => b32.outOfRange v.toNat)

/-! Outputs. -/

/-- Base ticks of the outputs that wait: landed ones on the field dies, and those for points. -/
def Dev.waitingTicks (d : Dev) : List Nat :=
  (List.range 4).flatMap (fun k => ((d.fld k).tags.filter (fun t => t.landed.isSome)).map (fun t => t.tick)) ++ d.loops.ptOut.map (fun p => baseTick p.due)

/-- The earliest of them. -/
def Dev.nextApply (d : Dev) : Option Nat := d.waitingTicks.foldl (fun a t => match a with
  | none => some t
  | some x => some (min x t)) none

/-- Applies an output tag at its tick, or takes it as commanded value where the die applies none (R172, R270, R281). -/
def Dev.applyTag (d : Dev) (k : Nat) (t : OutTag) : Dev :=
  let f := d.fld k
  let d1 := if f.frozen && t.loop.isSome then d else d.command k t.chan t.value t.safe
  if f.frozen || f.pllLost || decide (f.outState ≠ .armed) then d1
  else if t.safe then d1.applySafe k t.chan
  else (d1.setDig k t.chan { d1.dig k t.chan with safe := false }).applyOut k t.chan t.value false

/-- The outputs of die `k` that are tagged up to base tick `b`: those that landed at least 200 ns before their tick are applied, the others
discarded (R172, R173). -/
def Dev.applyDie (d : Dev) (k b : Nat) : Dev :=
  let f := d.fld k
  let due (t : OutTag) : Bool := t.landed.isSome && decide (t.tick ≤ b)
  let inTime (t : OutTag) : Bool := decide ((t.landed.getD 0) + 200 ≤ t.tick * 10000)
  let now := f.tags.filter due
  let late := (now.filter (fun t => !inTime t)).filterMap (fun t => t.loop)
  let d1 := d.setFld k { f with tags := f.tags.filter (fun t => !due t), discards := f.discards ++ (if f.frozen then [] else late) }
  (now.filter inTime).foldl (fun acc t => acc.applyTag k t) d1

/-- A loop output reaches its point (R174). -/
def Dev.landPoint (d : Dev) (p : PointOut) : Dev :=
  d.writePoint { id := p.id, value := p.value, time := w32 p.due, quality := p.quality, source := BitVec.ofNat 8 (0x80 + d.runDie), last := true }

/-- What happens at base tick `b`: outputs applied on every field die, outputs to points landed. -/
def Dev.applyAt (d : Dev) (b : Nat) : Dev :=
  let d0 := d.toCt (b * 10000)
  let d1 := (List.range 4).foldl (fun acc k => acc.applyDie k b) d0
  let due (p : PointOut) : Bool := decide (p.due ≤ b * 10000)
  let now := d1.loops.ptOut.filter due
  let d2 : Dev := { d1 with loops := { d1.loops with ptOut := d1.loops.ptOut.filter (fun p => !due p) } }
  now.foldl (fun acc p => acc.landPoint p) d2

/-- OUTPUT_APPLY (R172, R174): the earliest base tick that an output waits for; time is brought forward to it. -/
def execOutputApply (s : State) : Host.Outcome State Fault Refusal :=
  .next (match s.dev.nextApply with
    | none => s
    | some b => { s with dev := s.dev.applyAt b })

/-- Every base tick up to `b` that an output waits for, in order. -/
def Dev.applyUpTo (b : Nat) : Nat → Dev → Dev
  | 0, d => d
  | fuel + 1, d => match d.nextApply with
    | none => d
    | some x => if x ≤ b then Dev.applyUpTo b fuel (d.applyAt x) else d

/-- Books an overrun of loop `i` (R173): cause 0 COMPUTE, 1 APPLY. -/
def Dev.overrunOf (d : Dev) (i cause : Nat) : Dev :=
  let l := d.slot i
  let n := bump 16 l.overrun
  let m := bump 16 d.loops.overrunSum
  let d1 := d.setSlot i { l with overrun := n }
  ((({ d1 with loops := { d1.loops with overrunSum := m } }).satAt 0x23 16 n).satAt 0x23 16 m).loopEvent 0x60 i .warn (i + 2 ^ 8 * cause)

/-- An APPLY overrun of the sender of a discarded output: a loop, or 128 and the number of a group. -/
def Dev.discardOf (d : Dev) (x : Nat) : Dev :=
  let ms := if x < 128 then [x] else (d.grp (x - 128)).cfg.members
  let d1 := ms.foldl (fun acc j => acc.setSlot j { acc.slot j with applyResync := true }) d
  match ms with
  | [] => d1
  | j :: _ => d1.overrunOf j 1

/-- OUTPUT_DISCARD_REPORT (R173): the report of each output discarded on a die reaches the engine. -/
def execOutputDiscardReport (die : Fin 4) (s : State) : Host.Outcome State Fault Refusal :=
  let d := s.dev
  let f := d.fld die.val
  .next (if f.discards = [] ∨ d.fldUp die.val = false then s
    else
      let d1 := d.setFld die.val { f with discards := [] }
      if d1.ctlUp then { s with dev := f.discards.foldl (fun acc x => acc.discardOf x) d1 } else { s with dev := d1 })

/-! One tick. -/

/-- Ticks of a loop: period and phase in nanoseconds (R169). -/
def LoopCfg.grid (c : LoopCfg) (t : Nat) : Nat := gridAt t (c.periodM * 10000) (c.phase * 10000)

/-- A group configuration that waits and names loop `i`. -/
def Dev.groupWaits (d : Dev) (i : Nat) : Option OvrGroup :=
  (d.loops.group.find? (fun x => ((x.2.cfgNext.map (fun c => c.members.contains i)).getD false) || (x.2.cfgNext.isSome && x.2.cfg.members.contains i))).map (fun x => x.2)

/-- The next tick of loop `i`: none where it is OFF and nothing waits for a tick of it. A tick more than a period old gives way to the newest
one that has passed its cut-off. -/
def Dev.tickDue (d : Dev) (i : Nat) : Option Nat :=
  let l := d.slot i
  let lo := d.now - 4000
  let p := l.cfg.periodM * 10000
  if l.mode ≠ .off ∨ d.traced i = true then
    match l.nextTick with
    | some t => some (if t + p ≤ lo then l.cfg.grid (lo + 1) - p else t)
    | none => some (l.cfg.grid lo)
  else
    match l.modeNext, d.groupWaits i with
    | some _, _ => some (l.cfg.grid (max lo l.modeAt))
    | none, some g => some (l.cfg.grid (max lo g.cfgAt))
    | none, none => none

/-- Numeric faults have put a loop into MANUAL at the held output (R187). -/
def Dev.modeTo (d : Dev) (i : Nat) (m : LoopMode) (cause : Nat) : Dev :=
  let l := d.slot i
  if l.mode = m then d
  else
    let started := decide (l.mode = .off)
    let l1 : LoopSlot := { l with mode := m, transfers := l.transfers + 1, numRun := if started then 0 else l.numRun, staleRun := if started then 0 else l.staleRun,
                                  heldIn := if started then false else l.heldIn, state := if m = .off then .off else l.state }
    let d1 := d.setSlot i l1
    let d2 := if started then d1.setSup i { d1.sup i with reinit := true } else d1
    d2.loopEvent 0x64 i .info (i + 2 ^ 8 * l.mode.num + 2 ^ 10 * m.num + 2 ^ 12 * cause)

/-- After 8 consecutive numeric-fault ticks of loop `i`, it, or its group, enters MANUAL at the held output (R187). -/
def Dev.numericManual (d : Dev) (i : Nat) : Dev :=
  if (d.slot i).numRun < 8 then d
  else
    let ms := d.membersOf i
    let lead := ms.headD i
    let held := if (d.groupOf i).isSome then (d.slot lead).out else (d.slot lead).uPrev
    let d1 := d.setSlot i { d.slot i with numRun := 0 }
    let d2 := d1.setSlot lead { d1.slot lead with manOut := held }
    ms.foldl (fun acc j => acc.modeTo j .manual 1) d2

/-- NUMERIC_MANUAL (R187). -/
def execNumericManual (i : Fin 128) (s : State) : Host.Outcome State Fault Refusal :=
  .next (if s.dev.ctlUp then { s with dev := s.dev.numericManual i.val } else s)

/-- Section settings of a loop take effect (R192). -/
def LoopSlot.takeSections (l : LoopSlot) : LoopSlot :=
  l.secNext.foldl (fun (a : LoopSlot) x => { a with sec := a.sec.wr x.1 x.2, secForm := if (a.sec.rd x.1).delta ≠ x.2.delta ∧ x.1 ∉ a.secForm then x.1 :: a.secForm else a.secForm })
    { l with secNext := [], retrack := l.retrack || decide (l.mode ≠ .off) }

/-- A loop configuration takes effect (R191). -/
def Dev.takeCfg (d : Dev) (i : Nat) (c : LoopCfg) : Dev :=
  let l := d.slot i
  let moved := decide (c.periodM ≠ l.cfg.periodM ∨ c.phase ≠ l.cfg.phase)
  let d1 := if moved then d.traceAbort i else d
  let l1 := d1.slot i
  d1.setSlot i { l1 with cfg := c, cfgNext := none, manOut := c.manOut, retrack := l1.retrack || decide (l1.mode ≠ .off), nextTick := if moved then none else l1.nextTick }

/-- Everything that waits for a tick of loop `i` at or before `t` takes effect, its mode apart. -/
def Dev.takePending (d : Dev) (i t : Nat) : Dev :=
  let l := d.slot i
  let d1 := match l.cfgNext with
    | some c => if l.cfgAt ≤ t then d.takeCfg i c else d
    | none => d
  let l1 := d1.slot i
  let d2 := if l1.secNext ≠ [] ∧ l1.secAt ≤ t then d1.setSlot i l1.takeSections else d1
  (d2.supPending i t).mogPending i t

/-- A group configuration takes effect (R190, R195). -/
def OvrGroup.take (g : OvrGroup) (c : OvrCfg) : OvrGroup := { g with cfg := c, cfgNext := none, formed := false, selected := 0 }

/-- Group configurations that wait for a tick of loop `i` at or before `t` take effect. -/
def Dev.takeGroups (d : Dev) (i t : Nat) : Dev :=
  let f (g : OvrGroup) : OvrGroup := match g.cfgNext with
    | some c => if g.cfgAt ≤ t ∧ (c.members.contains i || g.cfg.members.contains i) = true then g.take c else g
    | none => g
  { d with loops := { d.loops with group := d.loops.group.mapD f } }

/-- The mode change of the lead that tick `t` brings into effect (R182, R193); the present value is `u`. -/
def Dev.takeMode (d : Dev) (ms : List Nat) (t : Nat) (u : Word) : Dev :=
  let lead := ms.headD 0
  let l := d.slot lead
  match l.modeNext with
  | none => d
  | some m =>
    if t < l.modeAt then d
    else
      let man := match l.setMan with
        | some v => v
        | none => if l.mode = .auto ∧ m = .manual then l.uPrev else l.manOut
      let cause := l.modeCause
      let d1 := ms.foldl (fun acc j => if (acc.slot j).mode = .off ∧ m = .manual then acc.setSlot j { acc.slot j with uPrev := u } else acc) d
      let d2 := d1.setSlot lead { d1.slot lead with modeNext := none, modeCause := 0, setMan := none, manOut := man }
      ms.foldl (fun acc j => acc.modeTo j m cause) d2

/-- The members of a group just formed take the lead's mode (R190). -/
def Dev.form (d : Dev) (lead : Nat) (ms : List Nat) : Dev :=
  match d.groupOf lead with
  | none => d
  | some g =>
    if (d.grp g).formed then d
    else ms.foldl (fun acc j => acc.modeTo j (acc.slot lead).mode 0) (d.setGrp g { d.grp g with formed := true })

/-- The newest sample that qualifies at tick `t` (R170). -/
def LoopSlot.newest (l : LoopSlot) (t : Nat) : Option Sample :=
  (l.samples.filter (fun s => decide (t - l.cfg.inWinUs * 1000 ≤ s.time ∧ s.time < t ∧ s.arrived < t + 4000))).foldl (fun (a : Option Sample) s => match a with
    | none => some s
    | some b => if b.time < s.time then some s else a) none

/-- Takes the input of loop `i` at tick `t` (R170, R171, R186). -/
def Dev.takeInput (d : Dev) (i t : Nat) : Dev :=
  let l := d.slot i
  let got : Option (Word × Word × BitVec 8) :=
    if l.cfg.inType = 0 then (l.newest t).map (fun s => (s.value, w32 s.time, s.quality))
    else let e := d.pointBefore l.cfg.inId t
      some (e.value, 0, e.quality)
  match got.filter (fun x => decide (x.2.2.toNat < 0x80)) with
  | some (v, ns, _) =>
    let d1 := d.setSlot i { l with y := v, sampleNs := ns, stale := false, staleRun := 0, heldIn := false }
    if l.heldIn then d1.loopEvent 0x62 i .info i else d1
  | none =>
    let run := l.staleRun + 1
    let n := bump 16 l.staleCnt
    let m := bump 16 d.loops.staleSum
    let held := decide (l.cfg.staleLimit ≤ run)
    let d1 := d.setSlot i { l with stale := true, staleRun := satN 8 run, staleCnt := n, heldIn := held || l.heldIn, state := if held || l.heldIn then .held else l.state }
    let d2 := (({ d1 with loops := { d1.loops with staleSum := m } }).satAt 0x23 16 n).satAt 0x23 16 m
    if held && !l.heldIn then d2.loopEvent 0x61 i .warn (i + 2 ^ 8 * b1 got.isSome) else d2

/-- The set-point of loop `i` is bad or good (R171, R188). -/
def Dev.setSpBad (d : Dev) (i : Nat) (b : Bool) : Dev :=
  let l := d.slot i
  if l.spBad = b then d else (d.setSlot i { l with spBad := b }).loopEvent 0x67 i .warn (i + 2 ^ 8 * b1 b)

/-- Reads the set-point target of loop `i` at tick `t` (R171, R188). -/
def Dev.takeTarget (d : Dev) (i t : Nat) : Dev :=
  let l := d.slot i
  match l.cfg.spSrc.toNat with
  | 0 => (d.setSlot i { l with rt := l.cfg.spConst }).setSpBad i false
  | 1 =>
    let e := d.pointBefore l.cfg.spId t
    if 0x80 ≤ e.quality.toNat then d.setSpBad i true else (d.setSlot i { l with rt := e.value }).setSpBad i false
  | _ =>
    let ready := l.outerTarget.filter (fun x => decide (x.1 ≤ t))
    if (d.slot l.cfg.spId).mode = .off then d.setSpBad i true
    else
      let rt := match ready.getLast? with
        | some x => x.2
        | none => l.rt
      (d.setSlot i { l with rt := rt, outerTarget := l.outerTarget.filter (fun x => decide (t < x.1)) }).setSpBad i false

/-- Reads the manual point of a loop in MANUAL (R182). -/
def Dev.takeManual (d : Dev) (i t : Nat) : Dev :=
  let l := d.slot i
  if l.mode ≠ .manual ∨ l.cfg.manSrc ≠ 1 then d
  else
    let e := d.pointBefore l.cfg.manId t
    if 0x80 ≤ e.quality.toNat then d else d.setSlot i { l with manOut := e.value }

/-- DEST_HELD follows the destination (R184). -/
def Dev.setDestHeld (d : Dev) (i : Nat) (held : Bool) : Dev :=
  let l := d.slot i
  if l.destHeld = held then d else (d.setSlot i { l with destHeld := held }).loopEvent 0x65 i .info (i + 2 ^ 8 * b1 held)

/-- A numeric fault of loop `i` (R187). -/
def Dev.numericFault (d : Dev) (i : Nat) : Dev :=
  let l := d.slot i
  let n := bump 16 l.numericCnt
  ((d.setSlot i { l with state := .held, numericCnt := n, numRun := l.numRun + 1 }).satAt 0x23 16 n).loopEvent 0x63 i .warn i

/-- Commits what a tick of loop `i` computed. -/
def Dev.commitTick (d : Dev) (i : Nat) (o : TickOut) (m : Word) (st : LoopState) : Dev :=
  let l := d.slot i
  let uc := o.uc.getD l.uc
  let free := o.uc.isSome
  d.setSlot i { l with state := st, st := o.st, rPrev := o.r, e := o.e, uPrev := o.u, uc := uc, m := m, secOut := o.outs, intFrozen := o.frozen,
                       clampHi := free && lt32 o.u uc, clampLo := free && lt32 uc o.u, numRun := 0, secForm := [], retrack := false, entry := false, superRelease := false }

/-- The state a loop in mode `m` reads. -/
def modeState (m : LoopMode) : LoopState := match m with
  | .off => .off | .manual => .manual | .auto => .auto

/-- TRACK(u) of the loops `js` at tick `t`, each reading state `st`. -/
def Dev.trackAll (d : Dev) (js : List Nat) (t : Nat) (u : Word) (st : LoopState) : Dev :=
  js.foldl (fun acc j =>
    let l := acc.slot j
    let m := acc.mogPlay j t
    let o := l.track m u (l.cfg.spTrack && decide (l.mode = .manual ∨ st = .tracking))
    if o.bad then acc.numericFault j else acc.commitTick j o m st) d

/-- QUALITY of an output to a point (R174, R200). -/
def Dev.loopQuality (d : Dev) (ms : List Nat) : BitVec 8 :=
  if ms.any (fun j => (d.sup j).inForce && decide ((d.sup j).cfg.action ≠ .none)) then 0x85
  else if (d.slot (ms.headD 0)).mode = .manual then 0x01 else 0x00

/-- The loop whose set-point comes from loop `i` (R188). -/
def Dev.innerOf (d : Dev) (i : Nat) : Option Nat := (d.loops.slot.find? (fun x => decide (x.2.cfg.spSrc = 2 ∧ x.2.cfg.spId = i))).map (fun x => x.1)

/-- Hands the output of an outer loop to its inner loop, from instant `due` on (R188). -/
def Dev.toInner (d : Dev) (i due : Nat) (u : Word) : Dev :=
  match d.innerOf i with
  | some j => d.setSlot j { d.slot j with outerTarget := (d.slot j).outerTarget ++ [(due, u)] }
  | none => d

/-- Sends an output value to the destination of the loops `ms`, for the tick at `due`. -/
def Dev.sendDest (d : Dev) (ms : List Nat) (u : Word) (due : Nat) : Dev :=
  let lead := ms.headD 0
  let by' := match d.groupOf lead with
    | some g => 128 + g
    | none => lead
  match d.destOf lead with
  | (1, c) => d.sendOutput (c / 24) (c % 24) u (due / 10000) (some by') false
  | (2, c) => d.sendOutput (c / 24) (c % 24) u (due / 10000) (some by') false
  | (3, p) => { d with loops := { d.loops with ptOut := d.loops.ptOut ++ [{ id := p, value := u, due := due, quality := d.loopQuality ms }] } }
  | _ => d

/-- Sends `u` where one of the loops `js` has committed the tick, for the tick at `due`. -/
def Dev.send (d : Dev) (ms js : List Nat) (u : Word) (due : Nat) : Dev :=
  if js.all (fun j => decide ((d.slot j).state = .held)) then d
  else
    let d1 := ms.foldl (fun acc j => acc.setSlot j { acc.slot j with out := u }) d
    (d1.sendDest ms u due).toInner (ms.headD 0) due u

/-- HOLD and SAFE write a point destination once, with its present value (R200). -/
def Dev.pointOnce (d : Dev) (ms : List Nat) (who : Nat) (u : Word) (due : Nat) : Dev :=
  if (d.destOf (ms.headD 0)).1 = 3 ∧ (d.sup who).pointWritten = false then
    (d.setSup who { d.sup who with pointWritten := true }).sendDest ms u due
  else d

/-- A supervision failure with this action is in force on loop `i`. -/
def Dev.acts (d : Dev) (i : Nat) (a : SupAction) : Bool := (d.sup i).inForce && decide ((d.sup i).cfg.action = a)

/-- SAFE turns the loops OFF and sets a destination channel to its safe value (R200, R201, R273). -/
def Dev.safeAction (d : Dev) (ms : List Nat) (who : Nat) (present : Word) (due : Nat) : Dev :=
  let lead := ms.headD 0
  let by' := match d.groupOf lead with
    | some g => 128 + g
    | none => lead
  let d1 := match d.destOf lead with
    | (1, c) => d.sendOutput (c / 24) (c % 24) 0 (due / 10000) (some by') true
    | (2, c) => d.sendOutput (c / 24) (c % 24) 0 (due / 10000) (some by') true
    | _ => d.pointOnce ms who present due
  ms.foldl (fun acc j => acc.modeTo j .off 2) d1

/-- The candidates of the loops `js` in AUTO (R190): a numeric fault gives none. -/
def Dev.candidates (d : Dev) (t : Nat) : List Nat → Dev × List (Nat × TickOut)
  | [] => (d, [])
  | j :: js =>
    let o := (d.slot j).auto (d.mogPlay j t)
    if o.bad then Dev.candidates (d.numericFault j) t js
    else
      let (d1, cs) := Dev.candidates d t js
      (d1, (j, o) :: cs)

/-- The candidate selected: the smallest or the largest, the first listed on a tie (R190). -/
def selectOf (largest : Bool) : List (Nat × TickOut) → Option (Nat × TickOut)
  | [] => none
  | c :: cs => match selectOf largest cs with
    | none => some c
    | some b => if (if largest then lt32 c.2.u b.2.u else lt32 b.2.u c.2.u) then some b else some c

/-- SELECTED and SWITCHES of group `g` after a selection (R190). -/
def Dev.selectMember (d : Dev) (g : Nat) (ms : List Nat) (j : Nat) : Dev :=
  let x := d.grp g
  let n := ms.findIdx (fun k => k = j)
  if n = x.selected then d
  else
    let d1 := d.setGrp g { x with selected := n, switches := x.switches + 1 }
    if x.cfg.swEvent then (d1.markEvent 0x66 ms).raiseCtl 0x66 (0x2300 + g) .info (g + 2 ^ 4 * x.selected + 2 ^ 8 * n) else d1

/-- AUTO of an override group (R190): `part` are the members that are not HELD, `backs` those of them that have just left HELD. -/
def Dev.groupAuto (d : Dev) (g : Nat) (ms part backs : List Nat) (t due : Nat) (present : Word) : Dev :=
  let fresh := part.filter (fun j => !backs.contains j)
  let (d1, cs) := d.candidates t fresh
  match selectOf (d.grp g).cfg.selMax cs with
  | none => d1.trackAll backs t present .auto
  | some (j, o) =>
    let d2 := d1.commitTick j o (d1.mogPlay j t) .auto
    let rest := (part.filter (fun k => decide (k ≠ j) && (backs.contains k || cs.any (fun c => c.1 = k))))
    ((d2.trackAll rest t o.u .tracking).selectMember g ms j).send ms [j] o.u due

/-- AUTO of a single loop (R177). -/
def Dev.singleAuto (d : Dev) (i t due : Nat) : Dev :=
  let m := d.mogPlay i t
  let o := (d.slot i).auto m
  if o.bad then d.numericFault i else (d.commitTick i o m .auto).send [i] [i] o.u due

/-- An outer loop in AUTO tracks the input of its inner loop while that is not in AUTO, or is TRACKING or HELD (R189). -/
def Dev.outerTracks (d : Dev) (i : Nat) : Option Word :=
  match d.innerOf i with
  | none => none
  | some j =>
    let l := d.slot j
    if l.mode ≠ .auto ∨ l.state = .tracking ∨ l.state = .held then some l.y else none

/-- What the loops `ms` compute and send at tick `t` once their inputs are taken: `old` is the lead's mode before the tick, `part` the loops that
are not HELD, `backs` those that have just left HELD. -/
def Dev.computeTick (d : Dev) (ms part backs : List Nat) (t due : Nat) (old : LoopMode) (present : Word) : Dev :=
  let lead := ms.headD 0
  let l := d.slot lead
  let st := modeState l.mode
  let follow (u : Word) (x : LoopState) : Dev := (d.trackAll part t u x).send ms part u due
  let head := part.headD lead
  let grp := d.groupOf lead
  if part = [] then d
  else if l.destHeld then follow present .tracking
  else if part.any (fun j => (d.slot j).entry) then follow present st
  else
    match (if l.mode = .auto then ms.find? (fun j => d.acts j .fallback) else none), (if l.mode = .auto then ms.find? (fun j => d.acts j .hold) else none) with
    | some j, _ => follow ((d.slot j).limitOut (d.sup j).cfg.fbOut) .supervised
    | none, some j => (((d.trackAll part t present .supervised).pointOnce ms j present due).toInner lead due present)
    | none, none =>
      if old = .off ∧ l.mode = .auto then follow (clamp32 present l.cfg.uMin l.cfg.uMax) st
      else if part.any (fun j => (d.slot j).superRelease) then follow present st
      else if grp.isNone && !backs.isEmpty then follow present st
      else
        match (if l.mode = .auto ∧ grp = none then d.outerTracks lead else none) with
        | some y => follow y .tracking
        | none =>
          if old = l.mode ∧ part.any (fun j => (d.slot j).retrack) = true then follow (d.slot head).uPrev st
          else if l.mode = .manual then follow (l.limitOut l.manOut) st
          else
            match grp with
            | some g => d.groupAuto g ms part backs t due present
            | none => d.singleAuto lead t due

/-- What follows the computation of loop `i` at tick `t`: its learner, its supervisor's tick, its traces, its next tick. -/
def Dev.endTick (d : Dev) (i t : Nat) (present : Word) (abandoned : Bool) : Dev :=
  let l := d.slot i
  let live := decide (l.mode ≠ .off)
  let s := d.sup i
  let paused := l.destHeld && decide (l.state = .tracking)
  let d1 := if live then d.setSup i { s with due := s.cfg.enable, counted := !l.stale && !paused && !abandoned, paused := paused, reinit := s.reinit || paused } else d
  let fault := abandoned || (decide (l.state = .held) && !l.heldIn)
  let d2 := if live then d1.mogTick i t fault else d1
  let l2 := d2.slot i
  let d3 := d2.setSlot i { l2 with present := present, samples := l2.samples.filter (fun s => decide (t ≤ s.time)), lastTick := if live then t else l2.lastTick }
  let d4 := d3.traceTick i t
  let l4 := d4.slot i
  d4.setSlot i { l4 with nextTick := if live || d4.traced i then some (l4.cfg.grid (t + 1)) else none }

/-- Cost of a loop in CK_LOOP cycles (R175). -/
def LoopCfg.cost (c : LoopCfg) : Nat := 24 + 2 * c.sections + 4 * b1 c.mogulEn

/-- The engine's time for the computation of `ms` at tick `t` (R172, R175): slack against the compute deadline, base ticks served. -/
def Dev.engineTime (d : Dev) (ms : List Nat) (t due : Nat) : Dev :=
  let c := (ms.map (fun j => (d.slot j).cfg.cost)).sum
  let e := d.loops
  let fin := max (2 * (t + 4000)) e.busy + 5 * c
  let slack := (2 * (due - 5000) - fin) / 20
  let b := t / 10000
  { d with loops := { e with busy := fin, minSlack := min e.minSlack (satN 16 slack), tickCnt := if e.lastBase = b then e.tickCnt else e.tickCnt + 1, lastBase := b } }

/-- What stood before tick `t` of the loops `ms` is brought up to date: outputs due, evaluations of the previous tick, numeric changes of mode. -/
def Dev.beforeTick (d : Dev) (ms : List Nat) (t : Nat) : Dev :=
  let d1 := Dev.applyUpTo (t / 10000) (d.waitingTicks.length + 1) d
  let d2 := d1.toCt (t + 4000)
  (ms.foldl (fun acc j => acc.supSettle j) d2) |> fun x => ms.foldl (fun acc j => acc.numericManual j) x

/-- The tick `t` of the loops `ms` that are computed together, lead first. -/
def Dev.tickMembers (d : Dev) (ms : List Nat) (t : Nat) : Dev :=
  let lead := ms.headD 0
  let d1 := ms.foldl (fun acc j => acc.takePending j t) d
  let present := d1.presentOf lead t
  let old := (d1.slot lead).mode
  let d2 := (d1.takeMode ms t present).form lead ms
  let d3 := if old = .auto ∧ (d2.slot lead).mode = .manual then d2 else d2.takeManual lead t
  let due := (d3.slot lead).cfg.grid (t + 1)
  let d4 := if (d3.slot lead).mode = .off then d3
    else
      match ms.find? (fun j => d3.acts j .safe) with
      | some j => d3.safeAction ms j present due
      | none =>
        let e := d3.engineTime ms t due
        let r := ms.foldl (fun acc j => if (acc.slot j).applyResync then acc.setSlot j { acc.slot j with applyResync := false, uPrev := present } else acc) e
        let before := ms.filter (fun j => (r.slot j).heldIn)
        let a := ms.foldl (fun acc j => acc.takeInput j t) r
        let part := ms.filter (fun j => !(a.slot j).heldIn)
        let b := part.foldl (fun acc j => acc.takeTarget j t) a
        let h := ms.foldl (fun acc j => acc.setDestHeld j (!acc.destAccepts j)) b
        (h.toCt ((h.loops.busy + 1) / 2)).computeTick ms part (before.filter (fun j => part.contains j)) t due old present
  ms.foldl (fun acc j => acc.endTick j t present false) d4

/-- LOOP_TICK of loop `i`: the next tick of the loop, or of the group it leads (R172, R177, R190). -/
def Dev.loopTick (d : Dev) (i : Nat) : Dev :=
  match d.tickDue i with
  | none => d
  | some t =>
    let d1 := (d.beforeTick (d.membersOf i) t).takeGroups i t
    let ms := d1.membersOf i
    if ms.head? = some i then d1.tickMembers ms t else d1

/-- LOOP_TICK (R177). -/
def execLoopTick (i : Fin 128) (s : State) : Host.Outcome State Fault Refusal :=
  .next (if s.dev.ctlUp then { s with dev := s.dev.loopTick i.val } else s)

/-- LOOP_STALE_LIMIT (R186): the tick at which the loop goes HELD, where its next tick is that one. -/
def execLoopStaleLimit (i : Fin 128) (s : State) : Host.Outcome State Fault Refusal :=
  .next (
    let d := s.dev
    let d1 := d.loopTick i.val
    if d.ctlUp && !(d.slot i.val).heldIn && (d1.slot i.val).heldIn then { s with dev := d1 } else s)

/-- LOOP_COMPUTE_DEADLINE (R173): the next tick of the loop is abandoned at its compute deadline. -/
def execLoopComputeDeadline (i : Fin 128) (s : State) : Host.Outcome State Fault Refusal :=
  .next (
    let d := s.dev
    let ms := d.membersOf i.val
    match d.tickDue i.val with
    | none => s
    | some t =>
      if !d.ctlUp || decide (ms.head? ≠ some i.val ∨ (d.slot i.val).mode = .off) then s
      else
        let due := (d.slot i.val).cfg.grid (t + 1)
        let d1 := (d.beforeTick ms t).toCt (due - 5000)
        let d2 := ms.foldl (fun acc j => acc.overrunOf j 0) d1
        { s with dev := ms.foldl (fun acc j => acc.endTick j t (acc.slot j).present true) d2 })

/-! Opcodes. -/

/-- Loops with the configuration accepted last, loop `i` with `c`. -/
def Dev.cfgsWith (d : Dev) (i : Nat) (c : LoopCfg) : List (Nat × LoopCfg) :=
  (i, c) :: (d.loops.slot.filter (fun x => x.1 ≠ i)).map (fun x => (x.1, x.2.cfgNext.getD x.2.cfg))

/-- Enabled groups with the configuration accepted last, group `g` with `c`; 16 names no group. -/
def Dev.groupsWith (d : Dev) (g : Nat) (c : OvrCfg) : List (Nat × OvrCfg) :=
  ((if g < 16 then [(g, c)] else []) ++ (d.loops.group.filter (fun x => x.1 ≠ g)).map (fun x => (x.1, x.2.cfgNext.getD x.2.cfg))).filter (fun x => x.2.enable)

/-- The configuration of loop `j` in a list. -/
def cfgIn (cs : List (Nat × LoopCfg)) (j : Nat) : LoopCfg := ((cs.find? (fun x => x.1 = j)).map (fun x => x.2)).getD default

/-- The admission sum of R175 as a fraction. -/
def admission (cs : List LoopCfg) : Nat × Nat := cs.foldl (fun a c => let w := 4000 * c.periodM - 3644
  (a.1 * w + c.cost * a.2, a.2 * w)) (0, 1)

/-- The sum over these loops is at most 1. -/
def admitted (cs : List LoopCfg) : Bool := let a := admission cs
  decide (a.1 ≤ a.2)

/-- LOAD_PM: the sum in thousandths, rounded up. -/
def loadPm (cs : List LoopCfg) : Nat := let a := admission cs
  (1000 * a.1 + a.2 - 1) / a.2

/-- The loop is not OFF, or a request will take it from OFF. -/
def LoopSlot.live (l : LoopSlot) : Bool := decide (l.mode ≠ .off) || ((l.modeNext.map (fun m => decide (m ≠ .off))).getD false)

/-- The loops of `js`, and those that are live, with their configurations in `cs`. -/
def Dev.liveCfgs (d : Dev) (cs : List (Nat × LoopCfg)) (js : List Nat) : List LoopCfg :=
  (cs.filter (fun x => js.contains x.1 || (d.slot x.1).live)).map (fun x => x.2) ++ (js.filter (fun j => !cs.any (fun x => x.1 = j))).map (fun _ => default)

/-- The key under which destinations are unique: a channel or a point. -/
def destKey (ty : BitVec 3) (id : Nat) : List (Nat × Nat) := if ty = 1 ∨ ty = 2 then [(1, id)] else if ty = 3 then [(3, id)] else []

/-- A destination that breaks R191: its channel, its limits, or another loop or group that has it. -/
def Dev.destBad (d : Dev) (ty : BitVec 3) (id : Nat) (limits : List LoopCfg) (others : List (Nat × Nat)) : Bool :=
  (ty = 1 && decide (8 ≤ id % 24)) || (ty = 2 && (limits.any (fun c => lt32 c.uMin 0 || lt32 one32 c.uMax) || decide ((d.dig (id / 24) (id % 24)).cfg.mode ≠ 3))) ||
    ((ty = 1 || ty = 2) && (d.dig (id / 24) (id % 24)).memberOf.isSome) || (destKey ty id).any (fun k => others.contains k)

/-- Destinations of loops other than `i` and of groups other than `g`. -/
def otherDests (cs : List (Nat × LoopCfg)) (gs : List (Nat × OvrCfg)) (i g : Nat) : List (Nat × Nat) :=
  (cs.filter (fun x => x.1 ≠ i)).flatMap (fun x => destKey x.2.outType x.2.outId) ++ (gs.filter (fun x => x.1 ≠ g)).flatMap (fun x => destKey x.2.outType x.2.outId)

/-- The chain of outer loops of `j` comes back to it. -/
def cascadeCycle (cs : List (Nat × LoopCfg)) (j : Nat) : Nat → Nat → Bool
  | 0, _ => true
  | fuel + 1, k => let c := cfgIn cs k
    if c.spSrc ≠ 2 then false else if c.spId = j then true else cascadeCycle cs j fuel c.spId

/-- Every cascade keeps R188. -/
def cascadesOk (cs : List (Nat × LoopCfg)) (gs : List (Nat × OvrCfg)) : Bool :=
  cs.all (fun x =>
    let c := x.2
    if c.spSrc ≠ 2 then true
    else
      let o := cfgIn cs c.spId
      decide (o.periodM % c.periodM = 0 ∧ o.periodM / c.periodM ≤ 256 ∧ o.phase % c.periodM = c.phase % c.periodM) &&
        cs.all (fun y => decide (y.1 = x.1 ∨ y.2.spSrc ≠ 2 ∨ y.2.spId ≠ c.spId)) && !cascadeCycle cs x.1 129 x.1 && !gs.any (fun g => g.2.members.contains c.spId))

/-- A group keeps the conditions of R195 that concern its members. -/
def groupOk (cs : List (Nat × LoopCfg)) (gs : List (Nat × OvrCfg)) (g : Nat) (c : OvrCfg) : Bool :=
  let ms := c.members
  let m0 := cfgIn cs (ms.headD 0)
  ms.all (fun j => let x := cfgIn cs j
    decide (x.periodM = m0.periodM ∧ x.phase = m0.phase ∧ x.intSec < x.sections ∧ x.outType = 0) && !cs.any (fun y => decide (y.2.spSrc = 2 ∧ y.2.spId = j)) &&
      !gs.any (fun y => decide (y.1 ≠ g) && y.2.members.contains j)) && decide (ms.eraseDups.length = ms.length)

/-- Section `j` of a loop as accepted last. -/
def LoopSlot.secOf (l : LoopSlot) (j : Nat) : Section := ((l.secNext.find? (fun x => x.1 = j)).map (fun x => x.2)).getD (l.sec.rd j)

/-- R181: no section after the integrator section has b0 = 0. -/
def invertible (c : LoopCfg) (sec : Nat → Section) : Bool :=
  (List.range c.sections).all (fun j => decide (c.intSec = 15 ∨ j ≤ c.intSec) || !isZero32 (sec j).b0)

/-- The settings a LOOP_CONFIG carries over the accepted ones (Table 08-6). -/
def loopCfgOf (q : QPacket) (old : LoopCfg) : LoopCfg :=
  let full : LoopCfg := if q.b 0 0 then old else
    { old with periodM := q.f 1 22 0, sections := q.f 1 27 24, intSec := q.f 1 31 28, phase := q.f 2 22 0, reverse := q.b 2 23, intDir := q.b 2 24, spTrack := q.b 2 25,
               mogulEn := q.b 2 26, startMode := modeOf (q.f 2 28 27), inType := BitVec.ofNat 2 (q.f 3 1 0), inId := q.f 3 23 4, staleLimit := q.f 3 31 24,
               inWinUs := q.f 4 15 0, spSrc := BitVec.ofNat 2 (q.f 5 1 0), spId := q.f 5 23 4, outType := BitVec.ofNat 3 (q.f 14 2 0), outId := q.f 14 23 4,
               manSrc := BitVec.ofNat 2 (q.f 15 1 0), manId := q.f 15 23 4 }
  { full with spConst := q.par 6, rampUp := q.par 7, rampDn := q.par 8, uMin := q.par 9, uMax := q.par 10, rateUp := q.par 11, rateDn := q.par 12, bias := q.par 13,
              manOut := q.par 16 }

/-- Checks of the words that only a FULL LOOP_CONFIG reads. -/
def loopFullChecks (q : QPacket) (c : LoopCfg) : List (Bool × Nat × Nat) :=
  [encIf (q.resv 1 0xFF7FFFFF) 1, encIf (q.resv 2 0x1FFFFFFF || decide (q.f 2 28 27 = 3)) 2, encIf (q.resv 3 0xFFFFFFF3 || decide (1 < q.f 3 1 0)) 3, encIf (q.resv 4 0xFFFF) 4,
   encIf (q.resv 5 0xFFFFF3 || decide (q.f 5 1 0 = 3)) 5, encIf (q.resv 14 0xFFFFF7 || decide (3 < q.f 14 2 0)) 14, encIf (q.resv 15 0xFFFFF3 || decide (1 < q.f 15 1 0)) 15,
   rangeIf (outside c.periodM 2 6553600 || decide (8 < c.sections) || decide (c.intSec ≠ 15 ∧ (7 < c.intSec ∨ c.sections ≤ c.intSec))) 1, rangeIf (decide (c.periodM ≤ c.phase)) 2,
   rangeIf (decide (c.staleLimit = 0) || decide (c.inType = 0 ∧ 95 < c.inId)) 3, rangeIf (outside c.inWinUs 1 (c.periodM * 10)) 4,
   rangeIf (decide (c.spSrc = 2 ∧ 127 < c.spId)) 5, rangeIf (decide ((c.outType = 1 ∨ c.outType = 2) ∧ 95 < c.outId)) 14]

/-- Checks of the words that every LOOP_CONFIG reads. -/
def loopTuneChecks (q : QPacket) : List (Bool × Nat × Nat) :=
  [6, 7, 8, 9, 10, 11, 12, 13, 16].map (fun k => rangeIf (!fin32 (q.par k)) k) ++ [7, 8, 11, 12].map (fun k => rangeIf (lt32 (q.par k) 0) k) ++
    [rangeIf (lt32 (q.par 10) (q.par 9)) 10]

/-- The parameter checks of LOOP_CONFIG, in order. -/
def loopConfigChecks (s : State) (q : QPacket) : List (Bool × Nat × Nat) :=
  let d := s.dev
  let i := q.pkt.inst
  let l := d.slot i
  let full := !q.b 0 0
  let c := loopCfgOf q (l.cfgNext.getD l.cfg)
  let cs := d.cfgsWith i c
  let gs := d.groupsWith 16 {}
  let groupBad := (gs.filter (fun g => g.2.members.contains i)).any (fun g => !groupOk cs gs g.1 g.2 ||
    d.destBad g.2.outType g.2.outId [c] [])
  (encIf (q.resv 0 1) 0 :: (if full then loopFullChecks q c else []) ++ loopTuneChecks q ++
      [conflictIf (full && d.destBad c.outType c.outId [c] (otherDests cs gs i 16)) 14, conflictIf (decide (c.outType = 2) && (lt32 c.uMin 0 || lt32 one32 c.uMax)) 9,
       conflictIf (full && !cascadesOk cs gs) 5, conflictIf groupBad 1, conflictIf (!invertible c l.secOf) 1, conflictIf (l.live && !admitted (d.liveCfgs cs [])) 1,
       stateIf (full && decide (l.mode = .auto ∨ l.modeNext = some .auto))])

/-- LOOP_CONFIG (R191). -/
def opLoopConfig : Op where
  code := 0x0601
  target := onInst 0x23 128
  die := true
  classN := true
  params := 17
  body s q :=
    let d := s.dev
    let i := q.pkt.inst
    let l := d.slot i
    let c := loopCfgOf q (l.cfgNext.getD l.cfg)
    guarded s (loopConfigChecks s q)
      (if l.mode = .off then .ok s (d.takeCfg i c)
       else { st := { s with dev := d.setSlot i { l with cfgNext := some c, cfgAt := d.now + 50000 } }, status := stOkPending })

/-- LOOP_CONFIG. -/
def execLoopConfig (p : Packet) (s : State) : Host.Outcome State Fault Refusal := .next (packetRow opLoopConfig p s)

/-- The parameter checks of LOOP_SECTION_SET, in order. -/
def sectionChecks (s : State) (q : QPacket) : List (Bool × Nat × Nat) :=
  let d := s.dev
  let i := q.pkt.inst
  let l := d.slot i
  let j := q.f 0 2 0
  let x : Section := { delta := q.b 0 3, b0 := q.par 1, b1 := q.par 2, b2 := q.par 3, a1 := q.par 4, a2 := q.par 5 }
  let c := l.cfgNext.getD l.cfg
  let l1 : LoopSlot := { l with secNext := l.secNext.ins j x, secAt := d.now + 50000 }
  (encIf (q.resv 0 15) 0 :: (List.range 5).map (fun k => rangeIf (!fin32 (q.par (k + 1))) (k + 1)) ++
      [conflictIf (!invertible c l1.secOf || !invertible l.cfg l1.secOf) 1])

/-- LOOP_SECTION_SET (R192). -/
def opLoopSectionSet : Op where
  code := 0x0602
  target := onInst 0x23 128
  die := true
  classN := true
  params := 6
  body s q :=
    let d := s.dev
    let i := q.pkt.inst
    let l := d.slot i
    let j := q.f 0 2 0
    let x : Section := { delta := q.b 0 3, b0 := q.par 1, b1 := q.par 2, b2 := q.par 3, a1 := q.par 4, a2 := q.par 5 }
    let l1 : LoopSlot := { l with secNext := l.secNext.ins j x, secAt := d.now + 50000 }
    guarded s (sectionChecks s q)
      (if l.mode = .off then .ok s (d.setSlot i l1.takeSections) else { st := { s with dev := d.setSlot i l1 }, status := stOkPending })

/-- LOOP_SECTION_SET. -/
def execLoopSectionSet (p : Packet) (s : State) : Host.Outcome State Fault Refusal := .next (packetRow opLoopSectionSet p s)

/-- LOOP_MODE (R193). -/
def opLoopMode : Op where
  code := 0x0603
  target := onInst 0x23 128
  die := true
  params := 2
  body s q :=
    let d := s.dev
    let i := q.pkt.inst
    let l := d.slot i
    let m := modeOf (q.f 0 1 0)
    let man := decide (m = .manual) && q.b 0 2
    let gs := d.groupsWith 16 {}
    let mine := gs.find? (fun g => g.2.members.contains i)
    let js := match mine with
      | some g => g.2.members
      | none => [i]
    guarded s [encIf (q.resv 0 7 || decide (q.f 0 1 0 = 3)) 0, rangeIf (man && !fin32 (q.par 1)) 1, conflictIf (js.head? != some i) 0,
        conflictIf (decide (m ≠ .off) && !admitted (d.liveCfgs (d.cfgsWith i (l.cfgNext.getD l.cfg)) js)) 0]
      (if decide (l.mode = m) && !man && l.modeNext.isNone then { st := s, status := stOkNoChange }
       else { st := { s with dev := d.setSlot i { l with modeNext := some m, modeAt := d.now + 50000, modeCause := 0, setMan := if man then some (q.par 1) else none } },
              status := stOkPending })

/-- LOOP_MODE. -/
def execLoopMode (p : Packet) (s : State) : Host.Outcome State Fault Refusal := .next (packetRow opLoopMode p s)

/-- The block of a loop (Table 08-10). -/
def LoopSlot.words (l : LoopSlot) : List Word :=
  [l.stateWord, l.rPrev, l.y, l.out, pack [(l.overrun, 0), (l.staleCnt, 16)], pack [(l.numericCnt, 0), (l.transfers.toNat, 16)], w32 l.lastTick, l.manOut]

/-- LOOP_STATUS (Table 08-8). -/
def opLoopStatus : Op where
  code := 0x0604
  target := onInst 0x23 128
  die := true
  body s q :=
    let l := s.dev.slot q.pkt.inst
    let st : SecState := if l.cfg.intSec < l.cfg.sections then l.st.rd l.cfg.intSec else {}
    .read s (l.words ++ [st.s1, st.s2, l.sampleNs, l.uc])

/-- LOOP_STATUS. -/
def execLoopStatus (p : Packet) (s : State) : Host.Outcome State Fault Refusal := .next (packetRow opLoopStatus p s)

/-- The eight member fields of an OVERRIDE_CONFIG (Table 08-9). -/
def ovrFields (q : QPacket) : List Nat := (List.range 8).map (fun k => q.f (1 + k / 4) (8 * (k % 4) + 6) (8 * (k % 4)))

/-- The settings an OVERRIDE_CONFIG carries. -/
def ovrCfgOf (q : QPacket) : OvrCfg :=
  { enable := q.b 0 5, selMax := q.b 0 4, swEvent := q.b 0 6, members := if q.b 0 5 then (ovrFields q).take (q.f 0 11 8) else [], outType := BitVec.ofNat 3 (q.f 3 2 0),
    outId := q.f 3 23 4 }

/-- The parameter checks of OVERRIDE_CONFIG, in order. -/
def overrideChecks (s : State) (q : QPacket) : List (Bool × Nat × Nat) :=
  let d := s.dev
  let g := q.f 0 3 0
  let x := d.grp g
  let c := ovrCfgOf q
  let old := x.cfg.members ++ ((x.cfgNext.map (fun y => y.members)).getD [])
  let all := old ++ c.members
  let cs := d.cfgsWith (c.members.headD 0) ((d.slot (c.members.headD 0)).cfgNext.getD (d.slot (c.members.headD 0)).cfg)
  let gs := d.groupsWith g c
  let on := c.enable && (d.slot (c.members.headD 0)).live
  let busy (j : Nat) : Bool := decide ((d.slot j).mode = .auto ∨ (d.slot j).modeNext = some .auto)
  [encIf (q.resv 0 0xF7F) 0, encIf (q.resv 1 0x7F7F7F7F) 1, encIf (q.resv 2 0x7F7F7F7F) 2, encIf (q.resv 3 0xFFFFF7 || decide (3 < q.f 3 2 0)) 3,
      rangeIf (c.enable && outside (q.f 0 11 8) 2 8) 0, rangeIf (c.enable && ((ovrFields q).drop (q.f 0 11 8)).any (fun j => decide (j ≠ 0))) 1,
      rangeIf (decide ((c.outType = 1 ∨ c.outType = 2) ∧ 95 < c.outId)) 3, conflictIf (c.enable && !groupOk cs gs g c) 1, conflictIf (c.enable && !cascadesOk cs gs) 1,
      conflictIf (c.enable && d.destBad c.outType c.outId (c.members.map (cfgIn cs)) (otherDests cs gs 128 g)) 3,
      conflictIf (on && !admitted (d.liveCfgs cs c.members)) 0, stateIf (all.any busy)]

/-- OVERRIDE_CONFIG (R190, R195). -/
def opOverrideConfig : Op where
  code := 0x0605
  target := onInst 0x23 1
  die := true
  classN := true
  params := 4
  body s q :=
    let d := s.dev
    let g := q.f 0 3 0
    let x := d.grp g
    let c := ovrCfgOf q
    let old := x.cfg.members ++ ((x.cfgNext.map (fun y => y.members)).getD [])
    let all := old ++ c.members
    guarded s (overrideChecks s q)
      { st := { s with dev := if all.all (fun j => decide ((d.slot j).mode = .off)) then d.setGrp g (x.take c)
                              else d.setGrp g { x with cfgNext := some c, cfgAt := d.now + 50000 } },
        status := stOkPending }

/-- OVERRIDE_CONFIG. -/
def execOverrideConfig (p : Packet) (s : State) : Host.Outcome State Fault Refusal := .next (packetRow opOverrideConfig p s)

/-! Registers. -/

/-- The loop engine's page (Tables 08-10, 09-9 to 09-11). -/
def Dev.loopWord (d : Dev) (o : Nat) : Word :=
  let e := d.loops
  let runs := e.slot.filter (fun x => decide (x.2.mode ≠ .off))
  if 0x0400 ≤ o ∧ o < 0x1400 then nth (d.slot ((o - 0x400) / 32)).words (o % 32 / 4)
  else if 0x1400 ≤ o ∧ o < 0x1440 then
    let g := d.grp ((o - 0x1400) / 4)
    pack [(g.selected, 0), (b1 g.cfg.enable, 3), (g.switches.toNat, 16)]
  else if 0x2000 ≤ o ∧ o < 0x3000 then nth (d.sup ((o - 0x2000) / 32)).words (o % 32 / 4)
  else if 0x3000 ≤ o ∧ o < 0x3800 then nth (d.mog ((o - 0x3000) / 16)).words (o % 16 / 4)
  else if 0x3800 ≤ o ∧ o < 0x3880 then nth (d.trc ((o - 0x3800) / 32)).words (o % 32 / 4)
  else match o with
    | 0x0000 => pack [(runs.length, 0), (loadPm (runs.map (fun x => x.2.cfg)), 16)]
    | 0x0004 => w32 e.tickCnt.toNat
    | 0x0008 => pack [(e.overrunSum, 0), (e.staleSum, 16)]
    | 0x000C => w32 e.minSlack
    | 0x3900 => w32 d.aux.pagesUsed
    | _ => 0

end Sys2Proof.Machine
end

