-- ==== Sys2Proof/Machine/Rtc.lean ====
section
/-! DEFINITION. The backup domain (chapter 15): the real-time clock, its loads, trim, alarm and synchronisation, and the event inputs. -/

namespace Sys2Proof.Machine

open Sys2Proof.Bits

/-- Changes the backup domain. -/
def Dev.setBackup (d : Dev) (b : Backup) : Dev := { d with backup := b }

/-- Changes one event input. -/
def Dev.setEvin (d : Dev) (i : Nat) (e : Evin) : Dev := d.setBackup { d.backup with evin := d.backup.evin.wr i e }

/-- Data of an event without its bit 63 (R342). -/
def pendData (v : Nat) : BitVec 64 := BitVec.ofNat 64 (v % 2 ^ 63)

/-- One of the happenings of R342: raised while the main domain is powered, else kept pending. -/
def Dev.backupEvent (d : Dev) (code source : Nat) (sev : Severity) (data : Nat) (keep : RtcPend → BitVec 64 → RtcPend) : Dev :=
  if d.power.on then d.raise code source sev data else d.setBackup { d.backup with pend := keep d.backup.pend (pendData data) }

/-- At a start-up the hub raises each pending happening once, with bit 63 = 1, and clears it (R342). -/
def Dev.raisePending (d : Dev) : Dev :=
  let p := d.backup.pend
  let one (acc : Dev) (v : Option (BitVec 64)) (code source : Nat) (sev : Severity) : Dev :=
    match v with
    | some w => acc.raise code source sev (w.toNat + 2 ^ 63)
    | none => acc
  let d1 := one (one (one d p.alarm 0x4001 0x4000 .info) p.supply 0x4006 0x4000 .info) p.tamper 0x400A (0x4000 + d.keys.pendInput) .crit
  let d2 := p.overflow.foldl (fun acc x => acc.raise 0x4009 (0x4000 + x.1) .warn (x.2.toNat + 2 ^ 63)) d1
  d2.setBackup { d2.backup with pend := {} }

/-! The count as it stood some crystal edges ago (R339). -/

/-- Advance of the count in the `n` pulses that end at pulse `k` of a trim window. -/
def advBack (trim : Int) (k n : Nat) : Nat :=
  let c := trimAt trim k - trimAt trim (k - n)
  if 0 < trim then n + c else n - c

/-- The count after crystal edge `e`, at or before the newest one, found backwards over the breaks. -/
def countAt (e : Nat) : List RtcSeg → RtcCount → Nat → Int → Nat → RtcCount
  | [], c, now, trim, k => RtcCount.ofNat (c.toNat + 2 ^ 55 - advBack trim k (now - e))
  | s :: t, c, now, trim, k =>
    if s.edge ≤ e then RtcCount.ofNat (c.toNat + 2 ^ 55 - advBack trim k (now - e))
    else countAt e t s.count s.edge s.trim s.windowK

/-- The count `n` crystal edges ago. -/
def Backup.countBack (b : Backup) (n : Nat) : RtcCount := countAt (b.edgeNo - n) b.segs b.count b.edgeNo b.trim b.windowK

/-- Notes a break at the present edge. -/
def Backup.addSeg (b : Backup) : Backup :=
  { b with segs := { edge := b.edgeNo, count := b.count, trim := b.trim, windowK := b.windowK } ::
      b.segs.filter (fun s => decide (b.edgeNo < s.edge + 256)) }

/-! Loads and the alarm. -/

/-- The alarm's count as a number. -/
def RtcAlarm.toNat (a : RtcAlarm) : Nat := a.sec.toNat * 32768 + a.frac.toNat

/-- The armed alarm fires (R334): ALARM_FIRED, RTC_ALARM, disarmed. -/
def Dev.alarmFire (d : Dev) (a : RtcAlarm) (skipped : Bool) : Dev :=
  (d.setBackup { d.backup with alarm := none, alarmFired := true }).backupEvent 0x4001 0x4000 .info (a.sec.toNat + 2 ^ 41 * b1 skipped)
    (fun p v => { p with alarm := some v })

/-- What a load from count `c` to `c'` does to an armed alarm (R334). -/
def Dev.alarmLoad (d : Dev) (c c' : Nat) : Dev :=
  match d.backup.alarm with
  | none => d
  | some a =>
    if c < a.toNat ∧ a.toNat ≤ c' then
      let d1 := d.setBackup { d.backup with alarmSkipped := true }
      if a.suppress then
        (d1.setBackup { d1.backup with alarm := none }).backupEvent 0x4001 0x4000 .info (a.sec.toNat + 2 ^ 40 + 2 ^ 41) (fun p v => { p with alarm := some v })
      else d1.alarmFire a true
    else d

/-- Data of RTC_ADJ_OLD and RTC_ADJ_NEW. -/
def adjData (c : RtcCount) (bySync : Bool) : Nat := c.sec.toNat + 2 ^ 40 * c.frac.toNat + 2 ^ 55 * b1 bySync

/-- The count is replaced at the present crystal edge (R330, R331, R334). -/
def Dev.loadCount (d : Dev) (c : RtcCount) (bySync : Bool) : Dev :=
  let b := d.backup.addSeg
  let old := b.count
  let d1 := (d.setBackup { b with count := c, invalid := false, adjCnt := bump 16 b.adjCnt, load := none }).satAt 0x40 16 (bump 16 b.adjCnt)
  let d2 := (d1.raise 0x4002 0x4000 .warn (adjData old bySync)).raise 0x4003 0x4000 .warn (adjData c bySync)
  d2.alarmLoad old.toNat c.toNat

/-- Expected count at a corrected instant (R335), in nanoseconds of the real-time clock's epoch. -/
def Backup.expected (b : Backup) (t : Int) : Int := t - b.sync.epochOfs * 1000000000

/-- The count that a synchronisation load brings at an edge of corrected time `te` (R336). -/
def Backup.syncCount (b : Backup) (te : Nat) : RtcCount := RtcCount.ofNat (((b.expected te) * 32768 / 1000000000) % (2 ^ 55 : Nat)).toNat

/-- The clock's error at corrected instant `t` against the edge at `te`, in units of 1/64 ns (R335). -/
def Backup.error (b : Backup) (t te : Int) : Int := b.count.toNat * 1953125 + 64 * ((t - te) - b.expected t)

/-- A synchronisation load takes place at the present edge (R336, R337): the residual of the load that the reference's own measurement ordered
is the reference error; a later one adds to COR. -/
def Dev.syncLoad (d : Dev) (sets : Bool) : Dev :=
  let te := d.backup.edgeCt.getD d.now
  let c := d.backup.syncCount te
  let moved : Int := ((c.toNat : Int) - d.backup.count.toNat) * 1953125
  if moved < 0 ∧ !d.backup.sync.backOk then
    let e := d.backup.error te te
    (d.setBackup { d.backup with load := none, syncHeld := true }).raiseIf (!d.backup.syncHeld) 0x4005 0x4000 .warn (usgn 48 (divRoundEven e 64000))
  else
    let d1 := d.loadCount c true
    if sets then d1.setBackup { d1.backup with refT := some te, refE := d1.backup.error te te, cor := 0 }
    else d1.setBackup { d1.backup with cor := d1.backup.cor + moved }

/-- RTC_LOAD (R330, R331, R336): the load that waits takes place at its crystal edge, to which time is brought forward. An AT_TIME load waits
for main power, without which there is no corrected time. -/
def execRtcLoad (s : State) : Host.Outcome State Fault Refusal :=
  let d := s.dev
  .next (match d.backup.load with
    | none => s
    | some l =>
      match l.atTime with
      | none =>
        let d1 := d.toRaw (xtalRaw (xtalAt d.time.raw + (l.edge - d.backup.edgeNo)))
        let d2 := d1.loadCount l.count l.bySync
        match l.pkt with
        | some q => { s with dev := d2.finish q stOk 0 [] }
        | none => { s with dev := d2 }
      | some t =>
        if !d.power.on then s
        else
          let r := d.time.rawOf t
          let k := if xtalRaw (xtalAt r) = r then xtalAt r else xtalAt r + 1
          let d1 := d.toRaw (xtalRaw k)
          let d2 := d1.setBackup { d1.backup with loadDelayNs := satN 16 ((d1.backup.edgeCt.getD d1.now) - t) }
          { s with dev := if l.bySync then d2.syncLoad l.sets else d2.loadCount l.count false })

/-- The least number of crystal edges within `lo` to `hi` after which the count has reached `target`. -/
def Backup.edgesTo (b : Backup) (target : Nat) : Nat → Nat → Nat → Nat
  | 0, _, hi => hi
  | fuel + 1, lo, hi =>
    if hi ≤ lo then hi
    else
      let m := (lo + hi) / 2
      if target ≤ (b.edges m).count.toNat then Backup.edgesTo b target fuel lo m else Backup.edgesTo b target fuel (m + 1) hi

/-- ALARM_MATCH (R334): the count reaches the armed alarm at a crystal edge, to which time is brought forward; the alarm fires. -/
def execAlarmMatch (s : State) : Host.Outcome State Fault Refusal :=
  let d := s.dev
  .next (match d.backup.alarm with
    | none => s
    | some a =>
      let gap := a.toNat - d.backup.count.toNat
      let n := if gap = 0 then 0 else d.backup.edgesTo a.toNat 80 0 (gap + gap / 8000 + 4)
      let d1 := if n = 0 then d else d.toRaw (xtalRaw (xtalAt d.time.raw + n))
      { s with dev := d1.alarmFire a false })

/-! Commands (Table 15-1). -/

/-- The unit of the real-time clock. -/
def onRtc (p : Packet) : Bool := onUnit 0x40 p

/-- The count that two parameter words spell. -/
def countOf (lo hi : Word) : RtcCount := { sec := BitVec.ofNat 40 (lo.toNat + 2 ^ 32 * fld hi 7 0), frac := BitVec.ofNat 15 (fld hi 22 8) }

/-- READ_RTC (R329). -/
def opReadRtc : Op where
  code := 0x0810
  target := onRtc
  body s _ :=
    let b := s.dev.backup
    .read s [w32 b.count.sec.toNat, pack [(b.count.sec.toNat / 2 ^ 32, 0), (b.count.frac.toNat, 8), (b1 b.onVbat, 24), (b1 b.invalid, 25)],
      w32 (b.edgeCt.getD 0), w32 (eraOf (b.edgeCt.getD 0))]

/-- READ_RTC. -/
def execReadRtc (p : Packet) (s : State) : Host.Outcome State Fault Refusal := .next (packetRow opReadRtc p s)

/-- The checks of WRITE_RTC that both modes share (R343). -/
def writeRtcChecks (s : State) (q : QPacket) (late : Bool) : List (Bool × Nat × Nat) :=
  [encIf (q.resv 0 3 || decide (1 < q.f 0 1 0)) 0, encIf (q.resv 2 0x7FFFFF) 2, rangeIf late 3,
    (((s.dev.backup.load.map (fun l => l.atTime.isSome)).getD false), stBusy, 0), conflictIf s.dev.backup.sync.en 0]

/-- WRITE_RTC NEXT_EDGE (R330): the reply follows the load. -/
def opWriteRtcNextEdge : Op where
  code := 0x0811
  sel p := decide (fld (p.par 0) 1 0 ≠ 1)
  target := onRtc
  params := 5
  body s q :=
    guarded s (writeRtcChecks s q false ++ [encIf (decide (q.par 3 ≠ 0)) 3, encIf (decide (q.par 4 ≠ 0)) 4])
      (if s.dev.backup.load.isSome then { st := s, waits := true }
       else
         let l : RtcLoad := { count := countOf (q.par 1) (q.par 2), edge := s.dev.backup.edgeNo + 1, pkt := some { q with started := true } }
         { st := { s with dev := s.dev.setBackup { s.dev.backup with load := some l } }, later := true })

/-- WRITE_RTC_NEXT_EDGE. -/
def execWriteRtcNextEdge (p : Packet) (s : State) : Host.Outcome State Fault Refusal := .next (packetRow opWriteRtcNextEdge p s)

/-- WRITE_RTC AT_TIME (R330, R343). -/
def opWriteRtcAtTime : Op where
  code := 0x0811
  sel p := decide (fld (p.par 0) 1 0 = 1)
  target := onRtc
  params := 5
  body s q :=
    let now := s.dev.now
    let t := nearEra now (q.par 3) (q.f 4 15 0)
    guarded s (writeRtcChecks s q (decide (t < (now : Int) + 100000 ∨ (now : Int) + 2147483648 ≤ t)) ++ [encIf (q.resv 4 0xFFFF) 4])
      (if s.dev.backup.load.isSome then { st := s, waits := true }
       else
         let l : RtcLoad := { count := countOf (q.par 1) (q.par 2), atTime := some t.toNat }
         { st := { s with dev := s.dev.setBackup { s.dev.backup with load := some l } }, status := stOkPending })

/-- WRITE_RTC_AT_TIME. -/
def execWriteRtcAtTime (p : Packet) (s : State) : Host.Outcome State Fault Refusal := .next (packetRow opWriteRtcAtTime p s)

/-- TRIM becomes `v` (R332): a new window starts, and each change raises RTC_TRIM_CHANGE. -/
def Dev.setTrim (d : Dev) (v : Int) (auto : Bool) : Dev :=
  let old := d.backup.trim
  (d.setBackup { d.backup.addSeg with trim := v, windowK := 0 }).raiseIf (decide (v ≠ old)) 0x4004 0x4000 .info (usgn 13 v + 2 ^ 16 * usgn 13 old + 2 ^ 29 * b1 auto)

/-- RTC_TRIM with OP TRIM (R332, R337). -/
def opRtcTrimSet : Op where
  code := 0x0812
  sel p := decide (fld (p.par 0) 1 0 ≠ 1)
  target := onRtc
  params := 2
  body s q :=
    let v := sgn 13 (q.f 1 12 0)
    guarded s [encIf (q.resv 0 3 || decide (1 < q.f 0 1 0)) 0, encIf (q.resv 1 0x1FFF) 1, rangeIf (decide (4095 < v.natAbs)) 1]
      (let d1 := s.dev.setTrim v false
       .ok s (d1.setBackup { d1.backup with refT := none }))

/-- RTC_TRIM_SET. -/
def execRtcTrimSet (p : Packet) (s : State) : Host.Outcome State Fault Refusal := .next (packetRow opRtcTrimSet p s)

/-- The settings an RTC_TRIM with OP SYNC carries. -/
def syncCfgOf (q : QPacket) : SyncCfg :=
  { en := q.b 1 0, autoTrim := q.b 1 1, backOk := q.b 1 2, syncS := q.f 1 31 16,
    epochOfs := sgn 40 ((q.par 2).toNat + 2 ^ 32 * q.f 3 7 0), tolUs := q.f 4 19 0 }

/-- RTC_TRIM with OP SYNC (R336, R337). -/
def opRtcSyncConfig : Op where
  code := 0x0812
  sel p := decide (fld (p.par 0) 1 0 = 1)
  target := onRtc
  classN := true
  params := 5
  body s q :=
    let b := s.dev.backup
    let c := syncCfgOf q
    guarded s [encIf (q.resv 0 3) 0, encIf (q.resv 1 0xFFFF0007) 1, rangeIf (decide (c.syncS = 0)) 1, encIf (q.resv 3 0xFF) 3,
        encIf (q.resv 4 0xFFFFF) 4, rangeIf (outside c.tolUs 31 1000000) 4]
      (.ok s (s.dev.setBackup { b with sync := c, syncHeld := b.syncHeld && !c.backOk, refT := if c.en && !b.sync.en then none else b.refT }))

/-- RTC_SYNC_CONFIG. -/
def execRtcSyncConfig (p : Packet) (s : State) : Host.Outcome State Fault Refusal := .next (packetRow opRtcSyncConfig p s)

/-- RTC_ALARM SET (R333). -/
def opRtcAlarmSet : Op where
  code := 0x0813
  sel p := decide (fld (p.par 0) 1 0 ≠ 1)
  target := onRtc
  params := 3
  body s q :=
    let c := countOf (q.par 1) (q.par 2)
    let a : RtcAlarm := { sec := c.sec, frac := c.frac, suppress := q.b 0 2 }
    guarded s [encIf (q.resv 0 7 || decide (1 < q.f 0 1 0) || (a.suppress && s.dev.oldFirmware)) 0, encIf (q.resv 2 0x7FFFFF) 2,
        rangeIf (decide (a.toNat < s.dev.backup.count.toNat + 2)) 1]
      (.ok s (s.dev.setBackup { s.dev.backup with alarm := some a, alarmReg := a }))

/-- RTC_ALARM_SET. -/
def execRtcAlarmSet (p : Packet) (s : State) : Host.Outcome State Fault Refusal := .next (packetRow opRtcAlarmSet p s)

/-- RTC_ALARM CANCEL (R333). -/
def opRtcAlarmCancel : Op where
  code := 0x0813
  sel p := decide (fld (p.par 0) 1 0 = 1)
  target := onRtc
  params := 1
  body s q :=
    guarded s [encIf (q.resv 0 7) 0]
      (if s.dev.backup.alarm.isNone then { st := s, status := stOkNoChange } else .ok s (s.dev.setBackup { s.dev.backup with alarm := none }))

/-- RTC_ALARM_CANCEL. -/
def execRtcAlarmCancel (p : Packet) (s : State) : Host.Outcome State Fault Refusal := .next (packetRow opRtcAlarmCancel p s)

/-! Register accesses with an effect of their own. -/

/-- RTC_SEC_LO_READ (R329): the read latches RTC_SEC_HI and RTC_FRAC. -/
def execRtcSecLoRead (s : State) : Host.Outcome State Fault Refusal :=
  let b := s.dev.backup
  .next (if !s.dev.hubUp then s else
    { s with dev := (s.dev.setBackup { b with shadow := b.count }).emit (.regRead 0x40000000 (w32 b.count.sec.toNat)) })

/-- A write of 0x000C of the RTC page (Table 15-3): W1C. -/
def Dev.rtcFlagsWrite (d : Dev) (v : Word) : Dev :=
  d.setBackup { d.backup with alarmFired := d.backup.alarmFired && !bit v 3, alarmSkipped := d.backup.alarmSkipped && !bit v 4 }

/-- RTC_FLAGS_WRITE. -/
def execRtcFlagsWrite (v : Word) (s : State) : Host.Outcome State Fault Refusal :=
  .next (if s.dev.hubUp then { s with dev := s.dev.rtcFlagsWrite v } else s)

/-- A write of an input's status word (Table 15-3): OVERFLOW and TAMPER_HIT are W1C, OVF_CNT takes the value written. -/
def Dev.evinStatusWrite (d : Dev) (i : Nat) (v : Word) : Dev :=
  let e := d.backup.evin.rd i
  d.setEvin i { e with overflow := e.overflow && !bit v 3, tamperHit := e.tamperHit && !bit v 4, ovfCnt := Bits.fld v 31 16 }

/-- EVIN_STATUS_WRITE. -/
def execEvinStatusWrite (i : Fin 4) (v : Word) (s : State) : Host.Outcome State Fault Refusal :=
  .next (if s.dev.hubUp then { s with dev := s.dev.evinStatusWrite i.val v } else s)

/-! Synchronisation (R335 to R337). -/

/-- R337 at a measurement of error `e` at instant `t`: whether it set the reference, and the state after it. -/
def Dev.autoTrim (d : Dev) (t : Nat) (e : Int) : Bool × Dev :=
  let b := d.backup
  match b.refT with
  | none => (true, d.setBackup { b with refT := some t, refE := e, cor := 0 })
  | some t0 =>
    let span := (t : Int) - t0
    if !b.sync.autoTrim ∨ span < 1024000000000 then (false, d)
    else
      let drift : Rat := ((e - b.cor - b.refE : Int) : Rat) / (64 * span : Int) * 1000000
      let v := clampInt (-4095) 4095 (b.trim - roundRat (drift * 33554432 / 1000000))
      let d1 := if v = b.trim then d else d.setTrim v true
      (true, d1.setBackup { d1.backup with driftPpb := satI 32 (roundRat (drift * 1000)), refT := some t, refE := e, cor := 0 })

/-- R336 at a measurement: the load, or SYNC_HELD where it would move the count back without BACK_OK. -/
def Dev.syncDecide (d : Dev) (t : Nat) (e : Int) (sets : Bool) : Dev :=
  let b := d.backup
  if e.natAbs ≤ b.sync.tolUs * 64000 then d.setBackup { b with syncHeld := false }
  else if 0 < e ∧ !b.sync.backOk then
    (d.setBackup { b with syncHeld := true }).raiseIf (!b.syncHeld) 0x4005 0x4000 .warn (usgn 48 (divRoundEven e 64000))
  else if b.load.isSome then d
  else d.setBackup { b with load := some { atTime := some (t + 100000000), bySync := true, sets := sets } }

/-- RTC_SYNC_MEASURE (R335): the next instant that is a multiple of SYNC_S, to which time is brought forward; with the servo not LOCKED it is
skipped. -/
def execRtcSyncMeasure (s : State) : Host.Outcome State Fault Refusal :=
  let d := s.dev
  let b := d.backup
  let p := b.sync.syncS * 1000000000
  .next (if !d.hubUp || !b.sync.en then s
    else
      let t := gridAt (max d.now (b.lastMeas + 1)) p 0
      let d1 := d.toCt t
      let d2 := d1.setBackup { d1.backup with lastMeas := t }
      if d2.time.servo ≠ .locked then { s with dev := d2.setBackup { d2.backup with refT := none } }
      else
        let e := d2.backup.error t (d2.backup.edgeCt.getD t)
        let d3 := d2.setBackup { d2.backup with lastSyncErrUs := satI 32 (divRoundEven e 64000) }
        let (sets, d4) := d3.autoTrim t e
        { s with dev := d4.syncDecide t e sets })

/-! Supplies (R326, R327). -/

/-- BACKUP_SUPPLY_SWITCH (R326): the domain switches between VKEEP and VBAT. -/
def execBackupSupplySwitch (toVbat : Bool) (s : State) : Host.Outcome State Fault Refusal :=
  let b := s.dev.backup
  .next (if b.onVbat = toVbat then s
    else
      let d1 := (s.dev.setBackup { b with onVbat := toVbat, switchCnt := bump 16 b.switchCnt }).satAt 0x40 16 (bump 16 b.switchCnt)
      { s with dev := d1.backupEvent 0x4006 0x4000 .info (b1 toVbat + 2 ^ 16 * b.vbatMv) (fun p v => { p with supply := some v }) })

/-- VBAT_MEASURE (R327): the hub's reading of VBAT, and RTC_VBAT_LOW at its thresholds. -/
def execVbatMeasure (mv : Nat) (s : State) : Host.Outcome State Fault Refusal :=
  let d := s.dev
  let b := d.backup
  let v := satN 16 mv
  let low := if b.vbatLow then decide (v ≤ 2300) else decide (v < 2200)
  let d1 := d.setBackup { b with vbatMv := v, vbatLow := low }
  let changed := decide (low ≠ b.vbatLow)
  .next (if !d.hubUp then s else { s with dev := d1.raiseIf changed 0x4007 0x4000 .warn (b1 low + 2 ^ 16 * v) })

/-- Zeroise's own 10 µs (R377): the root and every class Z field are cleared and the source latched. -/
def Dev.zeroiseCore (d : Dev) (source input : Nat) : Dev :=
  { d with keys := { d.keys with root := none, rootFp := 0, pend := BitVec.ofNat 3 source, pendInput := input } }

/-- BACKUP_LOSS (R327, R401): every class B field returns to default, every class Z field is zeroed, and INVALID is set; its record is written at
once while the hub runs, else at the next start-up. -/
def execBackupLoss (s : State) : Host.Outcome State Fault Refusal :=
  let d := s.dev
  let b := d.backup
  let nb : Backup := { edgeCt := b.edgeCt, syncHeld := b.syncHeld, loadDelayNs := b.loadDelayNs, vbatMv := b.vbatMv, vbatLow := b.vbatLow,
                       lastSyncErrUs := b.lastSyncErrUs, driftPpb := b.driftPpb, sync := b.sync, lastMeas := b.lastMeas, refT := b.refT, refE := b.refE,
                       cor := b.cor, invalid := true }
  let p : Power := { d.power with
    tableB := {}, table := {}, stepNext := 0, attempts := 0, railPend := [], alertPend := [], keep := false, wakeMask := 0, backupRec := !d.hubUp }
  let d1 : Dev := { d with backup := nb, power := p, keys := { d.keys with root := none, rootFp := 0, pend := 0, pendInput := 0, xtalEdges := 0 } }
  .next { s with dev := if d.hubUp then d1.causeRecord .backupLoss .backup 0 0 0 0 else d1 }

/-! Event inputs (R339 to R341). -/

/-- EDGES selects this direction. -/
def EvinCfg.selects (c : EvinCfg) (rising : Bool) : Bool := if rising then c.edges.getLsbD 0 else c.edges.getLsbD 1

/-- EVIN_EDGE_ACCEPT (R339, R340): at the newest crystal edge the level has been present for FILT + 1 samples; the entry carries the count and,
with main power, the corrected time of the first of them. -/
def execEvinEdgeAccept (i : Fin 4) (rising : Bool) (s : State) : Host.Outcome State Fault Refusal :=
  let d := s.dev
  let e := d.backup.evin.rd i.val
  let src := 0x4000 + i.val
  .next (if !e.cfg.selects rising then s
    else
      let c := d.backup.countBack e.cfg.filt
      let k := xtalAt d.time.raw
      let ct := if d.power.on && decide (e.cfg.filt ≤ k) then some (d.time.ctAt (xtalRaw (k - e.cfg.filt))) else none
      let x : EvinEntry := { count := c, rising := rising, ct := ct }
      if e.fifo.length < 4 then
        let d1 := d.setEvin i.val { e with fifo := e.fifo ++ [x], level := rising }
        { s with dev := d1.raiseIf (e.cfg.eventEn && d.power.on) 0x4008 src .info (c.sec.toNat + 2 ^ 40 * c.frac.toNat + 2 ^ 55 * b1 rising) }
      else
        let n := bump 16 e.ovfCnt
        let d1 := (d.setEvin i.val { e with overflow := true, ovfCnt := n, level := rising }).satAt 0x40 16 n
        { s with dev := d1.backupEvent 0x4009 src .warn n (fun p v => { p with overflow := p.overflow.wr i.val v }) })

/-- EVIN_TAMPER_EDGE (R341, R377): the unclocked path starts the tamper zeroise, whose clearing and latch fall in the same 10 µs. -/
def execEvinTamperEdge (i : Fin 4) (rising : Bool) (s : State) : Host.Outcome State Fault Refusal :=
  let d := s.dev
  let e := d.backup.evin.rd i.val
  .next (if !(e.cfg.tamper && e.cfg.selects rising) then s
    else
      let d1 := (d.setEvin i.val { e with tamperHit := true }).zeroiseCore 1 i.val
      { s with dev := d1.backupEvent 0x400A (0x4000 + i.val) .crit i.val (fun p v => { p with tamper := some v }) })

/-- EVIN_CONFIG (R341): class B, so no journal entry. -/
def opEvinConfig : Op where
  code := 0x0814
  target := onInst 0x40 4
  params := 1
  body s q :=
    let e := s.dev.backup.evin.rd q.pkt.inst
    let c : EvinCfg := { edges := BitVec.ofNat 2 (q.f 0 1 0), tamper := q.b 0 2, eventEn := q.b 0 3, filt := q.f 0 15 8 }
    guarded s [encIf (q.resv 0 0xFF0F) 0, (decide (c.tamper ≠ e.cfg.tamper ∧ q.pkt.transport = .pcie) && !q.tagged, stAuthRequired, 4),
        conflictIf (c.tamper && decide (c.edges = 0)) 0]
      (.ok s (s.dev.setEvin q.pkt.inst { e with cfg := c }))

/-- EVIN_CONFIG. -/
def execEvinConfig (p : Packet) (s : State) : Host.Outcome State Fault Refusal := .next (packetRow opEvinConfig p s)

/-- An input's status word (Table 15-3). -/
def Evin.status (e : Evin) : Word :=
  pack [(e.fifo.length, 0), (b1 e.overflow, 3), (b1 e.tamperHit, 4), (b1 e.level, 5), (e.ovfCnt, 16)]

/-- The four words of a FIFO entry (Table 15-4). -/
def EvinEntry.words (x : EvinEntry) : List Word :=
  [w32 x.count.sec.toNat, pack [(x.count.sec.toNat / 2 ^ 32, 0), (x.count.frac.toNat, 8), (b1 x.rising, 23), (b1 x.ct.isSome, 24)],
    w32 (x.ct.getD 0), w32 (eraOf (x.ct.getD 0))]

/-- EVIN_READ (R340): with POP the entries returned are removed. -/
def opEvinRead : Op where
  code := 0x0815
  target := onInst 0x40 4
  params := 1
  body s q :=
    let e := s.dev.backup.evin.rd q.pkt.inst
    guarded s [encIf (q.resv 0 1) 0]
      { st := if q.b 0 0 then { s with dev := s.dev.setEvin q.pkt.inst { e with fifo := [] } } else s
        words := e.status :: e.fifo.flatMap EvinEntry.words }

/-- EVIN_READ. -/
def execEvinRead (p : Packet) (s : State) : Host.Outcome State Fault Refusal := .next (packetRow opEvinRead p s)

/-- Word of the RTC page at offset `o` (Table 15-3). -/
def Backup.word (b : Backup) (o : Nat) : Word :=
  let i := (o - 0x40) / 16
  if 0x40 ≤ o ∧ o < 0x80 then
    let e := b.evin.rd i
    if o % 16 = 0 then e.status
    else if o % 16 = 4 then pack [(e.cfg.edges.toNat, 0), (b1 e.cfg.tamper, 2), (b1 e.cfg.eventEn, 3), (e.cfg.filt, 8)]
    else 0
  else match o with
    | 0x00 => w32 b.count.sec.toNat
    | 0x04 => w32 (b.shadow.sec.toNat / 2 ^ 32)
    | 0x08 => w32 b.shadow.frac.toNat
    | 0x0C => pack [(b1 b.onVbat, 0), (b1 b.invalid, 1), (b1 b.alarm.isSome, 2), (b1 b.alarmFired, 3), (b1 b.alarmSkipped, 4),
        (b1 ((b.load.map (fun l => l.atTime.isSome)).getD false), 5), (b1 b.syncHeld, 6)]
    | 0x10 => w32 (usgn 13 b.trim)
    | 0x14 => w32 b.alarmReg.sec.toNat
    | 0x18 => pack [(b.alarmReg.sec.toNat / 2 ^ 32, 0), (b.alarmReg.frac.toNat, 8), (b1 b.alarmReg.suppress, 23)]
    | 0x1C => pack [(b.loadDelayNs, 0), (b.vbatMv, 16)]
    | 0x20 => pack [(b.switchCnt, 0), (b.adjCnt, 16)]
    | 0x24 => wInt b.lastSyncErrUs
    | 0x28 => wInt b.driftPpb
    | _ => 0

end Sys2Proof.Machine
end

