-- ==== Sys2Proof/Machine/Slalom.lean ====
section
/-! DEFINITION. Slalom, the budget scheduler (chapter 10): measurements, levels, self-test admission, the holdup bound and its commands. -/

namespace Sys2Proof.Machine

open Sys2Proof.Bits

/-- Changes Slalom. -/
def Dev.setSlm (d : Dev) (x : Slalom) : Dev := { d with slalom := x }

/-- Source of Slalom's events (Table 10-7). -/
def slmSource : Nat := 0x5080

/-- Clamp dissipation of the four field dies in units of 10 mW: E_WIN in mJ within 100 ms (R217). -/
def Slalom.pClamp (s : Slalom) : Nat := ((List.range 4).map (fun k => s.eWin.rd k)).sum

/-- P_AVG of a set of samples in mW, in units of 10 mW (R215). -/
def meanPower (l : List Nat) : Nat := if l = [] then 0 else l.sum / l.length / 10

/-- P_PEAK: the largest P_AVG of the evaluations of the last RELEASE_MS (R215). -/
def Slalom.pPeak (s : Slalom) : Nat := (s.peaks.take s.cfg.releaseMs).foldl max 0

/-- CAP − GUARD in units of 10 mW. -/
def Slalom.limit (s : Slalom) : Nat := (s.cfg.capDw - s.cfg.guard) * 10

/-- The die holding T_MAX, and T_MAX (R216). -/
def Slalom.tMaxDie (s : Slalom) : Nat × Int :=
  (List.range 7).foldl (fun a i => if a.2 < s.temps.rd i then (i, s.temps.rd i) else a) (0, s.temps.rd 0)

/-- T_MAX. -/
def Slalom.tMax (s : Slalom) : Int := s.tMaxDie.2

/-- Kind of a slice of a control die (Table 13-5): 1 for memory. -/
def sliceKind (n : Nat) : Nat := if n < 64 ∨ (192 ≤ n ∧ n < 224) then 0 else 1

/-- SLICE_W in mW for a slice's kind (R224): the mean of the last 16 of the kind, 2.0 W until 16 exist. -/
def Slalom.sliceMw (s : Slalom) (kind : Nat) : Nat :=
  let l := s.sliceW.rd kind
  if l.length < 16 then 2000 else l.sum / l.length

/-! Measurements. -/

/-- POWER_SAMPLE (R215): the rails' sum and the clamp dissipation join the last 100 samples; every BUSY engine gives one sample of ENG_W, which is
the measured value, a free one, once 1,000 exist. -/
def execPowerSample (mw : Nat) (s : State) : Host.Outcome State Fault Refusal :=
  .next (
    let d := s.dev
    if !d.hubUp then s
    else
      let x := d.slalom
      let samples := ((mw + 10 * x.pClamp) :: x.samples).take 100
      let busy := ((List.range 16).filter (fun k => decide (d.engState k = .busy))).length
      let n := min 1000 (x.engSamples + busy)
      let (w, d1) := if n = 1000 then d.freeN 65536 else (x.engW, d)
      { s with dev := d1.setSlm { d1.slalom with samples := samples, pAvg := satN 16 (meanPower samples), engSamples := n, engW := w } })

/-- TEMP_SENSOR_READ (R216): the hottest sensor of each die, in the order of T_DIE. -/
def execTempSensorRead (temps : List Int) (s : State) : Host.Outcome State Fault Refusal :=
  .next (
    let d := s.dev
    if !d.hubUp then s
    else { s with dev := d.setSlm { d.slalom with temps := (List.range 7).foldl (fun t i => t.wr i (satI 8 (temps.getD i (d.slalom.temps.rd i)))) d.slalom.temps } })

/-- CLAMP_REPORT (R217, R231): the die's STATUS frame carries E_WIN and E_PEND, 0 from a die in its reset; a die whose link is down reports nothing. -/
def execClampReport (die : Fin 4) (s : State) : Host.Outcome State Fault Refusal :=
  .next (
    let d := s.dev
    let k := die.val
    if !d.hubUp ∨ !d.fldUp k then s
    else
      let f := d.fld k
      let (w, p) := if d.fldRuns k then (f.eWinMj d.time.raw, f.ePendMj) else (0, 0)
      { s with dev := d.setSlm { d.slalom with eWin := d.slalom.eWin.wr k (satN 11 w), ePend := d.slalom.ePend.wr k (satN 11 p) } })

/-- HOLDOUT_READ (R218): a reading of the die's node joins those of the last 10 ms. -/
def execHoldoutRead (n : Fin 2) (mv : Nat) (s : State) : Host.Outcome State Fault Refusal :=
  .next (
    let d := s.dev
    let k := n.val
    if !d.hubUp ∨ !d.fldRuns k ∨ !d.fldUp k then s
    else
      let h := d.slalom.hold.rd k
      let d1 := d.setSlm { d.slalom with hold := d.slalom.hold.wr k { h with readings := (satN 16 mv :: h.readings).take 10 } }
      { s with dev := { d1 with power := { d1.power with feeds := d1.power.feeds.upd k (fun f => { f with holdMv := satN 16 mv }) } } })

/-- HOLDUP_CAP_TEST (R218): the first test once the node has reached 18 V, later ones every HU_TEST_S; none while the die has lost its feeds. -/
def execHoldupCapTest (n : Fin 2) (s : State) : Host.Outcome State Fault Refusal :=
  .next (
    let d := s.dev
    let k := n.val
    let h := d.slalom.hold.rd k
    let reached := (h.readings.head?.map (fun v => decide (18000 ≤ v))).getD false
    if !d.hubUp ∨ !d.fldRuns k ∨ !reached ∨ h.testing.isSome ∨ (d.power.feeds.rd k).lost then s
    else
      let d1 := if h.tested then d.toRaw (h.lastTest + d.slalom.cfg.huTestS * 1000000000) else d
      { s with dev := d1.setSlm { d1.slalom with hold := d1.slalom.hold.upd k (fun x => { x with testing := some d1.time.raw, lastTest := d1.time.raw }) } })

/-- C_n in µF from the drop in mV (R218): 200 µC over the drop; a drop above 2.0 V gives 0. -/
def capOf (dropMv : Nat) : Nat := if 2000 < dropMv then 0 else 200000 / dropMv

/-- WRITE_THROUGH is set, and CTL_SLM_HOLDUP_LOW raised, when G_MAX is 0 (R227). -/
def Dev.holdupLow (d : Dev) : Dev :=
  let x := d.slalom
  if x.writeThrough ∨ 0 < x.gMax then d
  else (d.setSlm { x with writeThrough := true, gmaxOkMs := 0 }).raiseCtl 0x73 slmSource .crit
    (x.eHu + 2 ^ 32 * satN 16 ((x.hold.rd 0).capUf / 10) + 2 ^ 48 * satN 16 ((x.hold.rd 1).capUf / 10))

/-- WRITE_THROUGH clears, and CTL_SLM_HOLDUP_OK is raised, once G_MAX has stayed at or above 64 for 1 s (R227). -/
def Dev.holdupOk (d : Dev) : Dev :=
  let x := d.slalom
  if x.writeThrough ∧ 1000 ≤ x.gmaxOkMs ∧ 64 ≤ x.gMax then
    (d.setSlm { x with writeThrough := false }).raiseCtl 0x74 slmSource .info x.gMax
  else d

/-- HOLDUP_CAP_TEST_END (R218): 2.000 ms after its start the drop sets C_n; a measured drop of nothing leaves C_n free. -/
def execHoldupCapTestEnd (n : Fin 2) (mv : Nat) (s : State) : Host.Outcome State Fault Refusal :=
  .next (
    let k := n.val
    match (s.dev.slalom.hold.rd k).testing with
    | none => s
    | some t =>
      let d := s.dev.toRaw (t + 2000000)
      let (c, d1) := if mv = 0 then d.freeN 655360 else (capOf mv, d)
      let d2 := d1.setSlm { d1.slalom with hold := d1.slalom.hold.upd k (fun x => { x with testing := none, tested := true, capUf := c }) }
      { s with dev := if d2.ctlUp then d2.holdupLow else d2 })

/-! The evaluation. -/

/-- D_PWR and D_THERM of one evaluation at millisecond `ms`: rises (R220), else falls (R221). -/
def Slalom.demands (s : Slalom) (ms nextKind : Nat) : Slalom :=
  let since (o : Option Nat) (n : Nat) : Bool := (o.map (fun t => decide (n ≤ ms - t))).getD true
  let peakMw := s.pPeak * 10
  let delta := if s.dPwr = 1 then s.sliceMw nextKind else if 2 ≤ s.dPwr ∧ s.dPwr ≤ 4 then 4 * s.engW else 0
  let intoPark := decide (1 ≤ s.dPwr ∧ s.dPwr ≤ 3)
  let s1 : Slalom :=
    if s.limit < s.pAvg then
      if s.dPwr < 6 ∧ (!intoPark || since s.lastPark 10) then { s with dPwr := s.dPwr + 1, lastPwrStep := some ms } else s
    else if 0 < s.dPwr ∧ peakMw + delta ≤ s.limit * 10 ∧ since s.lastPwrStep s.cfg.releaseMs then
      { s with dPwr := s.dPwr - 1, lastPwrStep := some ms }
    else s
  if (s.cfg.thermStart : Int) ≤ s.tMax then
    if s1.dTherm < 6 ∧ since s1.lastThermUp s.cfg.thermStepMs then
      { s1 with dTherm := s1.dTherm + 1, lastThermStep := some ms, lastThermUp := some ms }
    else s1
  else if 0 < s1.dTherm ∧ s.tMax < (s.cfg.thermStart : Int) - s.cfg.thermHyst ∧ since s1.lastThermStep s.cfg.releaseMs then
    { s1 with dTherm := s1.dTherm - 1, lastThermStep := some ms }
  else s1

/-- The first die whose clamp account passes CLAMP_WARN (R220). -/
def Slalom.clampHigh (s : Slalom) : Option Nat := (List.range 4).find? (fun k => decide (s.cfg.clampWarn < s.eWin.rd k + s.ePend.rd k))

/-- D_CLAMP after `dt` more milliseconds (R220): off once every die has stayed at or below CLAMP_WARN for 100 ms. -/
def Slalom.clampDemand (s : Slalom) (dt : Nat) : Slalom :=
  match s.clampHigh with
  | some _ => { s with dClamp := true, clampOkMs := 0 }
  | none => { s with clampOkMs := s.clampOkMs + dt, dClamp := s.dClamp && decide (s.clampOkMs + dt < 100) }

/-- The largest of the three demands (R219). -/
def Slalom.demanded (s : Slalom) : Nat := max (max s.dPwr s.dTherm) (b1 s.dClamp)

/-- Engines that level `l` parks, in the order of parking (R222). -/
def parkedAt (l : Nat) : List Nat :=
  (if 2 ≤ l then [12, 13, 14, 15] else []) ++ (if 3 ≤ l then [8, 9, 10, 11] else []) ++ (if 4 ≤ l then [4, 5, 6, 7] else [])

/-- Parks or resumes the blocks between two levels (R222); in QUIESCE every engine stays parked (R231). -/
def Dev.reLevel (d : Dev) (old new : Nat) : Dev :=
  if d.power.lp = .quiesce then d
  else if old < new then ((parkedAt new).filter (fun k => !(parkedAt old).contains k)).foldl (fun acc k => acc.park k) d
  else (((parkedAt old).filter (fun k => !(parkedAt new).contains k)).reverse).foldl (fun acc k => acc.unpark k) d

/-- Number of a low-power state (Table 19-7). -/
def LpState.num : LpState → Nat
  | .run => 0
  | .throttle => 1
  | .quiesce => 2

/-- Enters a low-power state, with PWR_LOWPOWER (R407). -/
def Dev.setLp (d : Dev) (x : LpState) (wake : Nat) : Dev :=
  if d.power.lp = x then d
  else ({ d with power := { d.power with lp := x } }).raise 0x5009 0x5000 .info (x.num + 16 * d.power.lp.num + 256 * wake)

/-- THROTTLE holds while LEVEL is 1 or above (R219, R407), QUIESCE apart. -/
def Dev.lpLevel (d : Dev) : Dev :=
  if d.power.lp = .quiesce then d else d.setLp (if d.slalom.level = 0 then .run else .throttle) 0

/-- DATA of CTL_SLM_LEVEL (Table 10-7). -/
def Slalom.levelData (s : Slalom) (old new : Nat) : Nat :=
  let cause := if new < old then 3 else if s.dPwr = new then 0 else if s.dTherm = new then 1 else 2
  new + 16 * old + 256 * cause + 2 ^ 16 * s.pAvg + 2 ^ 32 * usgn 8 s.tMax

/-- LEVEL becomes the largest demand: its events, the parked blocks and the low-power state. -/
def Dev.levelStep (d : Dev) (ms : Nat) : Dev :=
  let x := d.slalom
  let old := x.level
  let new := x.demanded
  if new = old then d
  else
    let up := decide (old < new)
    let parks := up && decide (parkedAt new ≠ parkedAt old)
    let d1 := d.setSlm { x with
      level := new, stepsUp := if up then bump 16 x.stepsUp else x.stepsUp, lastPark := if parks then some ms else x.lastPark
      level6Ms := 0 }
    let d2 := if up then d1.satAt 0x50 16 (bump 16 x.stepsUp) else d1
    let data := x.levelData old new
    let d3 := d2.raiseCtl 0x70 slmSource .info data
    let d4 := if up && decide (5 ≤ new) then d3.raiseCtl 0x71 slmSource .warn data else d3
    (d4.reLevel old new).lpLevel

/-- CAP_UNMET (R229). -/
def Dev.capUnmet (d : Dev) : Dev :=
  let x := d.slalom
  if x.limit < x.pAvg then
    if !x.capUnmet ∧ x.level = 6 ∧ 1000 ≤ x.level6Ms then
      (d.setSlm { x with capUnmet := true }).raiseCtl 0x72 slmSource .warn (x.pAvg + 2 ^ 16 * x.cfg.capDw)
    else d
  else d.setSlm { x with capUnmet := false }

/-- The standby whose slices run: the die that is not ACTIVE, in COLD_SYNCED, or in COLD with a slice that awaits its retry (R297, R298). -/
def Dev.sliceDie (d : Dev) : Option Nat :=
  match d.activeDie with
  | none => none
  | some a =>
    let k := 1 - a
    let c := d.twin.die.rd k
    if c.state = .coldSynced ∨ (c.state = .cold ∧ c.retry.isSome) then some k else none

/-- Seconds of operating time since slice `n` of die `k` last completed. -/
def Dev.sliceAge (d : Dev) (k n : Nat) : Option Nat := (((d.twin.die.rd k).slices.rd n).lastOp).map (fun t => d.recorder.opTime - t)

/-- A slice is overdue: its age exceeds 1.25 times the coverage period (R224). -/
def Dev.sliceOverdue (d : Dev) (k n : Nat) : Bool := ((d.sliceAge k n).map (fun a => decide (4500 * d.twin.coverH < a))).getD false

/-- CTL_SLM_BIST_OVERDUE, once for each slice that becomes overdue (R224). -/
def Dev.overdueEvents (d : Dev) (k : Nat) : Dev :=
  (List.range 320).foldl (fun acc n =>
    if acc.sliceOverdue k n && !acc.slalom.overdue.rd (k * 320 + n) then
      (acc.setSlm { acc.slalom with overdue := acc.slalom.overdue.wr (k * 320 + n) true }).raiseCtl 0x76 slmSource .warn
        (n + 2 ^ 16 * ((acc.sliceAge k n).getD 0))
    else acc) d

/-- The conditions of R224 on power and temperature for a slice of a kind, at levels up to `lvl`. -/
def Dev.bistRoom (d : Dev) (kind lvl : Nat) : Bool :=
  let x := d.slalom
  decide (x.level ≤ lvl ∧ x.tMax ≤ (x.cfg.thermStart : Int) - 10 ∧ x.pAvg * 10 + x.sliceMw kind ≤ x.limit * 10)

/-- The slice that is due on die `k` (R297): one that awaits its retry, else the next one when COVER_H over 320 has passed. -/
def Dev.dueSlice (d : Dev) (k : Nat) : Option Nat :=
  let c := d.twin.die.rd k
  match c.retry with
  | some n => some n
  | none =>
    match c.sliceAt with
    | none => some c.nextSlice
    | some t => if t + d.twin.coverH * 3600 * 1000000000 / 320 ≤ d.time.raw then some c.nextSlice else none

/-- Admission of a standby slice (R224); a due slice that is refused counts once. -/
def Dev.admitSlice (d : Dev) (ms : Nat) : Dev :=
  match d.sliceDie with
  | none => d
  | some k =>
    let d0 := d.overdueEvents k
    if d0.twin.slice.isSome ∨ d0.test.state = .running then d0
    else match d0.dueSlice k with
      | none => d0
      | some n =>
        let x := d0.slalom
        let gap := (x.lastSliceEnd.map (fun t => decide (x.cfg.bistGapMs ≤ ms - t))).getD true
        let late := d0.sliceOverdue k n && decide (x.level ≤ 4 ∧ x.tMax < (x.cfg.thermStart : Int))
        if late || (d0.bistRoom (sliceKind n) 0 && gap) then
          { d0 with twin := { d0.twin with
              slice := some (k, n), die := d0.twin.die.upd k (fun c => { c with sliceAt := some d0.time.raw, deferred := false }) } }
        else if (d0.twin.die.rd k).deferred then d0
        else
          ({ d0 with twin := { d0.twin with die := d0.twin.die.upd k (fun c => { c with deferred := true }) },
                     slalom := { x with deferred := bump 16 x.deferred } }).satAt 0x50 16 (bump 16 x.deferred)

/-- What an evaluation counts after `dt` more milliseconds (R214, R221, R227): the power of the last RELEASE_MS, the times at the levels. -/
def Slalom.tally (x : Slalom) (raw dt : Nat) : Slalom :=
  { x with
    evalMs := x.evalMs + dt, evalAt := if x.evalAt = 0 then raw else x.evalAt + dt * 1000000
    peaks := (x.pAvg :: (List.replicate (min (dt - 1) 60000) 0 ++ x.peaks)).take 60000
    throttleMs := if 1 ≤ x.level then x.throttleMs + BitVec.ofNat 32 dt else x.throttleMs
    parkedMs := if 2 ≤ x.level then x.parkedMs + BitVec.ofNat 32 dt else x.parkedMs
    level6Ms := if x.level = 6 then x.level6Ms + dt else 0
    gmaxOkMs := if 64 ≤ x.gMax then x.gmaxOkMs + dt else 0 }

/-- SLALOM_EVALUATION (R214), 1 ms after the last one; time is brought forward. -/
def execSlalomEvaluation (s : State) : Host.Outcome State Fault Refusal :=
  .next (
    if !s.dev.ctlUp then s
    else
      let x0 := s.dev.slalom
      let d := if x0.evalAt = 0 then s.dev else s.dev.toRaw (x0.evalAt + 1000000)
      let dt := if x0.evalAt = 0 then 1 else (d.time.raw - x0.evalAt) / 1000000
      let ms := x0.evalMs + dt
      let nk := ((d.sliceDie.bind (fun k => d.dueSlice k)).map sliceKind).getD 0
      let x2 := ((x0.tally d.time.raw dt).demands ms nk).clampDemand dt
      let d1 := d.setSlm x2
      let d2 := match x2.clampHigh with
        | some k => if x0.dClamp then d1 else d1.raiseCtl 0x75 slmSource .warn (k + 4 * x2.eWin.rd k + 2 ^ 13 * x2.ePend.rd k)
        | none => d1
      { s with dev := ((((d2.levelStep ms).capUnmet).holdupLow).holdupOk).admitSlice ms })

/-- CAP_UNMET_TIMER (R229): LEVEL has been 6 for 1 s; time is brought forward. -/
def execCapUnmetTimer (s : State) : Host.Outcome State Fault Refusal :=
  .next (
    let x := s.dev.slalom
    if !s.dev.ctlUp ∨ x.level ≠ 6 ∨ x.capUnmet ∨ x.pAvg ≤ x.limit then s
    else
      let d := s.dev.toRaw (x.evalAt + (1000 - x.level6Ms) * 1000000)
      { s with dev := (d.setSlm { d.slalom with level6Ms := max 1000 x.level6Ms }).capUnmet })

/-- HOLDUP_OK_TIMER (R227): G_MAX has stayed at or above 64 for 1 s; time is brought forward. -/
def execHoldupOkTimer (s : State) : Host.Outcome State Fault Refusal :=
  .next (
    let x := s.dev.slalom
    if !s.dev.ctlUp ∨ !x.writeThrough ∨ x.gMax < 64 then s
    else
      let d := s.dev.toRaw (x.evalAt + (1000 - x.gmaxOkMs) * 1000000)
      { s with dev := (d.setSlm { d.slalom with gmaxOkMs := max 1000 x.gmaxOkMs }).holdupOk })

/-! Commands (Table 10-4). -/

/-- Word of the Slalom page at offset `o` (Table 10-6). -/
def Slalom.word (s : Slalom) (o : Nat) : Word :=
  if o = 0x0800 then
    pack [(s.level, 0), (s.dPwr, 4), (s.dTherm, 8), (b1 s.dClamp, 11), (b1 s.writeThrough, 12), (b1 s.capUnmet, 13)]
  else if o = 0x0804 then pack [(s.pAvg, 0), (s.pPeak, 16)]
  else if o = 0x0808 then pack [(satN 16 s.pClamp, 0), (s.engW, 16)]
  else if o = 0x080C then pack [(usgn 8 s.tMax, 0), (s.tMaxDie.1, 8)]
  else if o = 0x0810 then pack [(usgn 8 (s.temps.rd 0), 0), (usgn 8 (s.temps.rd 1), 8), (usgn 8 (s.temps.rd 2), 16)]
  else if o = 0x0814 then pack [(usgn 8 (s.temps.rd 3), 0), (usgn 8 (s.temps.rd 4), 8), (usgn 8 (s.temps.rd 5), 16), (usgn 8 (s.temps.rd 6), 24)]
  else if o = 0x0818 then w32 s.eHu
  else if o = 0x081C then pack [(s.gMax, 0), (satN 15 s.journalUsed, 16)]
  else if o = 0x0820 then pack [(satN 16 ((s.hold.rd 0).capUf / 10), 0), (satN 16 ((s.hold.rd 1).capUf / 10), 16)]
  else if 0x0824 ≤ o ∧ o ≤ 0x0830 then pack [(s.eWin.rd ((o - 0x0824) / 4), 0), (s.ePend.rd ((o - 0x0824) / 4), 16)]
  else if o = 0x0834 then pack [(s.stepsUp, 0), (s.deferred, 16)]
  else if o = 0x0838 then s.throttleMs
  else if o = 0x083C then s.parkedMs
  else if o = 0x0840 then pack [(s.jrnlWaits, 0), (s.jrnlBusy, 16)]
  else 0

/-- BUDGET_STATUS (R219). -/
def opBudgetStatus : Op where
  code := 0x0C01
  target := onDie
  die := true
  body s _ := .read s ((List.range 17).map (fun i => s.dev.slalom.word (0x0800 + 4 * i)))

/-- BUDGET_STATUS. -/
def execBudgetStatus (p : Packet) (s : State) : Host.Outcome State Fault Refusal := .next (packetRow opBudgetStatus p s)

/-- PWR_CAP_SET (R230): in force from the next evaluation; CTL_SLM_CAP_CHANGED. -/
def opPwrCapSet : Op where
  code := 0x0C02
  target := onDie
  die := true
  classN := true
  params := 1
  body s q :=
    let d := s.dev
    let cap := q.f 0 15 0
    guarded s [encIf (q.resv 0 0xFFFF) 0, rangeIf (outside cap 200 550) 0]
      (.ok s ((d.setSlm { d.slalom with cfg := { d.slalom.cfg with capDw := cap } }).raiseCtl 0x77 slmSource .info (cap + 2 ^ 16 * d.slalom.cfg.capDw)))

/-- PWR_CAP_SET. -/
def execPwrCapSet (p : Packet) (s : State) : Host.Outcome State Fault Refusal := .next (packetRow opPwrCapSet p s)

/-- The settings a BUDGET_CONFIG carries over the accepted ones (Table 10-5). -/
def budgetCfgOf (q : QPacket) (old : BudgetCfg) : BudgetCfg :=
  { old with
    thermStart := q.f 0 7 0, thermHyst := q.f 0 11 8, thermStepMs := q.f 0 31 16, guard := q.f 1 7 0, huMargin := q.f 1 15 8
    releaseMs := q.f 1 31 16, thrIter := q.f 2 12 0, thrGlobal := q.f 2 24 16, thrIterMin := q.f 3 12 0, huTestS := q.f 3 31 16
    clampWarn := q.f 4 10 0, bistGapMs := q.f 4 31 16 }

/-- The parameter checks of BUDGET_CONFIG, in order. -/
def budgetChecks (s : State) (q : QPacket) : List (Bool × Nat × Nat) :=
  let d := s.dev
  let c := budgetCfgOf q d.slalom.cfg
  [
    encIf (q.resv 0 0xFFFF0FFF) 0, encIf (q.resv 2 0x01FF1FFF) 2, encIf (q.resv 3 0xFFFF1FFF) 3, encIf (q.resv 4 0xFFFF07FF) 4,
    rangeIf (outside c.thermStart 85 100 || outside c.thermHyst 2 15 || outside c.thermStepMs 10 10000) 0,
    rangeIf (outside c.guard 5 50 || outside c.huMargin 10 100 || outside c.releaseMs 100 60000) 1,
    rangeIf (outside c.thrIter 1 4096 || outside c.thrGlobal 1 256) 2,
    rangeIf (outside c.thrIterMin 1 4096 || outside c.huTestS 60 65535) 3,
    rangeIf (outside c.clampWarn 100 1500 || outside c.bistGapMs 10 60000) 4,
    conflictIf (decide (c.thrIter < c.thrIterMin)) 3]

/-- BUDGET_CONFIG (R230, Table 10-5). -/
def opBudgetConfig : Op where
  code := 0x0C03
  target := onDie
  die := true
  classN := true
  params := 5
  body s q := guarded s (budgetChecks s q) (.ok s (s.dev.setSlm { s.dev.slalom with cfg := budgetCfgOf q s.dev.slalom.cfg }))

/-- BUDGET_CONFIG. -/
def execBudgetConfig (p : Packet) (s : State) : Host.Outcome State Fault Refusal := .next (packetRow opBudgetConfig p s)

end Sys2Proof.Machine
end

