-- ==== Sys2Proof/Machine/Retain.lean ====
section
/-! DEFINITION. What each reset returns to default (Table 19-4, R8): the fields of classes L, D, K and F unit by unit. Class N settings that were
accepted and are not yet in force are in force afterwards, for they return from the configuration store. -/

namespace Sys2Proof.Machine

open Sys2Proof.Bits

/-! Class L: the units of the active control die (R8, R97, R123, R168, R196, R213, R231). -/

/-- A loop slot. -/
def LoopSlot.clearL (l : LoopSlot) : LoopSlot :=
  { cfg := l.cfgNext.getD l.cfg, sec := l.secNext.foldl (fun t x => t.wr x.1 x.2) l.sec }

/-- An override group. -/
def OvrGroup.clearL (g : OvrGroup) : OvrGroup := { cfg := g.cfgNext.getD g.cfg }

/-- A supervisor. -/
def Superv.clearL (s : Superv) : Superv := { cfg := s.cfgNext.getD s.cfg }

/-- A Mogul learner. -/
def Mogul.clearL (m : Mogul) : Mogul := { cfg := m.cfgNext.getD m.cfg }

/-- Slalom: the settings, and what the hub holds of the journal, stay. -/
def Slalom.clearL (s : Slalom) : Slalom :=
  { cfg := s.cfg, journal := s.journal, jrnWait := s.jrnWait, emram := s.emram, emramBusy := s.emramBusy }

/-- Every class L field at default. -/
def Dev.clearL (d : Dev) : Dev :=
  { d with
    frame := { maxFrameRun := d.frame.maxFrameRun }
    fabric := { d.fabric with ctlQ := [], ctlQSel := 0x10, coldRegs := [], epochs := d.fabric.epochs.upd 0 (fun n => n + 1) }
    piste := { image := d.piste.image, imageCopy := d.piste.imageCopy }
    solver := { cfg := d.solver.cfg }
    jobs := { bank0 := d.jobs.bank0, bank1 := d.jobs.bank1 }
    coord := { cfg := d.coord.cfgNext.getD d.coord.cfg }
    loops := { slot := d.loops.slot.mapD LoopSlot.clearL, group := d.loops.group.mapD OvrGroup.clearL }
    aux := { sup := d.aux.sup.mapD Superv.clearL, mogul := d.aux.mogul.mapD Mogul.clearL }
    slalom := d.slalom.clearL
    twin := { d.twin with hbTx := 0 } }

/-! Class D: the hub. -/

/-- A CAN controller: its class N settings stay (R360). -/
def CanCtl.clearD (c : CanCtl) : CanCtl :=
  { cfg := c.cfg, tcfg := c.tcfg, std := c.std, ext := c.ext
    maps := c.maps.mapD (fun m => { w0 := m.w0, w1 := m.w1, w2 := m.w2, scale := m.scale, offset := m.offset }) }

/-- A control die as the hub sees it: its failures and its health data are class K. -/
def CtlDie.clearD (c : CtlDie) : CtlDie := { failCnt := c.failCnt, failTimes := c.failTimes, slices := c.slices }

/-- The twin arbiter: settings, banks, stream records and health data stay. -/
def Twin.clearD (t : Twin) : Twin :=
  { enabled := t.enabled, rejoinAuto := t.rejoinAuto, maxRecover := t.maxRecover, coverH := t.coverH, die := t.die.mapD CtlDie.clearD
    hbTx := t.hbTx, ckpt := t.ckpt, stream := t.stream, streamAt := t.streamAt, ckptFrame := t.ckptFrame, lastActive := t.lastActive }

/-- The power unit. -/
def Power.clearD (p : Power) : Power :=
  { prefSlot := p.prefSlot, fw := p.fw, fwKey := p.fwKey, fwVersion := p.fwVersion, lastActiveReg := p.lastActiveReg, feeds := p.feeds, lbCnt := p.lbCnt
    lbLastUs := p.lbLastUs, railFailCnt := p.railFailCnt, tableN := p.tableN, tableB := p.tableB, table := p.table, stepNext := p.stepNext, attempts := p.attempts
    railPend := p.railPend, alertPend := p.alertPend, causes := p.causes, bootPins := p.bootPins, resetN := p.resetN, lbDone := p.lbDone, fieldThermal := p.fieldThermal
    fieldFeed := p.fieldFeed, keep := p.keep, wakeMask := p.wakeMask, backupRec := p.backupRec
    phase := p.phase, railEn := p.railEn, railPg := p.railPg, pendKind := p.pendKind, runSlot := p.runSlot }

/-- The backup domain: the classes B and N stay (R344). -/
def Backup.clearD (b : Backup) : Backup :=
  { b with
    edgeCt := none, syncHeld := false, loadDelayNs := 0, vbatMv := 0, vbatLow := false, lastSyncErrUs := 0, driftPpb := 0, lastMeas := 0, refT := none
    refE := 0, cor := 0 }

/-- Every class D field at default; the packets, the event router and the point store are empty (R82, R438). -/
def Dev.clearD (d : Dev) : Dev :=
  { d with
    fabric := { d.fabric with hubQ := [], hubQSel := 1 }
    evr := {}
    host := { cfg := d.host.cfg, eth := d.host.eth, serial := d.host.serial, revHub := d.host.revHub, revCtlA := d.host.revCtlA, revCtlB := d.host.revCtlB,
              revFld := d.host.revFld }
    points := { pframe := d.points.pframe.mapD (fun x => { cfg := x.cfg }) }
    jalow := { port := d.jalow.port.mapD (fun p => { cfg := p.cfg }) }
    slalom := { d.slalom with
      jrnWait := [], emram := [], journal := d.slalom.journal.map (fun e => { e with reply := none })
      emramBusy := if d.slalom.journal = [] then none else some .journal }
    field := { d.field with sampleQ := [] }
    twin := d.twin.clearD
    time := { d.time with port := d.time.port.mapD (fun p => { cfg := p.cfg }) }
    backup := d.backup.clearD
    can := { ctl := d.can.ctl.mapD CanCtl.clearD }
    recorder := { d.recorder with readMark := 0, recent := [] }
    power := d.power.clearD
    test := { fieldSlices := d.test.fieldSlices, fieldHeld := d.test.fieldHeld }
    sat := [] }

/-! Class F: the field dies (R252, R275). -/

/-- Every class F field at default, the dies held in their reset. -/
def Dev.clearF (d : Dev) : Dev :=
  let d1 := (List.range 4).foldl (fun acc k => acc.fieldReset k .inReset) d
  { d1 with power := { d1.power with feeds := [], fieldThermal := [], fieldFeed := [] }, test := { d1.test with fieldHeld := [] } }

/-! Class K: what only a loss of power takes. -/

/-- Every class K field at default; RAW restarts at 0 (R302, R325). -/
def Dev.clearK (d : Dev) : Dev :=
  { d with
    frame := { d.frame with maxFrameRun := 0 }
    piste := { d.piste with imageCopy := none }
    jobs := { d.jobs with bank0 := [], bank1 := [] }
    slalom := { d.slalom with journal := [], emramBusy := none, emram := [] }
    field := { d.field with countAcc := [], countPrev := [], refreshNext := 0, countAt := 0 }
    twin := { d.twin with
      die := d.twin.die.mapD (fun c => { c with failCnt := 0, failTimes := [], slices := [], bistOk := false })
      ckpt := [], stream := [], streamAt := 0, ckptFrame := 0, lastActive := b1 d.power.lastActiveReg }
    time := { cfg := d.time.cfg, port := d.time.port }
    test := { d.test with fieldSlices := [] } }

end Sys2Proof.Machine
end

