-- ==== Sys2Proof/Machine/SelfTest.lean ====
section
/-! DEFINITION. The states of the control dies (Table 13-1), their self-test slices (Tables 13-5, 13-6) and the test runs of chapter 20. -/

namespace Sys2Proof.Machine

open Sys2Proof.Bits

/-- Number of a control die's state (Table 13-1). -/
def CtlDieState.num : CtlDieState → Nat
  | .off => 0 | .cold => 1 | .coldSynced => 2 | .waking => 3 | .active => 4 | .failed => 5 | .recovering => 6

/-- Changes the twin arbiter. -/
def Dev.setTwin (d : Dev) (t : Twin) : Dev := { d with twin := t }

/-- Control die `k`. -/
def Dev.ctl (d : Dev) (k : Nat) : CtlDie := d.twin.die.rd k

/-- Changes control die `k`. -/
def Dev.updCtl (d : Dev) (k : Nat) (f : CtlDie → CtlDie) : Dev := d.setTwin { d.twin with die := d.twin.die.upd k f }

/-- Code of a control die in event data and registers: 0b01 CTLA, 0b10 CTLB (Tables 13-9, 13-10). -/
def dieCode (k : Nat) : Nat := k + 1

/-- The page of a standby that leaves COLD and COLD_SYNCED is at default. -/
def Dev.coldPage (d : Dev) (new : CtlDieState) : Dev :=
  if new = .cold ∨ new = .coldSynced then d else { d with fabric := { d.fabric with coldRegs := [] } }

/-- A control die changes state, and TWIN_STATE is raised (Table 13-2). -/
def Dev.dieTo (d : Dev) (k : Nat) (new : CtlDieState) : Dev :=
  let old := (d.ctl k).state
  if old = new then d
  else ((d.coldPage new).updCtl k (fun c => { c with state := new })).raise 0x5104 0x5100 .info (dieCode k + 4 * old.num + 32 * new.num)

/-- A standby is eligible (R277). -/
def Dev.eligible (d : Dev) (k : Nat) : Bool :=
  (d.ctl k).state = .coldSynced && (d.ctl k).railOk && decide (d.slalom.temps.rd (1 + k) < 115)

/-! Slices. -/

/-- Revision of the die an INSTANCE of Table 20-4 names. -/
def HostPort.revOf (h : HostPort) (inst : Nat) : Nat :=
  if inst = 0 then h.revCtlA.toNat else if inst = 1 then h.revCtlB.toNat else h.revFld.toNat

/-- A slice of the die that an INSTANCE names is a memory slice (Tables 13-5, 20-2). -/
def memSlice (inst n : Nat) : Bool := if inst < 2 then decide (sliceKind n = 1) else decide (4 ≤ n)

/-- A result passes (R415): the expected signature, or no failing word. -/
def Dev.slicePasses (d : Dev) (inst n : Nat) (sig : BitVec 64) : Bool :=
  if memSlice inst n then decide (sig.toNat / 2 ^ 32 = 0) else decide (sig = Config.sliceSig (d.host.revOf inst) n)

/-- A completed slice's entry (R298, R417). -/
def SliceResult.done (r : SliceResult) (pass : Bool) (sig : BitVec 64) (op : Nat) : SliceResult :=
  { result := if pass then 1 else 2, fails := if pass then r.fails else bump 16 r.fails, lastOp := some op, sig := sig }

/-- Four words of a slice's entry (Table 13-6); `op` is the present operating time. -/
def SliceResult.words (r : SliceResult) (inst n op : Nat) : List Word :=
  [pack [(n, 0), (b1 (memSlice inst n), 9), (r.result.toNat, 10), (r.fails, 16)],
   w32 ((r.lastOp.map (fun t => min (op - t) 0xFFFFFFFE)).getD 0xFFFFFFFF), w32 r.sig.toNat, w32 (r.sig.toNat / 2 ^ 32)]

/-- Records a completed slice of control die `k`; it is no longer overdue. -/
def Dev.recordSlice (d : Dev) (k n : Nat) (pass : Bool) (sig : BitVec 64) : Dev :=
  let d1 := d.updCtl k (fun c => { c with slices := c.slices.upd n (fun r => r.done pass sig d.recorder.opTime) })
  d1.setSlm { d1.slalom with overdue := d1.slalom.overdue.wr (k * 320 + n) false }

/-- TWIN_SLICE_FAIL (Table 13-10). -/
def Dev.sliceFail (d : Dev) (k n : Nat) (retry : Bool) : Dev := d.raise 0x5107 0x5100 .warn (dieCode k + 4 * n + 2 ^ 11 * b1 retry)

/-- The standby slice in progress is aborted (R281, R298): its entry reads ABORTED, it counts as no failure and is due again at once. -/
def Dev.abortSlice (d : Dev) : Dev :=
  match d.twin.slice with
  | none => d
  | some (k, n) =>
    let d1 := d.updCtl k (fun c => { c with slices := c.slices.upd n (fun r => { r with result := 3 }), sliceAt := none })
    d1.setTwin { d1.twin with slice := none }

/-- A measured mean power of a slice, a free value, joins the last 16 of its kind (R224). -/
def Dev.sliceSample (d : Dev) (kind : Nat) : Dev :=
  let (w, d1) := d.freeN 65536
  d1.setSlm { d1.slalom with sliceW := d1.slalom.sliceW.wr kind ((w :: d1.slalom.sliceW.rd kind).take 16) }

/-- Length of a slice in nanoseconds, free within Table 20-1. -/
def Dev.sliceNs (d : Dev) (mem : Bool) : Nat × Dev := if mem then d.freeNs 1980000 2000000 else d.freeNs 1800000 1950000

/-- STANDBY_SLICE_END (R297, R298); time is brought forward to the slice's end. -/
def execStandbySliceEnd (sig : BitVec 64) (s : State) : Host.Outcome State Fault Refusal :=
  .next (match s.dev.twin.slice with
    | none => s
    | some (k, n) =>
      let kind := sliceKind n
      let (ns, d0) := s.dev.sliceNs (decide (kind = 1))
      let d1 := d0.toRaw (((d0.ctl k).sliceAt.getD d0.time.raw) + ns)
      let pass := d1.slicePasses k n sig
      let retry := decide ((d1.ctl k).retry = some n)
      let d2 := ((d1.recordSlice k n pass sig).sliceSample kind)
      let d3 := (d2.setSlm { d2.slalom with lastSliceEnd := some d2.slalom.evalMs }).setTwin { d2.twin with slice := none }
      { s with dev :=
        if pass then
          let d4 := d3.updCtl k (fun c => { c with nextSlice := if n = c.nextSlice then (n + 1) % 320 else c.nextSlice, retry := none })
          if retry then d4.dieTo k .coldSynced else d4
        else
          let d4 := d3.sliceFail k n retry
          if retry then (d4.updCtl k (fun c => { c with retry := none, noAuto := true })).dieTo k .failed
          else (d4.updCtl k (fun c => { c with retry := some n })).dieTo k .cold })

/-! Runs (R416 to R420). -/

/-- Changes the self-test engine. -/
def Dev.setTest (d : Dev) (t : TestUnit) : Dev := { d with test := t }

/-- The words of a run's reply (Table 20-4). -/
def TestUnit.words (t : TestUnit) (aborted : Bool) : List Word :=
  [pack [(t.ran, 0), (t.failed, 9), (t.firstFail, 18), (b1 aborted, 27)], w32 t.elapsedUs]

/-- The run in progress ends (R417, R418): its registers, TEST_RUN_DONE and the reply. -/
def Dev.endRun (d : Dev) (aborted : Bool) : Dev :=
  let t0 := d.test
  let t : TestUnit := { t0 with
    state := if aborted then .aborted else .done, elapsedUs := (d.time.raw - t0.startedAt) / 1000, todo := [], pkt := none
    runs := if aborted then t0.runs else bump 16 t0.runs
    runFails := if aborted ∨ t0.failed = 0 then t0.runFails else bump 16 t0.runFails }
  let d1 := (d.setTest t).raise 0x6001 (0x6000 + t.die) .info
    (t.die + 2 ^ 4 * t.ran + 2 ^ 13 * t.failed + 2 ^ 22 * t.firstFail + 2 ^ 31 * b1 aborted)
  match t0.pkt with
  | some q => d1.finish q (if aborted then stAborted else stOk) 0 (t.words aborted)
  | none => d1

/-- A run on the die of this INSTANCE, if one is in progress, is aborted (R418). -/
def Dev.abortRun (d : Dev) (inst : Nat) : Dev := if d.test.state = .running ∧ d.test.die = inst then d.endRun true else d

/-- What the state of the die says to a run (R416). -/
def Dev.testState (d : Dev) (inst : Nat) : Option (Nat × Nat) :=
  if d.test.state = .running then some (stBusy, 0)
  else if inst < 2 then
    match (d.ctl inst).state with
    | .cold | .coldSynced => if d.twin.swapPending then some (stBusy, 0) else none
    | .failed => if d.twin.swapPending then some (stBusy, 0) else none
    | .recovering => some (stBusy, 0)
    | _ => some (if d.twin.swapPending then stBusy else stWrongState, 0)
  else if d.fldRuns (inst - 2) && decide ((d.fld (inst - 2)).outState = .disarmed) then none
  else some (stWrongState, 0)

/-- The running image holds a signature table for the die's revision (R415, Table 20-3). -/
def Dev.revTested (d : Dev) (inst : Nat) : Bool :=
  let r := d.host.revOf inst
  if inst < 2 then decide (r = 0xB0 ∨ r = 0xA3) else decide (r = 0xA2 ∨ r = 0xA1)

/-- The slices a SELFTEST_RUN asks for, ascending (R416). -/
def testSlices (q : QPacket) : List Nat :=
  ((List.range (q.f 0 24 16)).map (fun i => q.f 0 8 0 + i)).filter (fun n => if memSlice q.pkt.inst n then q.b 0 26 else q.b 0 25)

/-- The self-test engine at the start of a run (R416, R417). -/
def Dev.testStart (d : Dev) (q : QPacket) : TestUnit :=
  { d.test with
    state := .running, die := q.pkt.inst, slice := (testSlices q).headD d.test.slice, todo := testSlices q, ran := 0, failed := 0, firstFail := 0x1FF
    startedAt := d.time.raw, pkt := some { q with started := true } }

/-- SELFTEST_RUN (R415 to R417). -/
def opSelftestRun : Op where
  code := 0x0D01
  target := onInst 0x60 6
  params := 1
  body s q :=
    let d := s.dev
    let inst := q.pkt.inst
    let t := d.testStart q
    let busy := d.testState inst
    guarded s [
      encIf (q.resv 0 0x07FF01FF) 0,
      rangeIf (decide ((if inst < 2 then 320 else 8) < q.f 0 8 0 + q.f 0 24 16) || !(q.b 0 25 || q.b 0 26)) 0,
      (!d.revTested inst, stConfigConflict, 2), (busy.isSome, (busy.getD (0, 0)).1, 2)]
      (let d1 := d.setTest t
       let d2 := if inst < 2 then d1 else d1.setFld (inst - 2) { d1.fld (inst - 2) with run := .inReset, stageAt := d1.time.raw }
       if testSlices q = [] then
         { st := { s with dev := d.setTest { t with state := .done, elapsedUs := 0, runs := bump 16 t.runs, pkt := none } }, words := t.words false }
       else { st := { s with dev := d2 }, later := true })

/-- SELFTEST_RUN. -/
def execSelftestRun (p : Packet) (s : State) : Host.Outcome State Fault Refusal := .next (packetRow opSelftestRun p s)

/-- The field die's run has ended (R420): a passing one leaves a FIELD reset with cause COMMAND, a failing one keeps the die in it. -/
def Dev.endFieldRun (d : Dev) (k : Nat) (failed : Bool) : Dev :=
  let d1 := (d.fieldReset k .inReset).causeRecord .field .command k 0 0 0
  d1.setTest { d1.test with fieldHeld := d1.test.fieldHeld.wr k failed }

/-- A slice of the run ends with this result: MISR, or first failing address and failing words. -/
def Dev.runSlice (d : Dev) (inst n : Nat) (sig : BitVec 64) : Dev :=
  let pass := d.slicePasses inst n sig
  let t := d.test
  let d1 := d.setTest { t with
    slice := t.todo.tail.headD n, todo := t.todo.tail, ran := t.ran + 1, failed := t.failed + b1 (!pass)
    firstFail := if pass ∨ t.firstFail ≠ 0x1FF then t.firstFail else n }
  if inst < 2 then
    let d2 := d1.recordSlice inst n pass sig
    if pass ∨ (d2.ctl inst).state = .failed then d2
    else ((d2.sliceFail inst n false).updCtl inst (fun c => { c with retry := some (c.retry.getD n) })).dieTo inst .cold
  else
    let k := inst - 2
    let d2 := d1.setTest { d1.test with fieldSlices := d1.test.fieldSlices.upd k (fun x => x.upd n (fun r => r.done pass sig d1.recorder.opTime)) }
    d2.raiseIf (!pass) 0x6002 (0x6000 + inst) .crit (inst + 16 * n + 2 ^ 32 * (sig.toNat % 2 ^ 32))

/-- SELFTEST_SLICE_END (R417 to R420): a slice of a control die is admitted under the conditions of R224 at LEVEL 0 or 1 and waits otherwise;
time is brought forward to its end. -/
def execSelftestSliceEnd (sig : BitVec 64) (s : State) : Host.Outcome State Fault Refusal :=
  .next (match s.dev.test.todo with
    | [] => s
    | n :: rest =>
      let d := s.dev
      let inst := d.test.die
      if d.test.state ≠ .running ∨ (inst < 2 ∧ !d.bistRoom (sliceKind n) 1) then s
      else
        let (ns, d0) := d.sliceNs (memSlice inst n)
        let (w, d1) := if d.test.ran = 0 then d0.freeNs 50000 1000000 else (0, d0)
        let d2 := (d1.pass (ns + w)).runSlice inst n sig
        { s with dev :=
          if rest ≠ [] then d2
          else
            let failed := decide (0 < d2.test.failed)
            let d3 := d2.endRun false
            if inst < 2 then d3 else d3.endFieldRun (inst - 2) failed })

/-- SELFTEST_RESULT (R415, Table 20-4). -/
def opSelftestResult : Op where
  code := 0x0D02
  target := onInst 0x60 6
  params := 1
  body s q :=
    let d := s.dev
    let inst := q.pkt.inst
    let first := q.f 0 8 0
    let count := q.f 0 24 16
    let rd (n : Nat) : SliceResult := if inst < 2 then (d.ctl inst).slices.rd n else (d.test.fieldSlices.rd (inst - 2)).rd n
    guarded s [encIf (q.resv 0 0x01FF01FF) 0, rangeIf (decide (count = 0 ∨ (if inst < 2 then 320 else 8) < first + count)) 0]
      (.read s ((List.range count).flatMap (fun i => (rd (first + i)).words inst (first + i) d.recorder.opTime)))

/-- SELFTEST_RESULT. -/
def execSelftestResult (p : Packet) (s : State) : Host.Outcome State Fault Refusal := .next (packetRow opSelftestResult p s)

/-- HEALTH_REPORT (R297, Table 13-7). -/
def opHealthReport : Op where
  code := 0x0C13
  target := onUnit 0x51
  params := 2
  sizeAt := 4
  body s q :=
    let d := s.dev
    let first := q.f 0 8 0
    let count := q.f 0 24 16
    let k := q.f 1 0 0
    guarded s [encIf (q.resv 0 0x01FF01FF) 0, encIf (q.resv 1 1) 1, rangeIf (decide (count = 0 ∨ 320 < first + count)) 0]
      (.read s ((List.range count).flatMap (fun i => ((d.ctl k).slices.rd (first + i)).words k (first + i) d.recorder.opTime)))

/-- HEALTH_REPORT. -/
def execHealthReport (p : Packet) (s : State) : Host.Outcome State Fault Refusal := .next (packetRow opHealthReport p s)

/-- Number of a run state (Table 20-6). -/
def TestState.num : TestState → Nat
  | .idle => 0 | .running => 1 | .done => 2 | .aborted => 3

/-- Word of the test page at offset `o` (Table 20-6). -/
def TestUnit.word (t : TestUnit) (o : Nat) : Word :=
  if o = 0 then pack [(t.state.num, 0), (t.die, 2), (t.slice, 16)]
  else if o = 4 then pack [(t.runs, 0), (t.runFails, 16)]
  else if o = 8 then w32 t.elapsedUs
  else 0

end Sys2Proof.Machine
end

