-- ==== Sys2Proof/Machine/Twin.lean ====
section
/-! DEFINITION. The twin control dies (chapter 13): heartbeats, declaration, the Glide and what the new die restores, recovery and the planned swap. -/

namespace Sys2Proof.Machine

open Sys2Proof.Bits

/-- Number of a cause (Table 13-9). -/
def TakeCause.num : TakeCause → Nat
  | .heartbeat => 1 | .ecc => 2 | .lockstep => 3 | .thermal => 4 | .rail => 5 | .command => 6

/-- A die that is WAKING. -/
def Dev.wakingDie (d : Dev) : Option Nat :=
  if (d.ctl 0).state = .waking then some 0 else if (d.ctl 1).state = .waking then some 1 else none

/-- FAILS_24H (R293). -/
def CtlDie.fails24h (c : CtlDie) (op : Nat) : Nat := (c.failTimes.filter (fun t => decide (op < t + 86400))).length

/-- STREAM_AGE_US, saturating (R282). -/
def Dev.streamAgeUs (d : Dev) : Nat := if d.twin.stream = [] then 0xFFFF else min 0xFFFF ((d.time.raw - d.twin.streamAt) / 1000)

/-! What the standby is given (R282 to R284). -/

/-- A stream record of the present state (R282). -/
def Dev.streamRec (d : Dev) (t : Nat) : StreamRec :=
  { epoch := t, slots := d.loops.slot.filter (fun x => decide (x.2.mode ≠ .off)), groups := d.loops.group, sup := d.aux.sup, sched := d.frame }

/-- The record is complete: it is the newest, and FRAME_SET and FRAME_STOP that it holds are answered. -/
def Dev.stream (d : Dev) (t : Nat) : Dev :=
  let w := d.twin.waiting
  let d1 := d.setTwin { d.twin with stream := (d.streamRec t :: d.twin.stream).take 2, streamAt := d.time.raw, waiting := [] }
  w.foldl (fun acc q => acc.finish q stOk 0 []) d1

/-- The stream instant after the newest record: a base tick whose index is a multiple of 1,000. -/
def Dev.streamDue (d : Dev) : Nat := gridAt (max d.now (((d.twin.stream.head?).map (fun r => r.epoch + 1)).getD 0)) 10000000 0

/-- LOOP_STREAM (R282); time is brought forward to the instant. -/
def execLoopStream (s : State) : Host.Outcome State Fault Refusal :=
  .next (
    if !s.dev.ctlUp then s
    else
      let t := s.dev.streamDue
      { s with dev := (s.dev.toCt t).stream t })

/-- STREAM_LATE (R282): the record of the instant that is due is not complete 2 ms after it; time is brought forward. -/
def execStreamLate (s : State) : Host.Outcome State Fault Refusal :=
  .next (
    if !s.dev.ctlUp then s
    else
      let d := s.dev.toCt (s.dev.streamDue + 2000000)
      { s with dev := d.raise 0x510A 0x5100 .warn d.streamAgeUs })

/-- A loop's streamed state on the new die (R185). -/
def LoopSlot.restore (l old : LoopSlot) : LoopSlot :=
  { l with mode := old.mode, manOut := old.manOut, rPrev := old.rPrev, uPrev := old.uPrev, st := old.st, rt := old.rt, y := old.y, stale := old.stale,
           heldIn := old.heldIn, entry := true }

/-- A supervision failure in force travels with its latch (R213). -/
def Superv.restore (s old : Superv) : Superv :=
  if old.inForce ∨ old.latched then { s with inForce := old.inForce, latched := old.latched, cause := old.cause, failTime := old.failTime } else s

/-- The newest bank that carries a valid completion marker (R284). -/
def Twin.bank (t : Twin) : Option CkptBank :=
  let a := t.ckpt.rd 0
  let b := t.ckpt.rd 1
  if a.complete ∧ (!b.complete ∨ b.time ≤ a.time) then some a else if b.complete then some b else none

/-- The frame schedule and its position, from the newer of the stream record and the bank (R282, R283); a stop whose last frame has begun is
complete. -/
def restoreFrame (rec : Option StreamRec) (bank : Option CkptBank) (maxRun : Nat) : FrameCtl :=
  let src : Option FrameCtl := match rec, bank with
    | some r, some b => some (if b.time ≤ r.epoch then r.sched else b.sched)
    | some r, none => some r.sched
    | none, some b => some b.sched
    | none, none => none
  match src with
  | none => { maxFrameRun := maxRun }
  | some f =>
    { sched := f.sched, state := f.state, frameNum := f.frameNum, everRun := f.everRun, tN := f.tN, pendingSet := f.pendingSet, stopFrame := f.stopFrame,
      committedFrame := f.committedFrame, checkpointed := (bank.map (fun b => b.frame)).getD 0, genCommitted := f.frameNum
      maxFrameRun := maxRun }

/-- The newly active die's state (R282 to R289): default, then the stream record and the bank, the engines parked to the restored level. -/
def Dev.restore (d : Dev) : Dev :=
  let rec? := d.twin.stream.head?
  let bank := d.twin.bank
  let b := bank.getD {}
  let d1 := d.clearL
  let slots := match rec? with
    | some r => r.slots.foldl (fun (t : Tbl LoopSlot) x => t.upd x.1 (fun l => l.restore x.2)) d1.loops.slot
    | none => d1.loops.slot
  let groups := match rec? with
    | some r => r.groups.foldl (fun (t : Tbl OvrGroup) x => t.upd x.1 (fun g => { g with selected := x.2.selected, formed := x.2.formed })) d1.loops.group
    | none => d1.loops.group
  let sups := match rec? with
    | some r => r.sup.foldl (fun (t : Tbl Superv) x => t.upd x.1 (fun g => g.restore x.2)) d1.aux.sup
    | none => d1.aux.sup
  let f := restoreFrame rec? bank d.frame.maxFrameRun
  let d2 : Dev := { d1 with
    loops := { d1.loops with slot := slots, group := groups }, aux := { d1.aux with sup := sups, mem := b.mogul }
    piste := { d1.piste with lg := b.lg }, frame := f
    coord := { d1.coord with couples := b.couples, targets := b.targets, frame := f.frameNum,
                             ports := b.frozen.foldl (fun (t : Tbl DownPort) x => t.wr x.1 { last := x.2.last, ref := x.2.ref }) [] }
    slalom := { d1.slalom with level := b.level, dPwr := b.dPwr, dTherm := b.dTherm } }
  let parks := if d2.power.lp = .quiesce then List.range 16 else parkedAt b.level
  (parks.foldl (fun acc k => acc.park k) d2).lpLevel

/-! Declaration (R278 to R281). -/

/-- Packets whose execution had begun on the failing die complete with ST_ABORTED (R48); those that only wait for the journal stay. -/
def Dev.abortDie (d : Dev) (k : Nat) : Dev :=
  let onDie (q : QPacket) : Bool := q.started && (q.pkt.unit = 2 || q.pkt.unit = 3 + k || decide (0x20 ≤ q.pkt.unit ∧ q.pkt.unit ≤ 0x23))
  let held (q : QPacket) : Bool := d.slalom.jrnWait.any (fun w => decide (w.pkt = q)) ||
    d.slalom.journal.any (fun e => (e.reply.map (fun r => decide (r.pkt = q))).getD false)
  let qs := d.host.queue.filter (fun q => onDie q && !held q)
  let d1 := qs.foldl (fun acc q => acc.finish q stAborted 0 []) d
  d1.setTwin { d1.twin with waiting := [] }

/-- FREEZE (R281): outputs tagged for a base tick before it are applied, the others discarded, and nothing is applied until the release. -/
def Dev.freeze (d : Dev) : Dev :=
  let d1 := Dev.applyUpTo (d.now / 10000) 4096 d
  let d2 := (List.range 4).foldl (fun acc k =>
    if acc.fldUp k then acc.setFld k { acc.fld k with frozen := true, tags := [] } else acc) d1
  { d2 with loops := { d2.loops with ptOut := [] } }

/-- The frame in progress is abandoned (R288): its jobs end, its pin is released; kept where R289 has to tell the devices below. -/
def Dev.dropFrame (d : Dev) : Dev :=
  let n := d.coord.frame
  let tell := !d.coord.committed && !(d.portOf .down).isEmpty
  let d1 := (d.abandon n).setPiste { d.piste with cursor := none, held0 := none, held1 := none, commit := none, staging := none }
  { d1 with points := { d1.points with gens := d1.points.gens.map (fun g => { g with pinned := false }) }, twin := { d1.twin with lostFrame := if tell then some n else none } }

/-- A DIE reset is issued to a die and its record written (R291, R400). -/
def Dev.dieReset (d : Dev) (k : Nat) (byCommand : Bool) : Dev :=
  let d0 : Dev := { d with fabric := { d.fabric with ctlPll := d.fabric.ctlPll.wr k false } }
  let d1 := d0.updCtl k (fun c => { c with resetOwed := false, lineHard := false, retry := none, bistOk := false })
  if byCommand then d1.causeRecord .die .command k 0 0 0
  else d1.causeRecord .die .twin k 0 0 ((d.twin.lastCause.map TakeCause.num).getD 0)

/-- A single-die restart (R290): every control die that is not OFF is reset and runs its full BIST. -/
def Dev.singleDie (d : Dev) (failed : Nat) : Dev :=
  let other := 1 - failed
  let d1 := (d.setTwin { d.twin with restarting := true }).raise 0x5103 0x5100 .crit (dieCode failed + 8 * (d.ctl other).state.num)
  [failed, other].foldl (fun acc k =>
    if (acc.ctl k).state = .off then acc
    else ((acc.dieReset k (acc.twin.lastCause = some .command && k = failed)).dieTo k .recovering).updCtl k (fun c => { c with restart := true })) d1

/-- What a declaration books (Table 13-9): the counts, the cause, and the start of the Glide and of the wait of R399. -/
def Dev.declareBook (d : Dev) (k : Nat) (cause : TakeCause) : Dev :=
  let op := d.recorder.opTime
  let d1 := d.updCtl k (fun c => { c with
    failCnt := bump 16 c.failCnt, failTimes := op :: c.failTimes.filter (fun x => decide (op < x + 86400)), resetOwed := true, noAuto := false
    recoverAsked := false })
  let t : Twin := { d1.twin with
    failovers := bump 16 d.twin.failovers, lastCause := some cause, lastDie := k, lastFail := d.now, glideStart := some d.time.raw, arbAgree := true
    restoredAt := none, tH := none }
  let p : Power := { d1.power with noActiveSince := some d.time.raw, noActiveExpired := false }
  { d1 with twin := t, power := p }

/-- What stops with the die that is declared: its frame, its packets, its self-test work; the field dies are frozen. -/
def Dev.declareStop (d : Dev) (k : Nat) : Dev := (((((d.dropFrame).abortDie k).freeze).abortSlice).abortRun 0).abortRun 1

/-- The failed die's new state and its event. -/
def Dev.declareFail (d : Dev) (k : Nat) (cause : TakeCause) : Dev :=
  ((d.setTwin { d.twin with lastActive := k }).dieTo k .failed).raise 0x5101 0x5100 .crit (dieCode k + 16 * cause.num + 2 ^ 16 * (d.frame.frameNum % 65536))

/-- The standby takes over, or every die restarts (R281, R290). -/
def Dev.succeed (d : Dev) (k : Nat) : Dev :=
  match (d.ctl (1 - k)).state with
  | .waking => d
  | _ => if d.twin.enabled && d.eligible (1 - k) then d.dieTo (1 - k) .waking else d.singleDie k

/-- Declaration of the active die `k` as failed (R281, R285, R290), at most 10 µs long; none during a last breath (R409). -/
def Dev.declare (d : Dev) (k : Nat) (cause : TakeCause) : Dev :=
  if d.power.lbAt.isSome then d
  else
    let x := d.freeNs 0 10000
    (((((x.2).declareBook k cause).pass x.1).declareStop k).declareFail k cause).succeed k

/-- HEARTBEAT_SEND (R278): the next sequence number and the low half of the newest frame number. -/
def execHeartbeatSend (s : State) : Host.Outcome State Fault Refusal :=
  .next (match s.dev.activeDie with
    | none => s
    | some k =>
      if s.dev.fabric.ctlPll.rd k then s
      else
        let n := s.dev.twin.hbTx + 1
        { s with dev := (s.dev.setTwin { s.dev.twin with hbTx := n }).emit (.heartbeat (w32 (n.toNat + 2 ^ 16 * (s.dev.frame.frameNum % 65536)))) })

/-- HEARTBEAT_RECEIVE (R278): valid when its sequence follows that of the last valid one. -/
def execHeartbeatReceive (seq : BitVec 32) (s : State) : Host.Outcome State Fault Refusal :=
  .next (match s.dev.activeDie with
    | none => s
    | some k =>
      let t := s.dev.twin
      if !(s.dev.fabric.ctlLink.rd k).up ∨ seq.toNat % 65536 ≠ (t.hbSeq.toNat + 1) % 65536 then s
      else { s with dev := s.dev.setTwin { t with hbSeq := w32 (seq.toNat % 65536), hbAt := s.dev.time.raw, hbLateSent := false, arbAgree := true } })

/-- HEARTBEAT_LATE (R278): 600 µs without a valid heartbeat; time is brought forward. -/
def execHeartbeatLate (s : State) : Host.Outcome State Fault Refusal :=
  .next (
    let t := s.dev.twin
    if s.dev.activeDie.isNone ∨ t.hbLateSent then s
    else
      let d := s.dev.toRaw (t.hbAt + 600000)
      let n := bump 16 t.hbLate
      { s with dev := ((d.setTwin { d.twin with hbLate := n, hbLateSent := true }).satAt 0x51 16 n).raise 0x5109 0x5100 .info ((t.hbSeq.toNat + 1) % 65536) })

/-- HEARTBEAT_TIMEOUT (R278): 1,750 µs without a valid heartbeat, both halves agreeing; time is brought forward. -/
def execHeartbeatTimeout (s : State) : Host.Outcome State Fault Refusal :=
  .next (match s.dev.activeDie with
    | none => s
    | some k => { s with dev := (s.dev.toRaw (s.dev.twin.hbAt + 1750000)).declare k .heartbeat })

/-- A planned swap ends without a swap (R296): TWIN_SWAP_ABORT names the die that failed; a die that had handed over goes on. -/
def Dev.swapAbort (d : Dev) (failed : Nat) : Dev :=
  let back := d.twin.tH.isSome
  let d1 := (d.setTwin { d.twin with swapPending := false, swapFrame := 0, swapStopped := false, tH := none, restoredAt := none }).raise 0x5106 0x5100 .warn (dieCode failed)
  if back then
    let d2 := d1.dieTo (1 - failed) .active
    { d2 with power := { d2.power with noActiveSince := none, noActiveExpired := false }, twin := { d2.twin with hbAt := d2.time.raw, hbLateSent := false } }
  else d1

/-- A hard fault of control die `k` (R279, R287, R293, R296): an active die is declared, a waking or recovering one fails. -/
def Dev.hardFault (d : Dev) (k : Nat) (cause : TakeCause) : Dev :=
  let d1 := d.updCtl k (fun c => { c with lineHard := true })
  match (d1.ctl k).state with
  | .active => d1.declare k cause
  | .waking =>
    let active := d1.activeDie.isSome || d1.twin.tH.isSome
    let d2 := (d1.updCtl k (fun c => { c with resetOwed := active })).dieTo k .failed
    if d1.power.lbAt.isSome then d2
    else if active then d2.swapAbort k
    else (d2.setTwin { d2.twin with restoredAt := none }).singleDie k
  | .recovering => (d1.updCtl k (fun c => { c with noAuto := true, restart := false })).dieTo k .failed
  | _ => d1

/-- HARD_FAULT_LINE (R279). -/
def execHardFaultLine (die : Fin 2) (cause : TakeCause) (s : State) : Host.Outcome State Fault Refusal :=
  .next (if s.dev.hubUp then { s with dev := s.dev.hardFault die.val cause } else s)

/-- ARBITER_DISAGREEMENT (R280): no fail-over is made while it lasts; which half declared is free. -/
def execArbiterDisagreement (s : State) : Host.Outcome State Fault Refusal :=
  .next (
    let d := s.dev
    if !d.hubUp ∨ !d.twin.arbAgree then s
    else
      let (half, d1) := d.freeN 2
      let n := bump 16 d1.twin.arbMismatch
      { s with dev := ((d1.setTwin { d1.twin with arbAgree := false, arbMismatch := n }).satAt 0x51 16 n).raise 0x5108 0x5100 .crit half })

/-! The Glide's end (R285, R286, R289) and the swap's (R295). -/

/-- STATE_RESTORE_DONE (Table 13-4): 9 ms to 36 ms after detection, in the gap of a swap soon enough for T_R; time is brought forward. -/
def execStateRestoreDone (s : State) : Host.Outcome State Fault Refusal :=
  .next (
    let d := s.dev
    if d.wakingDie.isNone ∨ d.activeDie.isSome ∨ d.twin.restoredAt.isSome then s
    else
      let d1 := match d.twin.tH with
        | some t => let (ns, x) := d.freeNs 0 8400000; x.toCt (t + ns)
        | none => let (ns, x) := d.freeNs 9000000 36000000; x.toRaw ((d.twin.glideStart.getD d.time.raw) + ns)
      { s with dev := d1.setTwin { d1.twin with restoredAt := some d1.time.raw } })

/-- The release frame ends the freeze on every field die without changing any applied output (R286). -/
def Dev.releaseField (d : Dev) : Dev := (List.range 4).foldl (fun acc k => acc.setFld k { acc.fld k with frozen := false }) d

/-- COORD_DOWN for the abandoned frame, with COMMIT and DEADLINE and no entries (R289); its round is free. -/
def Dev.tellBelow (d : Dev) : Dev :=
  match d.twin.lostFrame with
  | none => d
  | some n =>
    let (r, d1) := d.freeN 65536
    let f := d1.coord.frame
    let d2 := (d1.setCoord { d1.coord with frame := n }).sendDown [] r true true d1.now
    (d2.setCoord { d2.coord with frame := f }).setTwin { d2.twin with lostFrame := none }

/-- The waking die becomes ACTIVE: its heartbeats and refreshes begin. -/
def Dev.becomeActive (d : Dev) (k : Nat) : Dev :=
  let d1 := d.dieTo k .active
  { d1 with
    twin := { d1.twin with lastActive := k, hbTx := 0, hbSeq := 0, hbAt := d1.time.raw, hbLateSent := false, restoredAt := none, restarting := false }
    power := { d1.power with lastActiveReg := decide (k = 1), noActiveSince := none, noActiveExpired := false }
    field := { d1.field with refreshNext := d1.time.raw } }

/-- A stop whose last frame was abandoned is complete. -/
def Dev.stopIfPast (d : Dev) : Dev :=
  match d.frame.state, d.frame.stopFrame with
  | .stopping, some n =>
    if d.frame.frameNum < n then d
    else ((d.setFrame { d.frame with state := .stopped, stopFrame := none }).raiseCtl 0x03 d.ctlSource .info n).abortSnap
  | _, _ => d

/-- T_R of a fail-over or a single-die restart. -/
def Dev.takeOver (d : Dev) (k : Nat) : Dev :=
  let glide := (d.time.raw - d.twin.glideStart.getD d.time.raw) / 1000
  let d1 := (d.restore).becomeActive k
  let d2 := ((d1.setFrame { d1.frame with resumeAt := d1.now + 10000000 }).stopIfPast).releaseField
  let d3 := (d2.setTwin { d2.twin with
    lastGlideUs := satN 16 glide, maxGlideUs := max d2.twin.maxGlideUs (satN 16 glide), glideStart := none, swapPending := false, swapFrame := 0
    swapStopped := false, tH := none }).raise 0x5102 0x5100 .info (dieCode k + 2 ^ 16 * (glide % 2 ^ 32))
  let d4 := d3.tellBelow
  let o := 1 - k
  if (d4.ctl o).resetOwed then d4.dieReset o (d4.twin.lastCause = some .command) else d4

/-- What T_R of a swap books. -/
def Dev.swapBook (d : Dev) (k gap : Nat) : Dev :=
  let n := bump 16 d.twin.swaps
  let t : Twin := { d.twin with lastGapUs := gap, swaps := n, swapPending := false, swapFrame := 0, swapStopped := false, tH := none }
  ((d.setTwin t).satAt 0x51 16 n).raise 0x5105 0x5100 .info (dieCode k + 2 ^ 16 * gap)

/-- The new die's model is the image in the checkpoint store (R295). -/
def Dev.loadCopy (d : Dev) : Dev :=
  match d.piste.imageCopy with
  | some x => d.loadModel (some x) false
  | none => d

/-- The frame of the swap is assembled at once where its boundary has passed. -/
def Dev.swapFrame (d : Dev) (m : Nat) (stopped : Bool) : Dev :=
  if !stopped && decide (d.frame.frameNum = m) && d.frame.everRun then (d.exportPoints m).beginAssembly m else d

/-- T_R of a planned swap (R295). -/
def Dev.swapOver (d : Dev) (k : Nat) : Dev :=
  let gap := satN 16 ((d.now - d.twin.tH.getD d.now) / 1000)
  ((((((d.restore).becomeActive k).loadCopy).swapBook k gap).releaseField).swapFrame d.twin.swapFrame d.twin.swapStopped)

/-- RELEASE_INSTANT (R286): the first base tick of the 1 ms grid at least 0.5 ms after the end of state restore; time is brought forward. -/
def execReleaseInstant (s : State) : Host.Outcome State Fault Refusal :=
  .next (match s.dev.wakingDie, s.dev.twin.restoredAt with
    | some k, some r =>
      let d := s.dev.toCt (gridAt (s.dev.time.ctAt r + 500000) 1000000 0)
      { s with dev := if d.twin.tH.isSome then d.swapOver k else d.takeOver k }
    | _, _ => s)

/-! Recovery (R291 to R293, R299). -/

/-- RECOVERY_START (R291, R293): a FAILED die with a good rail, cool enough, whose BIST is admitted at LEVEL 0 or 1. -/
def execRecoveryStart (die : Fin 2) (s : State) : Host.Outcome State Fault Refusal :=
  .next (
    let d := s.dev
    let k := die.val
    let c := d.ctl k
    let auto := d.twin.rejoinAuto && decide (c.fails24h d.recorder.opTime < d.twin.maxRecover) && !c.noAuto && !c.resetOwed
    if !d.hubUp ∨ !d.ctlUp ∨ c.state ≠ .failed ∨ !c.railOk ∨ !(auto || c.recoverAsked) ∨ !d.bistRoom 1 1 ∨
        !decide (d.slalom.temps.rd (1 + k) < (d.slalom.cfg.thermStart : Int) - 10) then s
    else
      let d1 := if c.recoverAsked ∨ c.resetOwed then d.dieReset k c.recoverAsked else d
      { s with dev := (d1.updCtl k (fun c => { c with noAuto := false, recoverAsked := false, lineHard := false, bistOk := false })).dieTo k .recovering })

/-- Every slice age of a die is 0 (R292). -/
def CtlDie.freshSlices (c : CtlDie) (op : Nat) : CtlDie :=
  { c with slices := (List.range 320).foldl (fun (t : Tbl SliceResult) n => t.upd n (fun r => { r with lastOp := some op })) c.slices, sliceAt := none, retry := none }

/-- RECOVERY_BIST_DONE (R290, R292, R293): a pass leads to COLD, or in a single-die restart on to the restore path; which block failed first is
free. -/
def execRecoveryBistDone (die : Fin 2) (pass : Bool) (s : State) : Host.Outcome State Fault Refusal :=
  .next (
    let d := s.dev
    let k := die.val
    if (d.ctl k).state ≠ .recovering then s
    else if pass then
      let d1 := d.updCtl k (fun c => { (c.freshSlices d.recorder.opTime) with bistOk := true, restart := false })
      let d2 := d1.dieTo k .cold
      { s with dev := if d2.twin.restarting && d2.wakingDie.isNone && d2.activeDie.isNone then d2.dieTo k .waking else d2 }
    else
      let (n, d1) := d.freeN 320
      { s with dev := ((d1.updCtl k (fun c => { c with noAuto := true, restart := false })).dieTo k .failed).sliceFail k n false })

/-- COLD_SYNC_COMPLETE (Table 13-2, R284, R292): a COLD standby whose start-up or recovery BIST has passed has verified the image, the store and
one complete CHECKPOINT. -/
def execColdSyncComplete (die : Fin 2) (s : State) : Host.Outcome State Fault Refusal :=
  .next (
    let d := s.dev
    let k := die.val
    if !d.ctlUp ∨ (d.ctl k).state ≠ .cold ∨ (d.ctl k).retry.isSome ∨ d.twin.bank.isNone then s
    else { s with dev := (d.updCtl k (fun c => { c with bistOk := true })).dieTo k .coldSynced })

/-! The planned swap (R294 to R296). -/

/-- The other die than the active one. -/
def Dev.standby (d : Dev) : Option Nat := d.activeDie.map (fun a => 1 - a)

/-- SWAP (R294). -/
def opSwap : Op where
  code := 0x0C11
  sel p := !bit (p.par 1) 0
  target := onUnit 0x51
  params := 2
  body s q :=
    let d := s.dev
    let m := (q.par 0).toNat
    let stopped := decide (d.frame.state = .stopped)
    let ok := (d.standby.map (fun k => d.eligible k)).getD false
    guarded s [encIf (q.resv 1 1) 1, rangeIf (!stopped && decide (m ≠ 0 ∧ m < d.frame.frameNum + 2)) 0, conflictIf (!d.twin.enabled) 0,
        (d.twin.swapPending || (d.test.state = .running && decide (d.test.die < 2)), stBusy, 0), stateIf (!ok)]
      { st := { s with dev := d.setTwin { d.twin with
          swapPending := true, swapStopped := stopped, swapAt := d.now + 50000000
          swapFrame := if stopped then m else if m = 0 then d.frame.frameNum + 2 else m } }, status := stOkPending }

/-- SWAP. -/
def execSwap (p : Packet) (s : State) : Host.Outcome State Fault Refusal := .next (packetRow opSwap p s)

/-- SWAP with CANCEL (R294). -/
def opSwapCancel : Op where
  code := 0x0C11
  sel p := bit (p.par 1) 0
  target := onUnit 0x51
  params := 2
  body s q :=
    let t := s.dev.twin
    guarded s [encIf (q.resv 1 1) 1, stateIf (t.swapPending && s.dev.wakingDie.isSome)]
      (if t.swapPending then .ok s (s.dev.setTwin { t with swapPending := false, swapFrame := 0, swapStopped := false }) else { st := s, status := stOkNoChange })

/-- SWAP with CANCEL. -/
def execSwapCancel (p : Packet) (s : State) : Host.Outcome State Fault Refusal := .next (packetRow opSwapCancel p s)

/-- The instant a pending swap is for: T_M, or the requested one while frames are STOPPED (R295). -/
def Dev.swapInstant (d : Dev) : Nat := if d.twin.swapStopped then d.twin.swapAt else d.frame.tOf d.twin.swapFrame

/-- SWAP_PREPARE (R295): the standby enters WAKING 40 ms before the swap; one no longer eligible ends it. Time is brought forward. -/
def execSwapPrepare (s : State) : Host.Outcome State Fault Refusal :=
  .next (match s.dev.standby with
    | none => s
    | some k =>
      if !s.dev.twin.swapPending ∨ s.dev.wakingDie.isSome then s
      else
        let d := (s.dev.toCt (s.dev.swapInstant - 40000000)).abortSlice
        { s with dev := if d.eligible k then d.dieTo k .waking else d.swapAbort k })

/-- SWAP_HANDOVER (R295): at T_H, the first tick of the 1 ms grid at or after T_M and the end of CHECKPOINT of frame M−1, the old die writes a final
stream record and stops; time is brought forward. -/
def execSwapHandover (s : State) : Host.Outcome State Fault Refusal :=
  .next (match s.dev.activeDie with
    | none => s
    | some a =>
      let d := s.dev
      if !d.twin.swapPending ∨ d.wakingDie.isNone ∨ (!d.twin.swapStopped && decide (d.frame.checkpointed + 1 < d.twin.swapFrame)) then s
      else
        let t := gridAt (max d.now d.swapInstant) 1000000 0
        let d1 := ((Dev.applyUpTo (t / 10000) 4096 d).toCt t).stream t
        let d2 := (d1.abortDie a).dieTo a .coldSynced
        { s with dev := { d2 with twin := { d2.twin with tH := some t, restoredAt := none }, power := { d2.power with noActiveSince := some d2.time.raw, noActiveExpired := false } } })

/-! Commands (Table 13-7). -/

/-- Greatest slice age of a die in seconds, all ones while a slice has never run (Table 13-9). -/
def Dev.oldestAge (d : Dev) (k : Nat) : Nat :=
  (List.range 320).foldl (fun a n => max a (((d.ctl k).slices.rd n).words k n d.recorder.opTime).tail.head!.toNat) 0

/-- Word of the twin page at offset `o` (Table 13-9). -/
def Dev.twinWord (d : Dev) (o : Nat) : Word :=
  let t := d.twin
  let act := (d.activeDie.map dieCode).getD 0
  if o = 0 then
    pack [(act, 0), ((d.ctl 0).state.num, 2), ((d.ctl 1).state.num, 5), (b1 t.enabled, 8), (b1 t.swapPending, 9), (b1 t.arbAgree, 10)]
  else if o = 0x04 then pack [(t.failovers, 0), (t.swaps, 16)]
  else if o = 0x08 then pack [(t.lastGlideUs, 0), (t.maxGlideUs, 16)]
  else if o = 0x0C then pack [((t.lastCause.map TakeCause.num).getD 0, 0), (if t.lastCause.isSome then dieCode t.lastDie else 0, 4)]
  else if o = 0x10 then w32 t.lastFail
  else if o = 0x14 then pack [(eraOf t.lastFail, 0), (t.lastGapUs, 16)]
  else if o = 0x18 then pack [(d.streamAgeUs, 0), (t.ckptFrame % 65536, 16)]
  else if o = 0x1C then pack [(t.hbLate, 0), (t.arbMismatch, 16)]
  else if o = 0x20 ∨ o = 0x28 then
    let c := d.ctl ((o - 0x20) / 8)
    pack [(c.failCnt, 0), (min 15 (c.fails24h d.recorder.opTime), 16)]
  else if o = 0x24 ∨ o = 0x2C then w32 (d.oldestAge ((o - 0x24) / 8))
  else if o = 0x30 then w32 (if t.swapPending then t.swapFrame else 0)
  else 0

/-- TWIN_STATUS (R276). -/
def opTwinStatus : Op where
  code := 0x0C10
  target := onUnit 0x51
  body s _ := .read s ((List.range 13).map (fun i => s.dev.twinWord (4 * i)))

/-- TWIN_STATUS. -/
def execTwinStatus (p : Packet) (s : State) : Host.Outcome State Fault Refusal := .next (packetRow opTwinStatus p s)

/-- TWIN_CONFIG with OP CONFIG (R300); a reserved OP is refused here. -/
def opTwinConfig : Op where
  code := 0x0C12
  sel p := decide (fld (p.par 0) 1 0 ≠ 1)
  target := onUnit 0x51
  classN := true
  params := 1
  body s q :=
    let d := s.dev
    let en := q.b 0 2
    let short := (List.range 4).any (fun k => decide ((d.fld k).safeCfg.timeoutMs < 60))
    let t : Twin := { d.twin with enabled := en, rejoinAuto := q.b 0 3, maxRecover := q.f 0 7 4, coverH := q.f 0 15 8 }
    guarded s [encIf (q.resv 0 0xFFFF || decide (q.f 0 1 0 ≠ 0)) 0, rangeIf (decide (q.f 0 7 4 = 0) || outside (q.f 0 15 8) 1 168) 0,
        conflictIf (en && (decide (d.host.revCtlA ≠ d.host.revCtlB) || short)) 0,
        (!en && (d.twin.swapPending || d.wakingDie.isSome || d.activeDie.isNone), stBusy, 0)]
      (let d1 := d.setTwin t
       match d1.standby with
       | some k =>
         if !en then .ok s ((if (d1.twin.slice.map (fun x => x.1)) = some k then d1.abortSlice else d1).dieTo k .off)
         else if (d1.ctl k).state = .off ∧ (d1.ctl k).railOk then .ok s (d1.dieTo k .cold)
         else .ok s d1
       | none => .ok s d1)

/-- TWIN_CONFIG with OP CONFIG. -/
def execTwinConfig (p : Packet) (s : State) : Host.Outcome State Fault Refusal := .next (packetRow opTwinConfig p s)

/-- TWIN_CONFIG with OP RECOVER (R291, R293, R300). -/
def opTwinRecover : Op where
  code := 0x0C12
  sel p := decide (fld (p.par 0) 1 0 = 1)
  target := onUnit 0x51
  params := 1
  body s q :=
    let k := q.f 0 16 16
    guarded s [encIf (q.resv 0 0x1FFFF) 0, stateIf (decide ((s.dev.ctl k).state ≠ .failed))]
      (.ok s (s.dev.updCtl k (fun c => { c with recoverAsked := true })))

/-- TWIN_CONFIG with OP RECOVER. -/
def execTwinRecover (p : Packet) (s : State) : Host.Outcome State Fault Refusal := .next (packetRow opTwinRecover p s)

end Sys2Proof.Machine
end

