-- ==== Sys2Proof/Machine/Reset.lean ====
section
/-! DEFINITION. Resets and start-up (R362 to R364, R367, R377, R396 to R406, R425, R438): DEVICE reset and POR, what the hub does as it leaves reset,
and the first die to become ACTIVE. -/

namespace Sys2Proof.Machine

open Sys2Proof.Bits Sys2Proof.Crypto

/-- Changes the power unit. -/
def Dev.setPwr (d : Dev) (p : Power) : Dev := { d with power := p }

/-! Zeroise (R377). -/

/-- Slots 1 to 63 become EMPTY with cause ZEROISED, and the root and the latched source are gone. -/
def KeyStore.zeroised (k : KeyStore) (source : Nat) : KeyStore :=
  { k with
    root := none, rootFp := 0, cause := BitVec.ofNat 3 source, pend := 0, pendInput := 0, cnt := bump 16 k.cnt
    slots := (List.range 63).foldl (fun t i => t.wr (i + 1) ((t.rd (i + 1)).emptied .zeroised)) k.slots }

/-- Every encrypted Jalow link goes down; its port retrains. -/
def Dev.dropEncrypted (d : Dev) : Dev :=
  (List.range 4).foldl (fun acc p => if (acc.jl p).encActive then acc.jlDown p .training none else acc) d

/-- What the hub does about a zeroise with main power present (R377): the source is recorded, the keys and the encrypted links go, KEY_ZEROISE,
a new chain, a new root and the record of the reset kind. -/
def Dev.zeroise (d : Dev) (source input : Nat) (late : Bool) : Dev :=
  let before : Option (List Byte) := if d.recorder.keyOk then some [] else none
  let d1 : Dev := { d with keys := d.keys.zeroised source }
  let d2 := (((d1.satAt 0x42 16 d1.keys.cnt).dropEncrypted).raise 0x4201 0x4200 .crit (source + 256 * (if source = 1 then input else 0) + 2 ^ 63 * b1 late)).chainChange before false
  (d2.genRoot).causeRecord .tamper .tamper 0 0 0 source

/-- TAMPER_ZEROISE (R376, R377): the latched source, else the one that acts now; without main power the source only waits. -/
def execTamperZeroise (source : BitVec 3) (s : State) : Host.Outcome State Fault Refusal :=
  .next (
    let d := s.dev
    let k := d.keys
    let src := if k.pend = 0 then source.toNat else k.pend.toNat
    let input := if k.pend = 0 then 0 else k.pendInput
    { s with dev := if d.hubUp then d.zeroise src input false else d.zeroiseCore src input })

/-! What a loss of main power does to the recorder (R363, R367). -/

/-- The newest record of the regions, by its distance from `hd`, and whether it is pinned. -/
def Recorder.newest (r : Recorder) (hd : BitVec 32) : Option (Record × Bool) :=
  match r.pinned.getLast?, r.ring.head? with
  | some p, some g => some (if (hd - p.seq).toNat < (hd - g.seq).toNat then (p, true) else (g, false))
  | some p, none => some (p, true)
  | none, some g => some (g, false)
  | none, none => none

/-- The newest record did not reach the eMRAM. -/
def Recorder.pop (r : Recorder) : Recorder :=
  match r.newest r.headSeq with
  | none => { r with head := none, headPinned := false, ever := false, headSaved := 0, prevMac := [] }
  | some (x, pin) =>
    let r1 : Recorder := { r with pinned := if pin then r.pinned.dropLast else r.pinned, ring := if pin then r.ring else r.ring.drop 1 }
    let prev := if x.code = 0x4102 then [] else ((r1.newest x.seq).map (fun y => y.1.mac)).getD []
    { r1 with head := some x, headPinned := pin, headSaved := x.rep, prevMac := prev }

/-- The `n` newest records did not reach the eMRAM. -/
def Recorder.popN : Nat → Recorder → Recorder
  | 0, r => r
  | n + 1, r => Recorder.popN n r.pop

/-- The merges into the newest record since its last write are gone. -/
def Dev.unmerge (d : Dev) : Dev :=
  match d.recorder.head with
  | none => d
  | some h =>
    if h.rep = d.recorder.headSaved then d
    else
      let b := { h with rep := d.recorder.headSaved }
      { d with recorder := { d.recorder with head := some { b with mac := chainMac d.chainKey b d.recorder.prevMac } } }

/-- A loss of main power without a last breath (R367): of the records of the last 100 µs those that did not reach the eMRAM, a free number of the
newest, are gone, and the merges since the last write. -/
def Dev.powerLoss (d : Dev) : Dev :=
  let fresh := (d.recorder.recent.filter (fun t => decide (d.time.raw < t + 100000))).length
  let (n, d1) := d.freeN (fresh + 1)
  if n = 0 then d1.unmerge else { d1 with recorder := d1.recorder.popN n }

/-- Operating time and POWER_CYCLES as a start-up from POR restores them (R362, R363): the larger of the saved value and the newest record's. -/
def Recorder.restoreTime (r : Recorder) : Recorder :=
  let h := r.head.getD {}
  let t := max (r.savedOp * 256 + r.savedSub) (h.opTime * 256 + h.subSec)
  { r with opTime := t / 256, opSub := t % 256, opNs := 0, cycles := max r.savedCycles h.cycles, recent := [] }

/-! DEVICE reset (R402, R438). -/

/-- Every accepted packet that has not completed completes with ST_ABORTED. -/
def Dev.abortPackets (d : Dev) : Dev :=
  (d.host.queue ++ (d.slalom.jrnWait.filter (fun w => w.auth)).map (fun w => w.pkt)).foldl (fun acc q => acc.finish q stAborted 0 []) d

/-- The OFF order: every armed field die turns every output off. -/
def Dev.offOrder (d : Dev) : Dev :=
  (List.range 4).foldl (fun acc k =>
    if acc.fldRuns k && acc.fldUp k && decide ((acc.fld k).outState ≠ .disarmed) then Dev.clampDrain k 24 (acc.allOff k) else acc) d

/-- What a hub that still works does first: replies and the OFF order, up to 2 ms; then the field dies are reset. -/
def Dev.orderedStop (d : Dev) : Dev :=
  let x := (d.abortPackets).offOrder.freeNs 0 2000000
  ((x.2).pass x.1).clearF

/-- The hub and both control dies are reset. -/
def Dev.intoReset (d : Dev) (cause : ResetCauseCode) (detail : Nat) (cold : Bool) : Dev :=
  let d1 := (d.clearL).clearD
  d1.setPwr { d1.power with phase := .inReset, pendKind := some (.device, cause, BitVec.ofNat 32 detail), otherKind := none, resetCold := cold }

/-- DEVICE reset. During a POR it is absorbed (R401), and a last breath runs to its end (R409). -/
def Dev.deviceReset (d : Dev) (cause : ResetCauseCode) (detail : Nat) (ordered cold : Bool) : Dev :=
  if d.power.lbAt.isSome then d
  else if d.hubUp then (if ordered then d.orderedStop else d).intoReset cause detail cold
  else
    match d.power.pendKind with
    | some (.por, _, _) => d.setPwr { d.power with otherKind := some .device }
    | _ => d

/-- A state with this device: once the hub is in reset its captured pages are gone. -/
def State.after (s : State) (d : Dev) : State :=
  if d.hubUp then { s with dev := d } else { s with dev := d, frameBank := {}, reqBank := {} }

/-! POR (R400). -/

/-- A field die whose raw instants no longer mean anything, RAW having started again. -/
def FieldDie.rawGone (f : FieldDie) : FieldDie :=
  { f with refreshRaw := none, refreshSent := none, stageAt := 0, eWin := [], lastClampStart := none, tags := [] }

/-- The rails are off and the sequencer stands before its first step, with the table in force from now on (R393, R394). -/
def Power.restart (p : Power) (cause : ResetCauseCode) (detail : Nat) (other : Option ResetKind) : Power :=
  { p with
    phase := .sequencing, railEn := 0, railPg := 0, stepNext := 0, attempts := 0, table := p.tableB, keep := false, wakeMask := 0
    pendKind := some (.por, cause, BitVec.ofNat 32 detail), otherKind := other }

/-- POR: classes K, D and L of both dies return to default, and F of the dies whose feeds were gone (`fed` false); the others hold their
Snowplough until their FIELD reset at start-up. `saved` says that the power-down was an orderly one. -/
def Dev.por (d : Dev) (cause : ResetCauseCode) (detail : Nat) (saved fed : Bool) : Dev :=
  let other := if d.power.phase = .inReset then some .device else if d.power.phase = .sequencing then d.power.otherKind else none
  let d0 := if saved ∨ d.power.phase = .poweredOff then d else d.powerLoss
  let d1 := ((d0.clearL).clearD).clearK
  let d2 : Dev := { d1 with
    recorder := d1.recorder.restoreTime, field := { d1.field with die := d1.field.die.mapD FieldDie.rawGone }, power := d1.power.restart cause detail other }
  if fed then d2 else d2.clearF

/-- POWER_ON_RESET (R400): a first or repeated power-up, both hub rails low, a rail lost, the end of a last breath or a wake from KEEP. -/
def execPowerOnReset (cause : ResetCauseCode) (s : State) : Host.Outcome State Fault Refusal :=
  .next (
    let d := s.dev
    let p := d.power
    match cause with
    | .powerUp => s.after (d.por .powerUp 0 false false)
    | .hubCoreUv => if p.lbAt.isSome ∨ p.saveOn ∨ !p.on then s else s.after (d.por .hubCoreUv 0 false true)
    | .railPg =>
      if p.lbAt.isSome ∨ !p.on then s
      else
        let x := d.freeN 6
        s.after ((x.2).por .railPg x.1 false true)
    | .lastBreath => if p.lbAt.isSome ∨ (p.phase = .poweredOff ∧ p.keep = false) then s.after (d.por .lastBreath 0 p.lbDone false) else s
    | .keepWake => if p.phase = .poweredOff ∧ p.keep = true then s.after (d.por .keepWake 0 true true) else s
    | _ => s)

/-! Firmware (R398, Table 19-6). -/

/-- VERSION of the maker's image (Table 02-29). -/
def makerVersion : Nat := 0x030200

/-- The VERSION of a slot's image where it verifies: its header, the SHA-256 digest of its body and the vendor tag. -/
def Power.image (p : Power) (hubRev slot : Nat) : Option Nat :=
  let f := p.fw.rd slot
  if f.factory then some makerVersion
  else
    let w (i : Nat) : Word := f.words.rd i
    let n := Sys2Proof.Bits.fld (w 2) 19 0
    let head := bytesAll (f.words.rdAll 0 16)
    if Sys2Proof.Bits.fld (w 0) 15 0 ≠ 0x96F1 ∨ Sys2Proof.Bits.fld (w 0) 31 16 ≠ 1 ∨ hubRev < Sys2Proof.Bits.fld (w 1) 31 24 ∨ outside n 1 1048544 = true then none
    else if sha256 (bytesAll (f.words.rdAll 32 n)) ≠ bytesAll (f.words.rdAll 8 8) then none
    else if hmac p.fwKey head ≠ bytesAll (f.words.rdAll 16 8) then none
    else some (Sys2Proof.Bits.fld (w 1) 23 0)

/-- The mode that BOOT_MODE selects (R398). -/
def bootOf (pins : BitVec 2) : BootMode :=
  match pins.toNat with
  | 0 => .normal | 2 => .coldStart | _ => .recovery

/-- What the hub runs after verifying its firmware. -/
structure BootPick where
  /-- The start-up's mode. -/
  mode : BootMode
  /-- The slot whose image runs. -/
  slot : Bool
  /-- Its VERSION. -/
  version : Nat
  /-- The other slot than the preferred one runs. -/
  fallback : Bool

/-- FIRMWARE_VERIFY (R398): the preferred slot, else the other one, else RECOVERY. -/
def Dev.bootPick (d : Dev) : BootPick :=
  let p := d.power
  let rev := d.host.revHub.toNat
  let mode := bootOf p.bootPins
  match p.image rev (b1 p.prefSlot) with
  | some v => { mode := mode, slot := p.prefSlot, version := v, fallback := false }
  | none => match p.image rev (1 - b1 p.prefSlot) with
    | some v => { mode := mode, slot := !p.prefSlot, version := v, fallback := true }
    | none => { mode := .recovery, slot := p.prefSlot, version := p.fwVersion, fallback := false }

/-- The start-up is warm (R397). -/
def Dev.warmStart (d : Dev) (b : BootPick) (kind : ResetKind) : Bool :=
  decide (kind = .device ∧ b.mode = .normal) && !d.power.resetCold && decide (b.slot = d.power.runSlot) && d.twin.bank.isSome

/-- The records that open the start-up (R362, R400, R401): the count of power cycles, a BACKUP LOSS that is owed, the reset's cause. -/
def Dev.openRecord (d : Dev) (b : BootPick) (warm : Bool) : Dev :=
  let p := d.power
  match p.pendKind with
  | none => d
  | some (kind, cause, detail) =>
    let isPor := decide (kind = .por)
    let d1 : Dev := if isPor then { d with recorder := { d.recorder with cycles := satN 24 (d.recorder.cycles + 1) } } else d
    let d2 := if p.backupRec then d1.causeRecord .backupLoss .backup 0 0 0 0 else d1
    let flags := b1 warm + 2 * b1 (isPor && p.lbDone) + 4 * b1 b.fallback
    let d3 := d2.causeRecord kind cause 0 flags ((p.otherKind.map ResetKind.num).getD 0) detail.toNat
    d3.setPwr { d3.power with pendKind := none, otherKind := none, backupRec := false, lbDone := if isPor then false else p.lbDone, resetCold := false }

/-- The firmware picked runs. -/
def Dev.runFirmware (d : Dev) (b : BootPick) (warm : Bool) : Dev :=
  d.setPwr { d.power with boot := b.mode, runSlot := b.slot, fwVersion := b.version, fallback := b.fallback, cold := !warm, tableB := d.power.tableN }

/-- SESSION slots become EXPIRED (R378), with KEY_EXPIRED once. -/
def Dev.expireSessions (d : Dev) : Dev :=
  let l := (List.range 64).filter (fun i => decide ((d.keys.slots.rd i).lifetime = 2 ∧ ((d.keys.slots.rd i).state = .valid ∨ (d.keys.slots.rd i).state = .exhausted)))
  (l.foldl (fun acc i => acc.setKeySlot i { acc.keys.slots.rd i with state := .expired, key := [] }) d).raiseIf (decide (l ≠ [])) 0x4205 0x4200 .info (maskOf l)

/-- What was held for the start-up is raised (R342, R394, R398). -/
def Dev.raiseHeld (d : Dev) (b : BootPick) : Dev :=
  let bad := Sys2Proof.Bits.fld ((d.power.fw.rd (b1 d.power.prefSlot)).words.rd 1) 23 0
  let d1 := ((d.raiseIf b.fallback 0x5008 0x5000 .crit (b1 b.slot + 256 * bad)).raisePending).expireSessions
  let d2 := d1.power.railPend.foldl (fun acc v =>
    (acc.setPwr { acc.power with railFailCnt := bump 16 acc.power.railFailCnt }).raise 0x5004 0x5000 .crit (v.toNat + 2 ^ 63)) d1
  let d3 := d2.power.alertPend.foldl (fun acc v => acc.raise 0x5007 0x5000 .warn (v.toNat + 2 ^ 63)) d2
  d3.setPwr { d3.power with railPend := [], alertPend := [] }

/-- A zeroise that happened without main power completes, one by backup loss recognised by INVALID and a missing root (R377); a missing root is
generated (R374). -/
def Dev.startKeys (d : Dev) : Dev :=
  let k := d.keys
  if k.pend ≠ 0 then d.zeroise k.pend.toNat k.pendInput true
  else if k.root.isNone && d.backup.invalid then d.zeroise 5 0 true
  else d.genRoot

/-- The roles that CAN controller `k` starts in (R354, R356). -/
def Dev.canStart (d : Dev) (k : Nat) : Dev :=
  let q := d.canAt k
  if q.tcfg.role = 1 then d.setCan k { q with pendTime := some .mastering } else if q.tcfg.role = 2 then d.canTime k .following else d

/-- PTP, CAN and Jalow start with their settings of class N. -/
def Dev.startPorts (d : Dev) : Dev :=
  let d1 := (List.range 3).foldl (fun acc p => if (acc.time.port.rd p).cfg.enable then acc.ptpRestart p else acc) d
  let d2 := (List.range 3).foldl (fun acc k => acc.canStart k) d1
  (List.range 4).foldl (fun acc p => if (acc.jl p).cfg.role = .off then acc else acc.jlRetrain p) d2

/-- The rail that carries function `f` of Table 19-2 in the table in force. -/
def RailTable.railOf (t : RailTable) (f : Nat) : Option Nat := (List.range 6).find? (fun r => ((t.rails.getD r {}).func.getLsbD f))

/-- The rail that carries function `f` is good. -/
def Power.good (p : Power) (f : Nat) : Bool := ((p.table.railOf f).map (fun r => p.railPg.getLsbD r)).getD false

/-- Step of the rail that carries function `f`. -/
def Power.stepOf (p : Power) (f : Nat) : Nat := ((p.table.railOf f).map (fun r => (p.table.rails.getD r {}).stepNo)).getD 0

/-- The hub mux takes the first hub rail to reach 0.82 V (R391): that of the earlier step; which one within a step is free. -/
def Dev.pickHubRail (d : Dev) : Dev :=
  let p := d.power
  if !p.good 3 then d.setPwr { p with hubSelB := false }
  else if !p.good 2 then d.setPwr { p with hubSelB := true }
  else if p.stepOf 2 < p.stepOf 3 then d.setPwr { p with hubSelB := false }
  else if p.stepOf 3 < p.stepOf 2 then d.setPwr { p with hubSelB := true }
  else
    let x := d.freeB
    (x.2).setPwr { p with hubSelB := x.1 }

/-- The control dies whose rails are good; the die not brought up first is COLD where the twin operates (R65, R397, Table 13-2). -/
def Dev.startDies (d : Dev) : Dev :=
  let d1 := (List.range 2).foldl (fun acc k => acc.updCtl k (fun c => { c with railOk := acc.power.good (5 + k) })) d
  let first := b1 d1.power.lastActiveReg
  let other := 1 - first
  if d1.power.boot = .recovery ∨ !d1.twin.enabled ∨ d1.host.revCtlA ≠ d1.host.revCtlB ∨ !(d1.ctl other).railOk ∨ !(d1.ctl first).railOk then d1
  else d1.dieTo other .cold

/-- Field dies that still run are turned off by their FIELD reset (R400, R402). -/
def Dev.startField (d : Dev) : Dev :=
  (List.range 4).foldl (fun acc k => if (acc.fld k).run = .run ∨ (acc.fld k).run = .resetWait then Dev.fieldReset (Dev.clampDrain k 24 (acc.allOff k)) k .inReset else acc) d

/-- The hub is out of reset: the clocks and the links run and the wait for an ACTIVE die begins (R399). -/
def Dev.outOfReset (d : Dev) : Dev :=
  { d with power := { d.power with phase := .hubUp, noActiveSince := some d.time.raw, noActiveExpired := false }, fabric := { d.fabric with hubPll := true, ctlPll := [], ctlLink := [], fldLink := [] } }

/-- Time a DEVICE reset still takes, and the firmware's verification (R402, Table 19-3). -/
def Dev.releaseTime (d : Dev) : Dev :=
  let x := if d.power.phase = .inReset then d.freeNs 0 1000000 else (0, d)
  let d1 := ((x.2).pass x.1).outOfReset
  let y := d1.freeNs 51700000 254500000
  (y.2).pass y.1

/-- HUB_RESET_RELEASE (R396): once every rail step is over, RESET_N is high and no temperature holds it, the hub leaves reset. -/
def execHubResetRelease (s : State) : Host.Outcome State Fault Refusal :=
  .next (
    let p := s.dev.power
    if !(p.phase = .sequencing || p.phase = .inReset) || decide (p.stepNext ≠ 6) || !p.resetN || p.thermalHold then s
    else
      let d := (s.dev.releaseTime).pickHubRail
      let b := d.bootPick
      let warm := d.warmStart b ((p.pendKind.map (fun x => x.1)).getD .por)
      { s with dev := (((((((d.openRecord b warm).runFirmware b warm).startField).raiseHeld b).startKeys).startPorts).startDies) })

/-! The first ACTIVE die (R397, R399). -/

/-- The die that the start-up brings up: LAST_ACTIVE, or the other one where that has no rail or has failed (R397). -/
def Dev.startDie (d : Dev) : Option Nat :=
  let first := b1 d.power.lastActiveReg
  if (d.ctl first).railOk && decide ((d.ctl first).state = .off) then some first
  else if (d.ctl (1 - first)).railOk && decide ((d.ctl (1 - first)).state = .off ∨ (d.ctl (1 - first)).state = .cold) then some (1 - first)
  else none

/-- A loop's cold start (R196): it enters START_MODE at its first tick. -/
def LoopSlot.start (l : LoopSlot) (now : Nat) : LoopSlot :=
  { l with
    manOut := l.cfg.manOut, entry := decide (l.cfg.startMode ≠ .off), modeNext := if l.cfg.startMode = .off then none else some l.cfg.startMode
    modeCause := if l.cfg.startMode = .off then 0 else 3, modeAt := if l.cfg.startMode = .off then 0 else now }

/-- Configuration alone is restored, and every loop starts (R196, R397). -/
def Dev.coldStart (d : Dev) : Dev :=
  let d1 := d.clearL
  let t := d1.now
  { d1 with loops := { d1.loops with slot := d1.loops.slot.mapD (fun l => l.start t) } }

/-- A die whose start-up BIST has passed becomes ACTIVE (R397): a warm start restores the checkpoint, and frames resume at the first boundary at least
10 ms later. -/
def Dev.startActive (d : Dev) (k : Nat) : Dev :=
  let d1 := d.updCtl k (fun c => { c with bistOk := true })
  let d2 := if d1.power.cold then (d1.coldStart).becomeActive k
    else
      let w := (d1.restore).becomeActive k
      (w.setFrame { w.frame with resumeAt := w.now + 10000000 }).stopIfPast
  d2.setPwr { d2.power with phase := .running }

/-- ACTIVE_DIE_BIST_DONE (R397, R421); time is brought forward within the bounds of Table 19-3. Which block failed first is free. -/
def execActiveDieBistDone (die : Fin 2) (pass : Bool) (s : State) : Host.Outcome State Fault Refusal :=
  .next (
    let d := s.dev
    let k := die.val
    if !(d.power.phase = .hubUp) || decide (d.power.boot = .recovery) || d.ctlUp || decide (d.startDie ≠ some k) then s
    else
      let x := d.freeNs 891700000 1954500000
      let d1 := (x.2).toRaw (d.power.noActiveSince.getD d.time.raw + x.1)
      { s with dev :=
        if pass then d1.startActive k
        else
          let y := d1.freeN 320
          (((y.2).updCtl k (fun c => { c with noAuto := true })).dieTo k .failed).sliceFail k y.1 false })

/-- A packet that waits for an ACTIVE die (R399). -/
def QPacket.waitsDie (q : QPacket) : Bool := !q.started && (q.pkt.unit = 2 || decide (0x20 ≤ q.pkt.unit ∧ q.pkt.unit ≤ 0x23))

/-- NO_ACTIVE_WAIT_EXPIRY (R399): 2.5 s with no ACTIVE die; time is brought forward. -/
def execNoActiveWaitExpiry (s : State) : Host.Outcome State Fault Refusal :=
  .next (match s.dev.power.noActiveSince with
    | none => s
    | some t =>
      if !s.dev.hubUp || s.dev.ctlUp || s.dev.power.noActiveExpired then s
      else
        let d := s.dev.toRaw (t + 2500000000)
        let d1 := (d.host.queue.filter QPacket.waitsDie).foldl (fun acc q => acc.finish q stWrongState 0 []) d
        { s with dev := d1.setPwr { d1.power with noActiveExpired := true } })

/-! Triggers of a DEVICE reset. -/

/-- RESET_N_LOW (R402, R425): a sequencer that gave up starts again (R394). -/
def execResetNLow (s : State) : Host.Outcome State Fault Refusal :=
  .next (
    let d := s.dev
    if !d.power.resetN then s
    else
      let d1 := d.setPwr { d.power with resetN := false }
      if d1.power.phase = .sequencing ∧ d1.power.stepNext = 7 then { s with dev := d1.setPwr { d1.power with stepNext := 0, attempts := 0 } }
      else s.after (d1.deviceReset .resetPin 0 true false))

/-- RESET_N_RISE (R398, R425): BOOT_MODE is sampled. -/
def execResetNRise (bootMode : BitVec 2) (s : State) : Host.Outcome State Fault Refusal :=
  .next (if s.dev.power.resetN then s else { s with dev := s.dev.setPwr { s.dev.power with resetN := true, bootPins := bootMode } })

/-- HUB_WATCHDOG_EXPIRY (Table 19-4): the hub's watchdog or a lockstep mismatch; the hub can order nothing. -/
def execHubWatchdogExpiry (lockstep : Bool) (s : State) : Host.Outcome State Fault Refusal :=
  .next (if s.dev.hubUp then s.after (s.dev.deviceReset .hubFault (if lockstep then 1 else 2) false false) else s)

/-- DEVICE_RESET (R402, R412): the reply is sent before the reset. -/
def opDeviceReset : Op where
  code := 0x0102
  target := onHub
  params := 2
  body s q := guarded s [encIf (decide (q.par 0 ≠ 0x96160102)) 0, encIf (q.resv 1 1) 1] (.ok s s.dev)
  after q s := s.after (s.dev.deviceReset .command 0 true (q.b 1 0))

/-- DEVICE_RESET. -/
def execDeviceReset (p : Packet) (s : State) : Host.Outcome State Fault Refusal := .next (packetRow opDeviceReset p s)

/-- A standby is reset and recovers (R291, R404). -/
def Dev.resetStandby (d : Dev) (k : Nat) : Dev :=
  let d1 := if d.twin.slice.map (fun x => x.1) = some k then d.abortSlice else d
  (((d1.abortRun k).dieReset k true)).dieTo k .recovering

/-- DIE_RESET (R404). -/
def opDieReset : Op where
  code := 0x0103
  target p := (p.unit = 3 || p.unit = 4) && p.inst = 0 && p.sub = 0
  params := 1
  body s q :=
    let d := s.dev
    let k := q.pkt.unit - 3
    let st := (d.ctl k).state
    let force := q.b 0 0
    guarded s [encIf (q.resv 0 1) 0,
        stateIf (decide (st ≠ .active ∧ st ≠ .cold ∧ st ≠ .coldSynced) || (decide (st = .active) && !force && !(d.twin.enabled && d.eligible (1 - k))))]
      (.ok s (if st = .active then d.declare k .command else d.resetStandby k))

/-- DIE_RESET. -/
def execDieReset (p : Packet) (s : State) : Host.Outcome State Fault Refusal := .next (packetRow opDieReset p s)

/-- FIELD_RESET (R405, R418): not executed during a last breath; of a die under test it ends the run first. -/
def opFieldReset : Op where
  code := 0x0104
  target := onInst 0x10 4
  body s q :=
    let d := s.dev
    let k := q.pkt.inst
    if d.power.lbAt.isSome then { st := s, waits := true }
    else if d.fieldTested k then .ok s (((d.abortRun (2 + k)).fieldReset k .inReset).causeRecord .field .command k 0 0 0)
    else if (d.fld k).run ≠ .run then { st := s, status := stOkNoChange }
    else .ok s (d.orderFieldReset k 7)

/-- FIELD_RESET. -/
def execFieldReset (p : Packet) (s : State) : Host.Outcome State Fault Refusal := .next (packetRow opFieldReset p s)

/-- RESET_CAUSE (R406). -/
def opResetCause : Op where
  code := 0x0105
  target := onHub
  params := 1
  body s q :=
    let l := s.dev.power.causes
    let i := q.f 0 3 0
    let r := l.getD i {}
    guarded s [encIf (q.resv 0 0xF) 0, rangeIf (decide (l.length ≤ i)) 0]
      (.read s [w32 r.data.toNat, w32 (r.data.toNat / 2 ^ 32), r.seq, w32 r.opTime])

/-- RESET_CAUSE. -/
def execResetCause (p : Packet) (s : State) : Host.Outcome State Fault Refusal := .next (packetRow opResetCause p s)

/-- An FW_STAGE write reaches the eMRAM: BEGIN erases the slot first (R411). -/
def Dev.stageWrite (d : Dev) (q : QPacket) : Dev :=
  let i := q.f 0 0 0
  let f := d.power.fw.rd i
  let w : Tbl Word := if q.b 0 1 then [] else f.words
  d.setPwr { d.power with fw := d.power.fw.wr i { factory := f.factory && !q.b 0 1 && decide (q.n ≤ 2), words := w.wrAll (q.f 1 19 0) (q.from' 2) } }

/-- FW_STAGE (R411, R412): the reply follows the write, which EMRAM_WRITE_DONE ends. -/
def opFwStage : Op where
  code := 0x0106
  target := onHub
  params := 2
  body s q :=
    let d := s.dev
    guarded s [encIf (q.resv 0 3) 0, encIf (q.resv 1 0xFFFFF) 1, rangeIf (decide (1048576 < q.f 1 19 0 + (q.n - 2))) 1, stateIf (decide (q.b 0 0 = d.power.runSlot))]
      { st := { s with dev := (d.setPwr { d.power with stageBusy := true }).setSlm (d.slalom.request .firmware) }, later := true }

/-- FW_STAGE. -/
def execFwStage (p : Packet) (s : State) : Host.Outcome State Fault Refusal := .next (packetRow opFwStage p s)

/-- FW_ACTIVATE (R411). -/
def opFwActivate : Op where
  code := 0x0107
  target := onHub
  classN := true
  params := 1
  body s q :=
    let d := s.dev
    let v := d.power.image d.host.revHub.toNat (q.f 0 0 0)
    guarded s [encIf (q.resv 0 3) 0, conflictIf v.isNone 0]
      { st := { s with dev := d.setPwr { d.power with prefSlot := q.b 0 0 } }, words := [w32 (v.getD 0)] }
  after q s := if q.b 0 1 then s.after (s.dev.deviceReset .fwActivate 0 true false) else s

/-- FW_ACTIVATE. -/
def execFwActivate (p : Packet) (s : State) : Host.Outcome State Fault Refusal := .next (packetRow opFwActivate p s)

end Sys2Proof.Machine
end

