-- ==== Sys2Proof/Machine/Links.lean ====
section
/-! DEFINITION. Die links, PLL losses and the return of credits (chapter 01: R14, R15, R17, R18). -/

namespace Sys2Proof.Machine

open Sys2Proof.Bits

/-- A link's number in the events (Table 01-11). -/
def LinkId.code (l : LinkId) : Nat :=
  match l with
  | .ctlA => 0 | .ctlB => 1 | .fld0 => 0x10 | .fld1 => 0x11 | .fld2 => 0x12 | .fld3 => 0x13

/-- The link is a control link. -/
def LinkId.isCtl (l : LinkId) : Bool := decide (l.code < 0x10)

/-- State of a link. -/
def Dev.link (d : Dev) (l : LinkId) : Link := if l.isCtl then d.fabric.ctlLink.rd l.code else d.fabric.fldLink.rd (l.code - 0x10)

/-- Changes the state of a link. -/
def Dev.setLink (d : Dev) (l : LinkId) (x : Link) : Dev :=
  if l.isCtl then { d with fabric := { d.fabric with ctlLink := d.fabric.ctlLink.wr l.code x } }
  else { d with fabric := { d.fabric with fldLink := d.fabric.fldLink.wr (l.code - 0x10) x } }

/-- Longest delay that one replay adds, in nanoseconds (R14). -/
def LinkId.replayNs (l : LinkId) : Nat := if l.isCtl then 100 else 3000

/-- LINK_TRANSFER_ERROR (R14): the transfer is replayed, and the replay arrives; HUB_LINK_REPLAY once. -/
def execLinkTransferError (l : LinkId) (s : State) : Host.Outcome State Fault Refusal :=
  .next (
    if !s.dev.hubUp || !(s.dev.link l).up then s
    else
      let x := (s.dev.raise 0x0101 0x0100 .info l.code).freeNs 0 l.replayNs
      { s with dev := (x.2).pass x.1 })

/-- LINK_REPLAY_EXHAUSTED (R15): 8 consecutive replays of one transfer, which LINK_TRANSFER_ERROR announced, have failed; time for them passes. -/
def execLinkReplayExhausted (l : LinkId) (s : State) : Host.Outcome State Fault Refusal :=
  .next (
    if !s.dev.hubUp || !(s.dev.link l).up then s
    else
      let x := s.dev.freeNs 0 (8 * l.replayNs)
      let d := (x.2).pass x.1
      { s with dev := (d.setLink l { up := false, downAt := d.time.raw, tries := 0 }).raise 0x0102 0x0100 .crit l.code })

/-- LINK_RETRAIN (R15): one attempt every 10 ms while the link is down; time is brought forward to it. -/
def execLinkRetrain (l : LinkId) (ok : Bool) (s : State) : Host.Outcome State Fault Refusal :=
  .next (
    let x := s.dev.link l
    if !s.dev.hubUp || x.up then s
    else
      let d := s.dev.toRaw (x.downAt + 10000000 * (x.tries + 1))
      { s with dev :=
        if ok then (d.setLink l {}).raise 0x0103 0x0100 .info (l.code + 65536 * satN 32 ((d.time.raw - x.downAt) / 1000000))
        else d.setLink l { x with tries := x.tries + 1 } })

/-- HUB_PLL_LOSS (R17): DEVICE reset with the clock as its cause; the hub, without a clock, orders nothing. -/
def execHubPllLoss (s : State) : Host.Outcome State Fault Refusal :=
  .next (
    let d := s.dev.deviceReset .clock 0 false false
    s.after { d with fabric := { d.fabric with hubPll := false } })

/-- CTL_PLL_LOSS (R17): the die stops, and with it its heartbeat. -/
def execCtlPllLoss (die : Fin 2) (s : State) : Host.Outcome State Fault Refusal :=
  .next { s with dev := { s.dev with fabric := { s.dev.fabric with ctlPll := s.dev.fabric.ctlPll.wr die.val true } } }

/-- FLD_PLL_LOSS (R17): every output of the die goes to its safe value at once; the outputs of a DISARMED die are off. -/
def execFldPllLoss (die : Fin 4) (s : State) : Host.Outcome State Fault Refusal :=
  .next (
    let f := s.dev.fld die.val
    if f.run ≠ .run ∨ f.pllLost = true then s
    else
      let d := s.dev.setFld die.val { f with pllLost := true }
      { s with dev := if f.outState = .disarmed then d else d.allSafe die.val })

/-- FLD_PLL_RELOCK (R17): FLD_PLL_UNLOCK, then a FIELD reset. -/
def execFldPllRelock (die : Fin 4) (s : State) : Host.Outcome State Fault Refusal :=
  .next (
    let f := s.dev.fld die.val
    if !f.pllLost then s
    else
      let d := s.dev.setFld die.val { f with pllLost := false }
      { s with dev := (d.raise 0x1001 (0x1000 + die.val) .crit 0).orderFieldReset die.val 13 })

/-- CREDIT_RETURN (R18): the producer of the queue sends what it holds: a waiting sample, a frame on a Jalow link, a job of either Piste pipeline, round
jobs. The other queues' producers hold nothing between steps. -/
def execCreditReturn (kind inst : Nat) (s : State) : Host.Outcome State Fault Refusal :=
  match kind with
  | 0x04 => if inst < 4 then execSampleSend (BitVec.ofNat 2 inst).toFin s else .next s
  | 0x05 => .next { s with dev := Dev.jlPump inst (s.dev.jalow.port.rd inst).waitTx.length s.dev }
  | 0x10 => .next { s with dev := (s.dev.resumePipe 0).resumePipe 1 }
  | 0x12 => .next { s with dev := s.dev.placeRound s.dev.coord.toPlace.length }
  | _ => .next s

end Sys2Proof.Machine
end

