-- ==== Sys2Proof/Machine/Power.lean ====
section
/-! DEFINITION. Supplies (R387 to R395), low-power states (R407, R408), the last breath (R409) and thermal trips (R403). -/

namespace Sys2Proof.Machine

open Sys2Proof.Bits

/-! The rail sequencer (R393, R394). -/

/-- Rail `r` of the table in force. -/
def Power.rail (p : Power) (r : Nat) : RailCfg := p.table.rails.getD r {}

/-- Rails of a step. -/
def Power.stepRails (p : Power) (n : Nat) : List Nat := (List.range 6).filter (fun r => decide ((p.rail r).stepNo = n))

/-- The first step at or after `n` that has rails, 6 when none is left. -/
def Power.nextStep (p : Power) (n : Nat) : Nat := ((List.range 6).find? (fun i => decide (n ≤ i) && decide (p.stepRails i ≠ []))).getD 6

/-- A bit set of rails. -/
def railBits (l : List Nat) : BitVec 6 := BitVec.ofNat 6 (maskOf l)

/-- PMBus before a rail is enabled (R394): PAGE, VOUT_MODE, and VOUT_COMMAND where the mode is linear, which is the regulator's: free. Where it is
not, PWR_PMBUS_ALERT is held with a free STATUS_WORD, for none was read. -/
def Dev.pmbusSet (d : Dev) (r : Nat) : Dev :=
  let c := d.power.rail r
  if c.voutMv = 0 ∨ c.pmAddr = 0 then d
  else
    let d1 := (d.emit (.pmbus r 0x00 c.pmPage.toNat)).emit (.pmbus r 0x20 0)
    let x := d1.freeB
    if x.1 then (x.2).emit (.pmbus r 0x21 c.voutMv)
    else
      let y := (x.2).freeN 65536
      (y.2).setPwr { (y.2).power with alertPend := (y.2).power.alertPend ++ [BitVec.ofNat 64 (c.pmAddr + 2 ^ 8 * c.pmPage.toNat + 2 ^ 16 * y.1)] }

/-- The sequencer runs: at a POR, or in a DEVICE reset that holds control-die rails off. -/
def Power.sequencing (p : Power) : Bool := (p.phase = .sequencing ∨ (p.phase = .inReset ∧ p.thermalHold = false)) ∧ p.stepNext < 6

/-- The step ends once every rail of it that is enabled is good. -/
def Power.endStep (p : Power) (n : Nat) : Power :=
  if (p.stepRails n).all (fun r => !p.railEn.getLsbD r || p.railPg.getLsbD r) then { p with stepNext := p.nextStep (n + 1) } else p

/-- The rails of a step whose enables are still low. -/
def Power.toEnable (p : Power) (n : Nat) : List Nat := (p.stepRails n).filter (fun r => !p.railEn.getLsbD r)

/-- RAIL_STEP (R394): after the step's largest DELAY_MS its rails are configured and enabled together; `pg` is RAIL_PG as it then reads. While
the step waits for a rail, the row only reads RAIL_PG again. -/
def execRailStep (pg : BitVec 6) (s : State) : Host.Outcome State Fault Refusal :=
  .next (
    let p := s.dev.power
    if !p.sequencing then s
    else
      let n := p.nextStep p.stepNext
      let started := (p.stepRails n).any (fun r => p.railEn.getLsbD r && !p.railPg.getLsbD r)
      let on := if started then [] else p.toEnable n
      let d1 := on.foldl (fun acc r => acc.pmbusSet r) s.dev
      let delay := on.foldl (fun a r => max a (p.rail r).delayMs) 0
      let d2 := d1.pass (delay * 1000000)
      let en := d2.power.railEn ||| railBits on
      let p2 : Power := { d2.power with railEn := en, railPg := (pg ||| d2.power.railPg) &&& en, stepNext := n }
      { s with dev := d2.setPwr (if n = 6 then { p2 with stepNext := 6 } else p2.endStep n) })

/-- A rail is deasserted. -/
def Power.railOff (p : Power) (r : Nat) : Power := { p with railEn := p.railEn &&& ~~~ railBits [r], railPg := p.railPg &&& ~~~ railBits [r] }

/-- PWR_RAIL_FAIL is held for the start-up (R342, R394). -/
def Power.holdFail (p : Power) (r : Nat) : Power :=
  { p with railPend := p.railPend ++ [BitVec.ofNat 64 (r + 2 ^ 8 * (p.rail r).func.toNat)] }

/-- Steps that have an enabled rail. -/
def Power.liveSteps (p : Power) : Nat := ((List.range 6).filter (fun n => (p.stepRails n).any (fun r => p.railEn.getLsbD r))).length

/-- Every rail is deasserted in reverse step order, with 1 ms between steps. -/
def Dev.railsOff (d : Dev) : Dev :=
  let d1 := d.pass ((d.power.liveSteps - 1) * 1000000)
  d1.setPwr { d1.power with railEn := 0, railPg := 0 }

/-- A failure of rail `r` leaves the sequence going on (R394): it carries control-die cores only, or one hub rail while the other is good. -/
def Power.spares (p : Power) (r : Nat) : Bool :=
  let f := (p.rail r).func
  f = 0x20 ∨ f = 0x40 ∨ (f = 0x04 ∧ p.good 3) ∨ (f = 0x08 ∧ p.good 2)

/-- RAIL_PG_TIMEOUT (R394). -/
def execRailPgTimeout (r : Fin 6) (s : State) : Host.Outcome State Fault Refusal :=
  .next (
    let p := s.dev.power
    let n := p.stepNext
    if !p.sequencing ∨ (p.rail r.val).stepNo ≠ n ∨ !p.railEn.getLsbD r.val ∨ p.railPg.getLsbD r.val then s
    else
      let d := s.dev.pass ((p.rail r.val).pgToMs * 1000000)
      let p1 := d.power.holdFail r.val
      if p.spares r.val then { s with dev := d.setPwr ((p1.railOff r.val).endStep n) }
      else
        let d1 := (d.setPwr p1).railsOff
        { s with dev := d1.setPwr { d1.power with stepNext := 7, attempts := p.attempts + 1 } })

/-- RAIL_SEQUENCE_RETRY (R394): 1 s later, until three attempts have failed. -/
def execRailSequenceRetry (s : State) : Host.Outcome State Fault Refusal :=
  .next (
    let p := s.dev.power
    if p.stepNext ≠ 7 ∨ 3 ≤ p.attempts ∨ p.on = false then s
    else
      let d := s.dev.pass 1000000000
      { s with dev := d.setPwr { d.power with stepNext := 0 } })

/-! Rails in service (R279, R299, R391, R395). -/

/-- A control die has lost its rail. -/
def Dev.ctlRailLost (d : Dev) (k : Nat) : Dev :=
  let d1 := d.updCtl k (fun c => { c with railOk := false })
  match (d1.ctl k).state with
  | .active | .waking => d1.hardFault k .rail
  | .off => d1
  | _ =>
    let d2 := if d1.twin.slice.map (fun x => x.1) = some k then d1.abortSlice else d1
    (d2.abortRun k).dieTo k .off

/-- RAIL_PG_LOSS (R395): a rail with VDD_PLL, VDD_IO or VDD_SER, or the last hub rail while no save supply carries the hub, is a POR. -/
def execRailPgLoss (r : Fin 6) (s : State) : Host.Outcome State Fault Refusal :=
  .next (
    let d := s.dev
    if !d.hubUp ∨ !d.power.railPg.getLsbD r.val ∨ d.power.lbAt.isSome then s
    else
      let d1 := d.setPwr { d.power with railPg := d.power.railPg &&& ~~~ railBits [r.val] }
      let f := (d1.power.rail r.val).func
      let hubGone := (f.getLsbD 2 || f.getLsbD 3) && !d1.power.good 2 && !d1.power.good 3 && !d1.power.saveOn
      if f.getLsbD 0 || f.getLsbD 1 || f.getLsbD 4 || hubGone then s.after (d1.por .railPg r.val false true)
      else
        let d2 := if f.getLsbD 5 then d1.ctlRailLost 0 else d1
        { s with dev := if f.getLsbD 6 then d2.ctlRailLost 1 else d2 })

/-- A control die's rail has returned (R299): a die that is OFF becomes COLD where the twin operates (R65). -/
def Dev.ctlRailBack (d : Dev) (k : Nat) : Dev :=
  let d1 := d.updCtl k (fun c => { c with railOk := true, lineHard := false })
  if (d1.ctl k).state = .off ∧ d1.twin.enabled = true ∧ d1.host.revCtlA = d1.host.revCtlB ∧ d1.ctlUp = true then d1.dieTo k .cold else d1

/-- RAIL_PG_RETURN (R299, R395): RAIL_PG of an enabled rail asserts again. -/
def execRailPgReturn (r : Fin 6) (s : State) : Host.Outcome State Fault Refusal :=
  .next (
    let d := s.dev
    if !d.hubUp ∨ !d.power.railEn.getLsbD r.val ∨ d.power.railPg.getLsbD r.val then s
    else
      let d1 := d.setPwr { d.power with railPg := d.power.railPg ||| railBits [r.val] }
      let f := (d1.power.rail r.val).func
      let d2 := if f.getLsbD 5 then d1.ctlRailBack 0 else d1
      { s with dev := if f.getLsbD 6 then d2.ctlRailBack 1 else d2 })

/-- HUB_MUX_SWITCH (R391): the readings of both hub rails; the mux moves, or both are low and a POR follows. -/
def execHubMuxSwitch (vhaMv vhbMv : Nat) (s : State) : Host.Outcome State Fault Refusal :=
  .next (
    let d := s.dev
    if !d.hubUp then s
    else
      let a := satN 16 vhaMv
      let b := satN 16 vhbMv
      let d1 := d.setPwr { d.power with vhaMv := a, vhbMv := b }
      let (vs, vo) := if d1.power.hubSelB then (b, a) else (a, b)
      if d1.power.saveOn then { s with dev := d1 }
      else if a < 780 ∧ b < 780 then s.after (d1.por .hubCoreUv 0 false true)
      else if vs + 20 < vo ∨ (vs < 800 ∧ 820 ≤ vo) then
        let x := d1.freeNs 0 1000
        let d2 := (x.2).pass x.1
        let n := bump 16 d2.power.muxSwitchCnt
        { s with dev := ((d2.setPwr { d2.power with hubSelB := !d2.power.hubSelB, muxSwitchCnt := n }).satAt 0x50 16 n).raise 0x5005 0x5000 .warn
                   (b1 (!d2.power.hubSelB) + 2 ^ 16 * vs + 2 ^ 32 * vo) }
      else { s with dev := d1 })

/-! The feeds of a field die (R387, R388). -/

/-- Changes what the hub knows of a die's feeds. -/
def Dev.updFeed (d : Dev) (k : Nat) (f : FeedState → FeedState) : Dev := d.setPwr { d.power with feeds := d.power.feeds.upd k f }

/-- A die raises PWR_FEED or PWR_FEED_LOST, and the count rises. -/
def Dev.feedEvent (d : Dev) (k code : Nat) (sev : Severity) (data : Nat) : Dev :=
  let n := bump 16 d.power.feedEvtCnt
  ((d.setPwr { d.power with feedEvtCnt := n }).satAt 0x50 16 n).raise code (0x5000 + k) sev data

/-- The die's logic runs and its field link is up, so that it can report. -/
def Dev.feedSeen (d : Dev) (k : Nat) : Bool := d.hubUp && d.fldRuns k && d.fldUp k

/-- A reading of one feed. -/
def FeedState.read (f : FeedState) (b : Bool) (mv : Nat) : FeedState := if b then { f with bMv := mv } else { f with aMv := mv }

/-- FEED_LOW_WARN (R387): below FEED_WARN for 10 ms, or at or above it plus 0.5 V for 100 ms. -/
def execFeedLowWarn (die : Fin 4) (b low : Bool) (mv : Nat) (s : State) : Host.Outcome State Fault Refusal :=
  .next (
    let d := s.dev
    let k := die.val
    let f := d.power.feeds.rd k
    let m := satN 16 mv
    let was := if b then f.lowB else f.lowA
    let warn := d.power.table.feedWarn * 100
    let holds := if low then decide (m < warn) else decide (warn + 500 ≤ m)
    if !d.feedSeen k || was == low || !holds then s
    else { s with dev := (d.updFeed k (fun f => if b then { f.read b m with lowB := low } else { f.read b m with lowA := low })).feedEvent k 0x5002 .warn
                    (b1 b + 2 ^ 8 * b1 low + 2 ^ 16 * m) })

/-- FEED_OVERVOLTAGE (R387): above 33.0 V for 1 ms, or above 36.0 V, where the ideal diode opens. -/
def execFeedOvervoltage (die : Fin 4) (b opened : Bool) (mv : Nat) (s : State) : Host.Outcome State Fault Refusal :=
  .next (
    let d := s.dev
    let k := die.val
    let m := satN 16 mv
    let f := d.power.feeds.rd k
    let was := if b then f.overB else f.overA
    if !d.feedSeen k ∨ m ≤ (if opened then 36000 else 33000) then s
    else
      let d1 := d.updFeed k (fun f =>
        if b then { f.read b m with overB := true, openB := f.openB || opened } else { f.read b m with overA := true, openA := f.openA || opened })
      { s with dev := if was then d1 else d1.feedEvent k 0x5002 .warn (b1 b + 2 ^ 9 + 2 ^ 16 * m) })

/-- FEED_OVERVOLTAGE_CLEAR (R387): the feed has fallen below 33.0 V, and its ideal diode closes. -/
def execFeedOvervoltageClear (die : Fin 4) (b : Bool) (mv : Nat) (s : State) : Host.Outcome State Fault Refusal :=
  .next (
    let d := s.dev
    let k := die.val
    let m := satN 16 mv
    if !d.feedSeen k ∨ 33000 ≤ m then s
    else { s with dev := d.updFeed k (fun f => if b then { f.read b m with overB := false, openB := false } else { f.read b m with overA := false, openA := false }) })

/-- FEED_LOSS (R387): both feeds of the die below 16.0 V for 1 ms while another die keeps one. -/
def execFeedLoss (die : Fin 4) (aMv bMv : Nat) (s : State) : Host.Outcome State Fault Refusal :=
  .next (
    let d := s.dev
    let k := die.val
    let a := satN 16 aMv
    let b := satN 16 bMv
    if !d.feedSeen k ∨ 16000 ≤ a ∨ 16000 ≤ b ∨ (d.power.feeds.rd k).lost = true ∨ d.power.lbAt.isSome = true then s
    else
      let d1 := (d.updFeed k (fun f => { f with aMv := a, bMv := b, lost := true })).allPowerFail k
      let d2 := (d1.setOutState k .disarmed).feedEvent k 0x5003 .crit (a + 2 ^ 16 * b)
      { s with dev := d2.raise 0x1023 (fldSrc k) .info OutState.disarmed.num })

/-- FEED_RETURN (R387, R388, R409): a feed above 18.0 V for 100 ms. After a last breath the device starts again. -/
def execFeedReturn (die : Fin 4) (b : Bool) (mv : Nat) (s : State) : Host.Outcome State Fault Refusal :=
  .next (
    let d := s.dev
    let k := die.val
    let m := satN 16 mv
    if m ≤ 18000 then s
    else if d.power.phase = .poweredOff then (if d.power.keep then s else s.after (d.por .lastBreath 0 d.power.lbDone false))
    else if d.power.lbAt.isSome then s
    else
      let held := d.power.fieldFeed.rd k
      let lost := (d.power.feeds.rd k).lost
      let d1 := (d.updFeed k (fun f => { f.read b m with lost := false }))
      let d2 := d1.setPwr { d1.power with fieldFeed := d1.power.fieldFeed.wr k false }
      { s with dev := if lost && !held && d2.fldRuns k then d2.allOff k else d2 })

/-- FEED_RESET (R388): both nodes of the die below 9.0 V. -/
def execFeedReset (die : Fin 4) (s : State) : Host.Outcome State Fault Refusal :=
  .next (
    let d := s.dev
    let k := die.val
    if d.power.lbAt.isSome ∨ d.power.fieldFeed.rd k = true then s
    else { s with dev := (d.setPwr { d.power with fieldFeed := d.power.fieldFeed.wr k true }).orderFieldReset k 14 })

/-! The save supply and the last breath (R392, R409). -/

/-- SAVE_SUPPLY_START (R392): within 20 µs it carries the hub. -/
def execSaveSupplyStart (s : State) : Host.Outcome State Fault Refusal :=
  .next (
    if !s.dev.hubUp ∨ s.dev.power.saveOn = true then s
    else
      let x := s.dev.freeNs 0 20000
      let d := (x.2).pass x.1
      { s with dev := d.setPwr { d.power with saveOn := true, saveAt := d.time.raw } })

/-- SAVE_SUPPLY_RELEASE (R392): a feed is back before the last breath is confirmed. -/
def execSaveSupplyRelease (s : State) : Host.Outcome State Fault Refusal :=
  .next (if s.dev.power.saveOn ∧ s.dev.power.lbAt.isNone then { s with dev := s.dev.setPwr { s.dev.power with saveOn := false } } else s)

/-- Both control dies stop (R409): their rails are deasserted. -/
def Dev.stopCtl (d : Dev) : Dev :=
  let d1 := ((d.updCtl 0 (fun c => { c with railOk := false })).updCtl 1 (fun c => { c with railOk := false }))
  let d2 := (d1.dieTo 0 .off).dieTo 1 .off
  let f := (List.range 6).filter (fun r => decide ((d2.power.rail r).func.getLsbD 5 = true ∨ (d2.power.rail r).func.getLsbD 6 = true))
  d2.setPwr { d2.power with railEn := d2.power.railEn &&& ~~~ railBits f, railPg := d2.power.railPg &&& ~~~ railBits f, noActiveSince := some d2.time.raw }

/-- T_LB: what the confirmation of a last breath does (R409). -/
def Dev.lastBreath (d : Dev) : Dev :=
  let n := bump 16 d.power.lbCnt
  let d1 := d.setPwr { d.power with lbAt := some d.time.raw, lbCnt := n, lbDone := false }
  let d2 := (List.range 4).foldl (fun acc k => if acc.fldRuns k then acc.allPowerFail k else acc) ((d1.satAt 0x50 16 n).stopCtl)
  d2.record 0x5006 0x5000 (BitVec.ofNat 64
    (d2.slalom.journalUsed % 2 ^ 15 + 2 ^ 16 * (d2.power.feeds.rd 0).holdMv + 2 ^ 32 * (d2.power.feeds.rd 1).holdMv)) none true false

/-- LAST_BREATH_CONFIRM (R409): 1 ms on the save supply; time is brought forward. -/
def execLastBreathConfirm (s : State) : Host.Outcome State Fault Refusal :=
  .next (
    let p := s.dev.power
    if !s.dev.hubUp ∨ p.saveOn = false ∨ p.lbAt.isSome = true then s
    else { s with dev := (s.dev.toRaw (p.saveAt + 1000000)).lastBreath })

/-- The newest record and the operating time are in eMRAM, and the journal is empty: what a save or an entry to KEEP leaves. -/
def Dev.saveAll (d : Dev) : Dev :=
  { d with
    recorder := { d.recorder.save with headSaved := ((d.recorder.head).map (fun h => h.rep)).getD 0, recent := [] }
    slalom := { d.slalom with journal := [], emram := [], emramBusy := none } }

/-- LAST_BREATH_DONE (R409): the save ends, at most T_FIXED + JOURNAL × T_GRAN after T_LB, and every rail goes off. -/
def execLastBreathDone (s : State) : Host.Outcome State Fault Refusal :=
  .next (match s.dev.power.lbAt with
    | none => s
    | some t =>
      if s.dev.power.lbDone ∨ s.dev.hubUp = false then s
      else
        let x := s.dev.freeNs 0 (4000000 + 2000 * s.dev.slalom.journalUsed)
        let d := (((x.2).toRaw (t + x.1)).saveAll)
        let us := satN 16 ((d.time.raw - t) / 10000)
        let d1 := (d.setPwr { d.power with lbDone := true, lbLastUs := us }).railsOff
        s.after (d1.setPwr { d1.power with phase := .poweredOff, saveOn := false, lbAt := none }))

/-- KEEP_WAKE (R408): a source of the mask, or RESET_N falling, starts the device up; DETAIL is the source's bit of Table 19-8. -/
def execKeepWake (source : Option (Fin 5)) (s : State) : Host.Outcome State Fault Refusal :=
  .next (
    let p := s.dev.power
    if p.phase ≠ .poweredOff ∨ p.keep = false then s
    else
      match source with
      | none => s.after (s.dev.por .keepWake 0 true true)
      | some b => if p.wakeMask.getLsbD b.val then s.after (s.dev.por .keepWake (8 + b.val) true true) else s)

/-! Temperature (R403). -/

/-- DIE_THERMAL_TRIP (R279, R403). -/
def execDieThermalTrip (die : Fin 7) (s : State) : Host.Outcome State Fault Refusal :=
  .next (
    let d := s.dev
    let i := die.val
    if !d.hubUp ∨ d.power.lbAt.isSome = true then s
    else if i = 0 then
      let d1 := d.deviceReset .thermal 0 true false
      let f := (List.range 6).filter (fun r => decide ((d1.power.rail r).func.getLsbD 5 = true ∨ (d1.power.rail r).func.getLsbD 6 = true))
      s.after (d1.setPwr { d1.power with thermalHold := true, railEn := d1.power.railEn &&& ~~~ railBits f, railPg := d1.power.railPg &&& ~~~ railBits f })
    else if i < 3 then { s with dev := d.hardFault (i - 1) .thermal }
    else
      let k := i - 3
      if d.power.fieldThermal.rd k then s
      else { s with dev := (d.setPwr { d.power with fieldThermal := d.power.fieldThermal.wr k true }).orderFieldReset k 11 })

/-- THERMAL_RECOVER (R403): the hottest sensor reads below 105 °C. The hub's control-die rails are enabled again in their steps. -/
def execThermalRecover (die : Fin 7) (s : State) : Host.Outcome State Fault Refusal :=
  .next (
    let p := s.dev.power
    let i := die.val
    if i = 0 then
      if p.thermalHold then { s with dev := s.dev.setPwr { p with thermalHold := false, stepNext := min (p.stepOf 5) (p.stepOf 6) } } else s
    else if i < 3 then s
    else { s with dev := s.dev.setPwr { p with fieldThermal := p.fieldThermal.wr (i - 3) false } })

/-! PMBus in service (R395). -/

/-- One telemetry read of a rail; a third failure in a row clears PMBUS_OK. -/
def Power.telemetry (p : Power) (r : Nat) (x : Option (Nat × Nat)) : Power :=
  if (p.rail r).pmAddr = 0 then p
  else match x with
    | some _ => { p with pmbusFails := p.pmbusFails.wr r 0 }
    | none => { p with pmbusFails := p.pmbusFails.wr r (min 3 (p.pmbusFails.rd r + 1)), pmbusOk := p.pmbusOk && decide (p.pmbusFails.rd r + 1 < 3) }

/-- A PMBus command goes to every rail that has an address. -/
def Dev.pmbusAll (d : Dev) (cmds : List (BitVec 8)) : Dev :=
  (List.range 6).foldl (fun acc r =>
    if (acc.power.rail r).pmAddr = 0 then acc
    else cmds.foldl (fun a c => a.emit (.pmbus r c 0)) (acc.emit (.pmbus r 0x00 (acc.power.rail r).pmPage.toNat))) d

/-- PMBUS_TELEMETRY (R395): READ_VOUT and READ_IOUT of every rail with an address. -/
def execPmbusTelemetry (reads : List (Option (Nat × Nat))) (s : State) : Host.Outcome State Fault Refusal :=
  .next (
    if !s.dev.hubUp ∨ s.dev.power.table.telemEn = false then s
    else
      let d := s.dev.pmbusAll [0x8B, 0x8C]
      { s with dev := d.setPwr ((List.range 6).foldl (fun p r => p.telemetry r (reads.getD r none)) d.power) })

/-- PMBUS_GAIN_ADJUST (R395): the gain of each rail's monitor moves towards the product of the readings by at most 5 %. -/
def execPmbusGainAdjust (target : List Int) (s : State) : Host.Outcome State Fault Refusal :=
  .next (
    let p := s.dev.power
    if !s.dev.hubUp ∨ p.table.telemEn = false then s
    else { s with dev := s.dev.setPwr { p with
      gains := (List.range 6).foldl (fun t r =>
        if (p.rail r).pmAddr = 0 then t else t.wr r (t.rd r + clampInt (-50) 50 (target.getD r (t.rd r) - t.rd r))) p.gains } })

/-- STATUS_WORD of one rail after PM_ALERT_N fell. -/
def Dev.pmbusStatus (d : Dev) (r : Nat) (x : Option (BitVec 16)) : Dev :=
  let c := d.power.rail r
  match x with
  | none => d
  | some w =>
    if c.pmAddr = 0 ∨ w = 0 then d
    else (d.raise 0x5007 0x5000 .warn (c.pmAddr + 2 ^ 8 * c.pmPage.toNat + 2 ^ 16 * w.toNat)).emit (.pmbus r 0x03 0)

/-- PMBUS_ALERT (R395). -/
def execPmbusAlert (status : List (Option (BitVec 16))) (s : State) : Host.Outcome State Fault Refusal :=
  .next (
    if !s.dev.hubUp then s
    else { s with dev := (List.range 6).foldl (fun acc r => acc.pmbusStatus r (status.getD r none)) (s.dev.pmbusAll [0x79]) })

/-! Commands (Table 19-7). -/

/-- The measurements that no row has brought are read now: free values (R390). -/
def Dev.measurePower (d : Dev) : Dev :=
  let v (acc : Dev) (set : Power → Nat → Power) : Dev :=
    let x := acc.freeN 65536
    (x.2).setPwr (set (x.2).power x.1)
  let d1 := (List.range 4).foldl (fun acc k =>
    let a := v acc (fun p n => { p with feeds := p.feeds.upd k (fun f => { f with aMv := n }) })
    let b := v a (fun p n => { p with feeds := p.feeds.upd k (fun f => { f with bMv := n }) })
    if k < 2 then b else v b (fun p n => { p with feeds := p.feeds.upd k (fun f => { f with holdMv := n }) })) d
  let d2 := v (v d1 (fun p n => { p with vhaMv := n })) (fun p n => { p with vhbMv := n })
  v (v (v d2 (fun p n => { p with vcaMv := n })) (fun p n => { p with vcbMv := n })) (fun p n => { p with vkeepMv := n })

/-- Word of the power page at offset `o` (Table 19-9). -/
def Power.word (p : Power) (o : Nat) : Word :=
  let f (k : Nat) : FeedState := p.feeds.rd k
  if o = 0 then
    pack [(p.lp.num, 0), (b1 p.hubSelB, 2), (b1 p.saveOn, 3), (p.railEn.toNat, 4), (p.railPg.toNat, 10), (b1 p.pmbusOk, 16), (b1 p.prefSlot, 17), (b1 p.lastActiveReg, 18)]
  else if 4 ≤ o ∧ o ≤ 0x10 then pack [((f (o / 4 - 1)).aMv, 0), ((f (o / 4 - 1)).bMv, 16)]
  else if o = 0x14 then pack [((f 0).holdMv, 0), ((f 1).holdMv, 16)]
  else if o = 0x18 then pack [((f 2).holdMv, 0), ((f 3).holdMv, 16)]
  else if o = 0x1C then pack [(p.vhaMv, 0), (p.vhbMv, 16)]
  else if o = 0x20 then pack [(p.vcaMv, 0), (p.vcbMv, 16)]
  else if o = 0x24 then pack [(p.vkeepMv, 0), (p.feedEvtCnt, 16)]
  else if o = 0x28 then pack [(p.lbCnt, 0), (p.lbLastUs, 16)]
  else if o = 0x2C then pack [(p.railFailCnt, 0), (p.muxSwitchCnt, 16)]
  else 0

/-- PWR_STATUS. -/
def opPwrStatus : Op where
  code := 0x0C20
  target := onUnit 0x50
  body s _ :=
    let d := s.dev.measurePower
    { st := { s with dev := d }, words := (List.range 12).map (fun i => d.power.word (4 * i)) }

/-- PWR_STATUS. -/
def execPwrStatus (p : Packet) (s : State) : Host.Outcome State Fault Refusal := .next (packetRow opPwrStatus p s)

/-- Leaves QUIESCE (R408): the engines that the level does not park resume (R122). -/
def Dev.leaveQuiesce (d : Dev) : Dev :=
  let lvl := d.slalom.level
  let d1 := d.setLp (if lvl = 0 then .run else .throttle) 0
  ((List.range 16).filter (fun k => !(parkedAt lvl).contains k)).foldl (fun acc k => acc.unpark k) d1

/-- LOWPOWER_SET with STATE RUN (R407, R408); the reserved state is refused here. -/
def opLowpowerSetRun : Op where
  code := 0x0C21
  sel p := decide (Sys2Proof.Bits.fld (p.par 0) 1 0 ≤ 1)
  target := onUnit 0x50
  params := 1
  body s q :=
    let d := s.dev
    guarded s [encIf (q.resv 0 0x1F03 || decide (q.f 0 1 0 = 1)) 0]
      (if d.power.lp = .quiesce then .ok s d.leaveQuiesce else { st := s, status := stOkNoChange })

/-- LOWPOWER_SET with STATE RUN. -/
def execLowpowerSetRun (p : Packet) (s : State) : Host.Outcome State Fault Refusal := .next (packetRow opLowpowerSetRun p s)

/-- LOWPOWER_SET with STATE QUIESCE (R408). -/
def opLowpowerSetQuiesce : Op where
  code := 0x0C21
  sel p := decide (Sys2Proof.Bits.fld (p.par 0) 1 0 = 2)
  target := onUnit 0x50
  params := 1
  body s q :=
    let d := s.dev
    guarded s [encIf (q.resv 0 0x1F03) 0, stateIf (decide (d.frame.state ≠ .stopped))]
      (if d.power.lp = .quiesce then { st := s, status := stOkNoChange }
       else .ok s ((List.range 16).foldl (fun acc k => acc.park k) (d.setLp .quiesce (q.f 0 12 8))))

/-- LOWPOWER_SET with STATE QUIESCE. -/
def execLowpowerSetQuiesce (p : Packet) (s : State) : Host.Outcome State Fault Refusal := .next (packetRow opLowpowerSetQuiesce p s)

/-- A firmware or model write is under way (R408). -/
def Dev.eMramWrites (d : Dev) : Bool :=
  d.power.stageBusy || decide (d.slalom.emramBusy = some .model ∨ EmramReq.model ∈ d.slalom.emram)

/-- The device enters KEEP (R408): the journal is drained, and its waiting replies are sent; PWR_LOWPOWER and the operating time are written; the flag and
the wake mask are set; every rail goes off, and the field dies are held in reset. -/
def Dev.enterKeep (d : Dev) (wake : Nat) : Dev :=
  let d1 := d.slalom.journal.foldl (fun (acc : Dev) e =>
    match e.reply with
    | some r => acc.finish r.pkt r.status 0 r.words
    | none => acc) d
  let d2 := ((d1.record 0x5009 0x5000 (BitVec.ofNat 64 (3 + 2 ^ 4 * d1.power.lp.num + 2 ^ 8 * wake)) none false false).saveAll).railsOff
  let d3 := d2.clearF
  d3.setPwr { d3.power with keep := true, wakeMask := BitVec.ofNat 5 wake, phase := .poweredOff }

/-- LOWPOWER_SET with STATE KEEP (R408, R412): it takes effect after the reply. -/
def opLowpowerSetKeep : Op where
  code := 0x0C21
  sel p := decide (Sys2Proof.Bits.fld (p.par 0) 1 0 = 3)
  target := onUnit 0x50
  params := 2
  body s q :=
    let d := s.dev
    guarded s [encIf (q.resv 0 0x1F03) 0, encIf (decide (q.par 1 ≠ 0x96160C21)) 1,
        stateIf (decide (d.frame.state ≠ .stopped) || (List.range 4).any (fun k => decide ((d.fld k).outState ≠ .disarmed)) || d.eMramWrites)]
      (.ok s d)
  after q s := s.after (s.dev.enterKeep (q.f 0 12 8))

/-- LOWPOWER_SET with STATE KEEP. -/
def execLowpowerSetKeep (p : Packet) (s : State) : Host.Outcome State Fault Refusal := .next (packetRow opLowpowerSetKeep p s)

/-- The rail entry that two words of RAIL_CONFIG carry (Table 19-2). -/
def railOfWords (a b : Word) : RailCfg :=
  { func := BitVec.ofNat 7 a.toNat, stepNo := Sys2Proof.Bits.fld a 9 7, delayMs := Sys2Proof.Bits.fld a 23 16, pgToMs := Sys2Proof.Bits.fld a 31 24
    pmAddr := Sys2Proof.Bits.fld b 6 0, pec := bit b 7, pmPage := BitVec.ofNat 8 (Sys2Proof.Bits.fld b 15 8), voutMv := Sys2Proof.Bits.fld b 31 16 }

/-- The voltage range of function `f` in mV (Table 19-1). -/
def voutRange (f : Nat) : Nat × Nat :=
  if f = 0 then (1710, 1890) else if f = 1 then (1140, 1980) else if f = 2 ∨ f = 3 then (810, 990) else if f = 4 then (855, 945) else (850, 990)

/-- VOUT_MV fits every function the rail carries. -/
def RailCfg.voutOk (c : RailCfg) : Bool :=
  decide (c.voutMv = 0) || (List.range 7).all (fun f => !c.func.getLsbD f || !outside c.voutMv (voutRange f).1 (voutRange f).2)

/-- The conflicts of R393. -/
def RailTable.conflict (t : RailTable) : Bool :=
  let n (f : Nat) : Nat := (t.rails.filter (fun c => c.func.getLsbD f)).length
  let at' (f : Nat) : Nat := ((t.rails.find? (fun c => c.func.getLsbD f)).map (fun c => c.stepNo)).getD 0
  (List.range 7).any (fun f => decide (n f ≠ 1)) ||
    t.rails.any (fun c => (c.func.getLsbD 5 && c.func.getLsbD 6) || (c.func.getLsbD 2 && c.func.getLsbD 3)) ||
    [2, 3].any (fun h => decide (at' h < at' 0 ∨ at' h < at' 1) || [4, 5, 6].any (fun x => decide (at' x ≤ at' h)))

/-- The table a RAIL_CONFIG carries. -/
def railTableOf (q : QPacket) : RailTable :=
  { rails := (List.range 6).map (fun r => railOfWords (q.par (1 + 2 * r)) (q.par (2 + 2 * r))), pm400k := q.b 0 0, telemEn := q.b 0 1, feedWarn := q.f 0 15 8 }

/-- The parameter checks of RAIL_CONFIG, in order. -/
def railChecks (q : QPacket) : List (Bool × Nat × Nat) :=
  let t := railTableOf q
  let rail (r : Nat) : RailCfg := t.rails.getD r {}
  [encIf (q.resv 0 0xFF03) 0] ++ (List.range 6).map (fun r => encIf (q.resv (1 + 2 * r) 0xFFFF03FF) (1 + 2 * r)) ++
    [rangeIf (outside t.feedWarn 165 255) 0] ++
    (List.range 6).map (fun r => rangeIf (decide (5 < (rail r).stepNo ∨ (rail r).pgToMs = 0)) (1 + 2 * r)) ++
    (List.range 6).map (fun r => rangeIf (!(rail r).voutOk) (2 + 2 * r)) ++ [conflictIf t.conflict 1]

/-- RAIL_CONFIG (R393): stored, and in force from the next power-up of the rails. -/
def opRailConfig : Op where
  code := 0x0C22
  target := onUnit 0x50
  classN := true
  params := 13
  body s q :=
    guarded s (railChecks q) (.ok s (s.dev.setPwr { s.dev.power with tableN := railTableOf q, tableB := railTableOf q }))

/-- RAIL_CONFIG. -/
def execRailConfig (p : Packet) (s : State) : Host.Outcome State Fault Refusal := .next (packetRow opRailConfig p s)

end Sys2Proof.Machine
end

