-- ==== Sys2Proof/Machine/TimeChange.lean ====
section
/-! DEFINITION. A change of corrected time takes effect in every unit (R307, R317 to R321). -/

namespace Sys2Proof.Machine

open Sys2Proof.Bits

/-! The frame schedule (R318). -/

/-- A frame still open whose D_N has passed commits at once. -/
def Dev.stepDeadline (d : Dev) : Dev :=
  if !d.ctlUp || d.coord.committed || decide (d.now < d.coord.dN) then d
  else
    let d1 := if d.coord.asTop then d.sendDown [] d.coord.round true true d.now else d
    d1.commitFrame true d1.coord.round d1.now

/-- A stop whose remaining frames were all passed over ends with the last frame run. -/
def Dev.stepStop (d : Dev) : Dev :=
  if d.frame.state = .stopping ∧ d.frame.nextFrame.isNone then
    let d1 := d.setFrame { d.frame with stopFrame := some d.frame.frameNum }
    if d1.frame.checkpointed = d1.frame.frameNum then d1.stopAfter d1.frame.frameNum else d1.abortSnap
  else d

/-- Forward step: the boundaries passed run no frame, and the next to start is the first at or after c_new + 10 ms. -/
def Dev.framesForward (d : Dev) (new : Nat) : Dev :=
  ((d.setFrame { d.frame with resumeAt := new + 10000000 }).stepStop).stepDeadline

/-- The FRAME_SET of a re-anchoring goes to every DOWN port with SUBTREE; under which key and tag the spec does not say, and they are free. -/
def Dev.relayAnchor (d : Dev) (s : Sched) : Dev :=
  let (a, d1) := d.freeW
  let (t0, d2) := d1.freeW
  let (t1, d3) := d2.freeW
  let (t2, d4) := d3.freeW
  let (t3, d5) := d4.freeW
  let inner := [pack [(0xD6, 0), (2, 8), (0x0110, 16)], pack [(Sys2Proof.Bits.fld a 15 0, 0), (12, 16)], pack [(2, 0)],
    pack [(0x21, 0), (Sys2Proof.Bits.fld a 21 16, 8), (Sys2Proof.Bits.fld a 31 24, 24)], pack [(s.len, 0)], w32 s.anchor, pack [(eraOf s.anchor, 0)], w32 s.anchorFrame, t0, t1, t2, t3]
  d5.downUp.foldl (fun acc p => acc.jlSend p 5 ([pack [(1, 0), (p, 2), (1, 8)], w32 1000] ++ inner)) d5

/-- A larger backward step re-anchors the schedule where the device has no UP port (FRAME_REANCHOR). -/
def Dev.reanchor (d : Dev) (new : Nat) : Dev :=
  let f := d.frame
  let len := max 1 f.sched.len * 10000000
  let s : Sched := { len := f.sched.len, anchor := gridAt (new + 10000000) len (f.sched.anchor % len), anchorFrame := f.frameNum + 1 }
  let pend := f.pendingSet.map (fun x => { x with anchor := s.anchor + (x.anchorFrame - s.anchorFrame) * len })
  let d1 := d.setFrame { f with sched := s, pendingSet := pend, deadlineCnt := 0, resumeAt := 0 }
  (d1.relayAnchor s).raiseCtl 0x02 d.ctlSource .info (s.anchorFrame + 2 ^ 32 * s.len)

/-- Backward step by `back` ns. -/
def Dev.framesBackward (d : Dev) (back new : Nat) : Dev :=
  if d.frame.state = .stopped ∨ back ≤ d.frame.sched.len * 10000000 then d
  else if d.upPort.isNone then d.reanchor new
  else d.setFrame { d.frame with awaitSet := true }

/-! Loops, outputs, PWM and sequences (R319, R320). -/

/-- Every loop that runs has its first tick at its first grid tick at or after c_new + 50 µs, and a loop that learns restarts its chain. -/
def Dev.stepLoops (d : Dev) (new : Nat) : Dev :=
  let slots := d.loops.slot.foldl (fun (t : Tbl LoopSlot) x =>
    if x.2.mode ≠ .off ∨ d.traced x.1 = true then t.upd x.1 (fun l => { l with nextTick := some (l.cfg.grid (new + 50000)) }) else t) d.loops.slot
  let d1 : Dev := { d with loops := { d.loops with slot := slots } }
  (d1.loops.slot.filter (fun x => x.2.cfg.mogulEn)).foldl (fun acc x => acc.mogRestart x.1) d1

/-- An instant of the old corrected time moved so that its distance from the step stays. -/
def moved (t old new : Nat) : Nat := new + t - old

/-- Outputs pending in a die apply at the first base tick at least 200 ns later; one on its way lands when it would have. -/
def OutTag.step (x : OutTag) (old new : Nat) : OutTag :=
  match x.landed with
  | none => x
  | some l => { x with tick := baseTick (new + 200), landed := some (if l ≤ old then new else moved l old new) }

/-- A cycle in progress keeps its own timing; the next starts at the first aligned instant at or after its end; a waiting START is placed again. -/
def Sequencer.step (s : Sequencer) (old new : Nat) : Sequencer :=
  let live := s.state = .running ∨ s.startWait.isSome
  if !live then s
  else
    let s1 : Sequencer := { s with
      cycleStart := moved s.cycleStart old new, cycleEnd := moved s.cycleEnd old new, slipOwed := s.slipOwed + s.set.between s.slipBase old, slipBase := new
      startAt := if s.startWait.isSome then new + 100000 else s.startAt, tdacRel := s.tdacRel.map (fun x => (x.1, moved x.2 old new)) }
    { s1 with nextCycle := s.nextCycle.map (fun _ => if s.set.ticks = 0 then max (new + 1000) ((s1.cycleEnd + 999) / 1000 * 1000) else s.set.first (max (new + 1) s1.cycleEnd)) }

/-- A digital input's debounce runs on, and its loop samples go by the new time. -/
def DigChan.step (x : DigChan) (old new : Nat) : DigChan :=
  { x with loopAt := 0, tEdge := if x.raw = x.diState then x.tEdge else moved x.tEdge old new }

/-- A field die at a step. -/
def FieldDie.step (f : FieldDie) (old new : Nat) : FieldDie :=
  { f with tags := f.tags.map (fun t => t.step old new), seq := f.seq.step old new, dig := f.dig.mapD (fun x => x.step old new), pwmFrom := new + 50000 }

/-- The field dies at a step; a die with nothing listed has nothing pending. -/
def Dev.stepField (d : Dev) (old new : Nat) : Dev :=
  { d with field := { d.field with die := d.field.die.mapD (fun f => if f.run = .run then f.step old new else f) } }

/-! Requested captures (R321). -/

/-- A backward step discards the requests that it places more than 2^31 ns ahead. -/
def Dev.dropReqs (d : Dev) (new : Nat) : Dev :=
  let far (r : SnapReq) : Bool := decide (new + 2 ^ 31 < r.time)
  let gone := d.points.reqs.filter far
  let d1 : Dev := { d with points := { d.points with reqs := d.points.reqs.filter (fun r => !far r) } }
  (gone.foldl (fun acc r => acc.raise 0x0132 0x0100 .warn r.gen.toNat) d1).abortSnap

/-- Every schedule is evaluated against c_new (R317). -/
def Dev.timeStepped (d : Dev) (old new : Nat) : Dev :=
  let d1 := (d.stepLoops new).stepField old new
  if old ≤ new then d1.framesForward new else (d1.framesBackward (old - new) new).dropReqs new

/-- TIME_CHANGE_APPLY (R307): at its raw instant, to which time is brought forward; then the servo takes the samples it held (R322). -/
def execTimeChangeApply (s : State) : Host.Outcome State Fault Refusal :=
  .next (match s.dev.time.pendingChg with
    | none => s
    | some c =>
      if !s.dev.hubUp then s
      else
        let d := s.dev.toRaw c.instant
        let d1 := d.timeChanged c
        let d2 := if c.step.isSome then d1.timeStepped d.now d1.now else d1
        { s with dev := Dev.servoDrain (d2.time.heldQ.length + 1) d2 })

end Sys2Proof.Machine
end

