-- ==== Sys2Proof/Machine/Registers.lean ====
section
/-! DEFINITION. The registers (chapter 00: R6 to R8; R62, R80): the diagnostic pages of every unit, their captured copies, what a read and a write of
each word does, and the diagnostic opcodes. -/

namespace Sys2Proof.Machine

open Sys2Proof.Bits

/-! Queue monitors (Tables 01-4 to 01-7). -/

/-- How many of the queues of a kind there are on the hub, or on a control die; none where the kind is not of that block (Table 01-4). -/
def queueCount (hub : Bool) (kind : Nat) : Nat :=
  if hub then (if 1 ≤ kind ∧ kind ≤ 6 then 4 else 0) else if 0x10 ≤ kind ∧ kind ≤ 0x12 then 16 else 0

/-- A write of a selector (Table 01-5): a reserved encoding leaves its field as it was (R6). -/
def qselWrite (hub : Bool) (old : BitVec 16) (v : Word) : BitVec 16 :=
  let kind := if queueCount hub (Sys2Proof.Bits.fld v 7 0) = 0 then old.toNat % 256 else Sys2Proof.Bits.fld v 7 0
  let inst := if Sys2Proof.Bits.fld v 15 8 < queueCount hub kind then Sys2Proof.Bits.fld v 15 8 else old.toNat / 256
  BitVec.ofNat 16 (kind + 256 * inst)

/-- Key of the monitor that a selector shows. -/
def qselKey (sel : BitVec 16) : Nat := (sel.toNat % 256) * 256 + sel.toNat / 256

/-- HIGH_WATER starts again from the present level. -/
def QMon.cleared (m : QMon) : QMon := { m with highWater := m.level }

/-- QMON_LEVEL. -/
def QMon.levelWord (m : QMon) : Word := pack [(m.level, 0), (m.highWater, 16)]

/-! The pages that are not stated with their unit. -/

/-- HUB_EVR_ROUTE_c (Table 01-10). -/
def EvRoute.word (r : EvRoute) : Word :=
  pack [(r.vector.toNat, 0), (b1 r.msixEn, 5), (b1 r.irq0En, 6), (b1 r.irq1En, 7), (b1 r.fwdUp, 8), (r.minSev.toNat, 9)]

/-- What a write of HUB_EVR_ROUTE_c sets. -/
def evRouteOf (v : Word) : EvRoute :=
  { vector := BitVec.ofNat 5 (Sys2Proof.Bits.fld v 4 0), msixEn := bit v 5, irq0En := bit v 6, irq1En := bit v 7, fwdUp := bit v 8, minSev := BitVec.ofNat 2 (Sys2Proof.Bits.fld v 10 9) }

/-- Unit class codes (Table 01-8). -/
def unitClasses : List Nat :=
  [0x01, 0x02, 0x03, 0x04, 0x10, 0x20, 0x21, 0x22, 0x23, 0x30, 0x31, 0x32, 0x40, 0x41, 0x42, 0x50, 0x51, 0x60]

/-- Word of the hub's page (Tables 01-5 to 01-7, 01-10, 03-15, 12-7, 14-8). -/
def Dev.hubWord (d : Dev) (o : Nat) : Word :=
  let p := d.points
  let q := d.fabric.hubQ.rd (qselKey d.fabric.hubQSel)
  if 0x400 ≤ o ∧ o < 0x600 then (d.evr.routes.rd ((o - 0x400) / 4)).word
  else if 0x610 ≤ o ∧ o < 0x628 then
    let f := p.pframe.rd ((o - 0x610) / 8)
    if o % 8 = 0 then f.accepted else pack [(f.rejected, 0), (f.discarded, 16)]
  else if 0x800 ≤ o ∧ o < 0x980 then d.field.countAcc.rd ((o - 0x800) / 4)
  else if 0xA00 ≤ o ∧ o < 0xA40 then d.time.word ((o - 0xA00) / 4)
  else match o with
    | 0x200 => w32 d.fabric.hubQSel.toNat
    | 0x204 => q.levelWord
    | 0x208 => q.stallUs
    | 0x600 => w32 p.collideCnt
    | 0x604 => w32 p.freeSlots
    | 0x608 => w32 p.freeLow
    | 0x60C => p.poolStallUs
    | 0x630 => pack [(p.nextReqGen, 0), (p.reqs.length, 16)]
    | _ => 0

/-- Word of the active control die's page (Tables 01-5 to 01-7, 06-9, 10-6). -/
def Dev.ctlWord (d : Dev) (o : Nat) : Word :=
  let j := d.jobs
  let q := d.fabric.ctlQ.rd (qselKey d.fabric.ctlQSel)
  match o with
  | 0x200 => w32 d.fabric.ctlQSel.toNat
  | 0x204 => q.levelWord
  | 0x208 => q.stallUs
  | 0x600 => pack [(j.fConverged, 0), (j.fFallback, 16)]
  | 0x604 => pack [(j.fInfeasible, 0), (j.fRejected, 16)]
  | 0x608 => pack [(j.fNoAccepted, 0), (j.fShifted, 16)]
  | 0x60C => w32 j.wsBytes
  | 0x610 => pack [(j.wsCrcCnt, 0), (j.table.length, 16)]
  | 0x614 => w32 j.countsFrame
  | _ => d.slalom.word o

/-- Word of the standby control die's page: every field at default but those that a write has changed. -/
def Dev.coldWord (d : Dev) (o : Nat) : Word := Tbl.rdD (if o = 0x200 then 0x10 else 0) d.fabric.coldRegs o

/-- A write of the standby's page. -/
def Dev.coldWrite (d : Dev) (o : Nat) (v : Word) : Dev :=
  let set (w : Word) : Dev := { d with fabric := { d.fabric with coldRegs := d.fabric.coldRegs.wr o w } }
  match o with
  | 0x200 => set (w32 (qselWrite false (BitVec.ofNat 16 (d.coldWord 0x200).toNat) v).toNat)
  | 0x610 => set (w32 (Sys2Proof.Bits.fld v 15 0))
  | 0x834 | 0x840 => set v
  | _ => d

/-! Which words there are. -/

/-- The page of unit `u`, instance `i` exists (Table 02-19). -/
def pageExists (u i : Nat) : Bool :=
  match u with
  | 0x10 | 0x31 | 0x32 => decide (i < 4)
  | 0x20 => decide (i < 16)
  | 0x30 => decide (i < 3)
  | _ => unitClasses.contains u && decide (i = 0)

/-- Offset `o` lies within the field-die page's words (Tables 11-7, 11-12, 11-14, 12-7). -/
def fieldMapped (o : Nat) : Bool :=
  decide (o < 0x20 ∨ (0x400 ≤ o ∧ o < 0x860) ∨ (0x900 ≤ o ∧ o < 0xA80) ∨ (0xB00 ≤ o ∧ o < 0xB18) ∨ (0x1000 ≤ o ∧ o < 0x1054)) ||
  decide (0x1100 ≤ o ∧ o < 0x1200 ∧ o % 16 ≠ 12) || decide (0x1200 ≤ o ∧ o < 0x1280) ||
  decide (0x1300 ≤ o ∧ o < 0x1600 ∧ (o % 32 < 0x14 ∨ (o < 0x1400 ∧ o % 32 < 0x1C)))

/-- Offset `o` of the live registers of unit `u` is mapped. -/
def liveMapped (u o : Nat) : Bool :=
  match u with
  | 0x01 => decide ((0x200 ≤ o ∧ o < 0x20C) ∨ (0x600 ≤ o ∧ o < 0x628) ∨ o = 0x630 ∨ (0x800 ≤ o ∧ o < 0x980) ∨ (0xA00 ≤ o ∧ o < 0xA40)) ||
      (decide (0x400 ≤ o) && unitClasses.contains ((o - 0x400) / 4))
  | 0x02 | 0x03 | 0x04 => decide ((0x200 ≤ o ∧ o < 0x20C) ∨ (0x600 ≤ o ∧ o < 0x618) ∨ (0x800 ≤ o ∧ o < 0x844))
  | 0x10 => fieldMapped o
  | 0x20 => decide (o < 0x34)
  | 0x21 => decide (o < 0x20)
  | 0x22 => decide (o < 0x38)
  | 0x23 => decide (o < 0x10 ∨ (0x400 ≤ o ∧ o < 0x1440) ∨ (0x2000 ≤ o ∧ o < 0x3880) ∨ o = 0x3900)
  | 0x30 => decide (0x400 ≤ o ∧ o < 0x424)
  | 0x31 => decide (o < 0x38)
  | 0x32 => decide (o < 0x24)
  | 0x40 => decide (o < 0x2C ∨ (0x40 ≤ o ∧ o < 0x80 ∧ o % 16 < 8))
  | 0x41 => decide (o < 0x24)
  | 0x42 => decide (o < 8 ∨ (0x100 ≤ o ∧ o < 0x500))
  | 0x50 => decide (o < 0x30)
  | 0x51 => decide (o < 0x34)
  | 0x60 => decide (o < 0xC)
  | _ => false

/-- Offset `o` is mapped (R80): a live register, a captured one, or a bank's SNAP_TAG. -/
def wordMapped (u o : Nat) : Bool :=
  if o % 4 ≠ 0 then false
  else if o < 0x3FFC then liveMapped u o
  else if 0x8000 ≤ o ∧ o < 0x10000 then decide (o % 0x4000 = 0x3FFC) || liveMapped u (o % 0x4000)
  else false

/-! Reads. -/

/-- The word shows the active control die's registers. -/
def Dev.onActive (d : Dev) (u : Nat) : Bool := u = 2 || decide (d.activeDie = some (u - 3))

/-- The live word at offset `o` of a page. -/
def Dev.liveWord (d : Dev) (u i o : Nat) : Word :=
  match u with
  | 0x01 => d.hubWord o
  | 0x02 | 0x03 | 0x04 => if d.onActive u then d.ctlWord o else d.coldWord o
  | 0x10 => if 0x900 ≤ o ∧ o < 0x1000 then (d.fld i).digWord o d.now d.time.raw else (d.fld i).anaWord o
  | 0x20 => d.seWord i o
  | 0x21 => d.pisteWord o
  | 0x22 => d.coordWord o
  | 0x23 => d.loopWord o
  | 0x30 => (d.time.port.rd i).word ((o - 0x400) / 4)
  | 0x31 => (d.canAt i).word (o / 4)
  | 0x32 => d.jlWord i o
  | 0x40 => d.backup.word o
  | 0x41 => d.recWord o
  | 0x42 => d.keyWord o
  | 0x50 => d.power.word o
  | 0x51 => d.twinWord o
  | 0x60 => d.test.word o
  | _ => 0

/-- What a word shows that is measured is measured now: a free value (Tables 12-7, 19-9). -/
def Dev.measureAt (d : Dev) (u i o : Nat) : Dev :=
  if u = 0x10 ∧ 0x900 ≤ o ∧ o < 0xA80 then d.measureChan i ((o - 0x900) / 16)
  else if u = 0x50 then d.measurePower
  else d

/-- RTC_SEC_HI and RTC_FRAC are latched (R329). -/
def Dev.latchRtc (d : Dev) : Dev := d.setBackup { d.backup with shadow := d.backup.count }

/-- RAW_HI is latched (R306). -/
def Dev.latchRaw (d : Dev) : Dev := d.setTime { d.time with shRawHi := w32 (d.time.raw / 2 ^ 32) }

/-- TIME_HI and TIME_FRAC are latched (R306). -/
def Dev.latchTime (d : Dev) : Dev :=
  d.setTime { d.time with shTimeHi := w32 (d.now / 2 ^ 32), shFrac := w32 ((d.time.ctFix d.time.raw) % 65536).toNat }

/-- HUB_QMON_LEVEL has been read. -/
def Dev.hubQRead (d : Dev) : Dev := { d with fabric := { d.fabric with hubQ := d.fabric.hubQ.upd (qselKey d.fabric.hubQSel) QMon.cleared } }

/-- CTL_QMON_LEVEL has been read. -/
def Dev.ctlQRead (d : Dev) : Dev := { d with fabric := { d.fabric with ctlQ := d.fabric.ctlQ.upd (qselKey d.fabric.ctlQSel) QMon.cleared } }

/-- FREE_LOW has been read: it starts again from the present count. -/
def Dev.freeLowRead (d : Dev) : Dev := { d with points := { d.points with freeLow := d.points.freeSlots } }

/-- MIN_SLACK has been read. -/
def Dev.minSlackRead (d : Dev) : Dev := { d with loops := { d.loops with minSlack := 65535 } }

/-- MAX_GLIDE_US has been read. -/
def Dev.maxGlideRead (d : Dev) : Dev := d.setTwin { d.twin with maxGlideUs := 0 }

/-- RESID_MAX_NS has been read. -/
def Dev.residRead (d : Dev) (p : Nat) : Dev := d.setPtp p { d.time.port.rd p with residMaxNs := 0 }

/-- What the read of a live word does (Table 00-3): an RS field is cleared, a latch takes its value. -/
def Dev.readEffect (d : Dev) (u i o : Nat) : Dev :=
  match u, o with
  | 0x01, 0x204 => d.hubQRead
  | 0x01, 0x608 => d.freeLowRead
  | 0x01, 0xA00 => d.latchRaw
  | 0x01, 0xA08 => d.latchTime
  | 0x02, 0x204 | 0x03, 0x204 | 0x04, 0x204 => if d.onActive u then d.ctlQRead else d
  | 0x23, 0x0C => d.minSlackRead
  | 0x30, 0x41C => d.residRead i
  | 0x40, 0x00 => d.latchRtc
  | 0x51, 0x08 => d.maxGlideRead
  | _, _ => d

/-- Key of the reset count of the die that holds a page; the hub's pages have none, since a capture does not outlive its reset. -/
def epochKey (u i : Nat) : Option Nat :=
  if u = 0x10 then some (16 + i) else if u = 2 ∨ u = 3 ∨ u = 4 ∨ (0x20 ≤ u ∧ u ≤ 0x23) then some 0 else none

/-- The bank holds a capture of the page (R80): its unit has not returned to default since, and on a control die it is the page of the die that was
active. -/
def Bank.holds (b : Bank) (d : Dev) (u i : Nat) : Bool :=
  b.gen.isSome &&
  (match epochKey u i with
   | none => true
   | some k => decide (b.dev.fabric.epochs.rd k = d.fabric.epochs.rd k) && (u = 0x10 || (b.dev.activeDie.isSome && (decide (0x20 ≤ u) || b.dev.onActive u))))

/-- SNAP_TAG (Table 03-14). -/
def Bank.tag (b : Bank) (d : Dev) (u i : Nat) : Word := if b.holds d u i then pack [(b.gen.getD 0, 0), (1, 16)] else 0

/-- A captured word (R80); the measurements are those of the capture. -/
def Bank.word (b : Bank) (d : Dev) (u i o : Nat) : Word :=
  if o = 0x3FFC then b.tag d u i
  else if b.holds d u i then
    let k := if u = 0x10 then 64 * i + 2 * ((o - 0x900) / 16) else 256
    (Dev.measureAt { b.dev with free := b.dev.free + k } u i o).liveWord u i o
  else 0

/-- A word is read: its value, and the device after the read. -/
def State.readWord (s : State) (u i o : Nat) : Word × Dev :=
  if o < 0x8000 then
    let d := s.dev.measureAt u i o
    (d.liveWord u i o, d.readEffect u i o)
  else ((if o < 0xC000 then s.frameBank else s.reqBank).word s.dev u i (o % 0x4000), s.dev)

/-- `n` words are read, ascending. -/
def State.readWords (u i o : Nat) : Nat → State → List Word × State
  | 0, s => ([], s)
  | n + 1, s =>
    let x := s.readWord u i o
    let y := State.readWords u i (o + 4) n { s with dev := x.2 }
    (x.1 :: y.1, y.2)

/-! Writes. -/

/-- A write of the hub's page. -/
def Dev.hubWrite (d : Dev) (o : Nat) (v : Word) : Dev :=
  let p := d.points
  if 0x400 ≤ o ∧ o < 0x600 then { d with evr := { d.evr with routes := d.evr.routes.wr ((o - 0x400) / 4) (evRouteOf v) } }
  else if 0x610 ≤ o ∧ o < 0x628 ∧ o % 8 = 4 then
    { d with points := { p with pframe := p.pframe.upd ((o - 0x610) / 8) (fun f => { f with rejected := Sys2Proof.Bits.fld v 15 0, discarded := Sys2Proof.Bits.fld v 31 16 }) } }
  else match o with
    | 0x200 => { d with fabric := { d.fabric with hubQSel := qselWrite true d.fabric.hubQSel v } }
    | 0x600 => { d with points := { p with collideCnt := v.toNat } }
    | 0xA30 => d.setTime { d.time with stepCnt := Sys2Proof.Bits.fld v 15 0, outlierCnt := Sys2Proof.Bits.fld v 31 16 }
    | _ => d

/-- A write of the active control die's page. -/
def Dev.ctlWrite (d : Dev) (o : Nat) (v : Word) : Dev :=
  match o with
  | 0x200 => { d with fabric := { d.fabric with ctlQSel := qselWrite false d.fabric.ctlQSel v } }
  | 0x610 => { d with jobs := { d.jobs with wsCrcCnt := Sys2Proof.Bits.fld v 15 0 } }
  | 0x834 => d.setSlm { d.slalom with stepsUp := Sys2Proof.Bits.fld v 15 0, deferred := Sys2Proof.Bits.fld v 31 16 }
  | 0x840 => d.setSlm { d.slalom with jrnlWaits := Sys2Proof.Bits.fld v 15 0, jrnlBusy := Sys2Proof.Bits.fld v 31 16 }
  | _ => d

/-- A write of field die `i`'s page. -/
def Dev.fieldWrite (d : Dev) (i o : Nat) (v : Word) : Dev :=
  let f := d.fld i
  if 0x900 ≤ o ∧ o < 0xA80 then
    if o % 16 = 8 then d.setDig i ((o - 0x900) / 16) { d.dig i ((o - 0x900) / 16) with faultCnt := Sys2Proof.Bits.fld v 31 16 } else d
  else match o with
    | 0x18 => d.setFld i { f with seq := { f.seq with slipCnt := Sys2Proof.Bits.fld v 15 0, superseded := Sys2Proof.Bits.fld v 31 16 } }
    | 0x1C => d.setFld i { f with seq := { f.seq with testFailCnt := Sys2Proof.Bits.fld v 15 0 } }
    | 0xB08 => d.setFld i { f with snowCnt := Sys2Proof.Bits.fld v 15 0, cycleHold := Sys2Proof.Bits.fld v 31 16 }
    | _ => d

/-- A write of the pages of a control die's units. -/
def Dev.engineWrite (d : Dev) (u i o : Nat) (v : Word) : Dev :=
  let lo := Sys2Proof.Bits.fld v 15 0
  let hi := Sys2Proof.Bits.fld v 31 16
  match u, o with
  | 0x20, 0x20 => d.setEng i { d.eng i with pivregCnt := lo, inertiaCnt := hi }
  | 0x20, 0x24 => d.setEng i { d.eng i with numericCnt := lo, compactCnt := hi }
  | 0x20, 0x28 => d.setEng i { d.eng i with eccCorr := lo, retainMiss := hi }
  | 0x21, 0x0C => d.setPiste { d.piste with substCnt := v.toNat }
  | 0x21, 0x10 => d.setPiste { d.piste with failCnt := lo }
  | 0x21, 0x18 => d.setPiste { d.piste with sigSel := Sys2Proof.Bits.fld v 11 0 }
  | 0x22, 0x28 => d.setCoord { d.coord with lateCnt := lo, capCnt := hi }
  | 0x22, 0x2C => d.setCoord { d.coord with mismatchCnt := lo }
  | _, _ => d

/-- A write of the loop engine's page. -/
def Dev.loopWrite (d : Dev) (o : Nat) (v : Word) : Dev :=
  let l := (o - 0x400) / 32
  if o = 0x08 then { d with loops := { d.loops with overrunSum := Sys2Proof.Bits.fld v 15 0, staleSum := Sys2Proof.Bits.fld v 31 16 } }
  else if 0x400 ≤ o ∧ o < 0x1400 ∧ o % 32 = 0x10 then d.setSlot l { d.slot l with overrun := Sys2Proof.Bits.fld v 15 0, staleCnt := Sys2Proof.Bits.fld v 31 16 }
  else if 0x400 ≤ o ∧ o < 0x1400 ∧ o % 32 = 0x14 then d.setSlot l { d.slot l with numericCnt := Sys2Proof.Bits.fld v 15 0 }
  else if 0x2000 ≤ o ∧ o < 0x3000 ∧ o % 32 = 0x14 then d.setSup ((o - 0x2000) / 32) { d.sup ((o - 0x2000) / 32) with failCnt := Sys2Proof.Bits.fld v 15 0 }
  else d

/-- A write of the pages of the hub's units. -/
def Dev.unitWrite (d : Dev) (u i o : Nat) (v : Word) : Dev :=
  let lo := Sys2Proof.Bits.fld v 15 0
  let hi := Sys2Proof.Bits.fld v 31 16
  match u, o with
  | 0x30, 0x41C => d.setPtp i { d.time.port.rd i with badMsg := lo }
  | 0x31, 0x0C => d.setCan i { d.canAt i with rxLost := lo, prioLost := hi }
  | 0x31, 0x10 => d.setCan i { d.canAt i with mapLost := lo, mapShort := hi }
  | 0x31, 0x14 => d.setCan i { d.canAt i with busoffCnt := lo, clashCnt := hi }
  | 0x31, 0x24 => d.setCan i { d.canAt i with refLate := hi }
  | 0x32, 0x0C => d.setJl i { d.jl i with crcErr := lo, authErr := hi }
  | 0x32, 0x1C => d.setJl i { d.jl i with downCnt := lo, impDiscard := hi }
  | 0x40, 0x0C => d.rtcFlagsWrite v
  | 0x40, 0x20 => d.setBackup { d.backup with switchCnt := lo, adjCnt := hi }
  | 0x40, _ => if 0x40 ≤ o ∧ o % 16 = 0 then d.evinStatusWrite ((o - 0x40) / 16) v else d
  | 0x41, 0x08 => { d with recorder := { d.recorder with saturated := d.recorder.saturated && !bit v 18 } }
  | 0x50, 0x24 => d.setPwr { d.power with feedEvtCnt := hi }
  | 0x50, 0x2C => d.setPwr { d.power with railFailCnt := lo, muxSwitchCnt := hi }
  | 0x51, 0x04 => d.setTwin { d.twin with failovers := lo, swaps := hi }
  | 0x51, 0x1C => d.setTwin { d.twin with hbLate := lo, arbMismatch := hi }
  | 0x51, 0x20 => d.updCtl 0 (fun c => { c with failCnt := lo })
  | 0x51, 0x28 => d.updCtl 1 (fun c => { c with failCnt := lo })
  | 0x60, 0x04 => { d with test := { d.test with runs := lo, runFails := hi } }
  | _, _ => d

/-- A word is written (Table 00-3); captured words are read-only (R80). -/
def Dev.writeWord (d : Dev) (u i o : Nat) (v : Word) : Dev :=
  if 0x8000 ≤ o then d
  else if u = 0x01 then d.hubWrite o v
  else if 2 ≤ u ∧ u ≤ 4 then (if d.onActive u then d.ctlWrite o v else d.coldWrite o v)
  else if u = 0x10 then d.fieldWrite i o v
  else if u = 0x23 then d.loopWrite o v
  else if 0x20 ≤ u ∧ u ≤ 0x22 then d.engineWrite u i o v
  else d.unitWrite u i o v

/-- Words are written, ascending. -/
def Dev.writeWords (u i : Nat) : List Word → Nat → Dev → Dev
  | [], _, d => d
  | v :: vs, o, d => Dev.writeWords u i vs (o + 4) (d.writeWord u i o v)

/-! The diagnostic opcodes (R62). -/

/-- Unit class in a diagnostic address. -/
def diagUnit (a : Word) : Nat := Sys2Proof.Bits.fld a 31 24
/-- Instance in a diagnostic address. -/
def diagInst (a : Word) : Nat := Sys2Proof.Bits.fld a 23 16
/-- Offset in a diagnostic address. -/
def diagOfs (a : Word) : Nat := Sys2Proof.Bits.fld a 15 0

/-- UNIT and INSTANCE are those of the address, and there is such a page. -/
def onDiag (p : Packet) : Bool :=
  let a := nth p.params 0
  decide (p.unit = diagUnit a ∧ p.inst = diagInst a ∧ p.sub = 0) && pageExists p.unit p.inst

/-- Every one of `n` words from offset `o` on is mapped. -/
def rangeMapped (u o n : Nat) : Bool := (List.range n).all (fun j => decide (o + 4 * j < 0x10000) && wordMapped u (o + 4 * j))

/-- A control die that a diagnostic packet addresses (R48): by alias, and for the units on it, the active one; by class, an active or cold one. -/
def Dev.diagDie (d : Dev) (u : Nat) : DieOut :=
  if u = 2 ∨ (0x20 ≤ u ∧ u ≤ 0x23) then d.dieRule u
  else if u = 3 ∨ u = 4 then
    match d.dieRule u with
    | .bad st => if st = stStandby then .go else .bad st
    | x => x
  else .go

/-- Runs a diagnostic opcode where its die lets it. -/
def State.diag (s : State) (q : QPacket) (n : Nat) (checks : List (Bool × Nat × Nat)) (ans : Ans) : Ans :=
  match s.dev.diagDie q.pkt.unit with
  | .wait => { st := s, waits := true }
  | .bad st => { st := s, status := st, detail := 2 }
  | .go => guarded s (checks ++ [(!rangeMapped q.pkt.unit (diagOfs (q.par 0)) n, stBadAddress, 4)]) ans

/-- DIAG_READ. -/
def opDiagRead : Op where
  code := 0x0E01
  target := onDiag
  params := 2
  sizeAt := 5
  body s q :=
    let a := q.par 0
    let n := q.f 1 8 0
    let x := State.readWords (diagUnit a) (diagInst a) (diagOfs a) n s
    s.diag q n [encIf (q.resv 1 0x1FF) 1, rangeIf (outside n 1 256) 1] { st := x.2, words := x.1 }

/-- DIAG_READ. -/
def execDiagRead (p : Packet) (s : State) : Host.Outcome State Fault Refusal := .next (packetRow opDiagRead p s)

/-- DIAG_WRITE. -/
def opDiagWrite : Op where
  code := 0x0E02
  target := onDiag
  params := 2
  body s q :=
    let a := q.par 0
    let n := q.f 1 8 0
    s.diag q n [encIf (q.resv 1 0x1FF) 1, rangeIf (outside n 1 256) 1, (decide (q.n ≠ 2 + n), stBadLength, 1)]
      (.ok s (s.dev.writeWords (diagUnit a) (diagInst a) (q.from' 2) (diagOfs a)))

/-- DIAG_WRITE. -/
def execDiagWrite (p : Packet) (s : State) : Host.Outcome State Fault Refusal := .next (packetRow opDiagWrite p s)

/-- DIAG_MODIFY: the old value is read, with a read's effects, and (old AND NOT MASK) OR (VALUE AND MASK) written. -/
def opDiagModify : Op where
  code := 0x0E03
  target := onDiag
  params := 3
  body s q :=
    let a := q.par 0
    let x := s.readWord (diagUnit a) (diagInst a) (diagOfs a)
    let new := (x.1 &&& ~~~(q.par 1)) ||| (q.par 2 &&& q.par 1)
    s.diag q 1 [] { st := { s with dev := x.2.writeWord (diagUnit a) (diagInst a) (diagOfs a) new }, words := [x.1] }

/-- DIAG_MODIFY. -/
def execDiagModify (p : Packet) (s : State) : Host.Outcome State Fault Refusal := .next (packetRow opDiagModify p s)

/-! Single accesses. -/

/-- Reads one word as a command of its own, with its effect; the word goes out. -/
def State.readOut (s : State) (u i o : Nat) : State :=
  let x := s.readWord u i o
  { s with dev := x.2.emit (.regRead (u * 2 ^ 24 + i * 2 ^ 16 + o) x.1) }

/-- QMON_LEVEL_READ (Table 01-6). -/
def execQmonLevelRead (ctl : Bool) (s : State) : Host.Outcome State Fault Refusal :=
  .next (if !s.dev.hubUp ∨ (ctl = true ∧ s.dev.ctlUp = false) then s else s.readOut (if ctl then 2 else 1) 0 0x204)

/-- FREE_LOW_READ (Table 03-15). -/
def execFreeLowRead (s : State) : Host.Outcome State Fault Refusal := .next (if s.dev.hubUp then s.readOut 0x01 0 0x608 else s)

/-- MIN_SLACK_READ (Table 08-10). -/
def execMinSlackRead (s : State) : Host.Outcome State Fault Refusal := .next (if s.dev.hubUp && s.dev.ctlUp then s.readOut 0x23 0 0x0C else s)

/-- MAX_GLIDE_US_READ (Table 13-9). -/
def execMaxGlideUsRead (s : State) : Host.Outcome State Fault Refusal := .next (if s.dev.hubUp then s.readOut 0x51 0 0x08 else s)

/-- A write of a BAR0 register without a row of its own (Tables 02-8 and 02-10): a ring address whose bits 11 to 0 are not 0, and COUNT 0, are reserved
encodings. -/
def Dev.barWrite (d : Dev) (o : Nat) (v : Word) : Dev :=
  let r := d.host.ring
  let lo (b : BitVec 64) : BitVec 64 := if Sys2Proof.Bits.fld v 11 0 = 0 then BitVec.ofNat 64 (b.toNat / 2 ^ 32 * 2 ^ 32 + v.toNat) else b
  let hi (b : BitVec 64) : BitVec 64 := BitVec.ofNat 64 (v.toNat * 2 ^ 32 + b.toNat % 2 ^ 32)
  match o with
  | 0x20 => d.hostCtlWrite v
  | 0x30 => d.setRing { r with sqBase := lo r.sqBase }
  | 0x34 => d.setRing { r with sqBase := hi r.sqBase }
  | 0x38 => d.setRing { r with cqBase := lo r.cqBase }
  | 0x3C => d.setRing { r with cqBase := hi r.cqBase }
  | 0x4C => d.cqHeadWrite v
  | 0x50 => d.setRing { r with
      irqVector := BitVec.ofNat 5 (Sys2Proof.Bits.fld v 4 0), irqMsixEn := bit v 5, irqCount := if Sys2Proof.Bits.fld v 15 8 = 0 then r.irqCount else Sys2Proof.Bits.fld v 15 8, irqTimeUs := Sys2Proof.Bits.fld v 31 16 }
  | 0x60 => d.hostErrWrite v
  | _ => d

/-- REGISTER_WRITE (R7): an address below 0x0100_0000 is a BAR0 offset, any other one a diagnostic address. An address that is not mapped is written to no
effect. -/
def execRegisterWrite (addr v : Word) (s : State) : Host.Outcome State Fault Refusal :=
  .next (
    let u := diagUnit addr
    let d := s.dev
    let go := match d.diagDie u with
      | .go => true
      | _ => false
    if !d.hubUp then s
    else if u = 0 then { s with dev := d.barWrite addr.toNat v }
    else if pageExists u (diagInst addr) && wordMapped u (diagOfs addr) && go then { s with dev := d.writeWord u (diagInst addr) (diagOfs addr) v }
    else s)

end Sys2Proof.Machine
end

