-- ==== Sys2Proof/Machine/Interp.lean ====
section
/-! DEFINITION. What the command interpreter and the eMRAM writer do later than the packet's arrival (R47, R226 to R228): the table of opcodes, packets that
wait for a capture, commands that wait for journal room, and the end of each eMRAM write. -/

namespace Sys2Proof.Machine

open Sys2Proof.Bits

/-- Opcodes of Table 02-20, part 1. -/
def opcodes1 : List Op :=
  [opNop, opDevIdent, opDeviceReset, opDieReset, opFieldReset, opResetCause, opFwStage, opFwActivate, opFrameSet, opFrameStop, opFrameStatus,
   opHostConfig, opHostStatus, opEthIfConfig, opPointRead, opPointWrite, opPointBlockWrite, opPointBlockRead, opSnapshotAt, opSnapshotRead,
   opSnapshotStatus, opPframeConfig, opModelLoad, opModelCommit, opModelStatus, opPartitionSet, opSubstSet, opJobSubmit, opJobResult, opJobCancel,
   opMemAlloc, opMemFree]

/-- Opcodes of Table 02-20, part 2. -/
def opcodes2 : List Op :=
  [opMemWrite, opMemRead, opSolverConfig, opSolverStatus, opCoordConfigSettings, opCoordConfigScope, opCoordStatus, opJlPortConfig, opJlStatus,
   opRelay, opLoopConfig, opLoopSectionSet, opLoopMode, opLoopStatus, opOverrideConfig, opSupervConfig, opSupervAck, opSupervRestartModel,
   opSupervStatus, opMogulConfig, opMogulPageRead, opTraceConfig, opTraceArm, opTraceDisarm, opTraceRead, opDchConfig, opDchStatus, opArmOutputs,
   opOutputSet, opSafeConfig, opCounterRead, opAchConfig]

/-- Opcodes of Table 02-20, part 3. -/
def opcodes3 : List Op :=
  [opSeqWrite, opSeqStart, opSeqStop, opSeqResult, opCalChannelTrim, opCalNtc, opCalAoTrim, opCalHbManual, opCalHbAuto, opCalUserDefaults,
   opTestdacSet, opTimeRead, opTimeAdjustOffset, opTimeAdjustStep, opTimeAdjustSet, opTimeAdjustFreq, opPtpConfig, opPtpStatus, opServoConfig,
   opReadRtc, opWriteRtcNextEdge, opWriteRtcAtTime, opRtcTrimSet, opRtcSyncConfig, opRtcAlarmSet, opRtcAlarmCancel, opEvinConfig, opEvinRead,
   opCanConfig, opCanFilter, opCanSend, opCanReceive]

/-- Opcodes of Table 02-20, part 4. -/
def opcodes4 : List Op :=
  [opCanStatus, opCanTimeConfig, opCanMap, opCanRecoverBus, opCanRecoverBuffer, opRecRead, opRecStatus, opRecMark, opKeyProvision, opKeyDerive,
   opKeyStatus, opKeyChallenge, opKeyErase, opBudgetStatus, opPwrCapSet, opBudgetConfig, opTwinStatus, opSwap, opSwapCancel, opTwinConfig,
   opTwinRecover, opHealthReport, opPwrStatus, opLowpowerSetRun, opLowpowerSetQuiesce, opLowpowerSetKeep, opRailConfig, opSelftestRun,
   opSelftestResult, opDiagRead, opDiagWrite, opDiagModify]

/-- The opcode row that a packet spells. -/
def opOf (p : Packet) : Option Op := (opcodes1 ++ opcodes2 ++ opcodes3 ++ opcodes4).find? (fun op => decide (op.code = p.opcode) && op.sel p)

/-! AT_SNAPSHOT (R47). -/

/-- AT_SNAPSHOT_RELEASE: the oldest packet that a capture has let go, and that may start, takes effect. -/
def execAtSnapshotRelease (s : State) : Host.Outcome State Fault Refusal :=
  .next (match s.dev.host.queue.find? (fun q => q.waitsSnap && q.snapDone && !q.started && mayStart s.dev.host.queue q) with
    | none => s
    | some q => match opOf q.pkt with
      | none => s
      | some op => execQ op s q)

/-! Commands that wait for journal room (R226). -/

/-- Granules that a waiting command asks for. -/
def JrnWait.need (w : JrnWait) : Nat := if w.auth then 1 else granulesOf w.pkt.n

/-- The state without a waiting command. -/
def State.unwait (s : State) (w : JrnWait) : State :=
  { s with dev := s.dev.setSlm { s.dev.slalom with jrnWait := s.dev.slalom.jrnWait.erase w } }

/-- A waiting class N command is checked again, its entry admitted, and it takes effect. -/
def State.admitNow (s : State) (op : Op) (q : QPacket) : State :=
  let a := op.body s q
  if !accepted a.status then s.finish q a.status a.detail []
  else if a.status = stOkNoChange then op.after q (a.st.finish q a.status 0 a.words)
  else endClassN op s q a

/-- JOURNAL_ADMIT (R226): the oldest waiting command whose entry finds room; a packet that waits for its key's entry is verified again (R379). -/
def execJournalAdmit (s : State) : Host.Outcome State Fault Refusal :=
  .next (match s.dev.slalom.jrnWait.find? (fun w => s.dev.slalom.room w.need) with
    | none => s
    | some w =>
      let s1 := s.unwait w
      if w.auth then { s1 with dev := s1.dev.verify w.pkt.pkt }
      else match opOf w.pkt.pkt with
        | none => s
        | some op =>
          if !op.die then s1.admitNow op w.pkt
          else match s.dev.dieRule w.pkt.pkt.unit with
            | .go => s1.admitNow op w.pkt
            | .wait => s
            | .bad st => s1.finish w.pkt st 2 [])

/-- JOURNAL_WAIT_TIMEOUT (R226): 100 ms; time is brought forward. -/
def execJournalWaitTimeout (s : State) : Host.Outcome State Fault Refusal :=
  .next (match s.dev.slalom.jrnWait with
    | [] => s
    | w :: _ =>
      let s1 : State := { s with dev := s.dev.toRaw w.deadline }
      let s2 := s1.unwait w
      let n := bump 16 s2.dev.slalom.jrnlBusy
      let d := (s2.dev.setSlm { s2.dev.slalom with jrnlBusy := n }).satAt 0x50 16 n
      { s2 with dev := d }.finish w.pkt stBusy 0 [])

/-! The eMRAM writer (R228). -/

/-- Priority of a request, the highest first. -/
def EmramReq.rank (r : EmramReq) : Nat :=
  match r with
  | .save => 0 | .records => 1 | .journal => 2 | .model => 3 | .firmware => 4

/-- The highest of the requests. -/
def topRequest (l : List EmramReq) : Option EmramReq :=
  l.foldl (fun (a : Option EmramReq) r => match a with
    | none => some r
    | some x => if r.rank < x.rank then some r else some x) none

/-- The writer starts the highest pending request; the journal asks for as long as it holds an entry. -/
def Slalom.serve (x : Slalom) : Slalom :=
  match topRequest (x.emram ++ (if x.journal = [] then [] else [.journal])) with
  | none => { x with emramBusy := none }
  | some r => { x with emramBusy := some r, emram := x.emram.erase r }

/-- An entry has reached the eMRAM: a reply that waited for it goes out (R227). -/
def State.journalled (s : State) (e : JournalEntry) : State :=
  match e.reply with
  | none => s
  | some r =>
    let s1 := s.finish r.pkt r.status 0 r.words
    match opOf r.pkt.pkt with
    | none => s1
    | some op => op.after r.pkt s1

/-- The drain has written one granule, in T_GRAN at least. -/
def State.drain (s : State) : State :=
  match s.dev.slalom.journal with
  | [] => s
  | e :: es =>
    let d := s.dev.pass 2000
    if e.granules ≤ 1 then { s with dev := d.setSlm { d.slalom with journal := es } }.journalled e
    else
      let x := { e with granules := e.granules - 1 }
      { s with dev := d.setSlm { d.slalom with journal := x :: es } }

/-- FW_STAGE packets whose write is pending, oldest first. -/
def Dev.stagePackets (d : Dev) : List QPacket := d.host.queue.filter (fun q => q.started && decide (q.pkt.opcode = 0x0106))

/-- The oldest FW_STAGE write has ended. -/
def Dev.staged (d : Dev) : Dev :=
  match d.stagePackets with
  | [] => d.setPwr { d.power with stageBusy := false }
  | q :: qs =>
    let d1 := d.stageWrite q
    (d1.setPwr { d1.power with stageBusy := decide (qs ≠ []) }).finish q stOk 0 []

/-- What the write that ends has done. -/
def State.written (s : State) (r : EmramReq) : State :=
  match r with
  | .save | .records => s
  | .journal => s.drain
  | .model => { s with dev := s.dev.modelWritten }
  | .firmware => { s with dev := s.dev.staged }

/-- EMRAM_WRITE_DONE (R228). -/
def execEmramWriteDone (s : State) : Host.Outcome State Fault Refusal :=
  .next (match s.dev.slalom.emramBusy with
    | none => s
    | some r =>
      let s1 := s.written r
      let d := s1.dev.setSlm s1.dev.slalom.serve
      { s1 with dev := if d.ctlUp then d.holdupLow.holdupOk else d })

end Sys2Proof.Machine
end

