-- ==== Sys2Proof/Machine/Tap.lean ====
section
/-! DEFINITION. The JTAG test access port (R433, R425): the TAP controller of IEEE 1149.1, its instruction register and what it selects. -/

namespace Sys2Proof.Machine

/-- The TAP controller's next state at a rising TCK edge with TMS `m`. -/
def TapState.next (t : TapState) (m : Bool) : TapState :=
  match t with
  | .testLogicReset => if m then .testLogicReset else .runTestIdle
  | .runTestIdle => if m then .selectDr else .runTestIdle
  | .selectDr => if m then .selectIr else .captureDr
  | .captureDr => if m then .exit1Dr else .shiftDr
  | .shiftDr => if m then .exit1Dr else .shiftDr
  | .exit1Dr => if m then .updateDr else .pauseDr
  | .pauseDr => if m then .exit2Dr else .pauseDr
  | .exit2Dr => if m then .updateDr else .shiftDr
  | .updateDr => if m then .selectDr else .runTestIdle
  | .selectIr => if m then .testLogicReset else .captureIr
  | .captureIr => if m then .exit1Ir else .shiftIr
  | .shiftIr => if m then .exit1Ir else .shiftIr
  | .exit1Ir => if m then .updateIr else .pauseIr
  | .pauseIr => if m then .exit2Ir else .pauseIr
  | .exit2Ir => if m then .updateIr else .shiftIr
  | .updateIr => if m then .selectDr else .runTestIdle

/-- What a JTAG instruction code does. -/
inductive TapInstr where
  | extest | idcode | sample | highz | clamp | bypass
  deriving DecidableEq, Repr

/-- IDCODE (R433): version 1, part 0x9616, manufacturer field 0x4F3. -/
def tapIdcode : BitVec 32 := 0x196169E7

/-- The instruction that acts (R433): EXTEST, HIGHZ and CLAMP only while RESET_N is low; every other code is BYPASS. -/
def tapInstr (ir : BitVec 4) (resetN : Bool) : TapInstr :=
  match ir.toNat with
  | 0 => if resetN then .bypass else .extest
  | 1 => .idcode
  | 2 => .sample
  | 4 => if resetN then .bypass else .highz
  | 5 => if resetN then .bypass else .clamp
  | _ => .bypass

/-- Test-Logic-Reset: IDCODE is the instruction. -/
def Tap.reset (t : Tap) : Tap := { t with state := .testLogicReset, ir := 1, tdo := none }

/-- The values that `n` boundary cells capture from the pins, which the model does not hold. -/
def Dev.pinLevels (d : Dev) (n : Nat) : List Bool × Dev :=
  ((List.range n).map (fun i => Config.freeBool (d.free + i)), { d with free := d.free + n })

/-- Capture-DR. -/
def Dev.tapCapture (d : Dev) : Dev :=
  let t := d.tap
  match tapInstr t.ir d.power.resetN with
  | .idcode => { d with tap := { t with idShift := tapIdcode } }
  | .extest | .sample =>
    let x := d.pinLevels Config.boundaryCells
    { x.2 with tap := { t with cells := x.1 } }
  | .highz | .clamp | .bypass => { d with tap := { t with bypass := false } }

/-- Shift-DR: the selected register moves one place towards TDO. -/
def Tap.shiftDr (t : Tap) (resetN tdi : Bool) : Tap :=
  match tapInstr t.ir resetN with
  | .idcode => { t with idShift := BitVec.cons tdi (t.idShift.extractLsb' 1 31) }
  | .extest | .sample => { t with cells := (t.cells ++ [tdi]).drop 1 }
  | .highz | .clamp | .bypass => { t with bypass := tdi }

/-- A rising TCK edge: the present state acts, then TMS chooses the next one. -/
def Dev.tapRise (d : Dev) (tms tdi : Bool) : Dev :=
  let d1 : Dev := match d.tap.state with
    | .captureDr => d.tapCapture
    | .shiftDr => { d with tap := d.tap.shiftDr d.power.resetN tdi }
    | .captureIr =>
      let x := d.freeN 4
      { x.2 with tap := { d.tap with irShift := BitVec.ofNat 4 (1 + 4 * x.1) } }
    | .shiftIr => { d with tap := { d.tap with irShift := BitVec.cons tdi (d.tap.irShift.extractLsb' 1 3) } }
    | _ => d
  { d1 with tap := { d1.tap with state := d1.tap.state.next tms } }

/-- What TDO shows in Shift-DR. -/
def Tap.drBit (t : Tap) (resetN : Bool) : Bool :=
  match tapInstr t.ir resetN with
  | .idcode => t.idShift.getLsbD 0
  | .extest | .sample => t.cells.headD false
  | .highz | .clamp | .bypass => t.bypass

/-- A falling TCK edge: TDO, the update latches and the instruction register change. -/
def Tap.fall (t : Tap) (resetN : Bool) : Tap :=
  match t.state with
  | .testLogicReset => t.reset
  | .shiftIr => { t with tdo := some (t.irShift.getLsbD 0) }
  | .shiftDr => { t with tdo := some (t.drBit resetN) }
  | .updateIr => { t with ir := t.irShift, tdo := none }
  | .updateDr =>
    match tapInstr t.ir resetN with
    | .extest | .sample => { t with latched := t.cells, tdo := none }
    | _ => { t with tdo := none }
  | _ => { t with tdo := none }

/-- TCK_EDGE (R433). TRST_N low holds the TAP in reset (R425); a level that TCK already has is no edge. -/
def execTckEdge (rising tms tdi trstN : Bool) (s : State) : Host.Outcome State Fault Refusal :=
  .next (
    let d := s.dev
    let edge := d.tap.tck != rising
    let d1 : Dev := { d with tap := { d.tap with tck := rising, trstN := trstN } }
    { s with dev :=
      if !trstN then { d1 with tap := d1.tap.reset }
      else if !edge then d1
      else if rising then d1.tapRise tms tdi
      else { d1 with tap := d1.tap.fall d1.power.resetN } })

end Sys2Proof.Machine
end

