-- ==== Sys2Proof/Machine/Dispatch.lean ====
section
/-! DEFINITION. exec: one arm per command, each one direct call of the command's own meaning. -/

namespace Sys2Proof.Machine

def exec (i : Instr) (s : State) : Host.Outcome State Fault Refusal :=
  match i with
  | .linkTransferError l => Sys2Proof.Machine.execLinkTransferError l s
  | .linkReplayExhausted l => Sys2Proof.Machine.execLinkReplayExhausted l s
  | .linkRetrain l ok => Sys2Proof.Machine.execLinkRetrain l ok s
  | .hubPllLoss => Sys2Proof.Machine.execHubPllLoss s
  | .ctlPllLoss die => Sys2Proof.Machine.execCtlPllLoss die s
  | .fldPllLoss die => Sys2Proof.Machine.execFldPllLoss die s
  | .fldPllRelock die => Sys2Proof.Machine.execFldPllRelock die s
  | .creditReturn kind inst => Sys2Proof.Machine.execCreditReturn kind inst s
  | .sampleArrival die => Sys2Proof.Machine.execSampleArrival die s
  | .eventRoute => Sys2Proof.Machine.execEventRoute s
  | .evrQueueDrain => Sys2Proof.Machine.execEvrQueueDrain s
  | .frameBoundary => Sys2Proof.Machine.execFrameBoundary s
  | .generationCommit => Sys2Proof.Machine.execGenerationCommit s
  | .pisteResume pipe => Sys2Proof.Machine.execPisteResume pipe s
  | .jobIssue k => Sys2Proof.Machine.execJobIssue k s
  | .jobEnd k j cycles => Sys2Proof.Machine.execJobEnd k j cycles s
  | .seMemoryEcc k uncorrectable => Sys2Proof.Machine.execSeMemoryEcc k uncorrectable s
  | .engineDrained k => Sys2Proof.Machine.execEngineDrained k s
  | .coordStep => Sys2Proof.Machine.execCoordStep s
  | .reportDeadline => Sys2Proof.Machine.execReportDeadline s
  | .workerDrop port => Sys2Proof.Machine.execWorkerDrop port s
  | .coordUpReceive port m => Sys2Proof.Machine.execCoordUpReceive port m s
  | .coordDownReceive m => Sys2Proof.Machine.execCoordDownReceive m s
  | .frameDeadline => Sys2Proof.Machine.execFrameDeadline s
  | .frameCheckpoint => Sys2Proof.Machine.execFrameCheckpoint s
  | .stoppedCheckpoint => Sys2Proof.Machine.execStoppedCheckpoint s
  | .hubSqTailWrite v fetched => Sys2Proof.Machine.execHubSqTailWrite v fetched s
  | .hubCqHeadWrite v => Sys2Proof.Machine.execHubCqHeadWrite v s
  | .hubHostCtlWrite v => Sys2Proof.Machine.execHubHostCtlWrite v s
  | .hubHostErrWrite v => Sys2Proof.Machine.execHubHostErrWrite v s
  | .cqIrqTimeout => Sys2Proof.Machine.execCqIrqTimeout s
  | .pcieLinkReset kind => Sys2Proof.Machine.execPcieLinkReset kind s
  | .readStatus => Sys2Proof.Machine.execReadStatus s
  | .writePacket p crc => Sys2Proof.Machine.execWritePacket p crc s
  | .writePacketQ p crc => Sys2Proof.Machine.execWritePacketQ p crc s
  | .readReply => Sys2Proof.Machine.execReadReply s
  | .readReplyQ => Sys2Proof.Machine.execReadReplyQ s
  | .ackReply tag crc => Sys2Proof.Machine.execAckReply tag crc s
  | .ethCmdDatagram port p => Sys2Proof.Machine.execEthCmdDatagram port p s
  | .jalowRelayReceive m => Sys2Proof.Machine.execJalowRelayReceive m s
  | .jalowReplyReceive port m => Sys2Proof.Machine.execJalowReplyReceive port m s
  | .relayTimeout tag => Sys2Proof.Machine.execRelayTimeout tag s
  | .nop p => Sys2Proof.Machine.execNop p s
  | .devIdent p => Sys2Proof.Machine.execDevIdent p s
  | .deviceReset p => Sys2Proof.Machine.execDeviceReset p s
  | .dieReset p => Sys2Proof.Machine.execDieReset p s
  | .fieldReset p => Sys2Proof.Machine.execFieldReset p s
  | .resetCause p => Sys2Proof.Machine.execResetCause p s
  | .fwStage p => Sys2Proof.Machine.execFwStage p s
  | .fwActivate p => Sys2Proof.Machine.execFwActivate p s
  | .frameSet p => Sys2Proof.Machine.execFrameSet p s
  | .frameStop p => Sys2Proof.Machine.execFrameStop p s
  | .frameStatus p => Sys2Proof.Machine.execFrameStatus p s
  | .hostConfig p => Sys2Proof.Machine.execHostConfig p s
  | .hostStatus p => Sys2Proof.Machine.execHostStatus p s
  | .ethIfConfig p => Sys2Proof.Machine.execEthIfConfig p s
  | .pointRead p => Sys2Proof.Machine.execPointRead p s
  | .pointWrite p => Sys2Proof.Machine.execPointWrite p s
  | .pointBlockWrite p => Sys2Proof.Machine.execPointBlockWrite p s
  | .pointBlockRead p => Sys2Proof.Machine.execPointBlockRead p s
  | .snapshotAt p => Sys2Proof.Machine.execSnapshotAt p s
  | .snapshotRead p => Sys2Proof.Machine.execSnapshotRead p s
  | .snapshotStatus p => Sys2Proof.Machine.execSnapshotStatus p s
  | .pframeConfig p => Sys2Proof.Machine.execPframeConfig p s
  | .pointFrameReceive port src dg => Sys2Proof.Machine.execPointFrameReceive port src dg s
  | .pointEccError id => Sys2Proof.Machine.execPointEccError id s
  | .waitingWriteLand => Sys2Proof.Machine.execWaitingWriteLand s
  | .requestedCapture => Sys2Proof.Machine.execRequestedCapture s
  | .atSnapshotRelease => Sys2Proof.Machine.execAtSnapshotRelease s
  | .modelLoad p => Sys2Proof.Machine.execModelLoad p s
  | .modelCommit p => Sys2Proof.Machine.execModelCommit p s
  | .modelStatus p => Sys2Proof.Machine.execModelStatus p s
  | .partitionSet p => Sys2Proof.Machine.execPartitionSet p s
  | .substSet p => Sys2Proof.Machine.execSubstSet p s
  | .modelImageLoad => Sys2Proof.Machine.execModelImageLoad s
  | .jobSubmit p => Sys2Proof.Machine.execJobSubmit p s
  | .jobResult p => Sys2Proof.Machine.execJobResult p s
  | .jobCancel p => Sys2Proof.Machine.execJobCancel p s
  | .memAlloc p => Sys2Proof.Machine.execMemAlloc p s
  | .memFree p => Sys2Proof.Machine.execMemFree p s
  | .memWrite p => Sys2Proof.Machine.execMemWrite p s
  | .memRead p => Sys2Proof.Machine.execMemRead p s
  | .solverConfig p => Sys2Proof.Machine.execSolverConfig p s
  | .solverStatus p => Sys2Proof.Machine.execSolverStatus p s
  | .coordConfigSettings p => Sys2Proof.Machine.execCoordConfigSettings p s
  | .coordConfigScope p => Sys2Proof.Machine.execCoordConfigScope p s
  | .coordStatus p => Sys2Proof.Machine.execCoordStatus p s
  | .jlPortConfig p => Sys2Proof.Machine.execJlPortConfig p s
  | .jlStatus p => Sys2Proof.Machine.execJlStatus p s
  | .relay p => Sys2Proof.Machine.execRelay p s
  | .jlHelloTimer port => Sys2Proof.Machine.execJlHelloTimer port s
  | .jlHelloReceive port m => Sys2Proof.Machine.execJlHelloReceive port m s
  | .jlRetryTimer port => Sys2Proof.Machine.execJlRetryTimer port s
  | .jlFrameReceive port f => Sys2Proof.Machine.execJlFrameReceive port f s
  | .jlNakReceive port seq => Sys2Proof.Machine.execJlNakReceive port seq s
  | .jlAckTimeout port => Sys2Proof.Machine.execJlAckTimeout port s
  | .jlIdleTimer port => Sys2Proof.Machine.execJlIdleTimer port s
  | .jlLinkLoss port signal => Sys2Proof.Machine.execJlLinkLoss port signal s
  | .jlPointsReceive port m => Sys2Proof.Machine.execJlPointsReceive port m s
  | .jlEventReceive port m => Sys2Proof.Machine.execJlEventReceive port m s
  | .loopConfig p => Sys2Proof.Machine.execLoopConfig p s
  | .loopSectionSet p => Sys2Proof.Machine.execLoopSectionSet p s
  | .loopMode p => Sys2Proof.Machine.execLoopMode p s
  | .loopStatus p => Sys2Proof.Machine.execLoopStatus p s
  | .overrideConfig p => Sys2Proof.Machine.execOverrideConfig p s
  | .loopTick n => Sys2Proof.Machine.execLoopTick n s
  | .loopComputeDeadline n => Sys2Proof.Machine.execLoopComputeDeadline n s
  | .loopStaleLimit n => Sys2Proof.Machine.execLoopStaleLimit n s
  | .numericManual n => Sys2Proof.Machine.execNumericManual n s
  | .outputApply => Sys2Proof.Machine.execOutputApply s
  | .supervConfig p => Sys2Proof.Machine.execSupervConfig p s
  | .supervAck p => Sys2Proof.Machine.execSupervAck p s
  | .supervRestartModel p => Sys2Proof.Machine.execSupervRestartModel p s
  | .supervStatus p => Sys2Proof.Machine.execSupervStatus p s
  | .supervEvaluation n => Sys2Proof.Machine.execSupervEvaluation n s
  | .supervPersistReached n => Sys2Proof.Machine.execSupervPersistReached n s
  | .supervQuietReached n => Sys2Proof.Machine.execSupervQuietReached n s
  | .mogulConfig p => Sys2Proof.Machine.execMogulConfig p s
  | .mogulPageRead p => Sys2Proof.Machine.execMogulPageRead p s
  | .traceConfig p => Sys2Proof.Machine.execTraceConfig p s
  | .traceArm p => Sys2Proof.Machine.execTraceArm p s
  | .traceDisarm p => Sys2Proof.Machine.execTraceDisarm p s
  | .traceRead p => Sys2Proof.Machine.execTraceRead p s
  | .traceComplete u => Sys2Proof.Machine.execTraceComplete u s
  | .slalomEvaluation => Sys2Proof.Machine.execSlalomEvaluation s
  | .capUnmetTimer => Sys2Proof.Machine.execCapUnmetTimer s
  | .holdupOkTimer => Sys2Proof.Machine.execHoldupOkTimer s
  | .powerSample mw => Sys2Proof.Machine.execPowerSample mw s
  | .tempSensorRead temps => Sys2Proof.Machine.execTempSensorRead temps s
  | .clampReport die => Sys2Proof.Machine.execClampReport die s
  | .holdoutRead n mv => Sys2Proof.Machine.execHoldoutRead n mv s
  | .holdupCapTest n => Sys2Proof.Machine.execHoldupCapTest n s
  | .holdupCapTestEnd n mv => Sys2Proof.Machine.execHoldupCapTestEnd n mv s
  | .pwrCapSet p => Sys2Proof.Machine.execPwrCapSet p s
  | .budgetConfig p => Sys2Proof.Machine.execBudgetConfig p s
  | .budgetStatus p => Sys2Proof.Machine.execBudgetStatus p s
  | .journalAdmit => Sys2Proof.Machine.execJournalAdmit s
  | .journalWaitTimeout => Sys2Proof.Machine.execJournalWaitTimeout s
  | .emramWriteDone => Sys2Proof.Machine.execEmramWriteDone s
  | .achConfig p => Sys2Proof.Machine.execAchConfig p s
  | .seqWrite p => Sys2Proof.Machine.execSeqWrite p s
  | .seqStart p => Sys2Proof.Machine.execSeqStart p s
  | .seqStop p => Sys2Proof.Machine.execSeqStop p s
  | .seqResult p => Sys2Proof.Machine.execSeqResult p s
  | .calChannelTrim p => Sys2Proof.Machine.execCalChannelTrim p s
  | .calNtc p => Sys2Proof.Machine.execCalNtc p s
  | .calAoTrim p => Sys2Proof.Machine.execCalAoTrim p s
  | .calHbManual p => Sys2Proof.Machine.execCalHbManual p s
  | .calHbAuto p => Sys2Proof.Machine.execCalHbAuto p s
  | .calUserDefaults p => Sys2Proof.Machine.execCalUserDefaults p s
  | .testdacSet p => Sys2Proof.Machine.execTestdacSet p s
  | .seqCycleStart die => Sys2Proof.Machine.execSeqCycleStart die s
  | .entryResult die e codes => Sys2Proof.Machine.execEntryResult die e codes s
  | .sampleSend die => Sys2Proof.Machine.execSampleSend die s
  | .aoFaultDetect die c short => Sys2Proof.Machine.execAoFaultDetect die c short s
  | .aoFaultClear die c short => Sys2Proof.Machine.execAoFaultClear die c short s
  | .seqAutostart die => Sys2Proof.Machine.execSeqAutostart die s
  | .dchConfig p => Sys2Proof.Machine.execDchConfig p s
  | .dchStatus p => Sys2Proof.Machine.execDchStatus p s
  | .armOutputs p => Sys2Proof.Machine.execArmOutputs p s
  | .outputSet p => Sys2Proof.Machine.execOutputSet p s
  | .safeConfig p => Sys2Proof.Machine.execSafeConfig p s
  | .counterRead p => Sys2Proof.Machine.execCounterRead p s
  | .diEdgeAccept die c => Sys2Proof.Machine.execDiEdgeAccept die c s
  | .diPointRefresh die c => Sys2Proof.Machine.execDiPointRefresh die c s
  | .diLoopSample die c => Sys2Proof.Machine.execDiLoopSample die c s
  | .wireBreakDeclare die c => Sys2Proof.Machine.execWireBreakDeclare die c s
  | .wireBreakClear die c => Sys2Proof.Machine.execWireBreakClear die c s
  | .countAccumulate => Sys2Proof.Machine.execCountAccumulate s
  | .outputFoldback die c => Sys2Proof.Machine.execOutputFoldback die c s
  | .outputRetry die c still => Sys2Proof.Machine.execOutputRetry die c still s
  | .outputOvertemp die c => Sys2Proof.Machine.execOutputOvertemp die c s
  | .openLoadDetect die c => Sys2Proof.Machine.execOpenLoadDetect die c s
  | .shortToSupplyDetect die c => Sys2Proof.Machine.execShortToSupplyDetect die c s
  | .shortToSupplyClear die c => Sys2Proof.Machine.execShortToSupplyClear die c s
  | .externalDriveDetect die c => Sys2Proof.Machine.execExternalDriveDetect die c s
  | .externalDriveClear die c => Sys2Proof.Machine.execExternalDriveClear die c s
  | .pwmPeriodStart die c => Sys2Proof.Machine.execPwmPeriodStart die c s
  | .clampEventStart die c => Sys2Proof.Machine.execClampEventStart die c s
  | .clampEventEnd die c uj => Sys2Proof.Machine.execClampEventEnd die c uj s
  | .cycleHoldRelease die c => Sys2Proof.Machine.execCycleHoldRelease die c s
  | .armTakeEffect die => Sys2Proof.Machine.execArmTakeEffect die s
  | .refreshSend => Sys2Proof.Machine.execRefreshSend s
  | .refreshReceive die => Sys2Proof.Machine.execRefreshReceive die s
  | .snowploughTimeout die => Sys2Proof.Machine.execSnowploughTimeout die s
  | .snowploughResume die => Sys2Proof.Machine.execSnowploughResume die s
  | .fieldResetTakeHold die => Sys2Proof.Machine.execFieldResetTakeHold die s
  | .fieldResetRelease die => Sys2Proof.Machine.execFieldResetRelease die s
  | .fieldDieConfigured die => Sys2Proof.Machine.execFieldDieConfigured die s
  | .heartbeatSend => Sys2Proof.Machine.execHeartbeatSend s
  | .heartbeatReceive seq => Sys2Proof.Machine.execHeartbeatReceive seq s
  | .heartbeatLate => Sys2Proof.Machine.execHeartbeatLate s
  | .heartbeatTimeout => Sys2Proof.Machine.execHeartbeatTimeout s
  | .hardFaultLine die cause => Sys2Proof.Machine.execHardFaultLine die cause s
  | .arbiterDisagreement => Sys2Proof.Machine.execArbiterDisagreement s
  | .stateRestoreDone => Sys2Proof.Machine.execStateRestoreDone s
  | .releaseInstant => Sys2Proof.Machine.execReleaseInstant s
  | .loopStream => Sys2Proof.Machine.execLoopStream s
  | .streamLate => Sys2Proof.Machine.execStreamLate s
  | .recoveryStart die => Sys2Proof.Machine.execRecoveryStart die s
  | .recoveryBistDone die pass => Sys2Proof.Machine.execRecoveryBistDone die pass s
  | .standbySliceEnd sig => Sys2Proof.Machine.execStandbySliceEnd sig s
  | .swapPrepare => Sys2Proof.Machine.execSwapPrepare s
  | .swapHandover => Sys2Proof.Machine.execSwapHandover s
  | .twinStatus p => Sys2Proof.Machine.execTwinStatus p s
  | .swap p => Sys2Proof.Machine.execSwap p s
  | .swapCancel p => Sys2Proof.Machine.execSwapCancel p s
  | .twinConfig p => Sys2Proof.Machine.execTwinConfig p s
  | .twinRecover p => Sys2Proof.Machine.execTwinRecover p s
  | .healthReport p => Sys2Proof.Machine.execHealthReport p s
  | .timeRead p => Sys2Proof.Machine.execTimeRead p s
  | .timeAdjustOffset p => Sys2Proof.Machine.execTimeAdjustOffset p s
  | .timeAdjustStep p => Sys2Proof.Machine.execTimeAdjustStep p s
  | .timeAdjustSet p => Sys2Proof.Machine.execTimeAdjustSet p s
  | .timeAdjustFreq p => Sys2Proof.Machine.execTimeAdjustFreq p s
  | .ptpConfig p => Sys2Proof.Machine.execPtpConfig p s
  | .ptpStatus p => Sys2Proof.Machine.execPtpStatus p s
  | .servoConfig p => Sys2Proof.Machine.execServoConfig p s
  | .ptpMessageReceive port m => Sys2Proof.Machine.execPtpMessageReceive port m s
  | .ptpTransmitTimer port kind => Sys2Proof.Machine.execPtpTransmitTimer port kind s
  | .announceReceiptTimeout port => Sys2Proof.Machine.execAnnounceReceiptTimeout port s
  | .followupTimeout port => Sys2Proof.Machine.execFollowupTimeout port s
  | .servoSample theta => Sys2Proof.Machine.execServoSample theta s
  | .servoHoldover => Sys2Proof.Machine.execServoHoldover s
  | .timeChangeApply => Sys2Proof.Machine.execTimeChangeApply s
  | .timeLoRead => Sys2Proof.Machine.execTimeLoRead s
  | .rawLoRead => Sys2Proof.Machine.execRawLoRead s
  | .readRtc p => Sys2Proof.Machine.execReadRtc p s
  | .writeRtcNextEdge p => Sys2Proof.Machine.execWriteRtcNextEdge p s
  | .writeRtcAtTime p => Sys2Proof.Machine.execWriteRtcAtTime p s
  | .rtcTrimSet p => Sys2Proof.Machine.execRtcTrimSet p s
  | .rtcSyncConfig p => Sys2Proof.Machine.execRtcSyncConfig p s
  | .rtcAlarmSet p => Sys2Proof.Machine.execRtcAlarmSet p s
  | .rtcAlarmCancel p => Sys2Proof.Machine.execRtcAlarmCancel p s
  | .evinConfig p => Sys2Proof.Machine.execEvinConfig p s
  | .evinRead p => Sys2Proof.Machine.execEvinRead p s
  | .rtcSecLoRead => Sys2Proof.Machine.execRtcSecLoRead s
  | .rtcFlagsWrite v => Sys2Proof.Machine.execRtcFlagsWrite v s
  | .evinStatusWrite n v => Sys2Proof.Machine.execEvinStatusWrite n v s
  | .rtcLoad => Sys2Proof.Machine.execRtcLoad s
  | .alarmMatch => Sys2Proof.Machine.execAlarmMatch s
  | .rtcSyncMeasure => Sys2Proof.Machine.execRtcSyncMeasure s
  | .backupSupplySwitch toVbat => Sys2Proof.Machine.execBackupSupplySwitch toVbat s
  | .vbatMeasure mv => Sys2Proof.Machine.execVbatMeasure mv s
  | .backupLoss => Sys2Proof.Machine.execBackupLoss s
  | .evinEdgeAccept n rising => Sys2Proof.Machine.execEvinEdgeAccept n rising s
  | .evinTamperEdge n rising => Sys2Proof.Machine.execEvinTamperEdge n rising s
  | .canConfig p => Sys2Proof.Machine.execCanConfig p s
  | .canFilter p => Sys2Proof.Machine.execCanFilter p s
  | .canSend p => Sys2Proof.Machine.execCanSend p s
  | .canReceive p => Sys2Proof.Machine.execCanReceive p s
  | .canStatus p => Sys2Proof.Machine.execCanStatus p s
  | .canTimeConfig p => Sys2Proof.Machine.execCanTimeConfig p s
  | .canMap p => Sys2Proof.Machine.execCanMap p s
  | .canRecoverBus p => Sys2Proof.Machine.execCanRecoverBus p s
  | .canRecoverBuffer p => Sys2Proof.Machine.execCanRecoverBuffer p s
  | .canFrameReceived k f sof => Sys2Proof.Machine.execCanFrameReceived k f sof s
  | .canTxComplete k b sof => Sys2Proof.Machine.execCanTxComplete k b sof s
  | .canBusError k lec tx post => Sys2Proof.Machine.execCanBusError k lec tx post s
  | .canClashLimit k b => Sys2Proof.Machine.execCanClashLimit k b s
  | .canBusoffRecovered k => Sys2Proof.Machine.execCanBusoffRecovered k s
  | .canRefCycle k => Sys2Proof.Machine.execCanRefCycle k s
  | .canRefLateTimeout k => Sys2Proof.Machine.execCanRefLateTimeout k s
  | .canSilenceTimeout k => Sys2Proof.Machine.execCanSilenceTimeout k s
  | .canMapTimeoutCheck => Sys2Proof.Machine.execCanMapTimeoutCheck s
  | .recRead p => Sys2Proof.Machine.execRecRead p s
  | .recStatus p => Sys2Proof.Machine.execRecStatus p s
  | .recMark p => Sys2Proof.Machine.execRecMark p s
  | .repeatFlush => Sys2Proof.Machine.execRepeatFlush s
  | .opTimeSave => Sys2Proof.Machine.execOpTimeSave s
  | .recSaturatedWrite v => Sys2Proof.Machine.execRecSaturatedWrite v s
  | .keyProvision p => Sys2Proof.Machine.execKeyProvision p s
  | .keyDerive p => Sys2Proof.Machine.execKeyDerive p s
  | .keyStatus p => Sys2Proof.Machine.execKeyStatus p s
  | .keyChallenge p => Sys2Proof.Machine.execKeyChallenge p s
  | .keyErase p => Sys2Proof.Machine.execKeyErase p s
  | .tamperZeroise source => Sys2Proof.Machine.execTamperZeroise source s
  | .pwrStatus p => Sys2Proof.Machine.execPwrStatus p s
  | .lowpowerSetRun p => Sys2Proof.Machine.execLowpowerSetRun p s
  | .lowpowerSetQuiesce p => Sys2Proof.Machine.execLowpowerSetQuiesce p s
  | .lowpowerSetKeep p => Sys2Proof.Machine.execLowpowerSetKeep p s
  | .railConfig p => Sys2Proof.Machine.execRailConfig p s
  | .feedLowWarn die b low mv => Sys2Proof.Machine.execFeedLowWarn die b low mv s
  | .feedOvervoltage die b opened mv => Sys2Proof.Machine.execFeedOvervoltage die b opened mv s
  | .feedLoss die aMv bMv => Sys2Proof.Machine.execFeedLoss die aMv bMv s
  | .feedReturn die b mv => Sys2Proof.Machine.execFeedReturn die b mv s
  | .feedReset die => Sys2Proof.Machine.execFeedReset die s
  | .hubMuxSwitch vhaMv vhbMv => Sys2Proof.Machine.execHubMuxSwitch vhaMv vhbMv s
  | .saveSupplyStart => Sys2Proof.Machine.execSaveSupplyStart s
  | .railStep pg => Sys2Proof.Machine.execRailStep pg s
  | .railPgTimeout r => Sys2Proof.Machine.execRailPgTimeout r s
  | .railSequenceRetry => Sys2Proof.Machine.execRailSequenceRetry s
  | .railPgLoss r => Sys2Proof.Machine.execRailPgLoss r s
  | .railPgReturn r => Sys2Proof.Machine.execRailPgReturn r s
  | .pmbusTelemetry reads => Sys2Proof.Machine.execPmbusTelemetry reads s
  | .pmbusGainAdjust target => Sys2Proof.Machine.execPmbusGainAdjust target s
  | .pmbusAlert status => Sys2Proof.Machine.execPmbusAlert status s
  | .powerOnReset cause => Sys2Proof.Machine.execPowerOnReset cause s
  | .hubResetRelease => Sys2Proof.Machine.execHubResetRelease s
  | .activeDieBistDone die pass => Sys2Proof.Machine.execActiveDieBistDone die pass s
  | .noActiveWaitExpiry => Sys2Proof.Machine.execNoActiveWaitExpiry s
  | .resetNLow => Sys2Proof.Machine.execResetNLow s
  | .resetNRise bootMode => Sys2Proof.Machine.execResetNRise bootMode s
  | .hubWatchdogExpiry lockstep => Sys2Proof.Machine.execHubWatchdogExpiry lockstep s
  | .dieThermalTrip d => Sys2Proof.Machine.execDieThermalTrip d s
  | .thermalRecover d => Sys2Proof.Machine.execThermalRecover d s
  | .lastBreathConfirm => Sys2Proof.Machine.execLastBreathConfirm s
  | .lastBreathDone => Sys2Proof.Machine.execLastBreathDone s
  | .keepWake source => Sys2Proof.Machine.execKeepWake source s
  | .selftestRun p => Sys2Proof.Machine.execSelftestRun p s
  | .selftestResult p => Sys2Proof.Machine.execSelftestResult p s
  | .selftestSliceEnd sig => Sys2Proof.Machine.execSelftestSliceEnd sig s
  | .qmonLevelRead ctl => Sys2Proof.Machine.execQmonLevelRead ctl s
  | .freeLowRead => Sys2Proof.Machine.execFreeLowRead s
  | .minSlackRead => Sys2Proof.Machine.execMinSlackRead s
  | .maxGlideUsRead => Sys2Proof.Machine.execMaxGlideUsRead s
  | .residMaxNsRead port => Sys2Proof.Machine.execResidMaxNsRead port s
  | .registerWrite addr v => Sys2Proof.Machine.execRegisterWrite addr v s
  | .diagRead p => Sys2Proof.Machine.execDiagRead p s
  | .diagWrite p => Sys2Proof.Machine.execDiagWrite p s
  | .diagModify p => Sys2Proof.Machine.execDiagModify p s
  | .openLoadClear die c => Sys2Proof.Machine.execOpenLoadClear die c s
  | .feedOvervoltageClear die b mv => Sys2Proof.Machine.execFeedOvervoltageClear die b mv s
  | .saveSupplyRelease => Sys2Proof.Machine.execSaveSupplyRelease s
  | .bitAndWordLock port => Sys2Proof.Machine.execBitAndWordLock port s
  | .coldSyncComplete die => Sys2Proof.Machine.execColdSyncComplete die s
  | .outputDiscardReport die => Sys2Proof.Machine.execOutputDiscardReport die s
  | .arpRequest port target sender senderMac => Sys2Proof.Machine.execArpRequest port target sender senderMac s
  | .icmpEchoRequest port target sender payload => Sys2Proof.Machine.execIcmpEchoRequest port target sender payload s
  | .tckEdge rising tms tdi trstN => Sys2Proof.Machine.execTckEdge rising tms tdi trstN s

end Sys2Proof.Machine
end

