-- ==== Sys2Proof/Safety.lean ====
section
/-! DEFINITION. The terms in which the statements speak of the block: a packet that is ready to run and what its completion leaves, what an
instant of the hub and of a control die needs, and the invariant of a run. -/

namespace Sys2Proof.Machine

open Sys2Proof.Bits

/-- The state with the device `d`; the captured pages and the waiting commands are those of `s`. -/
abbrev State.withDev (s : State) (d : Dev) : State := { s with dev := d }

/-- The die rule of R48 and R399 lets a packet for `unit` go on. -/
def Dev.dieGoes (d : Dev) (unit : Nat) : Bool :=
  match d.dieRule unit with
  | .go => true
  | .wait => false
  | .bad _ => false

/-- The packet `p` of the row `op` stands in the interpreter's queue as `q` and nothing that is the same for every opcode keeps it from
running: it spells the row, it may start (R46), its boot state accepts the opcode (R398), its target is right (R40, check 7), the die rule
lets it go on (R48, R399), it has the parameter words the row needs, it is no CHECK_ONLY packet, and the capture it asks to wait for, if
any, has happened (R47). -/
abbrev Ready (op : Op) (p : Packet) (s : State) (q : QPacket) : Prop :=
  p.opcode = op.code ∧ op.sel p = true ∧ s.dev.host.queue.find? (fun x => x.fresh p) = some q ∧ mayStart s.dev.host.queue q = true ∧
    (s.dev.power.boot = .recovery → recoveryOpcode op.code = true) ∧ op.target p = true ∧ (op.die = true → s.dev.dieGoes p.unit = true) ∧
    op.params ≤ q.n ∧ p.checkOnly = false ∧ (p.atSnapshot = true → q.snapDone = true)

/-- The packet `p` of the row `op` stands in the interpreter's queue as `q`, spells the row, may start (R46), and the checks of R40 that are
the same for every opcode pass, with the parameter words that the row needs. Its flags are open. -/
abbrev Stands (op : Op) (p : Packet) (s : State) (q : QPacket) : Prop :=
  p.opcode = op.code ∧ op.sel p = true ∧ s.dev.host.queue.find? (fun x => x.fresh p) = some q ∧ mayStart s.dev.host.queue q = true ∧
    (s.dev.power.boot = .recovery → recoveryOpcode op.code = true) ∧ op.target p = true ∧ (op.die = true → s.dev.dieGoes p.unit = true) ∧
    op.params ≤ q.n

/-- A reply with `n` payload words fits the transport of the packet (R35). -/
abbrev QPacket.holds (q : QPacket) (n : Nat) : Prop := 4 + n + (if q.tagged = true then 4 else 0) ≤ q.pkt.transport.limit

/-- The journal takes the entry of the class N command `q` now, and settings need not wait for the eMRAM (R226, R227). -/
abbrev Journals (s : State) (q : QPacket) : Prop := s.dev.slalom.room (granulesOf q.n) = true ∧ s.dev.slalom.writeThrough = false

/-- The state with the journal entry of the class N command `q` of the opcode `code` (R226). -/
def State.entered (s : State) (code : Nat) (q : QPacket) : State :=
  { s with dev := s.dev.journal { opcode := BitVec.ofNat 16 code, words := q.pkt.params, granules := granulesOf q.n } }

/-- The state in which `q` has started and stays in the interpreter's queue until its reply (R46). -/
def State.started (s : State) (q : QPacket) : State :=
  { s with dev := { s.dev with host := { s.dev.host with queue := replaceQ q { q with started := true } s.dev.host.queue } } }

/-- The row of Table 02-20 and the packet of a command that is a packet of that row; none for the commands that are no packets. -/
def packetOf : Instr → Option (Op × Packet)
  | .nop p => some (opNop, p)
  | .devIdent p => some (opDevIdent, p)
  | .deviceReset p => some (opDeviceReset, p)
  | .dieReset p => some (opDieReset, p)
  | .fieldReset p => some (opFieldReset, p)
  | .resetCause p => some (opResetCause, p)
  | .fwStage p => some (opFwStage, p)
  | .fwActivate p => some (opFwActivate, p)
  | .frameSet p => some (opFrameSet, p)
  | .frameStop p => some (opFrameStop, p)
  | .frameStatus p => some (opFrameStatus, p)
  | .hostConfig p => some (opHostConfig, p)
  | .hostStatus p => some (opHostStatus, p)
  | .ethIfConfig p => some (opEthIfConfig, p)
  | .pointRead p => some (opPointRead, p)
  | .pointWrite p => some (opPointWrite, p)
  | .pointBlockWrite p => some (opPointBlockWrite, p)
  | .pointBlockRead p => some (opPointBlockRead, p)
  | .snapshotAt p => some (opSnapshotAt, p)
  | .snapshotRead p => some (opSnapshotRead, p)
  | .snapshotStatus p => some (opSnapshotStatus, p)
  | .pframeConfig p => some (opPframeConfig, p)
  | .modelLoad p => some (opModelLoad, p)
  | .modelCommit p => some (opModelCommit, p)
  | .modelStatus p => some (opModelStatus, p)
  | .partitionSet p => some (opPartitionSet, p)
  | .substSet p => some (opSubstSet, p)
  | .jobSubmit p => some (opJobSubmit, p)
  | .jobResult p => some (opJobResult, p)
  | .jobCancel p => some (opJobCancel, p)
  | .memAlloc p => some (opMemAlloc, p)
  | .memFree p => some (opMemFree, p)
  | .memWrite p => some (opMemWrite, p)
  | .memRead p => some (opMemRead, p)
  | .solverConfig p => some (opSolverConfig, p)
  | .solverStatus p => some (opSolverStatus, p)
  | .coordConfigSettings p => some (opCoordConfigSettings, p)
  | .coordConfigScope p => some (opCoordConfigScope, p)
  | .coordStatus p => some (opCoordStatus, p)
  | .jlPortConfig p => some (opJlPortConfig, p)
  | .jlStatus p => some (opJlStatus, p)
  | .relay p => some (opRelay, p)
  | .loopConfig p => some (opLoopConfig, p)
  | .loopSectionSet p => some (opLoopSectionSet, p)
  | .loopMode p => some (opLoopMode, p)
  | .loopStatus p => some (opLoopStatus, p)
  | .overrideConfig p => some (opOverrideConfig, p)
  | .supervConfig p => some (opSupervConfig, p)
  | .supervAck p => some (opSupervAck, p)
  | .supervRestartModel p => some (opSupervRestartModel, p)
  | .supervStatus p => some (opSupervStatus, p)
  | .mogulConfig p => some (opMogulConfig, p)
  | .mogulPageRead p => some (opMogulPageRead, p)
  | .traceConfig p => some (opTraceConfig, p)
  | .traceArm p => some (opTraceArm, p)
  | .traceDisarm p => some (opTraceDisarm, p)
  | .traceRead p => some (opTraceRead, p)
  | .pwrCapSet p => some (opPwrCapSet, p)
  | .budgetConfig p => some (opBudgetConfig, p)
  | .budgetStatus p => some (opBudgetStatus, p)
  | .achConfig p => some (opAchConfig, p)
  | .seqWrite p => some (opSeqWrite, p)
  | .seqStart p => some (opSeqStart, p)
  | .seqStop p => some (opSeqStop, p)
  | .seqResult p => some (opSeqResult, p)
  | .calChannelTrim p => some (opCalChannelTrim, p)
  | .calNtc p => some (opCalNtc, p)
  | .calAoTrim p => some (opCalAoTrim, p)
  | .calHbManual p => some (opCalHbManual, p)
  | .calHbAuto p => some (opCalHbAuto, p)
  | .calUserDefaults p => some (opCalUserDefaults, p)
  | .testdacSet p => some (opTestdacSet, p)
  | .dchConfig p => some (opDchConfig, p)
  | .dchStatus p => some (opDchStatus, p)
  | .armOutputs p => some (opArmOutputs, p)
  | .outputSet p => some (opOutputSet, p)
  | .safeConfig p => some (opSafeConfig, p)
  | .counterRead p => some (opCounterRead, p)
  | .twinStatus p => some (opTwinStatus, p)
  | .swap p => some (opSwap, p)
  | .swapCancel p => some (opSwapCancel, p)
  | .twinConfig p => some (opTwinConfig, p)
  | .twinRecover p => some (opTwinRecover, p)
  | .healthReport p => some (opHealthReport, p)
  | .timeRead p => some (opTimeRead, p)
  | .timeAdjustOffset p => some (opTimeAdjustOffset, p)
  | .timeAdjustStep p => some (opTimeAdjustStep, p)
  | .timeAdjustSet p => some (opTimeAdjustSet, p)
  | .timeAdjustFreq p => some (opTimeAdjustFreq, p)
  | .ptpConfig p => some (opPtpConfig, p)
  | .ptpStatus p => some (opPtpStatus, p)
  | .servoConfig p => some (opServoConfig, p)
  | .readRtc p => some (opReadRtc, p)
  | .writeRtcNextEdge p => some (opWriteRtcNextEdge, p)
  | .writeRtcAtTime p => some (opWriteRtcAtTime, p)
  | .rtcTrimSet p => some (opRtcTrimSet, p)
  | .rtcSyncConfig p => some (opRtcSyncConfig, p)
  | .rtcAlarmSet p => some (opRtcAlarmSet, p)
  | .rtcAlarmCancel p => some (opRtcAlarmCancel, p)
  | .evinConfig p => some (opEvinConfig, p)
  | .evinRead p => some (opEvinRead, p)
  | .canConfig p => some (opCanConfig, p)
  | .canFilter p => some (opCanFilter, p)
  | .canSend p => some (opCanSend, p)
  | .canReceive p => some (opCanReceive, p)
  | .canStatus p => some (opCanStatus, p)
  | .canTimeConfig p => some (opCanTimeConfig, p)
  | .canMap p => some (opCanMap, p)
  | .canRecoverBus p => some (opCanRecoverBus, p)
  | .canRecoverBuffer p => some (opCanRecoverBuffer, p)
  | .recRead p => some (opRecRead, p)
  | .recStatus p => some (opRecStatus, p)
  | .recMark p => some (opRecMark, p)
  | .keyProvision p => some (opKeyProvision, p)
  | .keyDerive p => some (opKeyDerive, p)
  | .keyStatus p => some (opKeyStatus, p)
  | .keyChallenge p => some (opKeyChallenge, p)
  | .keyErase p => some (opKeyErase, p)
  | .pwrStatus p => some (opPwrStatus, p)
  | .lowpowerSetRun p => some (opLowpowerSetRun, p)
  | .lowpowerSetQuiesce p => some (opLowpowerSetQuiesce, p)
  | .lowpowerSetKeep p => some (opLowpowerSetKeep, p)
  | .railConfig p => some (opRailConfig, p)
  | .selftestRun p => some (opSelftestRun, p)
  | .selftestResult p => some (opSelftestResult, p)
  | .diagRead p => some (opDiagRead, p)
  | .diagWrite p => some (opDiagWrite, p)
  | .diagModify p => some (opDiagModify, p)
  | _ => none

/-- A capture bank is sound where its generation number, if a capture has been, lies below `limit`, the captured pages are those of a device
whose signals have left it, and a bank without a capture holds nothing (R76). -/
def Bank.Sound (limit : Nat) (b : Bank) : Prop := (∀ n, b.gen = some n → n < limit) ∧ b.dev.out = [] ∧ (b.gen = none → b.dev = {})

/-- What every step keeps: the commands that wait are well formed, frame captures are numbered within 15 bits and requested captures within
16 (R76), and a bank holds the pages of a capture or nothing. -/
def State.Inv (s : State) : Prop := (∀ c ∈ s.pending, c.wf = true) ∧ s.frameBank.Sound 32768 ∧ s.reqBank.Sound 65536

end Sys2Proof.Machine
end

