-- ==== Sys2Proof/Certificates/Slice0/Obligations.lean ====
section
/-! DEFINITION. The statements for the provers: what each command does, the step and the queue, an invariant that every step keeps, and rules of
the interpreter and of single units. -/

open Sys2Proof Sys2Proof.Machine Sys2Proof.Bits Sys2Proof.Crypto

/-- Die links and clocks (R14, R15, R17, R18): each command of chapter 01's links completes with exactly the replay, the retraining, the stop, the
safe outputs or the return of a credit that its rule gives, where the hub works and the link or PLL is in the state that the command names. The
number of nanoseconds that replays take is free within R14's bound.
Conventions of the model that it shows: log entries 22, 23. -/
def Obligations.LinkAndClockCommandsComplete : Prop :=
  (∀ (l : LinkId) (s : State), s.dev.hubUp = true → (s.dev.link l).up = true →
    ∃ n, n ≤ (if l.isCtl then 100 else 3000) ∧ exec (.linkTransferError l) s =
      .next (s.withDev (({ s.dev.raise 0x0101 0x0100 .info l.code with free := s.dev.free + 1 } : Dev).pass n))) ∧
  (∀ (l : LinkId) (s : State), s.dev.hubUp = true → (s.dev.link l).up = true →
    ∃ n, n ≤ 8 * (if l.isCtl then 100 else 3000) ∧ exec (.linkReplayExhausted l) s =
      .next (s.withDev (((({ s.dev with free := s.dev.free + 1 } : Dev).pass n).setLink l
        { up := false, downAt := (s.dev.time.raw + n) % 2 ^ 64, tries := 0 }).raise 0x0102 0x0100 .crit l.code))) ∧
  (∀ (l : LinkId) (s : State) (x : Link) (d : Dev), s.dev.hubUp = true → s.dev.link l = x → x.up = false →
    s.dev.toRaw (x.downAt + 10000000 * (x.tries + 1)) = d →
    exec (.linkRetrain l false) s = .next (s.withDev (d.setLink l { x with tries := x.tries + 1 })) ∧
    exec (.linkRetrain l true) s = .next (s.withDev ((d.setLink l { up := true, downAt := 0, tries := 0 }).raise 0x0103 0x0100 .info
      (l.code + 65536 * satN 32 ((d.time.raw - x.downAt) / 1000000))))) ∧
  (∀ (s : State), s.dev.hubUp = true → s.dev.power.lbAt = none →
    ∃ t, exec .hubPllLoss s = .next t ∧ t.dev.fabric.hubPll = false ∧ t.dev.power.phase = .inReset ∧
      t.dev.power.pendKind = some (.device, .clock, 0) ∧ t.frameBank = {} ∧ t.reqBank = {} ∧ t.pending = s.pending) ∧
  (∀ (k : Fin 2) (s : State), exec (.ctlPllLoss k) s =
    .next (s.withDev ({ s.dev with fabric := { s.dev.fabric with ctlPll := s.dev.fabric.ctlPll.wr k.val true } }))) ∧
  (∀ (k : Fin 4) (s : State), (s.dev.fld k.val).run = .run → (s.dev.fld k.val).pllLost = false →
    exec (.fldPllLoss k) s = .next (s.withDev (if (s.dev.fld k.val).outState = .disarmed then s.dev.setFld k.val { s.dev.fld k.val with pllLost := true }
      else (s.dev.setFld k.val { s.dev.fld k.val with pllLost := true }).allSafe k.val))) ∧
  (∀ (k : Fin 4) (s : State), (s.dev.fld k.val).pllLost = true →
    exec (.fldPllRelock k) s = .next (s.withDev (((s.dev.setFld k.val { s.dev.fld k.val with pllLost := false }).raise 0x1001 (0x1000 + k.val) .crit 0).orderFieldReset k.val 13))) ∧
  (∀ (i : Fin 4) (s : State), exec (.creditReturn 0x05 i.val) s =
      .next (s.withDev (Dev.jlPump i.val (s.dev.jalow.port.rd i.val).waitTx.length s.dev)) ∧
    exec (.creditReturn 0x04 i.val) s = exec (.sampleSend i) s ∧
    exec (.creditReturn 0x10 i.val) s = .next (s.withDev ((s.dev.resumePipe 0).resumePipe 1)) ∧
    exec (.creditReturn 0x12 i.val) s = .next (s.withDev (s.dev.placeRound s.dev.coord.toPlace.length)))

/-- The event router and the recorder (R23, R24, R362, R364, R365, R370, R371, Tables 17-2 and 17-3): an event that the newest record does not absorb
becomes the next record, one that it does absorbs into its REPEAT; the recorder's packets answer what Table 17-2 gives; and the saves reach eMRAM at
the next whole second or multiple of 16 s of operating time.
Conventions of the model that it shows: log entries 29. -/
def Obligations.EventRecorderCommandsComplete : Prop :=
  (∀ (s : State) (e : EventRec) (es : List EventRec), s.dev.hubUp = true → s.dev.evr.queue = e :: es → e.reps = 0 →
    e.sev.num < (s.dev.evr.routes.rd (e.code.toNat / 256)).minSev.toNat →
    ∃ t r, exec .eventRoute s = .next t ∧ t.dev.recorder.head = some r ∧ r.code = e.code ∧ r.source = e.source ∧ r.data = e.data ∧ r.origin = e.origin ∧
      (s.dev.recorder.merges e = true → r.seq = s.dev.recorder.headSeq ∧ r.rep = (s.dev.recorder.head.getD {}).rep + 1) ∧
      (s.dev.recorder.merges e = false → r.seq = (if s.dev.recorder.ever then s.dev.recorder.headSeq + 1 else 1) ∧ r.rep = 0 ∧
        r.opTime = s.dev.recorder.opTime ∧ r.subSec = s.dev.recorder.opSub ∧ r.cycles = s.dev.recorder.cycles)) ∧
  (∀ (s : State), s.dev.hubUp = true → 0 < s.dev.evr.lost → s.dev.evr.held = [] → s.dev.evr.queue.length < 512 →
    exec .evrQueueDrain s = .next (s.withDev ({ s.dev with evr := { s.dev.evr with lost := 0, queue := s.dev.evr.queue ++
      [{ code := 0x0104, source := 0x0100, sev := .warn, data := BitVec.ofNat 64 (s.dev.evr.lost % 2 ^ 32) }] } }))) ∧
  (∀ (p : Packet) (s : State) (q : QPacket) (rs : List Record), Ready opRecRead p s q → q.resv 1 0x703FF = false → q.f 1 18 17 ≠ 3 → 1 ≤ q.f 1 9 0 →
    q.f 1 9 0 ≤ recCountMax p.transport → q.b 1 16 = false → (q.par 0 - s.dev.recorder.headSeq).toNat = 0 ∨ 2 ^ 31 < (q.par 0 - s.dev.recorder.headSeq).toNat →
    rs = ((s.dev.recorder.held (q.f 1 18 17)).filter (fun x =>
      decide ((s.dev.recorder.headSeq - x.seq).toNat ≤ (s.dev.recorder.headSeq - q.par 0).toNat))).take (q.f 1 9 0) →
    q.holds (4 + (rs.flatMap Record.words).length) →
    exec (.recRead p) s = .next ((s.withDev (s.dev.markRead rs)).finish q stOk 0
      ([pack [(rs.length, 0), (b1 (!((s.dev.recorder.held (q.f 1 18 17)).any (fun x => x.seq = q.par 0))), 16)], s.dev.recorder.headSeq,
        w32 (natLE (s.dev.recorder.headMac.take 4)), w32 (natLE (s.dev.recorder.headMac.drop 4))] ++ rs.flatMap Record.words))) ∧
  (∀ (p : Packet) (s : State) (q : QPacket), Ready opRecStatus p s q →
    exec (.recStatus p) s = .next (s.finish q stOk 0 [s.dev.recorder.headSeq, w32 (natLE (s.dev.recorder.headMac.take 4)),
      pack [(natLE (s.dev.recorder.headMac.drop 4), 0), (b1 s.dev.recorder.pinnedFull, 16), (b1 s.dev.recorder.keyOk, 17), (b1 s.dev.recorder.saturated, 18)],
      s.dev.recorder.oldestRing, w32 s.dev.recorder.ringUsed, w32 s.dev.recorder.pinnedUsed, w32 s.dev.recorder.opTime,
      pack [(s.dev.recorder.cycles, 0), (s.dev.recorder.opSub, 24)]])) ∧
  (∀ (p : Packet) (s : State) (q : QPacket), Ready opRecMark p s q → q.resv 0 0xFFFF = false →
    exec (.recMark p) s = .next ((s.withDev (s.dev.raise 0x4110 (q.f 0 15 0) .info ((q.par 1).toNat + 2 ^ 32 * (q.par 2).toNat))).finish q stOk 0 [])) ∧
  (∀ (s : State) (h : Record), s.dev.recorder.head = some h → s.dev.power.on = true → h.rep ≠ s.dev.recorder.headSaved →
    exec .repeatFlush s = .next (s.withDev ({ s.dev.pass (s.dev.recorder.toMultiple 1) with
      recorder := { (s.dev.pass (s.dev.recorder.toMultiple 1)).recorder with headSaved := h.rep } }))) ∧
  (∀ (s : State), s.dev.power.on = true →
    exec .opTimeSave s = .next (s.withDev ({ s.dev.pass (s.dev.recorder.toMultiple 16) with
      recorder := (s.dev.pass (s.dev.recorder.toMultiple 16)).recorder.save }))) ∧
  (∀ (v : Word) (s : State), s.dev.hubUp = true →
    exec (.recSaturatedWrite v) s = .next (s.withDev ({ s.dev with recorder := { s.dev.recorder with saturated := s.dev.recorder.saturated && !bit v 18 } })))

/-- The control frame (R25, R30 to R32, R92, R150, R132, R283, R284, Table 01-14): a boundary captures the units as they stood at its instant and starts
the frame; the generation's commit exports and assembles; a deadline commits without convergence; CHECKPOINT writes the frame's records and its bank;
and FRAME_SET, FRAME_STOP and FRAME_STATUS do what Table 01-13 gives them.
Conventions of the model that it shows: log entries 48, 32. -/
def Obligations.ControlFrameCommandsComplete : Prop :=
  (∀ (s : State) (n T : Nat), s.dev.ctlUp = true → s.dev.frame.nextFrame = some (n, T) →
    ∃ t, exec .frameBoundary s = .next t ∧ t.frameBank = { gen := some (n % 32768), dev := { s.dev.toCt T with out := [] } } ∧ t.reqBank = s.reqBank ∧
      t.dev.frame.frameNum = n ∧ t.dev.frame.tN = T ∧ t.dev.frame.phase = .snapshot ∧ t.dev.frame.everRun = true ∧
      t.dev.frame.state = (if s.dev.frame.state = .stopped then .running else s.dev.frame.state) ∧ t.dev.frame.maxFrameRun = max s.dev.frame.maxFrameRun n) ∧
  (∀ (s : State), s.dev.ctlUp = true → s.dev.frame.everRun = true → s.dev.frame.genCommitted < s.dev.frame.frameNum → s.dev.piste.cursor = none →
    s.dev.piste.held0 = none → s.dev.piste.held1 = none → s.dev.coord.committed = true → s.dev.swapAt s.dev.frame.frameNum = false →
    exec .generationCommit s = .next (s.withDev ((s.dev.exportPoints s.dev.frame.frameNum).beginAssembly s.dev.frame.frameNum))) ∧
  (∀ (s : State), s.dev.ctlUp = true → s.dev.coord.committed = false → s.dev.coord.asTop = false →
    exec .frameDeadline s = .next (s.withDev ((s.dev.toCt s.dev.coord.dN).commitFrame true s.dev.coord.round (s.dev.toCt s.dev.coord.dN).now))) ∧
  (∀ (s : State) (n : Nat) (recs : Tbl WarmRec) (rest : List (Nat × Tbl WarmRec)) (d : Dev), s.dev.ctlUp = true → s.dev.jobs.toCkpt = (n, recs) :: rest →
    ({ s.dev with jobs := { s.dev.jobs with toCkpt := rest } } : Dev).writeRecs n recs = d →
    exec .frameCheckpoint s = .next (s.withDev ((((d.setFrame { d.frame with checkpointed := n }).phaseOf n .done).writeBank (n % 2) n).stopAfter n))) ∧
  (∀ (s : State) (t0 t1 : Nat), s.dev.ctlUp = true → s.dev.frame.state = .stopped → (s.dev.twin.ckpt.rd 0).time = t0 → (s.dev.twin.ckpt.rd 1).time = t1 →
    exec .stoppedCheckpoint s = .next (s.withDev ((if t0 = 0 ∧ t1 = 0 then s.dev else s.dev.toCt (max t0 t1 + 1000000000)).writeBank
      (if t1 < t0 then 1 else 0) s.dev.frame.frameNum))) ∧
  (∀ (p : Packet) (s : State) (q : QPacket) (a : Nat), Ready opFrameSet p s q → q.resv 0 0xFFFF = false → q.resv 2 0xFFFF = false → 10 ≤ q.f 0 15 0 →
    q.f 0 15 0 ≤ 60000 → nearEra s.dev.now (q.par 1) (q.f 2 15 0) = (a : Int) → s.dev.frame.state = .stopped → s.dev.now + 10000000 ≤ a →
    (s.dev.frame.everRun = true → s.dev.frame.maxFrameRun < (q.par 3).toNat) → s.dev.fromManager q = true → s.dev.power.lp ≠ .quiesce →
    exec (.frameSet p) s = .next ((s.withDev ({ s.dev with
      frame := { s.dev.frame with pendingSet := some { len := q.f 0 15 0, anchor := a, anchorFrame := (q.par 3).toNat }, awaitSet := false },
      twin := { s.dev.twin with waiting := s.dev.twin.waiting ++ [{ q with started := true }] } })).started q)) ∧
  (∀ (p : Packet) (s : State) (q : QPacket), Ready opFrameStop p s q → s.dev.fromManager q = true →
    (s.dev.frame.state = .stopped → exec (.frameStop p) s = .next (s.finish q stOkNoChange 0 [])) ∧
    (∀ d, s.dev.frame.state ≠ .stopped → s.dev.frame.frameNum < (q.par 0).toNat →
      (s.dev.setFrame { s.dev.frame with state := .stopping, stopFrame := some (q.par 0).toNat }).abortSnap = d →
      exec (.frameStop p) s = .next ((s.withDev ({ d with twin := { d.twin with waiting := d.twin.waiting ++ [{ q with started := true }] } })).started q))) ∧
  (∀ (p : Packet) (s : State) (q : QPacket), Ready opFrameStatus p s q → exec (.frameStatus p) s = .next (s.finish q stOk 0
    [w32 s.dev.frame.frameNum, pack [(s.dev.frame.sched.len, 0), (s.dev.frame.state.num, 16), (s.dev.frame.phase.num, 18), (b1 s.dev.frame.pendingSet.isSome, 21)],
      w32 s.dev.frame.tN, pack [(eraOf s.dev.frame.tN, 0), (s.dev.frame.globalIter, 16)], s.dev.frame.commitLagUs,
      pack [(s.dev.frame.deadlineCnt, 0), (s.dev.frame.olderCnt, 16)], w32 ((s.dev.frame.pendingSet.map (fun x => x.anchorFrame)).getD 0)]))

/-- The registers of the PCIe rings (R49, R50, R53, Tables 02-6, 02-10 and 02-11): each write changes the fields its rule names and no other, and the
completion timer signals the vector 1,000 ns times TIME_US after the oldest unsignalled completion.
Conventions of the model that it shows: log entries 18, 19. -/
def Obligations.HostRingCommandsComplete : Prop :=
  (∀ (v : Word) (xs : List SqFetch) (s : State), s.dev.hubUp = true →
    (256 < (v.toNat % 512 + 512 - s.dev.host.ring.cqHead.toNat) % 512 →
      exec (.hubSqTailWrite v xs) s = .next (s.withDev ((s.dev.setRing { s.dev.host.ring with sqOverrun := true }).raise 0x0110 0x0100 .warn (v.toNat % 512)))) ∧
    ((v.toNat % 512 + 512 - s.dev.host.ring.cqHead.toNat) % 512 ≤ 256 →
      exec (.hubSqTailWrite v xs) s = .next (s.withDev ((s.dev.setRing { s.dev.host.ring with sqTail := BitVec.ofNat 9 (v.toNat % 512) }).sqFetch xs)) ∧
      (s.dev.host.ring.ringEn = false ∨ s.dev.host.ring.pause = true ∨ s.dev.host.ring.suspended = true →
        exec (.hubSqTailWrite v xs) s = .next (s.withDev (s.dev.setRing { s.dev.host.ring with sqTail := BitVec.ofNat 9 (v.toNat % 512) }))))) ∧
  (∀ (v : Word) (s : State) (room move : Nat), s.dev.hubUp = true → (s.dev.host.ring.cqTail.toNat + 512 - s.dev.host.ring.cqHead.toNat) % 512 = room →
    (v.toNat % 512 + 512 - s.dev.host.ring.cqHead.toNat) % 512 = move →
    exec (.hubCqHeadWrite v) s = .next (s.withDev (s.dev.setRing (if room < move then { s.dev.host.ring with cqHeadErr := true }
      else { s.dev.host.ring with cqHead := BitVec.ofNat 9 (v.toNat % 512) })))) ∧
  (∀ (v : Word) (s : State), s.dev.hubUp = true →
    ((bit v 0 = true ∧ s.dev.host.ring.ringEn = false) → exec (.hubHostCtlWrite v) s = .next (s.withDev (s.dev.setRing { s.dev.host.ring with
      ringEn := true, pause := bit v 1, sqTail := 0, sqHead := 0, cqTail := 0, cqHead := 0, suspended := false, unsignalled := 0 }))) ∧
    (¬(bit v 0 = true ∧ s.dev.host.ring.ringEn = false) → exec (.hubHostCtlWrite v) s = .next (s.withDev (s.dev.setRing { s.dev.host.ring with
      ringEn := bit v 0, pause := bit v 1 })))) ∧
  (∀ (v : Word) (s : State), s.dev.hubUp = true →
    exec (.hubHostErrWrite v) s = .next (s.withDev (s.dev.setRing { s.dev.host.ring with
      sqOverrun := s.dev.host.ring.sqOverrun && !bit v 0, cqHeadErr := s.dev.host.ring.cqHeadErr && !bit v 1, dmaErr := s.dev.host.ring.dmaErr && !bit v 2 }))) ∧
  (∀ (s : State), s.dev.hubUp = true → s.dev.host.ring.irqTimeUs ≠ 0 → s.dev.host.ring.unsignalled ≠ 0 → s.dev.host.ring.irqMsixEn = true →
    exec .cqIrqTimeout s = .next (s.withDev (((s.dev.toRaw (s.dev.host.ring.unsigAt + 1000 * s.dev.host.ring.irqTimeUs)).setRing
      { s.dev.host.ring with unsignalled := 0 }).emit (.msix s.dev.host.ring.irqVector.toNat)))) ∧
  (∀ (kind : Fin 3) (s : State), s.dev.hubUp = true →
    exec (.pcieLinkReset kind) s = .next (s.withDev ((s.dev.setRing { s.dev.host.ring with suspended := true }).raise 0x0113 0x0100 .warn kind.val)))

/-- The quad-SPI port and the Ethernet transport (R54 to R56, Table 02-15): the port's status and replies are shifted out with their CRC, a frame is refused
with exactly one flag or taken, ACK_REPLY removes the reply it names, and a datagram is discarded, refused for lack of credit, or taken; ARP and ICMP are
answered for the port's own address.
Conventions of the model that it shows: log entries 12. -/
def Obligations.HostTransportCommandsComplete : Prop :=
  (∀ (s : State), s.dev.hubUp = true → s.dev.host.cfg.spiEn = true →
    exec .readStatus s = .next (s.withDev (s.dev.emit (.spiOut (bytesAll (s.dev.spiStatus ++ [crcWords s.dev.spiStatus]))))) ∧
    (∀ r rs, s.dev.host.spi.replies = r :: rs →
      exec .readReply s = .next (s.withDev (s.dev.emit (.spiOut (bytesAll (r ++ [crcWords r]))))) ∧
      exec .readReplyQ s = .next (s.withDev (s.dev.emit (.spiOut (bytesAll (r ++ [crcWords r]))))) ∧
      (∀ tag : BitVec 16, fld (nth r 1) 15 0 = tag.toNat →
        exec (.ackReply tag (crc32c (leBytes 2 tag.toNat))) s = .next (s.withDev ((s.dev.setSpi { s.dev.host.spi with replies := rs }).giveCredit .spi)))) ∧
    (s.dev.host.spi.replies = [] →
      exec .readReply s = .next (s.withDev (s.dev.emit (.spiOut (bytesAll [0, crcWords [0]])))) ∧
      exec .readReplyQ s = .next (s.withDev (s.dev.emit (.spiOut (bytesAll [0, crcWords [0]])))))) ∧
  (∀ (p : Packet) (s : State) (c : Word), s.dev.hubUp = true → s.dev.host.cfg.spiEn = true → p.framedWords = p.words.length → p.words.length ≤ 1024 →
    (c ≠ crcWords p.words → ∀ d, (s.dev.setSpi { s.dev.host.spi with lastCrcErr := true, lastRefused := false, lastLenErr := false }).countSpiCrc = d →
      exec (.writePacket p c) s = .next (s.withDev d) ∧ exec (.writePacketQ p c) s = .next (s.withDev d)) ∧
    (c = crcWords p.words → s.dev.creditFree .spi = true →
      ∀ d, (s.dev.setSpi { s.dev.host.spi with lastCrcErr := false, lastRefused := false, lastLenErr := false, acceptCnt := s.dev.host.spi.acceptCnt + 1 }).take
        { p with transport := .spi } = d →
      exec (.writePacket p c) s = .next (s.withDev d) ∧ exec (.writePacketQ p c) s = .next (s.withDev d))) ∧
  (∀ (port : Fin 3) (p : Packet) (s : State), s.dev.hubUp = true → (s.dev.host.eth.rd port.val).enable = true → (s.dev.host.eth.rd port.val).ipv4 ≠ 0 →
    bit (w32 s.dev.host.cfg.ethCmdMask.toNat) port.val = true → p.framedWords = p.words.length → p.magic = 0xD6 → s.dev.host.cfg.admits p.srcAddr = true →
    (s.dev.creditFree .eth = true → exec (.ethCmdDatagram port p) s = .next (s.withDev (s.dev.take { p with transport := .eth, port := port.val }))) ∧
    (s.dev.creditFree .eth = false → exec (.ethCmdDatagram port p) s = .next (s.withDev (s.dev.countRefused.emit (.ethReply port.val p.srcAddr p.srcPort p.vlan
      (replyWords { pkt := { p with transport := .eth, port := port.val } } stQueueFull 0 [])))))) ∧
  (∀ (port : Fin 3) (target sender : BitVec 32) (mac : BitVec 48) (echo : List Byte) (s : State), s.dev.hubUp = true →
    (s.dev.host.eth.rd port.val).enable = true → (s.dev.host.eth.rd port.val).ipv4 ≠ 0 → target = (s.dev.host.eth.rd port.val).ipv4 →
    exec (.arpRequest port target sender mac) s = .next (s.withDev (s.dev.emit (.arpReply port.val sender mac target (s.dev.macAddr port.val)))) ∧
    exec (.icmpEchoRequest port target sender echo) s = .next (s.withDev (s.dev.emit (.icmpReply port.val sender echo))))

/-- Relays and the journal (R59 to R61, R226 to R228): a relay leaves over its DOWN port and its record waits TIMEOUT_MS; a relay packet that has reached
its hops is taken, one that has not goes on; a reply ends the relay it answers and a late one is reported; a command that waited for the journal is admitted
or, after 100 ms, answered ST_BUSY; and an eMRAM write that ends has done its part.
Conventions of the model that it shows: log entries 14, 16, 20, 31. -/
def Obligations.RelayAndJournalCommandsComplete : Prop :=
  (∀ (p : Packet) (s : State) (q : QPacket) (d : Dev), Ready opRelay p s q → q.resv 0 0x1FF = false → q.f 0 1 0 ≠ 0 → (q.b 0 8 = true → s.dev.oldFirmware = false) →
    q.resv 1 0xFFFF = false → q.f 1 15 0 ≠ 0 → (q.from' 2).length ≤ 1024 → fld (nth (q.from' 2) 1) 31 16 = (q.from' 2).length →
    s.dev.relayBar (q.f 0 3 2) = none → s.dev.jlSend (q.f 0 3 2) 5 q.pkt.params = d →
    exec (.relay p) s = .next ((s.withDev (d.addRelay { pkt := { q with started := true }, head := (q.from' 2).take 4, ports := [q.f 0 3 2], subtree := q.b 0 8,
                                                                        deadline := d.time.raw + q.f 1 15 0 * 1000000, innerTag := BitVec.ofNat 16 (fld (nth (q.from' 2) 1) 15 0) })).started q)) ∧
  (∀ (m : List Word) (s : State), s.dev.hubUp = true →
    (1 < fld (nth m 0) 1 0 → s.dev.relayBar (fld (nth m 0) 5 4) = none → exec (.jalowRelayReceive m) s = .next (s.withDev (s.dev.jlSend (fld (nth m 0) 5 4) 5
      (pack [(fld (nth m 0) 1 0 - 1, 0), (fld (nth m 0) 5 4, 2), (fld (nth m 0) 7 6, 4), (b1 (bit (nth m 0) 8), 8)] :: nth m 1 :: m.drop 2)))) ∧
    (fld (nth m 0) 1 0 ≤ 1 → bit (nth m 0) 8 = false → s.dev.creditFree .relay = true → exec (.jalowRelayReceive m) s = .next (s.withDev (s.dev.take
      { transport := .relay, port := s.dev.upPort.getD 0, words := m.drop 2, framedWords := (m.drop 2).length })))) ∧
  (∀ (port : Fin 4) (m : List Word) (s : State), s.dev.hubUp = true →
    (∀ i w, s.dev.host.relays.findIdx? (fun w => w.awaited && decide (port.val ∈ w.ports ∧ w.innerTag.toNat = fld (nth m 1) 15 0)) = some i →
      s.dev.host.relays.getD i {} = w → w.subtree = false →
      exec (.jalowReplyReceive port m) s = .next (s.withDev (s.dev.endRelay i ((pathError m).getD stOk) m))) ∧
    (∀ w, s.dev.host.relays.findIdx? (fun w => w.awaited && decide (port.val ∈ w.ports ∧ w.innerTag.toNat = fld (nth m 1) 15 0)) = none →
      s.dev.host.relays.find? (fun w => !w.awaited && decide (w.innerTag.toNat = fld (nth m 1) 15 0)) = some w → w.origin = true →
      exec (.jalowReplyReceive port m) s = .next (s.withDev (s.dev.raise 0x0114 0x0100 .info (w.pkt.pkt.tag + 65536 * fld (w.pkt.par 0) 7 0))))) ∧
  (∀ (tag : BitVec 16) (s : State) (i : Nat) (w : RelayWait), s.dev.hubUp = true →
    s.dev.host.relays.findIdx? (fun w => w.awaited && decide ((if w.origin then w.pkt.pkt.tag else w.innerTag.toNat) = tag.toNat)) = some i →
    s.dev.host.relays.getD i {} = w → w.origin = true → w.subtree = false → w.own = false →
    exec (.relayTimeout tag) s = .next (s.withDev ((s.dev.toRaw w.deadline).endRelay i stRelayTimeout
      (w.answers ++ w.ports.map (fun p => relayWord (s.dev.jalow.port.rd p).partnerAddr.toNat stRelayTimeout))))) ∧
  (∀ (s : State) (w : JrnWait) (op : Op), s.dev.slalom.jrnWait.find? (fun w => s.dev.slalom.room w.need) = some w → w.auth = false → opOf w.pkt.pkt = some op →
    op.die = false →
    exec .journalAdmit s = .next ((s.withDev (s.dev.setSlm { s.dev.slalom with jrnWait := s.dev.slalom.jrnWait.erase w })).admitNow op w.pkt)) ∧
  (∀ (s t : State) (w : JrnWait) (ws : List JrnWait), s.dev.slalom.jrnWait = w :: ws →
    s.withDev (((s.dev.toRaw w.deadline).setSlm { s.dev.slalom with jrnWait := ws, jrnlBusy := bump 16 s.dev.slalom.jrnlBusy }).satAt 0x50 16
      (bump 16 s.dev.slalom.jrnlBusy)) = t →
    exec .journalWaitTimeout s = .next (t.finish w.pkt stBusy 0 [])) ∧
  (∀ (s : State) (r : EmramReq) (t : State), s.dev.slalom.emramBusy = some r → s.written r = t → t.dev.ctlUp = false →
    exec .emramWriteDone s = .next (t.withDev (t.dev.setSlm t.dev.slalom.serve)))

/-- The link-up of a Jalow port and its timers (R153, R158, R159, R162, R163): word lock draws a NONCE and sends HELLO, the partner's HELLO brings the link
up or refuses it with Table 07-12's reason, and each timer acts at the instant its rule gives.
Conventions of the model that it shows: log entries 52, 53. -/
def Obligations.JalowLinkCommandsComplete : Prop :=
  (∀ (p : Fin 4) (s : State), s.dev.hubUp = true → (s.dev.jl p.val).link = .noSignal ∨ (s.dev.jl p.val).link = .training →
    exec (.bitAndWordLock p) s = .next (s.withDev (((s.dev.random 16).2.setJl p.val
      { s.dev.jl p.val with link := .hello, nonce := (s.dev.random 16).1, gotHello := false, refuse := 0 }).sendHello p.val))) ∧
  (∀ (p : Fin 4) (s : State), (s.dev.jl p.val).link = .hello → (s.dev.jl p.val).gotHello = false →
    exec (.jlHelloTimer p) s = .next (s.withDev ((s.dev.toRaw ((s.dev.jl p.val).hsAt + 100000)).sendHello p.val))) ∧
  (∀ (p : Fin 4) (m : List Word) (s : State), (s.dev.jl p.val).link = .hello →
    (s.dev.helloRefusal p.val m = none → exec (.jlHelloReceive p m) s = .next (s.withDev (s.dev.jlUp p.val m))) ∧
    (∀ r d, s.dev.helloRefusal p.val m = some r →
      s.dev.setJl p.val { s.dev.jl p.val with
        partnerAddr := BitVec.ofNat 8 (fld (nth m 2) 15 8), partnerSerial := BitVec.ofNat 64 ((nth m 0).toNat + 2 ^ 32 * (nth m 1).toNat) } = d →
      exec (.jlHelloReceive p m) s = .next (s.withDev ((d.setJl p.val { (d.jl p.val).dropped .refused d.time.raw with refuse := BitVec.ofNat 8 r }).raise
        0x3203 (0x3200 + p.val) .warn r)))) ∧
  (∀ (p : Fin 4) (s : State) (d : Dev), (s.dev.jl p.val).link ≠ .off → (s.dev.jl p.val).link ≠ .up → (s.dev.jl p.val).link ≠ .hello →
    s.dev.toRaw ((s.dev.jl p.val).hsAt + 10000000) = d →
    exec (.jlRetryTimer p) s = .next (s.withDev (d.setJl p.val { s.dev.jl p.val with
      link := if (s.dev.jl p.val).link = .refused then .training else (s.dev.jl p.val).link, refuse := 0, hsAt := d.time.raw }))) ∧
  (∀ (p : Fin 4) (s : State), (s.dev.jl p.val).link = .up →
    exec (.jlIdleTimer p) s = .next (s.withDev ((s.dev.toRaw ((s.dev.jl p.val).sentAt + 5000)).jlControl p.val 0 []))) ∧
  (∀ (p : Fin 4) (s : State), (s.dev.jl p.val).link = .up → (s.dev.jl p.val).unacked ≠ [] →
    exec (.jlAckTimeout p) s = .next (s.withDev ((s.dev.toRaw ((s.dev.jl p.val).ackAt + 20000)).jlResend p.val))) ∧
  (∀ (p : Fin 4) (s : State), (s.dev.jl p.val).link = .up →
    exec (.jlLinkLoss p true) s = .next (s.withDev (s.dev.jlDown p.val .noSignal (some 0))) ∧
    exec (.jlLinkLoss p false) s = .next (s.withDev ((s.dev.toRaw ((s.dev.jl p.val).heardAt + 50000)).jlDown p.val .training (some 1))))

/-- Jalow frames and messages, the ports' settings and status (R158, R159, R163 to R167, Tables 07-8, 07-10 and 07-12): a frame with a wrong CRC or a
reserved type is counted, a good one acknowledges and is taken; NAK resends; POINTS and EVENT messages enter the point store and the router; a
JL_PORT_CONFIG retrains its port; JL_STATUS reads its page.
Conventions of the model that it shows: log entries 52, 54. -/
def Obligations.JalowMessageCommandsComplete : Prop :=
  (∀ (p : Fin 4) (f : JlFrame) (s : State), (s.dev.jl p.val).link = .up →
    (f.crc ≠ f.crcOf → exec (.jlFrameReceive p f) s = .next (s.withDev ((s.dev.jlCrcErr p.val).jlNak p.val false))) ∧
    (f.crc = f.crcOf → 9 ≤ f.ftype.toNat → exec (.jlFrameReceive p f) s = .next (s.withDev (s.dev.jlCrcErr p.val))) ∧
    (f.crc = f.crcOf → f.ftype.toNat = 0 ∨ f.ftype.toNat = 2 → exec (.jlFrameReceive p f) s = .next (s.withDev (s.dev.jlHeard p.val f))) ∧
    (f.crc = f.crcOf → 3 ≤ f.ftype.toNat → f.ftype.toNat < 9 → exec (.jlFrameReceive p f) s = .next (s.withDev ((s.dev.jlHeard p.val f).jlData p.val f)))) ∧
  (∀ (p : Fin 4) (k : BitVec 8) (s : State), (s.dev.jl p.val).link = .up →
    exec (.jlNakReceive p k) s = .next (s.withDev ((s.dev.setJl p.val { (s.dev.jl p.val).acked (k - 1) s.dev.time.raw with heardAt := s.dev.time.raw }).jlResend p.val))) ∧
  (∀ (p : Fin 4) (m : List Word) (s : State) (d : Dev), (s.dev.jl p.val).link = .up →
    (List.range (min (fld (nth m 1) 14 0) (s.dev.jl p.val).cfg.impCount)).foldl (fun acc i => acc.writePoint {
      id := (s.dev.jl p.val).cfg.impBase + i, value := nth m (2 + 3 * i), time := nth m (3 + 3 * i), frameTag := some (BitVec.ofNat 16 (fld (nth m (4 + 3 * i)) 23 8)),
      quality := BitVec.ofNat 8 (fld (nth m (4 + 3 * i)) 7 0), source := BitVec.ofNat 8 (0x60 + p.val) }) s.dev = d →
    exec (.jlPointsReceive p m) s = .next (s.withDev ((d.setJl p.val { d.jl p.val with
      impDiscard := satN 16 ((d.jl p.val).impDiscard + (fld (nth m 1) 14 0 - (s.dev.jl p.val).cfg.impCount)) }).satAt 0x32 16
        (satN 16 ((d.jl p.val).impDiscard + (fld (nth m 1) 14 0 - (s.dev.jl p.val).cfg.impCount)))))) ∧
  (∀ (p : Fin 4) (m : List Word) (s : State), (s.dev.jl p.val).link = .up →
    ∃ e, exec (.jlEventReceive p m) s = .next (s.withDev ({ s.dev with evr := s.dev.evr.accept e })) ∧ e.code = BitVec.ofNat 16 (fld (nth m 3) 15 0) ∧
      e.source = BitVec.ofNat 16 (fld (nth m 3) 31 16) ∧ e.data = BitVec.ofNat 64 ((nth m 4).toNat + 2 ^ 32 * (nth m 5).toNat) ∧
      e.origin = some (BitVec.ofNat 8 (fld (nth m 8) 7 0))) ∧
  (∀ (p : Packet) (s : State) (q : QPacket) (c : JlCfg) (t : State), Ready opJlPortConfig p s q → Journals s q → jlCfgOf q = c → q.resv 0 0x3F3F = false →
    q.f 0 1 0 ≠ 3 → q.resv 1 0xFFFFF = false → q.resv 2 0x7FFF = false → q.resv 3 0xFFFFF = false → q.resv 4 0x7FFF = false → c.expCount ≤ 16384 →
    c.expFirst + c.expCount ≤ 2 ^ 20 → c.impCount ≤ 16384 → c.impBase + c.impCount ≤ 2 ^ 20 → (c.role = .up → ∀ x ∈ s.dev.portOf .up, x = p.inst) →
    (c.enc = true → s.dev.keyRefusal c.keySlot.toNat 5 = none) → (c.role = (s.dev.jl p.inst).cfg.role ∨ s.dev.frame.state = .stopped ∨ (s.dev.jl p.inst).link ≠ .up) →
    ((s.withDev (s.dev.setJl p.inst { s.dev.jl p.inst with cfg := c })).entered 0x0503 q).finish q stOk 0 [] = t →
    exec (.jlPortConfig p) s = .next (t.withDev (t.dev.jlRetrain p.inst))) ∧
  (∀ (p : Packet) (s : State) (q : QPacket), Ready opJlStatus p s q → exec (.jlStatus p) s = .next (s.finish q stOk 0
    [s.dev.jlWord p.inst 0x00, w32 (s.dev.jl p.inst).partnerSerial.toNat, w32 ((s.dev.jl p.inst).partnerSerial.toNat / 2 ^ 32),
      pack [((s.dev.jl p.inst).crcErr, 0), ((s.dev.jl p.inst).authErr, 16)], (s.dev.jl p.inst).resent, (s.dev.jl p.inst).txFrames, (s.dev.jl p.inst).rxFrames,
      pack [((s.dev.jl p.inst).downCnt, 0), ((s.dev.jl p.inst).impDiscard, 16)], pack [((s.dev.jl p.inst).txCredits, 0), ((s.dev.jl p.inst).partnerRelayFree, 8)]]))

/-- The point store (R67 to R74, R77, Tables 03-1 and 03-5): what a write leaves in the entry and that every other entry stays, what the reads return, the
whole-block write, the point frame, the uncorrectable error, and the waiting write.
Conventions of the model that it shows: log entries 30. -/
def Obligations.PointStoreCommandsComplete : Prop :=
  (∀ (p : Packet) (s : State) (q : QPacket), Ready opPointRead p s q → q.resv 0 0xFFFFF = false → q.resv 1 0x7FF = false → 1 ≤ q.f 1 10 0 → q.f 1 10 0 ≤ 1022 →
    q.f 0 19 0 + q.f 1 10 0 ≤ 2 ^ 20 → q.holds (4 * q.f 1 10 0) →
    exec (.pointRead p) s = .next (s.finish q stOk 0 ((List.range (q.f 1 10 0)).flatMap (fun k => (s.dev.points.live.rd (q.f 0 19 0 + k)).words)))) ∧
  (∀ (p : Packet) (s : State) (q : QPacket) (w : PointWrite), Ready opPointWrite p s q → q.resv 0 0xFFFFF = false → q.resv 2 0xFF = false →
    qualityOk (q.f 2 7 0) = true → w = { id := q.f 0 19 0, value := q.par 1, landTime := true, quality := BitVec.ofNat 8 (q.f 2 7 0),
                                         source := BitVec.ofNat 8 (0x10 + p.transport.num) } →
    exec (.pointWrite p) s = .next ((s.withDev (s.dev.writePoint w)).finish q stOk 0 []) ∧
    (s.dev.points.waiting = [] → s.dev.points.needsCopy w.id = false → s.dev.loses w = false → ∃ t, exec (.pointWrite p) s = .next t ∧
      t.dev.points.live.rd w.id = { value := w.value, time := w32 s.dev.now, frameTag := BitVec.ofNat 16 s.dev.frame.frameNum,
                                    quality := if finite32 w.value then w.quality else 0x87, source := w.source, sequence := (s.dev.points.live.rd w.id).sequence + 1 } ∧
      ∀ j, j ≠ w.id → t.dev.points.live.rd j = s.dev.points.live.rd j)) ∧
  (∀ (p : Packet) (s : State) (q : QPacket) (ws : List Word) (el : Nat → Word), Ready opPointBlockWrite p s q → p.dma = some ws → firstErr (blockChecks q) = none →
    (∀ i, el i = nth ws (2 * i + 1)) → (∀ i, i < q.f 3 16 0 → fld (el i) 11 8 = 0 ∧ (q.b 2 20 = false → fld (el i) 31 12 = 0) ∧ qualityOk (fld (el i) 7 0) = true) →
    exec (.pointBlockWrite p) s = .next ((s.withDev (s.dev.writePoints ((List.range (q.f 3 16 0)).map (fun i =>
      { id := if q.b 2 20 then fld (el i) 31 12 else q.f 2 19 0 + i, value := nth ws (2 * i), time := q.par 4, landTime := !q.b 2 21,
        quality := BitVec.ofNat 8 (fld (el i) 7 0), source := 0x20 })))).finish q stOk 0 [])) ∧
  (∀ (p : Packet) (s : State) (q : QPacket) (ws : List Word), Ready opPointBlockRead p s q → p.dma = some ws → firstErr (blockChecks q) = none → q.b 2 20 = false →
    (q.b 2 21 = false → exec (.pointBlockRead p) s = .next ((s.withDev (s.dev.emit (.hostWrite ((q.par 0).toNat + 2 ^ 32 * (q.par 1).toNat)
      ((List.range (q.f 3 16 0)).flatMap (fun k => (s.dev.points.live.rd (q.f 2 19 0 + k)).words))))).finish q stOk 0 [])) ∧
    (∀ i, q.b 2 21 = true → q.resv 4 0xFFFF = false → s.dev.points.heldAt (q.f 4 15 0) = some i → s.dev.points.viewBad i (q.f 2 19 0) (q.f 3 16 0) = false →
      exec (.pointBlockRead p) s = .next ((s.withDev (s.dev.emit (.hostWrite ((q.par 0).toNat + 2 ^ 32 * (q.par 1).toNat)
        (s.dev.points.viewAll i (q.f 2 19 0) (q.f 3 16 0))))).finish q stOk 0 []))) ∧
  (∀ (port : Fin 3) (src : BitVec 32) (dg : List Word) (s : State) (f : PFrameState) (d : Dev), s.dev.hubUp = true →
    (s.dev.host.eth.rd port.val).enable = true → (s.dev.host.eth.rd port.val).ipv4 ≠ 0 → s.dev.points.pframe.rd port.val = f → f.cfg.enable = true → f.ingest < 64 → s.dev.pframeErr f src dg = none →
    { s.dev with points := { s.dev.points with pframe := s.dev.points.pframe.wr port.val { f with
      accepted := f.accepted + 1, lastSeq := nth dg 1, ingest := f.ingest + 1 } } }.useKey f.cfg.keySlot.toNat = d →
    exec (.pointFrameReceive port src dg) s = .next (s.withDev (d.writePoints (pframeWrites f.cfg port.val s.dev.now dg)))) ∧
  (∀ (id : Nat) (s : State), s.dev.hubUp = true → id < 2 ^ 20 → ∃ t, exec (.pointEccError id) s = .next t ∧
    t.dev.points.live.rd id = { s.dev.points.live.rd id with value := 0x7FC00000, quality := 0x86, source := 0xF0, sequence := (s.dev.points.live.rd id).sequence + 1 } ∧
    (∀ j, j ≠ id → t.dev.points.live.rd j = s.dev.points.live.rd j) ∧ t.dev.evr = s.dev.evr.accept { code := 0x0124, source := 0x0100, sev := .crit,
                                                                                                     data := BitVec.ofNat 64 id }) ∧
  (∀ (s : State) (w : PointWrite), s.dev.landable s.dev.points.waiting [] = some w →
    exec .waitingWriteLand s = .next (s.withDev ({ s.dev with points := { s.dev.points with waiting := s.dev.points.waiting.erase w } }.land w))) ∧
  (∀ (p : Packet) (s : State) (q : QPacket) (c : PFrameCfg) (t : State), Ready opPframeConfig p s q → Journals s q → pframeCfgOf q = c → q.resv 0 0xFFFF3F03 = false →
    q.resv 3 0xFFFFF = false → q.resv 4 0xFFFFF = false → c.udpPort ∉ [0, 319, 320, s.dev.host.cfg.cmdUdpPort] →
    (c.enable = true → s.dev.macRefusal c.keySlot.toNat = none) → c.idLow ≤ c.idHigh → (s.entered 0x0220 q).finish q stOk 0 [] = t →
    exec (.pframeConfig p) s = .next (t.withDev ({ t.dev with points := { t.dev.points with
      pframe := t.dev.points.pframe.upd p.inst (fun f => { f with cfg := c }) } })))

/-- Snapshots and identity (R45, R47, R57, R58, R76 to R79, R406, Tables 02-23, 02-28 and 03-13): a requested snapshot is booked in order of time and
captured at its instant, its generation is read back, or fails with ST_ECC_UNCORRECTABLE where a copy it needs is bad, and its state listed; NOP and DEV_IDENT answer their words; HOST_STATUS clears when asked;
HOST_CONFIG and ETH_IF_CONFIG take effect with their journal entry; RESET_CAUSE reads a record.
Conventions of the model that it shows: log entries 17, 27, 30. -/
def Obligations.SnapshotAndIdentityCommandsComplete : Prop :=
  (∀ (p : Packet) (s : State) (q : QPacket) (a : Nat), Ready opSnapshotAt p s q → q.resv 1 0xFFFF = false → nearEra s.dev.now (q.par 0) (q.f 1 15 0) = (a : Int) →
    s.dev.now + 200000 ≤ a → a < s.dev.now + 2147483648 → s.dev.points.reqs.length < 4 →
    exec (.snapshotAt p) s = .next ((s.withDev ({ s.dev with points := { s.dev.points with
      reqs := insertReq { gen := BitVec.ofNat 16 (0x8000 + s.dev.points.reqCount % 32768), time := a } s.dev.points.reqs,
      reqCount := (s.dev.points.reqCount + 1) % 32768 } })).finish q stOkPending 0 [w32 (0x8000 + s.dev.points.reqCount % 32768)])) ∧
  (∀ (p : Packet) (s : State) (q : QPacket) (i : Nat), Ready opSnapshotRead p s q → q.resv 0 0xFFFF = false → q.resv 1 0xFFFFF = false → q.resv 2 0x7FF = false →
    1 ≤ q.f 2 10 0 → q.f 2 10 0 ≤ 1022 → q.f 1 19 0 + q.f 2 10 0 ≤ 2 ^ 20 → s.dev.points.heldAt (q.f 0 15 0) = some i →
    (s.dev.points.viewBad i (q.f 1 19 0) (q.f 2 10 0) = false → q.holds (4 * q.f 2 10 0) →
      exec (.snapshotRead p) s = .next (s.finish q stOk 0 (s.dev.points.viewAll i (q.f 1 19 0) (q.f 2 10 0)))) ∧
    (s.dev.points.viewBad i (q.f 1 19 0) (q.f 2 10 0) = true → exec (.snapshotRead p) s = .next (s.finish q stEccUncorrectable 0 []))) ∧
  (∀ (p : Packet) (s : State) (q : QPacket), Ready opSnapshotStatus p s q → s.dev.points.gens = [] → s.dev.points.reqs = [] →
    exec (.snapshotStatus p) s = .next (s.finish q stOk 0 ([pack [(1048576, 0), (0, 21), (0, 24)]] ++ List.replicate 17 0))) ∧
  (∀ (s : State) (r : SnapReq) (rs : List SnapReq) (d : Dev), s.dev.points.reqs = r :: rs → s.dev.toCt r.time = d →
    ∃ t, exec .requestedCapture s = .next t ∧ t.reqBank = { gen := some r.gen.toNat, dev := { d with out := [] } } ∧ t.frameBank = s.frameBank ∧
      t.dev.points = { d.points.capture r.gen true r.time with reqs := rs } ∧ t.dev.evr = d.evr.accept { code := 0x0121, source := 0x0100, sev := .info,
                                                                                                         data := BitVec.ofNat 64 (r.gen.toNat + 2 ^ 16 * (r.time % 2 ^ 32) + 2 ^ 48 * eraOf r.time) }) ∧
  (∀ (s : State) (q : QPacket) (op : Op), s.dev.host.queue.find? (fun q => q.waitsSnap && q.snapDone && !q.started && mayStart s.dev.host.queue q) = some q →
    opOf q.pkt = some op → exec .atSnapshotRelease s = .next (execQ op s q)) ∧
  (∀ (p : Packet) (s : State) (q : QPacket), Ready opNop p s q → (q.par 0).toNat ≤ 63 →
    exec (.nop p) s = .next (s.finish q stOk 0 [w32 (s.dev.host.lastSeq.rd (p.transport.num * 64 + (q.par 0).toNat)).toNat])) ∧
  (∀ (p : Packet) (s : State) (q : QPacket), Ready opDevIdent p s q → exec (.devIdent p) s = .next (s.finish q stOk 0
    [0x0A619616, s.dev.hubRev, s.dev.hubFwrev, s.dev.serialLo, s.dev.serialHi, pack [((s.dev.activeDie.map (fun n => n + 1)).getD 0, 0), (s.dev.treeLevel, 2)]])) ∧
  (∀ (p : Packet) (s : State) (q : QPacket) (c : HostCfg) (t : State), Ready opHostConfig p s q → Journals s q → hostCfgOf q = c → q.resv 0 0x7F = false →
    q.f 0 3 2 ≠ 3 → q.resv 1 0xFFFF = false → c.cmdUdpPort ∉ [0, 319, 320] → (∀ m, m < 3 → (s.dev.points.pframe.rd m).cfg.udpPort ≠ c.cmdUdpPort) →
    cutsOff c p = false → (s.entered 0x0120 q).finish q stOk 0 [] = t →
    exec (.hostConfig p) s = .next (t.withDev ({ t.dev with host := { t.dev.host with cfg := c } }))) ∧
  (∀ (p : Packet) (s : State) (q : QPacket) (h : HostPort), Ready opHostStatus p s q → q.resv 0 1 = false → s.dev.host = h →
    exec (.hostStatus p) s = .next ((if q.b 0 0 then s.withDev ({ s.dev with host := { h with authFailCnt := 0, refusedCnt := 0, ethDiscarded := 0, spiCrcErr := 0 } })
      else s).finish q stOk 0 [h.accepted.rd 0, h.accepted.rd 1, h.accepted.rd 2, h.accepted.rd 3, pack [(h.authFailCnt, 0), (h.refusedCnt, 16)],
        pack [(h.ethDiscarded, 0), (h.spiCrcErr, 16)]])) ∧
  (∀ (p : Packet) (s : State) (q : QPacket), Ready opEthIfConfig p s q → Journals s q → q.resv 0 0x1FF = false → q.resv 4 0x7FFF = false → q.resv 6 0xFFFF = false →
    q.b 6 8 = false → exec (.ethIfConfig p) s = .next (((s.withDev ({ s.dev with host := { s.dev.host with eth := (s.dev.host.eth.wr p.inst
      { enable := q.b 0 0, sgmii := q.b 0 1, speed := BitVec.ofNat 2 (q.f 0 3 2), phyAddr := BitVec.ofNat 5 (q.f 0 8 4), ipv4 := q.par 1, netmask := q.par 2,
        gateway := q.par 3, vid := BitVec.ofNat 12 (q.f 4 11 0), pcp := BitVec.ofNat 3 (q.f 4 14 12),
        mac := BitVec.ofNat 48 (q.f 6 15 0 * 2 ^ 32 + (q.par 5).toNat) }) } })).entered 0x0122 q).finish q stOk 0 [])) ∧
  (∀ (p : Packet) (s : State) (q : QPacket) (r : CauseRec), Ready opResetCause p s q → q.resv 0 0xF = false → s.dev.power.causes[q.f 0 3 0]? = some r →
    exec (.resetCause p) s = .next (s.finish q stOk 0 [w32 r.data.toNat, w32 (r.data.toNat / 2 ^ 32), r.seq, w32 r.opTime]))

/-- Piste (R83, R88, R92, R96, Tables 04-7 to 04-9 and 04-13): what each loading opcode leaves in the staged model, the commit with its image copy, the
status words, the model that a start-up or a takeover loads, and the pipeline that goes on.
Conventions of the model that it shows: log entries 32, 35, 36. -/
def Obligations.PisteCommandsComplete : Prop :=
  (∀ (p : Packet) (s : State) (q : QPacket) (m : Model), Ready opModelLoad p s q → q.resv 0 7 = false → s.dev.piste.commit = none →
    (if q.b 0 1 then some (if q.b 0 2 then s.dev.piste.active.getD {} else {}) else s.dev.piste.staging) = some m →
    (q.b 0 0 = true → (q.par 1).toNat + (q.from' 2).length ≤ 65536 →
      exec (.modelLoad p) s = .next ((s.withDev (s.dev.setPiste { s.dev.piste with staging := some { m with pool := m.pool.wrAll (q.par 1).toNat (q.from' 2) } })).finish q stOk 0 [])) ∧
    (q.b 0 0 = false → (q.par 1).toNat + (q.from' 2).length ≤ 786432 → (∀ x ∈ (q.from' 2).zipIdx, ((q.par 1).toNat + x.2) % 3 = 1 → fld x.1 31 22 = 0) →
      exec (.modelLoad p) s = .next ((s.withDev (s.dev.setPiste { s.dev.piste with
        staging := some { m with elemWords := m.elemWords.wrAll (q.par 1).toNat (q.from' 2) } })).finish q stOk 0 []))) ∧
  (∀ (p : Packet) (s : State) (q : QPacket) (st m : Model), Ready opModelCommit p s q → s.dev.piste.staging = some st → s.dev.piste.commit = none →
    m = { st with elemCount := (q.par 0).toNat, paramWords := (q.par 1).toNat, modelRev := BitVec.ofNat 16 (q.f 2 15 0), paramEdition := BitVec.ofNat 16 (q.f 2 31 16) } →
    1 ≤ (q.par 0).toNat → (q.par 0).toNat ≤ 262144 → (q.par 1).toNat ≤ 65536 →
    ((q.par 3).toNat = 0 ∨ s.dev.frame.state = .stopped ∨ s.dev.frame.frameNum + 2 ≤ (q.par 3).toNat) → m.reject s.dev.smallGangs s.dev.solver.cfg = none →
    exec (.modelCommit p) s = .next ((s.withDev ({ s.dev with
      piste := { s.dev.piste with commit := some { model := m, effective := (q.par 3).toNat, sigs := m.sigs, pkt := { q with started := true } }, imageCopy := some m },
      slalom := s.dev.slalom.request .model })).started q)) ∧
  (∀ (p : Packet) (s : State) (q : QPacket) (m : Model), Ready opModelStatus p s q → s.dev.piste.active.getD {} = m →
    exec (.modelStatus p) s = .next (s.finish q stOk 0 [pack [(s.dev.piste.modelState, 0), (b1 s.dev.piste.staging.isSome, 2), (b1 s.dev.piste.image.isSome, 3),
      (m.modelRev.toNat, 16)], w32 m.paramEdition.toNat, w32 m.elemCount, w32 s.dev.piste.activeSince, w32 ((s.dev.piste.pend.map (fun c => c.effective)).getD 0),
      w32 s.dev.piste.errReason.toNat, w32 s.dev.piste.errIndex, m.sigFold s.dev.piste.sigs])) ∧
  (∀ (p : Packet) (s : State) (q : QPacket) (m : Model) (n : Nat), Ready opPartitionSet p s q → q.resv 0 0x1FF0FFF = false → q.f 0 24 16 = n → 1 ≤ n → n ≤ 256 →
    q.f 0 11 0 + n ≤ 4096 → 1 + 8 * n ≤ q.n → (∀ i, i < n → firstErr (subEntryChecks q (1 + 8 * i)) = none) → s.dev.piste.commit = none → s.dev.piste.staging = some m →
    exec (.partitionSet p) s = .next ((s.withDev (s.dev.setPiste { s.dev.piste with
      staging := some { m with subs := m.subs.wrAll (q.f 0 11 0) ((List.range n).map (fun i => subEntryOf q (1 + 8 * i))) } })).finish q stOk 0 [])) ∧
  (∀ (p : Packet) (s : State) (q : QPacket) (m : Model) (n : Nat), Ready opSubstSet p s q → q.resv 0 0x3F = false → q.f 0 5 0 = n → 1 ≤ n → n ≤ 48 → 1 + 4 * n ≤ q.n →
    (∀ i, i < n → firstErr (substChecks q (1 + 4 * i)) = none) → s.dev.piste.commit = none → s.dev.piste.staging = some m →
    exec (.substSet p) s = .next ((s.withDev (s.dev.setPiste { s.dev.piste with staging := some { m with substs := (List.range n).foldl (fun t i => Tbl.wr t (q.f (1 + 4 * i) 3 0 * 4 + q.f (1 + 4 * i) 5 4) (substOf q (1 + 4 * i))) m.substs } })).finish q stOk 0 [])) ∧
  (∀ (s : State), s.dev.ctlUp = true →
    (∀ m, s.dev.piste.imageCopy = some m → exec .modelImageLoad s = .next (s.withDev (s.dev.setPiste { s.dev.piste with
      active := some m, sigs := m.sigs, activeSince := s.dev.frame.frameNum }))) ∧
    (∀ m, s.dev.piste.imageCopy = none → s.dev.piste.image = some m → exec .modelImageLoad s = .next (s.withDev (s.dev.setPiste { s.dev.piste with
      imageCopy := some m, active := some m, sigs := m.sigs, activeSince := s.dev.frame.frameNum, staging := none }))) ∧
    (s.dev.piste.imageCopy = none → s.dev.piste.image = none → exec .modelImageLoad s = .next (s.withDev ((s.dev.setPiste { s.dev.piste with
      active := none, sigs := [], staging := none }).raiseCtl 0x21 0x2100 .crit 1)))) ∧
  (∀ (k : Fin 2) (s : State) (j : Job), (if k.val = 0 then s.dev.piste.held0 else s.dev.piste.held1) = some j →
    (∀ lead d, s.dev.choose (s.dev.fixedOf j.sub) j.gangLog2 j = some lead → s.dev.place lead j = d →
      exec (.pisteResume k) s = .next (s.withDev (Dev.assemble 4097 (d.setPiste (if k.val = 0 then { d.piste with held0 := none } else { d.piste with held1 := none }))))) ∧
    (s.dev.choose (s.dev.fixedOf j.sub) j.gangLog2 j = none → exec (.pisteResume k) s = .next s))

/-- Solver engines (R99 to R102, R122, R124, R126, Tables 05-3 to 05-5 and 05-14 to 05-17): an object is placed, freed, written and read; the solver's
settings enter with their journal entry and take effect at once on a stopped grid; the status words; what an error of an engine's memory does; a
draining engine that has ended what it held parks.
Conventions of the model that it shows: log entries 38, 39, 40. -/
def Obligations.SolverEngineCommandsComplete : Prop :=
  (∀ (p : Packet) (s : State) (q : QPacket) (o : MemObj) (h : Word) (d : Dev), Ready opMemAlloc p s q → q.resv 0 0x7F = false → q.f 0 2 0 ≤ 4 →
    q.resv 1 0x1FFFF = false → allocOk s.dev.smallGangs p.inst (q.f 0 2 0) (q.f 0 6 4) (q.f 1 16 0) (q.par 2).toNat (q.par 3).toNat = true →
    allocObjOf (q.f 0 2 0) (q.b 0 3) (q.f 0 6 4) (q.f 1 16 0) (q.par 2).toNat (q.par 3).toNat = o →
    s.dev.allocObj p.inst 0 (s.dev.solver.sizesHost * 16384) o = some (h, d) →
    exec (.memAlloc p) s = .next ((s.withDev d).finish q stOk 0 [h, w32 o.total])) ∧
  (∀ (p : Packet) (s : State) (q : QPacket) (o : MemObj), Ready opMemFree p s q → fld (q.par 0) 30 27 = p.inst → s.dev.obj (q.par 0) = some o →
    fld o.handle 26 25 ≠ 1 → o.inUse = 0 →
    exec (.memFree p) s = .next ((s.withDev (s.dev.freeObj o.handle)).finish q stOk 0 [])) ∧
  (∀ (p : Packet) (s : State) (q : QPacket) (o : MemObj), Ready opMemWrite p s q → fld (q.par 0) 30 27 = p.inst → s.dev.obj (q.par 0) = some o →
    q.resv 1 0xFFFFF = false → 16 ≤ q.f 1 19 0 → q.f 1 19 0 + (q.from' 2).length ≤ 16 + o.dataWords → fld o.handle 26 25 ≠ 1 → o.inUse = 0 →
    exec (.memWrite p) s = .next ((s.withDev (s.dev.setObj ({ o with data := o.data.wrAll (q.f 1 19 0 - 16) (q.from' 2), state := .raw }.clearPiv))).finish
      q stOk 0 [])) ∧
  (∀ (p : Packet) (s : State) (q : QPacket) (o : MemObj), Ready opMemRead p s q → fld (q.par 0) 30 27 = p.inst → s.dev.obj (q.par 0) = some o →
    q.resv 1 0xFFFFF = false → q.resv 2 0xFFF = false → q.f 1 19 0 + q.f 2 11 0 ≤ 16 + o.dataWords → q.holds (q.f 2 11 0) →
    exec (.memRead p) s = .next (s.finish q stOk 0 ((List.range (q.f 2 11 0)).map (fun i => o.word (q.f 1 19 0 + i))))) ∧
  (∀ (p : Packet) (s : State) (q : QPacket) (d : Dev), Ready opSolverConfig p s q → Journals s q → firstErr (solverChecks s q) = none →
    { s.dev with solver := { s.dev.solver with cfg := solverCfgOf q } } = d →
    exec (.solverConfig p) s = .next (((s.withDev (if s.dev.frame.state = .stopped then d.applySizes else d)).entered 0x0414 q).finish q stOk 0 [])) ∧
  (∀ (p : Packet) (s : State) (q : QPacket), Ready opSolverStatus p s q →
    exec (.solverStatus p) s = .next (s.finish q stOk 0 ([pack [(s.dev.engMask [.idle, .busy], 0), (s.dev.engMask [.draining, .parked], 16)],
      pack [(s.dev.engMask [.halted], 0)]] ++ (List.range 16).flatMap (fun k => [s.dev.seState k, pack [(s.dev.workFree k, 0), ((s.dev.eng k).util, 20)]])))) ∧
  (∀ (k : Fin 16) (s : State) (e : Engine), s.dev.ctlUp = true → s.dev.eng k.val = e →
    (∀ d, s.dev.setEng k.val { e with state := .halted } = d → exec (.seMemoryEcc k true) s = .next (s.withDev
      { d with twin := { d.twin with die := d.twin.die.upd d.runDie (fun x => { x with lineHard := true }) } })) ∧
    (∀ a d, (s.dev.setEng k.val { e with eccCorr := bump 16 e.eccCorr }).freeN 524288 = (a, d) →
      exec (.seMemoryEcc k false) s = .next (s.withDev ((d.satAt 0x20 16 (bump 16 e.eccCorr)).raiseCtl 0x33 (0x2000 + k.val) .info a)))) ∧
  (∀ (k : Fin 16) (s : State) (e : Engine), s.dev.eng k.val = e → e.state = .draining → e.flight = [] → e.drain = 0 → e.drainRound = 0 →
    exec (.engineDrained k) s = .next (s.withDev ((s.dev.setEng k.val { e with state := .parked }).raiseCtl 0x35 (0x2000 + k.val) .info 1)))

/-- Jobs (R104, R105, R107, R129 to R131, Tables 06-2 to 06-5): the issue of a head, round queue first, or the gang's wait; the end of a problem in
flight; a host job is numbered, takes hold of its objects and is queued; its record is read, released, cancelled.
Conventions of the model that it shows: log entries 39, 40, 42. -/
def Obligations.JobCommandsComplete : Prop :=
  (∀ (k : Fin 16) (s : State), s.dev.ctlUp = true →
    (∀ d, s.dev.issueHead k.val true = some d → exec (.jobIssue k) s = .next (s.withDev d)) ∧
    (∀ d, s.dev.issueHead k.val true = none → s.dev.issueHead k.val false = some d →
      exec (.jobIssue k) s = .next (s.withDev (if d.frame.phase = .assemble ∧ d.piste.cursor = none then { d with frame := { d.frame with phase := .solve } } else d))) ∧
    (∀ e, s.dev.issueHead k.val true = none → s.dev.issueHead k.val false = none → s.dev.eng k.val = e → e.queue = [] → e.round = [] →
      exec (.jobIssue k) s = .next (s.withDev (s.dev.setEng k.val { e with gangWait := false })))) ∧
  (∀ (k : Fin 16) (i cycles : Nat) (s : State) (j : Job) (d : Dev), ((s.dev.eng k.val).flight)[i]? = some j → s.dev.engState k.val ≠ .halted →
    s.dev.engState k.val ≠ .off → s.dev.unflight j true = d →
    (∀ j' r, j.host.isSome = true → d.runHost j = (j', r) → exec (.jobEnd k i cycles) s = .next (s.withDev ((d.countRun j.engine j' r).endHost j' r cycles))) ∧
    (∀ r, j.host = none → (if j.kind = 6 then d.runQp j else j.runNet) = r →
      exec (.jobEnd k i cycles) s = .next (s.withDev ((d.countRun j.engine j r).endCtl j r cycles)))) ∧
  (∀ (p : Packet) (s : State) (q : QPacket) (j : Job) (d : Dev) (c num : Nat), Ready opJobSubmit p s q → firstErr (jobChecks s q) = none →
    s.dev.sized (jobOf s.dev q) = j → (∀ x ∈ members j.engine j.gangLog2, 0 < s.dev.freeCredits x) → (s.dev.jobs.hostCount + 1) % 32768 = c →
    c + 32768 * s.dev.runDie = num → (s.dev.holdObjs { j with host := some num } true).place j.engine { j with host := some num } = d →
    exec (.jobSubmit p) s = .next ((s.withDev { d with jobs := { d.jobs with hostCount := c, table := d.jobs.table ++ [{ num := num }] } }).finish q stOk 0 [w32 num])) ∧
  (∀ (p : Packet) (s : State) (q : QPacket) (x : HostJob), Ready opJobResult p s q → q.resv 0 0x1FFFF = false →
    s.dev.jobs.table.find? (fun x => x.num = q.f 0 15 0) = some x →
    (x.result = none → exec (.jobResult p) s = .next (s.finish q stOkPending 0 [])) ∧
    (∀ r, x.result = some r → exec (.jobResult p) s = .next ((if q.b 0 16 then s.withDev ({ s.dev with
      jobs := { s.dev.jobs with table := s.dev.jobs.table.filter (fun y => y.num ≠ x.num) } }) else s).finish q stOk 0 r.words))) ∧
  (∀ (p : Packet) (s : State) (q : QPacket) (x : HostJob), Ready opJobCancel p s q → q.resv 0 0xFFFF = false →
    s.dev.jobs.table.find? (fun x => x.num = q.f 0 15 0) = some x →
    (x.result = none → exec (.jobCancel p) s = .next ((s.withDev (s.dev.cancelJob x.num)).finish q stOk 0 [])) ∧
    (x.result.isSome = true → exec (.jobCancel p) s = .next (s.finish q stOkNoChange 0 [])))

/-- Coordination (R145, R148 to R151, R154, R155, R166, Tables 07-8, 07-9 and 07-11): a step of the top manager, of a mid-level device and of one whose DOWN
is there; the report deadline; a dropped worker; a report counted, kept or discarded; a decision applied, kept or a deadline; both sections of the
settings; the status words.
Conventions of the model that it shows: log entries 43, 44, 45, 46, 47. -/
def Obligations.CoordinationCommandsComplete : Prop :=
  (∀ (s : State), s.dev.stepReady = true → exec .coordStep s = .next (s.withDev s.dev.coordStep)) ∧
  (∀ (s : State), s.dev.stepReady = false → exec .coordStep s = .next s) ∧
  (∀ (s : State), s.dev.ctlUp = true → s.dev.coord.committed = false → s.dev.coord.phase = .solving → (s.dev.portOf .down).all s.dev.portReady = false →
    s.dev.reportDeadline < s.dev.coord.dN →
    exec .reportDeadline s = .next (s.withDev ((s.dev.portOf .down).foldl Dev.latePort (s.dev.toCt s.dev.reportDeadline)))) ∧
  (∀ (port : Fin 4) (s : State) (x : DownPort), s.dev.coord.ports.rd port.val = x → (s.dev.jalow.port.rd port.val).cfg.role = .down → s.dev.ctlUp = true →
    x.dropped = false → s.dev.freezeNow ≤ x.missed →
    exec (.workerDrop port) s = .next (s.withDev ((s.dev.setPort port.val { x with dropped := true }).coordEvent 0x53 .crit (s.dev.workerData port.val)))) ∧
  (∀ (port : Fin 4) (m : UpMsg) (s : State) (x : DownPort), s.dev.coord.ports.rd port.val = x → s.dev.ctlUp = true →
    (s.dev.jalow.port.rd port.val).cfg.role = .down → (s.dev.jalow.port.rd port.val).link = .up → s.dev.coord.committed = false → m.frame = s.dev.coord.frame →
    (m.round = s.dev.coord.round → s.dev.coord.phase = .solving → x.cur = none → x.deadlinePassed = false → s.dev.now < s.dev.reportDeadline →
      exec (.coordUpReceive port m) s = .next (s.withDev (s.dev.countUp port.val m))) ∧
    (m.round = s.dev.coord.round → s.dev.reportDeadline ≤ s.dev.now → exec (.coordUpReceive port m) s = .next s) ∧
    (s.dev.coord.round < m.round → exec (.coordUpReceive port m) s = .next (s.withDev (s.dev.setPort port.val { x with next := some m }))) ∧
    (m.round < s.dev.coord.round → exec (.coordUpReceive port m) s = .next s)) ∧
  (∀ (m : DownMsg) (s : State) (p : Nat) (d : Dev), s.dev.ctlUp = true → s.dev.upPort = some p → (s.dev.jalow.port.rd p).link = .up → s.dev.coord.asTop = false →
    s.dev.coord.committed = false → m.frame = s.dev.coord.frame →
    (s.dev.setCoord { s.dev.coord with treeCap := m.cap, treeWaitUs := m.waitUs, treeWait0Ms := m.wait0Ms, treeFreeze := m.freezeFrames }).sendDown
      m.entries m.round m.commit m.deadline m.sNext = d →
    (m.commit = true → m.deadline = true → exec (.coordDownReceive m) s = .next (s.withDev (d.commitFrame true s.dev.coord.round (near32 s.dev.now m.sNext)))) ∧
    (m.deadline = false → s.dev.coord.round ≤ m.round → s.dev.coord.phase = .waitDown → exec (.coordDownReceive m) s = .next (s.withDev (d.applyDown m))) ∧
    (m.deadline = false → s.dev.coord.round ≤ m.round → s.dev.coord.phase = .solving →
      exec (.coordDownReceive m) s = .next (s.withDev (d.setCoord { d.coord with committedDown := some m })))) ∧
  (∀ (p : Packet) (s : State) (q : QPacket), Ready opCoordConfigSettings p s q → Journals s q → q.resv 0 1 = false → q.resv 1 0xFFFF01FF = false →
    q.resv 2 0x00FFFFFF = false → 1 ≤ q.f 1 8 0 → q.f 1 8 0 ≤ 256 → 100 ≤ q.f 1 31 16 → 1 ≤ q.f 2 15 0 → q.f 2 15 0 ≤ 60000 → q.f 2 23 16 ≠ 0 →
    fpPos (q.par 3) = true → fpNonNeg (q.par 4) = true →
    exec (.coordConfigSettings p) s = .next (((s.withDev (s.dev.coordCfg (fun c => { c with
      cap := q.f 1 8 0, waitUs := q.f 1 31 16, wait0Ms := q.f 2 15 0, freezeFrames := q.f 2 23 16, epsAbs := q.par 3, epsRel := q.par 4 }))).entered 0x0501 q).finish
      q stOk 0 [])) ∧
  (∀ (p : Packet) (s : State) (q : QPacket) (first n : Nat), Ready opCoordConfigScope p s q → Journals s q → q.resv 0 1 = false → q.f 1 15 0 = first →
    q.f 1 31 16 = n → first % 32 = 0 → n % 32 = 0 → 32 ≤ n → n ≤ 32768 → first + n ≤ 65536 → q.n = 2 + n / 32 →
    exec (.coordConfigScope p) s = .next (((s.withDev (s.dev.coordCfg (fun c => { c with
      upScope := (List.range n).foldl (fun (t : Tbl Bool) i => t.wr (first + i) (bit (q.par (2 + i / 32)) (i % 32))) c.upScope }))).entered 0x0501 q).finish
      q stOk 0 [])) ∧
  (∀ (p : Packet) (s : State) (q : QPacket), Ready opCoordStatus p s q →
    exec (.coordStatus p) s = .next (s.finish q stOk 0 ((List.range 14).map (fun i => s.dev.coordWord (4 * i)))))

/-- Samples and the sequencer (R241 to R248, R252, Tables 11-5 to 11-7): a waiting sample is sent, the oldest on its way arrives; a cycle starts at its
instant and an entry's result is written after its end; a table is staged and committed, a run started and stopped, result registers read.
Conventions of the model that it shows: log entries 63, 67. -/
def Obligations.SequencerCommandsComplete : Prop :=
  (∀ (k : Fin 4) (s : State) (x : TaggedSample) (f : Sequencer), s.dev.nextSample k.val = some x → (s.dev.fld k.val).seq = f →
    exec (.sampleSend k) s = .next (s.withDev ((s.dev.setSeq k.val { f with waiting := f.waiting.erase x }).sendSample k.val x))) ∧
  (∀ (k : Fin 4) (s : State) (x : TaggedSample) (xs : List TaggedSample) (ns : Nat) (d d1 d2 d3 : Dev), s.dev.field.sampleQ.rd k.val = x :: xs →
    s.dev.freeNs 600 1240 = (ns, d) → d.toRaw (x.sent + ns) = d1 →
    { d1 with field := { d1.field with sampleQ := d1.field.sampleQ.wr k.val xs } } = d2 →
    (if x.native = true ∧ d2.ctlUp = true then d2.toLoops (24 * k.val + x.chan) x else d2) = d3 →
    (∀ n, x.point = some n → exec (.sampleArrival k) s = .next (s.withDev (
      let e := d3.writePoint { id := n, value := x.value, time := w32 x.time, quality := x.quality, source := BitVec.ofNat 8 (0x50 + k.val), last := true }
      e.mon 0x04 k.val (e.sampleLevel k.val)))) ∧
    (x.point = none → exec (.sampleArrival k) s = .next (s.withDev (d3.mon 0x04 k.val (d3.sampleLevel k.val))))) ∧
  (∀ (k : Fin 4) (s : State) (c : Nat), s.dev.fldRuns k.val = true → (s.dev.fld k.val).seq.due = some c →
    ((s.dev.fld k.val).seq.auto = false → exec (.seqCycleStart k) s = .next (s.withDev (s.dev.startCycle k.val c))) ∧
    ((s.dev.fld k.val).seq.auto = true → exec (.seqAutostart k) s = .next (s.withDev (s.dev.startCycle k.val c)))) ∧
  (∀ (k : Fin 4) (e : Fin 64) (codes : List Nat) (s : State) (f : Sequencer) (t : EntryTime) (ns : Nat) (d d1 d2 : Dev), (s.dev.fld k.val).seq = f →
    f.times.find? (fun t => t.e = e.val) = some t → s.dev.fldRuns k.val = true → f.inCycle = true → f.ended.contains e.val = false →
    s.dev.freeNs 200 600 = (ns, d) → d.toCt (f.cycleStart + 500 * t.stop + ns) = d1 →
    (if f.voided.contains e.val then d1 else d1.writeResult k.val (f.table.rd e.val) t codes) = d2 →
    exec (.entryResult k e codes) s = .next (s.withDev
      ((d2.setSeq k.val { (d2.fld k.val).seq with ended := e.val :: (d2.fld k.val).seq.ended }).cycleOver k.val))) ∧
  (∀ (p : Packet) (s : State) (q : QPacket) (f : Sequencer) (new : Tbl SeqEntry) (n : Nat), Ready opSeqWrite p s q → Journals s q →
    (s.dev.fld p.inst).seq = f → q.resv 0 0x17F3F = false → q.f 0 14 8 = n → 1 ≤ n → q.f 0 5 0 + n ≤ 64 → 1 + 4 * n ≤ q.n →
    (∀ j, j < n → firstErr (seqEntryChecks s.dev p.inst q (1 + 4 * j)).1 = none ∧ firstErr (seqEntryChecks s.dev p.inst q (1 + 4 * j)).2.1 = none ∧
      firstErr (seqEntryChecks s.dev p.inst q (1 + 4 * j)).2.2 = none) →
    (List.range n).foldl (fun (t : Tbl SeqEntry) j => t.wr (q.f 0 5 0 + j) (seqEntryOf q (1 + 4 * j))) (f.pendTable.getD f.table) = new →
    (q.b 0 16 = false → exec (.seqWrite p) s = .next (((s.withDev (s.dev.setSeq p.inst { f with pendTable := some new })).entered 0x0711 q).finish q stOk 0 [])) ∧
    (q.b 0 16 = true → f.tdacChan = none → f.state = .stopped → exec (.seqWrite p) s = .next (((s.withDev (s.dev.setSeq p.inst
      { f with table := new, pendTable := none, committed := none })).entered 0x0711 q).finish q stOk 0 [])) ∧
    (q.b 0 16 = true → f.tdacChan = none → f.state ≠ .stopped → exec (.seqWrite p) s = .next (((s.withDev (s.dev.setSeq p.inst
      { f with pendTable := none, committed := some new, commitAt := s.dev.now + 100000 })).entered 0x0711 q).finish q stOkPending 0 []))) ∧
  (∀ (p : Packet) (s : State) (q : QPacket) (f : Sequencer) (d : Dev), Ready opSeqStart p s q → Journals s q → (s.dev.fld p.inst).seq = f →
    q.resv 0 1 = false → q.resv 1 0x7FFFFF = false → q.resv 2 0x7FFFFF = false → q.f 1 22 0 ≤ 6553600 →
    (q.f 1 22 0 = 0 → q.f 2 22 0 = 0) → (q.f 1 22 0 ≠ 0 → q.f 2 22 0 < q.f 1 22 0) →
    s.dev.setSeq p.inst { f with startWait := some { ticks := q.f 1 22 0, phase := q.f 2 22 0 }, startAt := s.dev.now + 100000, savedRun := true, auto := false } = d →
    exec (.seqStart p) s = .next (((s.withDev (if f.state = .stopping then d.seqState p.inst .running else d)).entered 0x0712 q).finish q stOkPending 0 [])) ∧
  (∀ (p : Packet) (s : State) (q : QPacket) (f : Sequencer) (d : Dev), Ready opSeqStop p s q → (s.dev.fld p.inst).seq = f → q.resv 0 1 = false →
    s.dev.setSeq p.inst { f with startWait := none, auto := false, savedRun := false } = d →
    (f.state = .running → Journals s q →
      exec (.seqStop p) s = .next (((s.withDev (d.seqState p.inst (if f.inCycle then .stopping else .stopped))).entered 0x0712 q).finish q stOkPending 0 [])) ∧
    (f.state = .stopped → f.startWait.isSome = true → Journals s q → exec (.seqStop p) s = .next (((s.withDev d).entered 0x0712 q).finish q stOk 0 [])) ∧
    (f.state = .stopped → f.startWait = none → exec (.seqStop p) s = .next (s.finish q stOkNoChange 0 []))) ∧
  (∀ (p : Packet) (s : State) (q : QPacket) (n : Nat), Ready opSeqResult p s q → q.resv 0 0x7F3F = false → q.f 0 14 8 = n → 1 ≤ n → q.f 0 5 0 + n ≤ 64 →
    exec (.seqResult p) s = .next (s.finish q stOk 0 ((List.range n).flatMap (fun j => ((s.dev.fld p.inst).seq.results.rd (q.f 0 5 0 + j)).words))))

/-- Analogue channels (R232, R237, R249, R251, Tables 11-1 and 11-13): a mode is taken, calibration values are trimmed, measured and reset to their
defaults, the test DAC is connected and released, an output fault is set and cleared.
Conventions of the model that it shows: log entries 63, 68. -/
def Obligations.AnalogueCommandsComplete : Prop :=
  (∀ (p : Packet) (s : State) (q : QPacket) (a : AnaChan) (new : AnaCfg), Ready opAchConfig p s q → Journals s q → firstErr (achChecks s q) = none →
    s.dev.ana p.inst p.sub = a →
    { mode := BitVec.ofNat 4 (q.f 0 3 0), exc := q.b 0 4, threeWire := q.b 0 5, scale := q.par 1, offset := q.par 2 } = new →
    (new.mode = a.cfg.mode → exec (.achConfig p) s = .next (((s.withDev (s.dev.setAna p.inst p.sub { a with cfg := new })).entered 0x0710 q).finish q stOk 0 [])) ∧
    (∀ d e, new.mode ≠ a.cfg.mode → (s.dev.setAna p.inst p.sub { a with cfg := new }).voidEntries p.inst p.sub = d →
      (if isAo a.cfg.mode || isAo new.mode then d.newFunction p.inst p.sub (isAo new.mode) else d) = e →
      exec (.achConfig p) s = .next (((s.withDev (if (e.ana p.inst p.sub).sensorFault then
          (e.setAna p.inst p.sub { e.ana p.inst p.sub with sensorFault := false }).raise 0x1013 (fldSrc p.inst) .warn
            (p.sub + 65536 * (e.ana p.inst p.sub).lastQuality.toNat)
        else e)).entered 0x0710 q).finish q stOk 0 []))) ∧
  (∀ (p : Packet) (s : State) (q : QPacket) (a : AnaChan), Ready opCalChannelTrim p s q → Journals s q → firstErr (calChecks q) = none →
    gainIn (q.par 1) 100 = true → Sys2Proof.Float.fin32 (q.par 2) = true → q.par 3 = 0 → s.dev.ana p.inst p.sub = a →
    exec (.calChannelTrim p) s = .next (((s.withDev (s.dev.setAna p.inst p.sub
      { a with cal := { a.cal with chGain := q.par 1, chOfs := q.par 2 } })).entered 0x0714 q).finish q stOk 0 [])) ∧
  (∀ (p : Packet) (s : State) (q : QPacket) (a : AnaChan), Ready opCalNtc p s q → Journals s q → firstErr (calChecks q) = none →
    Sys2Proof.Float.fin32 (q.par 1) = true → Sys2Proof.Float.fin32 (q.par 2) = true → Sys2Proof.Float.fin32 (q.par 3) = true → s.dev.ana p.inst p.sub = a →
    exec (.calNtc p) s = .next (((s.withDev (s.dev.setAna p.inst p.sub
      { a with cal := { a.cal with ntcA := q.par 1, ntcB := q.par 2, ntcC := q.par 3 } })).entered 0x0714 q).finish q stOk 0 [])) ∧
  (∀ (p : Packet) (s : State) (q : QPacket) (a : AnaChan), Ready opCalAoTrim p s q → Journals s q → firstErr (calChecks q) = none →
    gainIn (q.par 1) 100 = true → Sys2Proof.Float.fin32 (q.par 2) = true → q.par 3 = 0 → s.dev.ana p.inst p.sub = a →
    exec (.calAoTrim p) s = .next (((s.withDev (s.dev.setAna p.inst p.sub
      { a with cal := { a.cal with uGain := q.par 1, uOfs := q.par 2 } })).entered 0x0714 q).finish q stOk 0 [])) ∧
  (∀ (p : Packet) (s : State) (q : QPacket) (f : FieldDie), Ready opCalHbManual p s q → Journals s q → firstErr (calChecks q) = none → q.f 0 5 4 ≠ 0 →
    gainIn (q.par 1) 10 = true → Sys2Proof.Float.fin32 (q.par 2) = true → q.par 3 = 0 → s.dev.fld p.inst = f →
    exec (.calHbManual p) s = .next (((s.withDev (s.dev.setFld p.inst
      { f with cal := { f.cal with hbGain := Tbl.wrD one32 f.cal.hbGain (q.f 0 5 4 - 1) (q.par 1), hbOfs := f.cal.hbOfs.wr (q.f 0 5 4 - 1) (q.par 2) } })).entered
      0x0714 q).finish q stOk 0 [])) ∧
  (∀ (p : Packet) (s : State) (q : QPacket) (ns : Nat) (d e : Dev), Ready opCalHbAuto p s q → Journals s q → firstErr (calChecks q) = none →
    (s.dev.fld p.inst).seq.state = .stopped → s.dev.freeNs 600000 2200000 = (ns, d) →
    (((d.pass ns).hbMeasure p.inst 0).hbMeasure p.inst 1).hbMeasure p.inst 2 = e →
    exec (.calHbAuto p) s = .next (((s.withDev e).entered 0x0714 q).finish q stOk 0 [])) ∧
  (∀ (p : Packet) (s : State) (q : QPacket), Ready opCalUserDefaults p s q → Journals s q → firstErr (calChecks q) = none →
    (∀ a, p.sub ≠ 0xFF → s.dev.ana p.inst p.sub = a → exec (.calUserDefaults p) s = .next (((s.withDev (s.dev.setAna p.inst p.sub
      { a with cal := a.cal.userDefaults (decide (p.sub < 8)) })).entered 0x0714 q).finish q stOk 0 [])) ∧
    (∀ d, p.sub = 0xFF → (List.range 24).foldl (Dev.calDefaults p.inst) s.dev = d →
      exec (.calUserDefaults p) s = .next (((s.withDev (d.setFld p.inst
        { d.fld p.inst with cal := { (d.fld p.inst).cal with hbGain := [], hbOfs := [] } })).entered 0x0714 q).finish q stOk 0 []))) ∧
  (∀ (p : Packet) (s : State) (q : QPacket) (f : Sequencer), Ready opTestdacSet p s q → q.resv 0 0x1F1FFF = false → q.f 0 20 16 < 24 →
    (s.dev.fld p.inst).seq = f → s.dev.fldRuns p.inst = true →
    (q.b 0 12 = true → f.table.any (fun x => x.2.enable && x.2.test) = false →
      exec (.testdacSet p) s = .next ((s.withDev (s.dev.setSeq p.inst { f with
        tdacCode := q.f 0 11 0, tdacChan := some (q.f 0 20 16)
        tdacRel := match f.tdacChan with
          | some old => if old = q.f 0 20 16 then f.tdacRel else some (old, s.dev.now)
          | none => f.tdacRel })).finish q stOk 0 [])) ∧
    (∀ old, q.b 0 12 = false → f.tdacChan = some old →
      exec (.testdacSet p) s = .next ((s.withDev (s.dev.setSeq p.inst
        { f with tdacCode := q.f 0 11 0, tdacChan := none, tdacRel := some (old, s.dev.now) })).finish q stOk 0 []))) ∧
  (∀ (k : Fin 4) (c : Fin 24) (short : Bool) (s : State), s.dev.fldRuns k.val = true → (s.dev.ana k.val c.val).faultKind short = true →
    (s.dev.dig k.val c.val).driving = true → (if short then (s.dev.ana k.val c.val).aoShort else (s.dev.ana k.val c.val).aoOpen) = false →
    exec (.aoFaultDetect k c short) s = .next (s.withDev (s.dev.aoFault k.val c.val short true))) ∧
  (∀ (k : Fin 4) (c : Fin 24) (short : Bool) (s : State), s.dev.fldRuns k.val = true →
    (if short then (s.dev.ana k.val c.val).aoShort else (s.dev.ana k.val c.val).aoOpen) = true →
    exec (.aoFaultClear k c short) s = .next (s.withDev (s.dev.aoFault k.val c.val short false)))

/-- Digital inputs and switches (R255 to R258, R260, R261, R263, R264, R266, Table 12-8): an accepted edge, the refreshed point, the sample for a loop, a
wire break, the millisecond's pulses; fold-back, retry and overtemperature; the other fault bits; a PWM period; a deferred turn-off's event.
Conventions of the model that it shows: log entries 69, 70, 71. -/
def Obligations.DigitalInputAndSwitchCommandsComplete : Prop :=
  (∀ (k : Fin 4) (c : Fin 24) (s : State) (x y : DigChan) (t : Nat), s.dev.isDi k.val c.val = true → s.dev.dig k.val c.val = x →
    s.dev.now - (x.cfg.debounceNs + 479) / 480 * 480 = t → { x with raw := !x.diState, diState := !x.diState, tEdge := t, stateTime := t } = y →
    exec (.diEdgeAccept k c) s = .next (s.withDev ((s.dev.setDig k.val c.val { y with
      state := y.reported
      count := if x.wireBreak = false ∧ ((y.reported = true ∧ (x.cfg.cntEdge = 1 ∨ x.cfg.cntEdge = 3)) ∨ (y.reported = false ∧ (x.cfg.cntEdge = 2 ∨ x.cfg.cntEdge = 3)))
        then x.count + 1 else x.count }).diPoint k.val c.val))) ∧
  (∀ (k : Fin 4) (c : Fin 24) (s : State) (x : DigChan) (d : Dev), s.dev.isDi k.val c.val = true → s.dev.dig k.val c.val = x → x.cfg.toPoint = true →
    x.cfg.refreshMs ≠ 0 → s.dev.toRaw (x.sentAt + x.cfg.refreshMs * 1000000) = d →
    exec (.diPointRefresh k c) s = .next (s.withDev ((d.setDig k.val c.val { d.dig k.val c.val with sentAt := d.time.raw }).diPoint k.val c.val))) ∧
  (∀ (k : Fin 4) (c : Fin 24) (s : State) (x : DigChan) (t : Nat) (ts : List Nat), s.dev.isDi k.val c.val = true → s.dev.dig k.val c.val = x →
    (s.dev.loops.slot.filter (fun l => l.2.reads (24 * k.val + c.val))).map (fun l => l.2.tickAfter s.dev.now x.loopAt) = t :: ts →
    exec (.diLoopSample k c) s = .next (s.withDev (((s.dev.toCt (ts.foldl min t - 1000)).setDig k.val c.val { x with loopAt := ts.foldl min t - 1000 }).offerSample
      k.val (x.sample c.val (ts.foldl min t - 1000) true)))) ∧
  (∀ (k : Fin 4) (c : Fin 24) (s : State), s.dev.isDi k.val c.val = true →
    ((s.dev.dig k.val c.val).cfg.wbEn = true → (s.dev.dig k.val c.val).wireBreak = false →
      exec (.wireBreakDeclare k c) s = .next (s.withDev (s.dev.wireBreak k.val c.val true))) ∧
    ((s.dev.dig k.val c.val).wireBreak = true → exec (.wireBreakClear k c) s = .next (s.withDev (s.dev.wireBreak k.val c.val false)))) ∧
  (∀ (s : State) (d : Dev), s.dev.hubUp = true → (List.range 96).foldl (fun (acc : Dev) g => if acc.fldRuns (g / 24) then acc.accumulate g else acc)
      (s.dev.toRaw (s.dev.field.countAt + 1000000)) = d →
    exec .countAccumulate s = .next (s.withDev { d with field := { d.field with countAt := d.time.raw } })) ∧
  (∀ (k : Fin 4) (c : Fin 24) (s : State) (l : Nat) (x : DigChan), s.dev.isSwitch k.val c.val = true → s.dev.lead k.val c.val = l → s.dev.dig k.val l = x →
    (x.on = true → x.folded = false → x.overtemp = false → x.overloadOff = false →
      exec (.outputFoldback k c) s = .next (s.withDev (s.dev.foldBack k.val c.val))) ∧
    (∀ d, x.folded = true ∨ x.overtemp = true → x.overloadOff = false → s.dev.toRaw (x.foldAt + x.cfg.retryMs * 1000000) = d →
      (x.cfg.retryMax = 0 → ∀ b, exec (.outputRetry k c b) s = .next (s.withDev (d.overloadOff k.val c.val))) ∧
      (∀ e, x.cfg.retryMax ≠ 0 → (d.pass 1000000).setDig k.val l { (d.pass 1000000).dig k.val l with
          retries := min 255 (x.retries + 1), foldAt := (d.pass 1000000).time.raw } = e →
        exec (.outputRetry k c true) s = .next (s.withDev (if x.cfg.retryMax ≠ 255 ∧ x.cfg.retryMax < x.retries + 1 then e.overloadOff k.val c.val else e))) ∧
      (∀ e, x.cfg.retryMax ≠ 0 → (((d.pass 1000000).setDig k.val l { (d.pass 1000000).dig k.val l with
          retries := 0, folded := false }).dchFault k.val c.val 10 false).dchFault k.val c.val 12 false = e →
        exec (.outputRetry k c false) s = .next (s.withDev (if x.overtemp = true ∧ (e.fld k.val).outState = .armed then e.applyCmd k.val l else e)))) ∧
    (∀ d, x.overtemp = false → s.dev.switchOff k.val l = d → exec (.outputOvertemp k c) s =
      .next (s.withDev ((d.setDig k.val l { d.dig k.val l with foldAt := d.time.raw }).dchFault k.val c.val 12 true))) ∧
    (x.cfg.olEn = true → x.on = true → exec (.openLoadDetect k c) s = .next (s.withDev (s.dev.dchFault k.val c.val 17 true))) ∧
    exec (.openLoadClear k c) s = .next (s.withDev (s.dev.dchFault k.val c.val 17 false)) ∧
    (x.on = false → exec (.shortToSupplyDetect k c) s = .next (s.withDev (s.dev.dchFault k.val c.val 8 true))) ∧
    exec (.shortToSupplyClear k c) s = .next (s.withDev (s.dev.dchFault k.val c.val 8 false)) ∧
    (x.on = true → exec (.externalDriveDetect k c) s = .next (s.withDev (s.dev.dchFault k.val c.val 9 true))) ∧
    exec (.externalDriveClear k c) s = .next (s.withDev (s.dev.dchFault k.val c.val 9 false))) ∧
  (∀ (k : Fin 4) (c : Fin 24) (s : State) (n : Nat) (d : Dev) (x : DigChan), s.dev.fldRuns k.val = true → (s.dev.dig k.val c.val).cfg.mode = 3 →
    (s.dev.dig k.val c.val).cfg.pwmPeriod = n → s.dev.toCt (gridAt (max s.dev.now (s.dev.fld k.val).pwmFrom) (n * 10000) 0) = d → d.dig k.val c.val = x →
    (x.driving = true → x.overloadOff = false → x.overtemp = false → x.clampOver = false → exec (.pwmPeriodStart k c) s =
      .next (s.withDev (d.setDig k.val c.val { x with
        applied := x.pwmNext.getD x.applied, pwmNext := none
        onCycles := (Sys2Proof.Float.b32.toInt (x.pwmNext.getD x.applied).toNat (500 * n)).toNat }))) ∧
    (x.driving = false → exec (.pwmPeriodStart k c) s = .next (s.withDev (d.setDig k.val c.val { x with pwmNext := none, onCycles := 0 })))) ∧
  (∀ (k : Fin 4) (c : Fin 24) (s : State) (f : FieldDie), s.dev.fld k.val = f → f.clampQ.head? = some c.val → exec (.clampEventStart k c) s =
    .next (s.withDev ((s.dev.toRaw ((f.lastClampStart.map (fun t => t + 250000)).getD s.dev.time.raw)).clampStart k.val c.val))) ∧
  (∀ (k : Fin 4) (c : Fin 24) (uj : Nat) (s : State) (x : DigChan) (f : FieldDie), s.dev.dig k.val c.val = x → x.clampStart.isSome = true → s.dev.fld k.val = f →
    exec (.clampEventEnd k c uj) s = .next (s.withDev (((s.dev.setFld k.val { f with
        eWin := (s.dev.time.raw, uj) :: f.eWin.filter (fun e => decide (s.dev.time.raw < e.1 + 100000000)) }).setDig k.val c.val { x with
        clampStart := none, clampEst := 0, clampOver := x.clampOver || decide (200000 * x.cfg.members < uj) }).raiseIf (decide (200000 * x.cfg.members < uj)) 0x1021 (fldSrc k.val) .crit
      (c.val + 65536 * satN 16 (uj / 1000))))) ∧
  (∀ (k : Fin 4) (c : Fin 24) (s : State) (x : DigChan), s.dev.dig k.val c.val = x → x.held = true → exec (.cycleHoldRelease k c) s =
    .next (s.withDev ((s.dev.toRaw ((x.lastClamp.map (fun t => t + 100000000)).getD s.dev.time.raw)).setDig k.val c.val
      { x with held := false, applied := one32, driving := true })))

/-- The safe state and the outputs (R253, R258, R259, R268 to R271, R274, R275, R439, Tables 12-4, 12-5 and 12-7): the Snowplough begins and ends, refreshes
are sent and land, an arming takes effect, a FIELD reset takes hold, is released and configures the die; the digital commands.
Conventions of the model that it shows: log entries 69, 72, 73, 75. -/
def Obligations.OutputCommandsComplete : Prop :=
  (∀ (k : Fin 4) (s : State) (f : FieldDie), s.dev.fld k.val = f → s.dev.fldRuns k.val = true →
    (f.outState = .armed → exec (.snowploughTimeout k) s = .next (s.withDev
      ((s.dev.toRaw ((f.refreshRaw.map (fun t => t + f.safeCfg.timeoutMs * 1000000)).getD s.dev.time.raw)).enterSnow k.val))) ∧
    (∀ t, f.outState = .snowplough → f.safeCfg.resumeAuto = true → f.refreshBack = some t →
      exec (.snowploughResume k) s = .next (s.withDev ((s.dev.toCt (baseTick (t + 1000000) * 10000)).leaveSnow k.val))) ∧
    (∀ t ns d, f.refreshSent = some t → s.dev.freeNs 600 1240 = (ns, d) →
      exec (.refreshReceive k) s = .next (s.withDev ((d.toRaw (t + ns)).refreshAt k.val)))) ∧
  (∀ (s : State) (d : Dev), s.dev.ctlUp = true → s.dev.toRaw s.dev.field.refreshNext = d →
    exec .refreshSend s = .next (s.withDev ((List.range 4).foldl (fun (acc : Dev) k =>
      if acc.fldUp k then ((acc.setFld k { acc.fld k with refreshSent := some acc.time.raw }).emit (.refresh k)).through 0x02 k else acc)
      { d with field := { d.field with refreshNext := d.time.raw + 250000 } }))) ∧
  (∀ (k : Fin 4) (s : State) (arm : Bool) (t : Nat) (d : Dev), (s.dev.fld k.val).armAt = some (arm, t) → s.dev.fldRuns k.val = true →
    (s.dev.toCt t).setFld k.val { (s.dev.toCt t).fld k.val with armAt := none } = d →
    (arm = false → (d.fld k.val).outState ≠ .disarmed → ∀ e, (d.allOff k.val).setOutState k.val .disarmed = e →
      exec (.armTakeEffect k) s = .next (s.withDev (e.raise 0x1023 (fldSrc k.val) .info (e.fld k.val).outState.num))) ∧
    (arm = true → (d.fld k.val).outState = .disarmed → d.silent k.val = true → exec (.armTakeEffect k) s = .next (s.withDev (d.enterSnow k.val))) ∧
    (arm = true → (d.fld k.val).outState = .disarmed → d.silent k.val = false → ∀ e, (d.setOutState k.val .armed).allCmd k.val = e →
      exec (.armTakeEffect k) s = .next (s.withDev (e.raise 0x1023 (fldSrc k.val) .info (e.fld k.val).outState.num))) ∧
    (arm = true → (d.fld k.val).outState = .snowplough → d.silent k.val = false → ∀ e, d.leaveSnow k.val = e →
      exec (.armTakeEffect k) s = .next (s.withDev (e.raise 0x1023 (fldSrc k.val) .info (e.fld k.val).outState.num)))) ∧
  (∀ (k : Fin 4) (s : State) (d : Dev) (c : Nat), (s.dev.fld k.val).run = .resetWait → Dev.clampDrain k.val 24 s.dev = d → (d.fld k.val).resetCause = c →
    exec (.fieldResetTakeHold k) s = .next (s.withDev
      ((d.fieldReset k.val .inReset).causeRecord .field (fieldCause c) k.val 0 0 (if c = 11 then 3 + k.val else 0)))) ∧
  (∀ (k : Fin 4) (s : State) (ns : Nat) (d e : Dev), (s.dev.fld k.val).run = .inReset → s.dev.fieldHeld k.val = false → s.dev.freeNs 1000000 1200000 = (ns, d) →
    d.toRaw ((d.fld k.val).stageAt + ns) = e →
    exec (.fieldResetRelease k) s = .next (s.withDev (e.setFld k.val { e.fld k.val with run := .released, stageAt := e.time.raw, pllLost := false }))) ∧
  (∀ (k : Fin 4) (s : State) (ns : Nat) (d e : Dev) (f : FieldDie), (s.dev.fld k.val).run = .released → s.dev.hubUp = true → s.dev.fieldHeld k.val = false →
    s.dev.freeNs 20000000 100000000 = (ns, d) → d.toRaw ((d.fld k.val).stageAt + ns) = e → e.fld k.val = f →
    exec (.fieldDieConfigured k) s = .next (s.withDev ((List.range 24).foldl (fun acc c => if (acc.dig k.val c).cfg.mode = 1 then acc.diInit k.val c else acc)
      (e.setFld k.val { f with
        run := .run, outState := .disarmed, stageAt := e.time.raw, resetCause := 0
        seq := if f.seq.savedRun then { f.seq with startWait := some f.seq.set, startAt := e.now + 1000000, auto := true } else f.seq })))) ∧
  (∀ (p : Packet) (s : State) (q : QPacket), Ready opDchConfig p s q → Journals s q → firstErr (dchChecks s q) = none →
    exec (.dchConfig p) s = .next (((s.withDev (s.dev.dchApply p.inst p.sub (dchCfgOf q))).entered 0x0701 q).finish q stOk 0 [])) ∧
  (∀ (p : Packet) (s : State) (q : QPacket) (n : Nat) (d : Dev), Ready opDchStatus p s q → q.resv 0 0x1F1F = false → q.f 0 12 8 = n → 1 ≤ n → q.f 0 4 0 + n ≤ 24 →
    ((List.range n).map (fun i => q.f 0 4 0 + i)).foldl (fun (acc : Dev) c => acc.measureChan p.inst c) s.dev = d →
    exec (.dchStatus p) s = .next ((s.withDev d).finish q stOk 0 (((List.range n).map (fun i => q.f 0 4 0 + i)).flatMap
      (fun c => (d.fld p.inst).chanWords c d.now)))) ∧
  (∀ (p : Packet) (s : State) (q : QPacket) (arm dis : List Nat) (t : Nat), Ready opArmOutputs p s q → q.resv 0 0xFF = false →
    (bitsOf (q.f 0 3 0) 4).any (fun k => (bitsOf (q.f 0 7 4) 4).contains k) = false →
    (bitsOf (q.f 0 3 0) 4).any (fun k => !s.dev.fldRuns k || s.dev.fieldTested k) = false →
    (bitsOf (q.f 0 3 0) 4).filter (fun k => (s.dev.fld k).outState ≠ .armed) = arm →
    (bitsOf (q.f 0 7 4) 4).filter (fun k => s.dev.fldRuns k && decide ((s.dev.fld k).outState ≠ .disarmed)) = dis → baseTick (s.dev.now + 50000) * 10000 = t →
    (arm = [] → dis = [] → exec (.armOutputs p) s = .next (s.finish q stOkNoChange 0 [])) ∧
    (¬(arm = [] ∧ dis = []) → exec (.armOutputs p) s = .next ((s.withDev
      (dis.foldl (fun (acc : Dev) k => acc.setFld k { acc.fld k with armAt := some (false, t) })
        (arm.foldl (fun (acc : Dev) k => acc.setFld k { acc.fld k with armAt := some (true, t) }) s.dev))).finish q stOkPending 0 []))) ∧
  (∀ (p : Packet) (s : State) (q : QPacket) (x : DigChan) (v : Word), Ready opOutputSet p s q → q.par 0 = v → s.dev.dig p.inst p.sub = x →
    Sys2Proof.Float.fin32 v = true → (x.cfg.mode = 2 → isZero32 v = true ∨ v = one32) →
    (x.cfg.mode = 3 → Sys2Proof.Float.le32 0 v = true ∧ Sys2Proof.Float.le32 v one32 = true) →
    s.dev.isOut p.inst p.sub = true → s.dev.owned (24 * p.inst + p.sub) = false →
    exec (.outputSet p) s = .next ((s.withDev (Dev.sendOutput
      (if x.overloadOff || x.clampOver then (s.dev.setDig p.inst p.sub { x with clampOver := false, retries := 0 }).dchFault p.inst p.sub 11 false else s.dev)
      p.inst p.sub v (baseTick (s.dev.now + 50000)) none false)).finish q stOkPending 0 [])) ∧
  (∀ (p : Packet) (s : State) (q : QPacket), Ready opSafeConfig p s q → Journals s q → firstErr (safeChecks s q) = none →
    exec (.safeConfig p) s = .next (((s.withDev (s.dev.setFld p.inst { s.dev.fld p.inst with safeCfg := safeCfgOf q })).entered 0x0705 q).finish q stOk 0 [])) ∧
  (∀ (p : Packet) (s : State) (q : QPacket) (n : Nat), Ready opCounterRead p s q → q.resv 0 0x7F7F = false → q.f 0 14 8 = n → 1 ≤ n → q.f 0 6 0 + n ≤ 96 →
    exec (.counterRead p) s = .next (s.finish q stOk 0 ((List.range n).map (fun i => s.dev.field.countAcc.rd (q.f 0 6 0 + i)))))

/-- Loops (R172 to R174, R177, R186, R187, R190 to R195, Tables 08-6 to 08-10): outputs apply at their base tick, discarded ones are reported; a loop ticks,
goes stale or misses its compute deadline; numeric faults end in MANUAL; the loop commands.
Conventions of the model that it shows: log entries 55, 56, 57, 58, 59, 60. -/
def Obligations.LoopCommandsComplete : Prop :=
  (∀ (s : State) (b : Nat), s.dev.nextApply = some b → exec .outputApply s = .next (s.withDev (s.dev.applyAt b))) ∧
  (∀ (k : Fin 4) (s : State) (f : FieldDie), s.dev.fld k.val = f → f.discards ≠ [] → s.dev.fldUp k.val = true →
    (s.dev.setFld k.val { f with discards := [] }).ctlUp = true →
    exec (.outputDiscardReport k) s = .next (s.withDev (f.discards.foldl (fun (acc : Dev) x => acc.discardOf x) (s.dev.setFld k.val { f with discards := [] })))) ∧
  (∀ (i : Fin 128) (s : State) (d : Dev) (ms : List Nat) (lead : Nat), s.dev.ctlUp = true → 8 ≤ (s.dev.slot i.val).numRun → s.dev.membersOf i.val = ms →
    ms.headD i.val = lead → s.dev.setSlot i.val { s.dev.slot i.val with numRun := 0 } = d →
    exec (.numericManual i) s = .next (s.withDev (ms.foldl (fun acc j => acc.modeTo j .manual 1) (d.setSlot lead { d.slot lead with
      manOut := if (s.dev.groupOf i.val).isSome then (s.dev.slot lead).out else (s.dev.slot lead).uPrev })))) ∧
  (∀ (i : Fin 128) (s : State) (t : Nat) (d : Dev), s.dev.ctlUp = true → s.dev.tickDue i.val = some t → (s.dev.beforeTick (s.dev.membersOf i.val) t).takeGroups i.val t = d →
    ((d.membersOf i.val).head? = some i.val → exec (.loopTick i) s = .next (s.withDev (d.tickMembers (d.membersOf i.val) t))) ∧
    ((d.membersOf i.val).head? ≠ some i.val → exec (.loopTick i) s = .next (s.withDev d)) ∧
    (∀ e, (s.dev.slot i.val).heldIn = false → (d.membersOf i.val).head? = some i.val → d.tickMembers (d.membersOf i.val) t = e → (e.slot i.val).heldIn = true →
      exec (.loopStaleLimit i) s = .next (s.withDev e))) ∧
  (∀ (i : Fin 128) (s : State) (t : Nat) (ms : List Nat) (d : Dev), s.dev.ctlUp = true → s.dev.tickDue i.val = some t → s.dev.membersOf i.val = ms →
    ms.head? = some i.val → (s.dev.slot i.val).mode ≠ .off →
    ms.foldl (fun (acc : Dev) j => acc.overrunOf j 0) ((s.dev.beforeTick ms t).toCt ((s.dev.slot i.val).cfg.grid (t + 1) - 5000)) = d →
    exec (.loopComputeDeadline i) s = .next (s.withDev (ms.foldl (fun (acc : Dev) j => acc.endTick j t (acc.slot j).present true) d))) ∧
  (∀ (p : Packet) (s : State) (q : QPacket) (l : LoopSlot) (c : LoopCfg), Ready opLoopConfig p s q → Journals s q → firstErr (loopConfigChecks s q) = none →
    s.dev.slot p.inst = l → loopCfgOf q (l.cfgNext.getD l.cfg) = c →
    (l.mode = .off → exec (.loopConfig p) s = .next (((s.withDev (s.dev.takeCfg p.inst c)).entered 0x0601 q).finish q stOk 0 [])) ∧
    (l.mode ≠ .off → exec (.loopConfig p) s = .next (((s.withDev (s.dev.setSlot p.inst
      { l with cfgNext := some c, cfgAt := s.dev.now + 50000 })).entered 0x0601 q).finish q stOkPending 0 []))) ∧
  (∀ (p : Packet) (s : State) (q : QPacket) (l m : LoopSlot), Ready opLoopSectionSet p s q → Journals s q → firstErr (sectionChecks s q) = none →
    s.dev.slot p.inst = l →
    { l with
      secNext := l.secNext.ins (q.f 0 2 0) { delta := q.b 0 3, b0 := q.par 1, b1 := q.par 2, b2 := q.par 3, a1 := q.par 4, a2 := q.par 5 }
      secAt := s.dev.now + 50000 } = m →
    (l.mode = .off → exec (.loopSectionSet p) s = .next (((s.withDev (s.dev.setSlot p.inst m.takeSections)).entered 0x0602 q).finish q stOk 0 [])) ∧
    (l.mode ≠ .off → exec (.loopSectionSet p) s = .next (((s.withDev (s.dev.setSlot p.inst m)).entered 0x0602 q).finish q stOkPending 0 []))) ∧
  (∀ (p : Packet) (s : State) (q : QPacket) (l : LoopSlot) (m : LoopMode) (man : Bool) (js : List Nat), Ready opLoopMode p s q → q.resv 0 7 = false → q.f 0 1 0 ≠ 3 →
    s.dev.slot p.inst = l → modeOf (q.f 0 1 0) = m → (decide (m = .manual) && q.b 0 2) = man → (man = true → Sys2Proof.Float.fin32 (q.par 1) = true) →
    (match (s.dev.groupsWith 16 {}).find? (fun g => g.2.members.contains p.inst) with
      | some g => g.2.members
      | none => [p.inst]) = js → js.head? = some p.inst →
    (m ≠ .off → admitted (s.dev.liveCfgs (s.dev.cfgsWith p.inst (l.cfgNext.getD l.cfg)) js) = true) →
    (l.mode = m → man = false → l.modeNext = none → exec (.loopMode p) s = .next (s.finish q stOkNoChange 0 [])) ∧
    (l.mode ≠ m ∨ man = true ∨ l.modeNext ≠ none → exec (.loopMode p) s = .next ((s.withDev (s.dev.setSlot p.inst
      { l with modeNext := some m, modeAt := s.dev.now + 50000, modeCause := 0, setMan := if man then some (q.par 1) else none })).finish q stOkPending 0 []))) ∧
  (∀ (p : Packet) (s : State) (q : QPacket) (l : LoopSlot) (x : SecState), Ready opLoopStatus p s q → s.dev.slot p.inst = l →
    (if l.cfg.intSec < l.cfg.sections then l.st.rd l.cfg.intSec else {}) = x →
    exec (.loopStatus p) s = .next (s.finish q stOk 0 (l.words ++ [x.s1, x.s2, l.sampleNs, l.uc]))) ∧
  (∀ (p : Packet) (s : State) (q : QPacket) (x : OvrGroup) (c : OvrCfg), Ready opOverrideConfig p s q → Journals s q → firstErr (overrideChecks s q) = none →
    s.dev.grp (q.f 0 3 0) = x → ovrCfgOf q = c →
    exec (.overrideConfig p) s = .next (((s.withDev (
      if (x.cfg.members ++ ((x.cfgNext.map (fun y => y.members)).getD []) ++ c.members).all (fun j => decide ((s.dev.slot j).mode = .off)) then
        s.dev.setGrp (q.f 0 3 0) (x.take c)
      else s.dev.setGrp (q.f 0 3 0) { x with cfgNext := some c, cfgAt := s.dev.now + 50000 })).entered 0x0605 q).finish q stOkPending 0 []))

/-- Supervision, learning and traces (R197 to R199, R202 to R212, Tables 09-5 to 09-11): the evaluation of a tick, a failure declared and released; the
supervisor's, the learner's and the trace units' commands; a trace that is complete.
Conventions of the model that it shows: log entries 61, 81. -/
def Obligations.SupervisionAndTraceCommandsComplete : Prop :=
  (∀ (i : Fin 128) (s : State) (x : Superv) (d : Dev), s.dev.ctlUp = true → s.dev.sup i.val = x → x.due = true → x.cfg.enable = true → s.dev.pass 40 = d →
    exec (.supervEvaluation i) s = .next (s.withDev (d.setSup i.val (x.evaluate (d.slot i.val).y (d.inForceOut i.val) (d.slot i.val).present
      (stepT (d.slot i.val).cfg.periodM))))) ∧
  (∀ (i : Fin 128) (s : State) (x : Superv) (d e : Dev), s.dev.ctlUp = true → s.dev.supEval i.val = d → d.sup i.val = x → x.cfg.enable = true → x.inForce = false →
    x.atPersist ≠ 0 → (d.setSup i.val { x with
      inForce := true, latched := x.cfg.latch, cause := x.atPersist, failCnt := bump 16 x.failCnt, failTime := (d.slot i.val).lastTick, pointWritten := false }).satAt
      0x23 16 (bump 16 x.failCnt) = e →
    (x.cfg.action = .none → exec (.supervPersistReached i) s = .next (s.withDev e)) ∧
    (x.cfg.action ≠ .none → exec (.supervPersistReached i) s = .next (s.withDev (e.loopEvent 0x68 i.val .warn
      (i.val + 2 ^ 8 * x.atPersist.toNat + 2 ^ 12 * x.cfg.action.num + 2 ^ 32 * x.f.toNat))))) ∧
  (∀ (i : Fin 128) (s : State) (x : Superv) (d : Dev), s.dev.ctlUp = true → s.dev.supEval i.val = d → d.sup i.val = x → x.inForce = true → x.latched = false →
    x.cfg.clearTicks ≤ x.quiet → exec (.supervQuietReached i) s = .next (s.withDev (d.supRelease i.val 0))) ∧
  (∀ (p : Packet) (s : State) (q : QPacket), Ready opSupervConfig p s q → Journals s q → firstErr (supervChecks q) = none →
    ((s.dev.slot p.inst).mode = .off → exec (.supervConfig p) s =
      .next (((s.withDev (s.dev.supApply p.inst (supCfgOf q))).entered 0x0610 q).finish q stOk 0 [])) ∧
    ((s.dev.slot p.inst).mode ≠ .off → exec (.supervConfig p) s = .next (((s.withDev (s.dev.setSup p.inst
      { s.dev.sup p.inst with cfgNext := some (supCfgOf q), cfgAt := s.dev.now + 50000 })).entered 0x0610 q).finish q stOkPending 0 []))) ∧
  (∀ (p : Packet) (s : State) (q : QPacket) (x : Superv), Ready opSupervAck p s q → s.dev.sup p.inst = x → x.inForce = true → x.latched = true →
    ((s.dev.slot p.inst).mode = .off → exec (.supervAck p) s = .next ((s.withDev (s.dev.supAck p.inst)).finish q stOk 0 [])) ∧
    ((s.dev.slot p.inst).mode ≠ .off → exec (.supervAck p) s = .next ((s.withDev (s.dev.setSup p.inst
      { x with ackNext := true, opAt := s.dev.now + 50000 })).finish q stOkPending 0 []))) ∧
  (∀ (p : Packet) (s : State) (q : QPacket) (x : Superv), Ready opSupervRestartModel p s q → s.dev.sup p.inst = x →
    ((s.dev.slot p.inst).mode = .off → exec (.supervRestartModel p) s = .next ((s.withDev (s.dev.setSup p.inst { x with reinit := true })).finish q stOk 0 [])) ∧
    ((s.dev.slot p.inst).mode ≠ .off → exec (.supervRestartModel p) s = .next ((s.withDev (s.dev.setSup p.inst
      { x with restartNext := true, opAt := s.dev.now + 50000 })).finish q stOkPending 0 []))) ∧
  (∀ (p : Packet) (s : State) (q : QPacket), Ready opSupervStatus p s q → exec (.supervStatus p) s = .next (s.finish q stOk 0 (s.dev.sup p.inst).words)) ∧
  (∀ (p : Packet) (s : State) (q : QPacket) (x : Mogul) (c : MogulCfg), Ready opMogulConfig p s q → Journals s q → firstErr (mogulChecks s q) = none →
    s.dev.mog p.inst = x → mogCfgOf q (x.cfgNext.getD x.cfg) = c →
    ((s.dev.slot p.inst).mode = .off → exec (.mogulConfig p) s =
      .next (((s.withDev (s.dev.mogApply p.inst c (q.b 0 1))).entered 0x0618 q).finish q stOk 0 [])) ∧
    ((s.dev.slot p.inst).mode ≠ .off → exec (.mogulConfig p) s = .next (((s.withDev (s.dev.setMog p.inst
      { x with cfgNext := some c, cfgClear := x.cfgClear || q.b 0 1, cfgAt := s.dev.now + 50000 })).entered 0x0618 q).finish q stOkPending 0 []))) ∧
  (∀ (p : Packet) (s : State) (q : QPacket) (c : MogulCfg) (n : Nat), Ready opMogulPageRead p s q → (s.dev.mog p.inst).cfg = c → q.resv 0 0x7F = false →
    q.resv 1 0x3FF = false → q.resv 2 0x7FF = false → q.f 0 6 0 < c.pages → q.f 2 10 0 = n → 1 ≤ n → n ≤ min 1024 p.transport.maxCount → q.f 1 9 0 + n ≤ 1024 →
    exec (.mogulPageRead p) s = .next (s.finish q stOk 0 (s.dev.aux.mem.rdAll ((c.pageBase + q.f 0 6 0) * 1024 + q.f 1 9 0) n))) ∧
  (∀ (u : Fin 4) (s : State) (x y : TraceUnit), s.dev.trc u.val = x → x.state = .triggered → x.post = 0 → { x with state := .done, captures := x.captures + 1 } = y →
    exec (.traceComplete u) s = .next (s.withDev (((s.dev.setTrc u.val y).markEvent 0x6A [x.cfg.loop]).raiseCtl 0x6A (0x2300 + u.val) .info
      (u.val + 2 ^ 8 * x.cfg.loop + 2 ^ 32 * (x.trigTime % 2 ^ 32))))) ∧
  (∀ (p : Packet) (s : State) (q : QPacket), Ready opTraceConfig p s q → firstErr (traceChecks s q) = none →
    exec (.traceConfig p) s = .next ((s.withDev (s.dev.setTrc p.inst { s.dev.trc p.inst with cfg := traceCfgOf q, configured := true })).finish q stOk 0 [])) ∧
  (∀ (p : Packet) (s : State) (q : QPacket) (x : TraceUnit), Ready opTraceArm p s q → q.resv 0 3 = false → s.dev.trc p.inst = x →
    (x.state = .armed → exec (.traceArm p) s = .next ((s.withDev (s.dev.setTrc p.inst { x with force := x.force || q.b 0 1 })).finish q stOk 0 [])) ∧
    (x.state = .triggered → exec (.traceArm p) s = .next (s.finish q stOk 0 [])) ∧
    (x.state ≠ .armed → x.state ≠ .triggered → exec (.traceArm p) s = .next ((s.withDev (s.dev.setTrc p.inst
      { cfg := x.cfg, configured := x.configured, state := .armed, captures := x.captures })).finish q stOk 0 []))) ∧
  (∀ (p : Packet) (s : State) (q : QPacket), Ready opTraceDisarm p s q → q.resv 0 3 = false →
    exec (.traceDisarm p) s = .next ((s.withDev (s.dev.setTrc p.inst { s.dev.trc p.inst with state := .idle })).finish q stOk 0 [])) ∧
  (∀ (p : Packet) (s : State) (q : QPacket) (x : TraceUnit) (n : Nat), Ready opTraceRead p s q → q.resv 0 0x3FFFFF = false → q.resv 1 0xFFF = false →
    s.dev.trc p.inst = x → x.state = .done ∨ x.state = .aborted → q.f 1 11 0 = n → 1 ≤ n → n ≤ p.transport.maxCount → q.f 0 21 0 + n ≤ x.recs.reverse.flatten.length →
    exec (.traceRead p) s = .next (s.finish q stOk 0 ((x.recs.reverse.flatten.drop (q.f 0 21 0)).take n)))

/-- Slalom (R214 to R230, Tables 10-4 to 10-7): the measurements it takes, the test of a holdup node, an evaluation of the demands and the level, the
second of CAP_UNMET and of WRITE_THROUGH, and its commands.
Conventions of the model that it shows: log entries 77, 78, 79, 80. -/
def Obligations.SlalomCommandsComplete : Prop :=
  (∀ (mw : Nat) (s : State) (x : Slalom) (sm : List Nat) (n : Nat), s.dev.hubUp = true → s.dev.slalom = x → ((mw + 10 * x.pClamp) :: x.samples).take 100 = sm →
    min 1000 (x.engSamples + ((List.range 16).filter (fun k => decide (s.dev.engState k = .busy))).length) = n →
    (n ≠ 1000 → exec (.powerSample mw) s = .next (s.withDev (s.dev.setSlm { x with samples := sm, pAvg := satN 16 (meanPower sm), engSamples := n }))) ∧
    (∀ w d, n = 1000 → s.dev.freeN 65536 = (w, d) →
      exec (.powerSample mw) s = .next (s.withDev (d.setSlm { x with samples := sm, pAvg := satN 16 (meanPower sm), engSamples := n, engW := w })))) ∧
  (∀ (ts : List Int) (s : State), s.dev.hubUp = true → exec (.tempSensorRead ts) s = .next (s.withDev (s.dev.setSlm { s.dev.slalom with
    temps := (List.range 7).foldl (fun t i => t.wr i (satI 8 (ts.getD i (s.dev.slalom.temps.rd i)))) s.dev.slalom.temps }))) ∧
  (∀ (k : Fin 4) (s : State) (x : Slalom), s.dev.hubUp = true → s.dev.fldUp k.val = true → s.dev.slalom = x →
    (s.dev.fldRuns k.val = true → exec (.clampReport k) s = .next (s.withDev (s.dev.setSlm { x with
      eWin := x.eWin.wr k.val (satN 11 ((s.dev.fld k.val).eWinMj s.dev.time.raw)), ePend := x.ePend.wr k.val (satN 11 (s.dev.fld k.val).ePendMj) }))) ∧
    (s.dev.fldRuns k.val = false → exec (.clampReport k) s = .next (s.withDev (s.dev.setSlm { x with
      eWin := x.eWin.wr k.val 0, ePend := x.ePend.wr k.val 0 })))) ∧
  (∀ (n : Fin 2) (mv : Nat) (s : State) (h : Holdup) (d : Dev), s.dev.hubUp = true → s.dev.fldRuns n.val = true → s.dev.fldUp n.val = true →
    s.dev.slalom.hold.rd n.val = h →
    s.dev.setSlm { s.dev.slalom with hold := s.dev.slalom.hold.wr n.val { h with readings := (satN 16 mv :: h.readings).take 10 } } = d →
    exec (.holdoutRead n mv) s = .next (s.withDev { d with power := { d.power with feeds := d.power.feeds.upd n.val (fun f => { f with holdMv := satN 16 mv }) } })) ∧
  (∀ (n : Fin 2) (s : State) (h : Holdup) (v : Nat) (d : Dev), s.dev.hubUp = true → s.dev.fldRuns n.val = true → s.dev.slalom.hold.rd n.val = h →
    h.readings.head? = some v → 18000 ≤ v → h.testing = none → (s.dev.power.feeds.rd n.val).lost = false →
    (if h.tested then s.dev.toRaw (h.lastTest + s.dev.slalom.cfg.huTestS * 1000000000) else s.dev) = d →
    exec (.holdupCapTest n) s = .next (s.withDev (d.setSlm { d.slalom with hold := d.slalom.hold.upd n.val (fun x => { x with
      testing := some d.time.raw, lastTest := d.time.raw }) }))) ∧
  (∀ (n : Fin 2) (mv t c : Nat) (s : State) (d e : Dev), (s.dev.slalom.hold.rd n.val).testing = some t →
    (if mv = 0 then (s.dev.toRaw (t + 2000000)).freeN 655360 else (capOf mv, s.dev.toRaw (t + 2000000))) = (c, d) →
    d.setSlm { d.slalom with hold := d.slalom.hold.upd n.val (fun x => { x with testing := none, tested := true, capUf := c }) } = e →
    exec (.holdupCapTestEnd n mv) s = .next (s.withDev (if e.ctlUp then e.holdupLow else e))) ∧
  (∀ (s : State) (x y : Slalom) (d : Dev) (dt ms : Nat), s.dev.ctlUp = true → s.dev.slalom = x → x.evalAt ≠ 0 → s.dev.toRaw (x.evalAt + 1000000) = d →
    (d.time.raw - x.evalAt) / 1000000 = dt → x.evalMs + dt = ms →
    ((x.tally d.time.raw dt).demands ms (((d.sliceDie.bind (fun k => d.dueSlice k)).map sliceKind).getD 0)).clampDemand dt = y →
    ((y.clampHigh = none ∨ x.dClamp = true) → exec .slalomEvaluation s =
      .next (s.withDev ((((((d.setSlm y).levelStep ms).capUnmet).holdupLow).holdupOk).admitSlice ms))) ∧
    (∀ k, y.clampHigh = some k → x.dClamp = false → exec .slalomEvaluation s =
      .next (s.withDev (((((((d.setSlm y).raiseCtl 0x75 slmSource .warn (k + 4 * y.eWin.rd k + 2 ^ 13 * y.ePend.rd k)).levelStep ms).capUnmet).holdupLow).holdupOk).admitSlice
        ms)))) ∧
  (∀ (s : State) (x : Slalom) (d : Dev), s.dev.ctlUp = true → s.dev.slalom = x → x.level = 6 → x.capUnmet = false → x.limit < x.pAvg →
    s.dev.toRaw (x.evalAt + (1000 - x.level6Ms) * 1000000) = d →
    exec .capUnmetTimer s = .next (s.withDev ((d.setSlm { x with level6Ms := max 1000 x.level6Ms, capUnmet := true }).raiseCtl 0x72 slmSource .warn
      (x.pAvg + 2 ^ 16 * x.cfg.capDw)))) ∧
  (∀ (s : State) (x : Slalom), s.dev.ctlUp = true → s.dev.slalom = x → x.writeThrough = true → 64 ≤ x.gMax →
    exec .holdupOkTimer s = .next (s.withDev (((s.dev.toRaw (x.evalAt + (1000 - x.gmaxOkMs) * 1000000)).setSlm
      { x with gmaxOkMs := max 1000 x.gmaxOkMs }).holdupOk))) ∧
  (∀ (p : Packet) (s : State) (q : QPacket), Ready opBudgetStatus p s q →
    exec (.budgetStatus p) s = .next (s.finish q stOk 0 ((List.range 17).map (fun i => s.dev.slalom.word (0x0800 + 4 * i))))) ∧
  (∀ (p : Packet) (s : State) (q : QPacket) (x : Slalom) (c : Nat), Ready opPwrCapSet p s q → Journals s q → q.resv 0 0xFFFF = false → q.f 0 15 0 = c →
    200 ≤ c → c ≤ 550 → s.dev.slalom = x →
    exec (.pwrCapSet p) s = .next (((s.withDev ((s.dev.setSlm { x with cfg := { x.cfg with capDw := c } }).raiseCtl 0x77 slmSource .info
      (c + 2 ^ 16 * x.cfg.capDw))).entered 0x0C02 q).finish q stOk 0 [])) ∧
  (∀ (p : Packet) (s : State) (q : QPacket), Ready opBudgetConfig p s q → Journals s q → firstErr (budgetChecks s q) = none →
    exec (.budgetConfig p) s = .next (((s.withDev (s.dev.setSlm { s.dev.slalom with
      cfg := budgetCfgOf q s.dev.slalom.cfg })).entered 0x0C03 q).finish q stOk 0 []))

/-- The twin control dies (R278 to R282, R285 to R293, Tables 13-2, 13-4 and 13-10): streams and heartbeats, a declaration, a hard fault in every state, the
arbiter's disagreement, the Glide's restore and release, recovery, the synchronisation of a cold die.
Conventions of the model that it shows: log entries 83, 84, 85, 86, 88, 89. -/
def Obligations.TwinDieCommandsComplete : Prop :=
  (∀ (s : State), s.dev.ctlUp = true →
    exec .loopStream s = .next (s.withDev ((s.dev.toCt s.dev.streamDue).stream s.dev.streamDue)) ∧
    (∀ d, s.dev.toCt (s.dev.streamDue + 2000000) = d → exec .streamLate s = .next (s.withDev (d.raise 0x510A 0x5100 .warn d.streamAgeUs)))) ∧
  (∀ (s : State) (k : Nat) (t : Twin), s.dev.activeDie = some k → s.dev.twin = t →
    (s.dev.fabric.ctlPll.rd k = false → exec .heartbeatSend s = .next (s.withDev ((s.dev.setTwin { t with hbTx := t.hbTx + 1 }).emit
      (.heartbeat (w32 ((t.hbTx + 1).toNat + 2 ^ 16 * (s.dev.frame.frameNum % 65536))))))) ∧
    (∀ q : BitVec 32, (s.dev.fabric.ctlLink.rd k).up = true → q.toNat % 65536 = (t.hbSeq.toNat + 1) % 65536 → exec (.heartbeatReceive q) s =
      .next (s.withDev (s.dev.setTwin { t with hbSeq := w32 (q.toNat % 65536), hbAt := s.dev.time.raw, hbLateSent := false, arbAgree := true }))) ∧
    (∀ q : BitVec 32, q.toNat % 65536 ≠ (t.hbSeq.toNat + 1) % 65536 → exec (.heartbeatReceive q) s = .next s) ∧
    (∀ d n, t.hbLateSent = false → s.dev.toRaw (t.hbAt + 600000) = d → bump 16 t.hbLate = n → exec .heartbeatLate s =
      .next (s.withDev (((d.setTwin { t with hbLate := n, hbLateSent := true }).satAt 0x51 16 n).raise 0x5109 0x5100 .info ((t.hbSeq.toNat + 1) % 65536)))) ∧
    exec .heartbeatTimeout s = .next (s.withDev ((s.dev.toRaw (t.hbAt + 1750000)).declare k .heartbeat))) ∧
  (∀ (k : Fin 2) (c : TakeCause) (s : State) (d : Dev), s.dev.hubUp = true → s.dev.updCtl k.val (fun c => { c with lineHard := true }) = d →
    ((d.ctl k.val).state = .active → exec (.hardFaultLine k c) s = .next (s.withDev (d.declare k.val c))) ∧
    ((d.ctl k.val).state = .recovering → exec (.hardFaultLine k c) s =
      .next (s.withDev ((d.updCtl k.val (fun c => { c with noAuto := true, restart := false })).dieTo k.val .failed))) ∧
    (∀ a, (d.ctl k.val).state = .waking → (d.activeDie.isSome || d.twin.tH.isSome) = true → d.power.lbAt = none → d.updCtl k.val (fun c => { c with resetOwed := true }) = a →
      exec (.hardFaultLine k c) s = .next (s.withDev ((a.dieTo k.val .failed).swapAbort k.val))) ∧
    (∀ a, (d.ctl k.val).state = .waking → (d.activeDie.isSome || d.twin.tH.isSome) = false → d.power.lbAt = none →
      (d.updCtl k.val (fun c => { c with resetOwed := false })).dieTo k.val .failed = a →
      exec (.hardFaultLine k c) s = .next (s.withDev ((a.setTwin { a.twin with restoredAt := none }).singleDie k.val))) ∧
    ((d.ctl k.val).state ∈ [.off, .cold, .coldSynced, .failed] → exec (.hardFaultLine k c) s = .next (s.withDev d))) ∧
  (∀ (s : State) (h n : Nat) (d : Dev), s.dev.hubUp = true → s.dev.twin.arbAgree = true → s.dev.freeN 2 = (h, d) → bump 16 s.dev.twin.arbMismatch = n →
    exec .arbiterDisagreement s = .next (s.withDev (((d.setTwin { s.dev.twin with arbAgree := false, arbMismatch := n }).satAt 0x51 16 n).raise 0x5108 0x5100 .crit h))) ∧
  (∀ (s : State) (k : Nat), s.dev.wakingDie = some k → s.dev.activeDie = none → s.dev.twin.restoredAt = none →
    (∀ ns d e, s.dev.twin.tH = none → s.dev.freeNs 9000000 36000000 = (ns, d) → d.toRaw ((s.dev.twin.glideStart.getD s.dev.time.raw) + ns) = e →
      exec .stateRestoreDone s = .next (s.withDev (e.setTwin { e.twin with restoredAt := some e.time.raw }))) ∧
    (∀ t ns d e, s.dev.twin.tH = some t → s.dev.freeNs 0 8400000 = (ns, d) → d.toCt (t + ns) = e →
      exec .stateRestoreDone s = .next (s.withDev (e.setTwin { e.twin with restoredAt := some e.time.raw })))) ∧
  (∀ (s : State) (k r : Nat) (d : Dev), s.dev.wakingDie = some k → s.dev.twin.restoredAt = some r → s.dev.toCt (gridAt (s.dev.time.ctAt r + 500000) 1000000 0) = d →
    exec .releaseInstant s = .next (s.withDev (if s.dev.twin.tH.isSome then d.swapOver k else d.takeOver k))) ∧
  (∀ (k : Fin 2) (s : State) (c : CtlDie), s.dev.hubUp = true → s.dev.ctlUp = true → s.dev.ctl k.val = c → c.state = .failed → c.railOk = true → c.recoverAsked = true →
    s.dev.bistRoom 1 1 = true → s.dev.slalom.temps.rd (1 + k.val) < (s.dev.slalom.cfg.thermStart : Int) - 10 →
    exec (.recoveryStart k) s = .next (s.withDev (((s.dev.dieReset k.val true).updCtl k.val (fun c => { c with
      noAuto := false, recoverAsked := false, lineHard := false, bistOk := false })).dieTo k.val .recovering))) ∧
  (∀ (k : Fin 2) (s : State), (s.dev.ctl k.val).state = .recovering →
    (∀ d, (s.dev.updCtl k.val (fun c => { (c.freshSlices s.dev.recorder.opTime) with bistOk := true, restart := false })).dieTo k.val .cold = d →
      exec (.recoveryBistDone k true) s = .next (s.withDev (if d.twin.restarting && d.wakingDie.isNone && d.activeDie.isNone then d.dieTo k.val .waking else d))) ∧
    (∀ n d, s.dev.freeN 320 = (n, d) → exec (.recoveryBistDone k false) s =
      .next (s.withDev (((d.updCtl k.val (fun c => { c with noAuto := true, restart := false })).dieTo k.val .failed).sliceFail k.val n false)))) ∧
  (∀ (k : Fin 2) (s : State), s.dev.ctlUp = true → (s.dev.ctl k.val).state = .cold → (s.dev.ctl k.val).retry = none → s.dev.twin.bank.isSome = true →
    exec (.coldSyncComplete k) s = .next (s.withDev ((s.dev.updCtl k.val (fun c => { c with bistOk := true })).dieTo k.val .coldSynced)))

/-- The twin commands and the self-test commands (R276, R294 to R297, R300, R415 to R420): a planned swap, its cancellation, its preparation and its
hand-over, the twin page, the configuration, the request to recover, a slice of the standby, and the runs and results of the self-test.
Conventions of the model that it shows: log entries 87, 90. -/
def Obligations.SwapAndSelfTestCommandsComplete : Prop :=
  (∀ (p : Packet) (s : State) (q : QPacket) (m k : Nat) (t : Twin), Ready opSwap p s q → q.resv 1 1 = false → (q.par 0).toNat = m → s.dev.twin = t →
    t.enabled = true → t.swapPending = false → (s.dev.test.state = .running → 2 ≤ s.dev.test.die) → s.dev.standby = some k → s.dev.eligible k = true →
    (s.dev.frame.state = .stopped → exec (.swap p) s = .next ((s.withDev (s.dev.setTwin { t with
      swapPending := true, swapStopped := true, swapAt := s.dev.now + 50000000, swapFrame := m })).finish q stOkPending 0 [])) ∧
    (s.dev.frame.state ≠ .stopped → m = 0 → exec (.swap p) s = .next ((s.withDev (s.dev.setTwin { t with
      swapPending := true, swapStopped := false, swapAt := s.dev.now + 50000000, swapFrame := s.dev.frame.frameNum + 2 })).finish q stOkPending 0 [])) ∧
    (s.dev.frame.state ≠ .stopped → s.dev.frame.frameNum + 2 ≤ m → exec (.swap p) s = .next ((s.withDev (s.dev.setTwin { t with
      swapPending := true, swapStopped := false, swapAt := s.dev.now + 50000000, swapFrame := m })).finish q stOkPending 0 []))) ∧
  (∀ (p : Packet) (s : State) (q : QPacket), Ready opSwapCancel p s q → q.resv 1 1 = false →
    (s.dev.twin.swapPending = true → s.dev.wakingDie = none → exec (.swapCancel p) s =
      .next ((s.withDev (s.dev.setTwin { s.dev.twin with swapPending := false, swapFrame := 0, swapStopped := false })).finish q stOk 0 [])) ∧
    (s.dev.twin.swapPending = false → exec (.swapCancel p) s = .next (s.finish q stOkNoChange 0 []))) ∧
  (∀ (s : State) (k : Nat) (d : Dev), s.dev.standby = some k → s.dev.twin.swapPending = true → s.dev.wakingDie = none →
    (s.dev.toCt (s.dev.swapInstant - 40000000)).abortSlice = d →
    (d.eligible k = true → exec .swapPrepare s = .next (s.withDev (d.dieTo k .waking))) ∧
    (d.eligible k = false → exec .swapPrepare s = .next (s.withDev (d.swapAbort k)))) ∧
  (∀ (s : State) (a t : Nat) (d : Dev), s.dev.activeDie = some a → s.dev.twin.swapPending = true → s.dev.wakingDie.isSome = true →
    (s.dev.twin.swapStopped = true ∨ s.dev.twin.swapFrame ≤ s.dev.frame.checkpointed + 1) → gridAt (max s.dev.now s.dev.swapInstant) 1000000 0 = t →
    ((((Dev.applyUpTo (t / 10000) 4096 s.dev).toCt t).stream t).abortDie a).dieTo a .coldSynced = d →
    exec .swapHandover s = .next (s.withDev { d with
      twin := { d.twin with tH := some t, restoredAt := none }
      power := { d.power with noActiveSince := some d.time.raw, noActiveExpired := false } })) ∧
  (∀ (p : Packet) (s : State) (q : QPacket), Ready opTwinStatus p s q →
    exec (.twinStatus p) s = .next (s.finish q stOk 0 ((List.range 13).map (fun i => s.dev.twinWord (4 * i))))) ∧
  (∀ (p : Packet) (s : State) (q : QPacket) (en : Bool) (d : Dev), Ready opTwinConfig p s q → Journals s q → q.resv 0 0xFFFF = false → q.f 0 1 0 = 0 →
    q.f 0 7 4 ≠ 0 → 1 ≤ q.f 0 15 8 → q.f 0 15 8 ≤ 168 → q.b 0 2 = en →
    s.dev.setTwin { s.dev.twin with enabled := en, rejoinAuto := q.b 0 3, maxRecover := q.f 0 7 4, coverH := q.f 0 15 8 } = d →
    (∀ k, en = true → s.dev.host.revCtlA = s.dev.host.revCtlB → (∀ k < 4, 60 ≤ (s.dev.fld k).safeCfg.timeoutMs) → d.standby = some k →
      (d.ctl k).state = .off → (d.ctl k).railOk = true → exec (.twinConfig p) s = .next (((s.withDev (d.dieTo k .cold)).entered 0x0C12 q).finish q stOk 0 [])) ∧
    (en = true → s.dev.host.revCtlA = s.dev.host.revCtlB → (∀ k < 4, 60 ≤ (s.dev.fld k).safeCfg.timeoutMs) →
      (∀ k, d.standby = some k → ¬((d.ctl k).state = .off ∧ (d.ctl k).railOk = true)) →
      exec (.twinConfig p) s = .next (((s.withDev d).entered 0x0C12 q).finish q stOk 0 [])) ∧
    (∀ k, en = false → s.dev.twin.swapPending = false → s.dev.wakingDie = none → d.standby = some k →
      exec (.twinConfig p) s = .next (((s.withDev ((if d.twin.slice.map (fun x => x.1) = some k then d.abortSlice else d).dieTo k .off)).entered 0x0C12
        q).finish q stOk 0 []))) ∧
  (∀ (p : Packet) (s : State) (q : QPacket), Ready opTwinRecover p s q → q.resv 0 0x1FFFF = false → (s.dev.ctl (q.f 0 16 16)).state = .failed →
    exec (.twinRecover p) s = .next ((s.withDev (s.dev.updCtl (q.f 0 16 16) (fun c => { c with recoverAsked := true }))).finish q stOk 0 [])) ∧
  (∀ (sig : BitVec 64) (s : State) (k n ns : Nat) (d0 d a e : Dev), s.dev.twin.slice = some (k, n) → s.dev.sliceNs (decide (sliceKind n = 1)) = (ns, d0) →
    d0.toRaw (((d0.ctl k).sliceAt.getD d0.time.raw) + ns) = d → (d.recordSlice k n (d.slicePasses k n sig) sig).sliceSample (sliceKind n) = a →
    (a.setSlm { a.slalom with lastSliceEnd := some a.slalom.evalMs }).setTwin { a.twin with slice := none } = e →
    (∀ f, e.updCtl k (fun c => { c with nextSlice := if n = c.nextSlice then (n + 1) % 320 else c.nextSlice, retry := none }) = f →
      d.slicePasses k n sig = true → ((d.ctl k).retry = some n → exec (.standbySliceEnd sig) s = .next (s.withDev (f.dieTo k .coldSynced))) ∧
      ((d.ctl k).retry ≠ some n → exec (.standbySliceEnd sig) s = .next (s.withDev f))) ∧
    (d.slicePasses k n sig = false → ((d.ctl k).retry = some n → exec (.standbySliceEnd sig) s =
        .next (s.withDev (((e.sliceFail k n true).updCtl k (fun c => { c with retry := none, noAuto := true })).dieTo k .failed))) ∧
      ((d.ctl k).retry ≠ some n → exec (.standbySliceEnd sig) s =
        .next (s.withDev (((e.sliceFail k n false).updCtl k (fun c => { c with retry := some n })).dieTo k .cold))))) ∧
  (∀ (p : Packet) (s : State) (q : QPacket) (t : TestUnit), Ready opSelftestRun p s q → q.resv 0 0x07FF01FF = false →
    q.f 0 8 0 + q.f 0 24 16 ≤ (if q.pkt.inst < 2 then 320 else 8) → (q.b 0 25 || q.b 0 26) = true → s.dev.revTested q.pkt.inst = true →
    s.dev.testState q.pkt.inst = none → s.dev.testStart q = t →
    (testSlices q ≠ [] → q.pkt.inst < 2 → exec (.selftestRun p) s = .next ((s.withDev (s.dev.setTest t)).started q)) ∧
    (∀ k, testSlices q ≠ [] → q.pkt.inst = k + 2 → exec (.selftestRun p) s = .next ((s.withDev ((s.dev.setTest t).setFld k { s.dev.fld k with
      run := .inReset, stageAt := s.dev.time.raw })).started q)) ∧
    (testSlices q = [] → exec (.selftestRun p) s = .next ((s.withDev (s.dev.setTest { t with
      state := .done, elapsedUs := 0, runs := bump 16 t.runs, pkt := none })).finish q stOk 0 (t.words false)))) ∧
  (∀ (sig : BitVec 64) (s : State) (n : Nat) (rest : List Nat) (d0 d e : Dev) (ns w : Nat), s.dev.test.todo = n :: rest → s.dev.test.state = .running →
    (s.dev.test.die < 2 → s.dev.bistRoom (sliceKind n) 1 = true) →
    s.dev.sliceNs (memSlice s.dev.test.die n) = (ns, d0) → (if s.dev.test.ran = 0 then d0.freeNs 50000 1000000 else (0, d0)) = (w, d) →
    (d.pass (ns + w)).runSlice s.dev.test.die n sig = e →
    (rest ≠ [] → exec (.selftestSliceEnd sig) s = .next (s.withDev e)) ∧
    (rest = [] → s.dev.test.die < 2 → exec (.selftestSliceEnd sig) s = .next (s.withDev (e.endRun false))) ∧
    (rest = [] → 2 ≤ s.dev.test.die → exec (.selftestSliceEnd sig) s =
      .next (s.withDev ((e.endRun false).endFieldRun (s.dev.test.die - 2) (decide (0 < e.test.failed)))))) ∧
  (∀ (p : Packet) (s : State) (q : QPacket) (c f : Nat), Ready opSelftestResult p s q → q.resv 0 0x01FF01FF = false → q.f 0 24 16 = c → q.f 0 8 0 = f → c ≠ 0 →
    f + c ≤ (if q.pkt.inst < 2 then 320 else 8) →
    (∀ ws, (List.range c).flatMap (fun i => (if q.pkt.inst < 2 then (s.dev.ctl q.pkt.inst).slices.rd (f + i)
        else (s.dev.test.fieldSlices.rd (q.pkt.inst - 2)).rd (f + i)).words q.pkt.inst (f + i) s.dev.recorder.opTime) = ws →
      q.holds ws.length → exec (.selftestResult p) s = .next (s.finish q stOk 0 ws))) ∧
  (∀ (p : Packet) (s : State) (q : QPacket) (c f : Nat), Ready opHealthReport p s q → q.resv 0 0x01FF01FF = false → q.resv 1 1 = false → q.f 0 24 16 = c →
    q.f 0 8 0 = f → c ≠ 0 → f + c ≤ 320 →
    (∀ ws, (List.range c).flatMap (fun i => ((s.dev.ctl (q.f 1 0 0)).slices.rd (f + i)).words (q.f 1 0 0) (f + i) s.dev.recorder.opTime) = ws →
      q.holds ws.length → exec (.healthReport p) s = .next (s.finish q stOk 0 ws)))

/-- The servo, corrected time and its commands (R303, R306, R307, R312 to R316, R322, R324, Tables 14-3 to 14-5, 14-7 and 14-8): a sample, the end of the
holdover time, a change of time at its instant, the reads of the time, TIME_ADJUST in its four modes, SERVO_CONFIG, and the reads that latch or clear.
Conventions of the model that it shows: log entries 92, 93, 95. -/
def Obligations.TimeBaseCommandsComplete : Prop :=
  (∀ (θ : Int) (s : State), s.dev.hubUp = true → s.dev.time.cfg.source = 1 → exec (.servoSample θ) s =
    .next (s.withDev ((s.dev.setTime { s.dev.time with sampleQ := s.dev.time.sampleQ.erase θ }).servoArrive θ))) ∧
  (∀ (s : State) (t : NetTime) (d : Dev), s.dev.time = t → (t.servo = .acquiring ∨ t.servo = .locked) → t.pendingChg = none →
    (s.dev.toRaw ((t.lastSample.getD t.raw) + 1000000 * t.cfg.holdMs)).setServo .holdover = d →
    exec .servoHoldover s = .next (s.withDev (d.sendRate (rateOf (-ratOf d.time.acc))))) ∧
  (∀ (s : State) (c : TimeChange) (d : Dev), s.dev.hubUp = true → s.dev.time.pendingChg = some c → s.dev.toRaw c.instant = d →
    (c.step = none → exec .timeChangeApply s =
      .next (s.withDev (Dev.servoDrain ((d.timeChanged c).time.heldQ.length + 1) (d.timeChanged c)))) ∧
    (∀ e, c.step.isSome = true → (d.timeChanged c).timeStepped d.now (d.timeChanged c).now = e →
      exec .timeChangeApply s = .next (s.withDev (Dev.servoDrain (e.time.heldQ.length + 1) e)))) ∧
  (∀ (p : Packet) (s : State) (q : QPacket), Ready opTimeRead p s q → exec (.timeRead p) s = .next (s.finish q stOk 0
    [w32 s.dev.now, w32 (s.dev.now / 2 ^ 32), w32 s.dev.time.raw, w32 (s.dev.time.raw / 2 ^ 32),
     pack [(s.dev.time.servo.num, 0), (s.dev.time.stepGen.toNat, 16)]])) ∧
  (∀ (p : Packet) (s : State) (q : QPacket), Ready opTimeAdjustOffset p s q → q.resv 0 3 = false → s.dev.time.cfg.source = 2 → q.par 2 = 0 →
    exec (.timeAdjustOffset p) s = .next ((s.withDev (s.dev.servoArrive (sgn 32 (q.par 1).toNat))).finish q stOk 0 [])) ∧
  (∀ (p : Packet) (s : State) (q : QPacket) (t : NetTime) (r : Nat) (d : Dev) (v : Int), Ready opTimeAdjustStep p s q → q.resv 0 3 = false → s.dev.time = t →
    t.cfg.source ≠ 1 → t.pendingChg = none → s.dev.changeInstant = (r, d) → sgn 64 q.v64 = v → t.stepFits v = true →
    exec (.timeAdjustStep p) s = .next ((s.withDev (d.setTime { d.time with pendingChg := some { instant := r, ofs := t.ofs + v * 65536, rate := t.rate,
                                                                                                 tRef := t.tRef, step := some v, acquire := decide (t.cfg.source = 2) } })).finish q stOkPending 0 [])) ∧
  (∀ (p : Packet) (s : State) (q : QPacket) (t : NetTime) (r : Nat) (d : Dev) (v : Int), Ready opTimeAdjustSet p s q → q.resv 0 3 = false → s.dev.time = t →
    t.cfg.source ≠ 1 → t.pendingChg = none → s.dev.changeInstant = (r, d) → (q.v64 : Int) - t.ctAt r = v → t.stepFits v = true →
    exec (.timeAdjustSet p) s = .next ((s.withDev (d.setTime { d.time with pendingChg := some { instant := r, ofs := t.ofs + v * 65536, rate := t.rate,
                                                                                                tRef := t.tRef, step := some v, acquire := decide (t.cfg.source = 2) } })).finish q stOkPending 0 [])) ∧
  (∀ (p : Packet) (s : State) (q : QPacket) (r : Int), Ready opTimeAdjustFreq p s q → q.resv 0 3 = false → s.dev.time.cfg.source = 2 →
    s.dev.time.pendingChg = none → sgn 32 (q.par 1).toNat = r → r.natAbs ≤ 549755813 → q.par 2 = 0 →
    exec (.timeAdjustFreq p) s = .next ((s.withDev ((s.dev.setServo .manual).sendRate r)).finish q stOk 0 [])) ∧
  (∀ (p : Packet) (s : State) (q : QPacket) (c : ServoCfg), Ready opServoConfig p s q → Journals s q → firstErr (servoChecks q) = none → servoCfgOf q = c →
    (c.source = s.dev.time.cfg.source → exec (.servoConfig p) s =
      .next (((s.withDev (s.dev.setTime { s.dev.time with cfg := c })).entered 0x0805 q).finish q stOk 0 [])) ∧
    (c.source ≠ s.dev.time.cfg.source → exec (.servoConfig p) s = .next (((s.withDev ((s.dev.setTime { s.dev.time with
      cfg := c, acc := 0, firstSample := true, outliers := [], sampleQ := [], heldQ := [] }).setServo .free)).entered 0x0805 q).finish q stOk 0 []))) ∧
  (∀ (s : State), s.dev.hubUp = true →
    exec .timeLoRead s = .next (s.withDev ((s.dev.setTime { s.dev.time with
      shTimeHi := w32 (s.dev.now / 2 ^ 32), shFrac := w32 (((s.dev.time.ctFix s.dev.time.raw) % 65536).toNat) }).emit (.regRead 0x01000A08 (w32 s.dev.now)))) ∧
    exec .rawLoRead s = .next (s.withDev ((s.dev.setTime { s.dev.time with shRawHi := w32 (s.dev.time.raw / 2 ^ 32) }).emit
      (.regRead 0x01000A00 (w32 s.dev.time.raw)))) ∧
    (∀ (k : Fin 3) (x : PtpPort), s.dev.time.port.rd k.val = x → exec (.residMaxNsRead k) s = .next (s.withDev ((s.dev.setTime { s.dev.time with
      port := s.dev.time.port.wr k.val { x with residMaxNs := 0 } }).emit (.regRead (0x3000041C + 65536 * k.val) (pack [(x.badMsg, 0), (x.residMaxNs, 16)]))))))

/-- PTP (R308 to R313, R323, Tables 14-6 and 14-8): a message that is malformed, of another domain, or forwarded and delivered; the messages a port sends
at their intervals; the two timeouts; PTP_CONFIG, which restarts PTP after its reply; PTP_STATUS.
Conventions of the model that it shows: log entries 94. -/
def Obligations.PtpCommandsComplete : Prop :=
  (∀ (k : Fin 3) (m : List Byte) (s : State) (x : PtpPort), s.dev.hubUp = true → s.dev.time.port.rd k.val = x → x.cfg.enable = true →
    ((ptpLen (ptpType m) = 0 ∨ m.length < ptpLen (ptpType m) ∨ pn m 2 2 < ptpLen (ptpType m)) → exec (.ptpMessageReceive k m) s =
      .next (s.withDev ((s.dev.setPtp k.val { x with badMsg := bump 16 x.badMsg }).satAt 0x30 16 (bump 16 x.badMsg)))) ∧
    (∀ d, ptpLen (ptpType m) ≠ 0 → ptpLen (ptpType m) ≤ m.length → ptpLen (ptpType m) ≤ pn m 2 2 →
      (if ptpType m < 4 then s.dev.setPtp k.val { x with rxEvent := x.rxEvent + 1 } else s.dev) = d →
      (pb m 4 ≠ x.cfg.domain.toNat → exec (.ptpMessageReceive k m) s = .next (s.withDev d)) ∧
      (∀ e f, pb m 4 = x.cfg.domain.toNat → (d.tcPorts k.val m).foldl (fun acc o => acc.tcForward k.val o m) d = e →
        (if x.cfg.p2p then e.peerReceive k.val m else e) = f →
        (x.cfg.oc = false → exec (.ptpMessageReceive k m) s = .next (s.withDev f)) ∧
        (x.cfg.oc = true → exec (.ptpMessageReceive k m) s = .next (s.withDev (f.ocReceive k.val m)))))) ∧
  (∀ (k : Fin 3) (t : BitVec 4) (s : State) (x y : PtpPort) (d : Dev) (e : Int), s.dev.hubUp = true → s.dev.time.port.rd k.val = x → x.sends t.toNat = true →
    s.dev.toRaw (x.txAt.rd t.toNat + x.cfg.interval t.toNat) = d → { x with txAt := x.txAt.wr t.toNat d.time.raw } = y → d.txStamp y = e →
    (t = 0 → exec (.ptpTransmitTimer k t) s = .next (s.withDev ((d.setPtp k.val { y with syncSeq := y.syncSeq + 1 }).ptpSend k.val
      (d.ptpHead k.val 0 y.syncSeq.toNat y.cfg.logSync (e % 65536) ++ ptpTime (stampNs e))))) ∧
    (t = 11 → exec (.ptpTransmitTimer k t) s = .next (s.withDev ((d.setPtp k.val { y with annSeq := y.annSeq + 1 }).ptpSend k.val
      (d.ptpHead k.val 11 y.annSeq.toNat y.cfg.logAnnounce 0 ++ ptpTime 0 ++ beBytes 2 y.cfg.utcOffset.toNat ++ beBytes 1 0 ++ beBytes 1 y.cfg.prio1.toNat ++
        beBytes 1 y.cfg.clockClass.toNat ++ beBytes 1 0xFE ++ beBytes 2 0xFFFF ++ beBytes 1 y.cfg.prio2.toNat ++ beBytes 8 d.clockId ++ beBytes 2 0 ++
        beBytes 1 0xA0)))) ∧
    ((t = 1 ∨ t = 2) → exec (.ptpTransmitTimer k t) s = .next (s.withDev ((d.setPtp k.val { y with
      reqSeq := y.reqSeq + 1, t3 := e, pdWait := none }).ptpSend k.val
      (d.ptpHead k.val t.toNat y.reqSeq.toNat 127 0 ++ ptpTime 0 ++ (if t = 2 then beBytes 10 0 else [])))))) ∧
  (∀ (k : Fin 3) (s : State) (x : PtpPort) (d : Dev), s.dev.hubUp = true → s.dev.time.port.rd k.val = x → x.cfg.enable = true → x.cfg.oc = true →
    x.state ≠ some .master → s.dev.toRaw (x.annAt + x.cfg.announceTo * logNs x.cfg.logAnnounce) = d → exec (.announceReceiptTimeout k) s =
      .next (s.withDev ((d.setPtp k.val { x with parent := none, syncWait := none, haveSync := false, annAt := d.time.raw }).ptpState k.val
        (some (if x.cfg.masterCap then .master else .listening))))) ∧
  (∀ (k : Fin 3) (s : State) (x : PtpPort), s.dev.hubUp = true → s.dev.time.port.rd k.val = x → x.syncWait.isSome = true →
    exec (.followupTimeout k) s = .next (s.withDev ((s.dev.toRaw (x.syncRaw + 1000000000)).setPtp k.val { x with syncWait := none }))) ∧
  (∀ (p : Packet) (s t : State) (q : QPacket), Ready opPtpConfig p s q → Journals s q → firstErr (ptpChecks s q) = none →
    (s.entered 0x0803 q).finish q stOk 0 [] = t → exec (.ptpConfig p) s = .next (t.withDev ((t.dev.setPtp q.pkt.inst { t.dev.time.port.rd q.pkt.inst with
      cfg := ptpCfgOf q }).ptpRestart q.pkt.inst))) ∧
  (∀ (p : Packet) (s : State) (q : QPacket), Ready opPtpStatus p s q → exec (.ptpStatus p) s = .next (s.finish q stOk 0
    ((List.range 9).map (s.dev.time.port.rd q.pkt.inst).word ++ [s.dev.time.word 9, s.dev.time.word 10, s.dev.time.word 11])))

/-- The real-time clock (R329 to R337, R343, Tables 15-1 and 15-3): a load at its edge or at its instant, the alarm's match, the clock's reading, the two
modes of WRITE_RTC, RTC_TRIM, RTC_ALARM, the latching read, the write of the flags and a measurement of the synchronisation.
Conventions of the model that it shows: log entries 96. -/
def Obligations.RtcCommandsComplete : Prop :=
  (∀ (s : State) (l : RtcLoad) (d : Dev), s.dev.backup.load = some l →
    (l.atTime = none → s.dev.toRaw (xtalRaw (xtalAt s.dev.time.raw + (l.edge - s.dev.backup.edgeNo))) = d →
      (l.pkt = none → exec .rtcLoad s = .next (s.withDev (d.loadCount l.count l.bySync))) ∧
      (∀ q, l.pkt = some q → exec .rtcLoad s = .next (s.withDev ((d.loadCount l.count l.bySync).finish q stOk 0 [])))) ∧
    (∀ t k e, l.atTime = some t → s.dev.power.on = true →
      (if xtalRaw (xtalAt (s.dev.time.rawOf t)) = s.dev.time.rawOf t then xtalAt (s.dev.time.rawOf t) else xtalAt (s.dev.time.rawOf t) + 1) = k →
      s.dev.toRaw (xtalRaw k) = d → d.setBackup { d.backup with loadDelayNs := satN 16 ((d.backup.edgeCt.getD d.now) - t) } = e →
      (l.bySync = true → exec .rtcLoad s = .next (s.withDev (e.syncLoad l.sets))) ∧
      (l.bySync = false → exec .rtcLoad s = .next (s.withDev (e.loadCount l.count false))))) ∧
  (∀ (s : State) (a : RtcAlarm) (g n : Nat), s.dev.backup.alarm = some a → a.toNat - s.dev.backup.count.toNat = g →
    (g = 0 → exec .alarmMatch s = .next (s.withDev (s.dev.alarmFire a false))) ∧
    (g ≠ 0 → s.dev.backup.edgesTo a.toNat 80 0 (g + g / 8000 + 4) = n → n ≠ 0 → exec .alarmMatch s =
      .next (s.withDev ((s.dev.toRaw (xtalRaw (xtalAt s.dev.time.raw + n))).alarmFire a false)))) ∧
  (∀ (p : Packet) (s : State) (q : QPacket) (b : Backup), Ready opReadRtc p s q → s.dev.backup = b → exec (.readRtc p) s = .next (s.finish q stOk 0
    [w32 b.count.sec.toNat, pack [(b.count.sec.toNat / 2 ^ 32, 0), (b.count.frac.toNat, 8), (b1 b.onVbat, 24), (b1 b.invalid, 25)],
     w32 (b.edgeCt.getD 0), w32 (eraOf (b.edgeCt.getD 0))])) ∧
  (∀ (p : Packet) (s : State) (q : QPacket), Ready opWriteRtcNextEdge p s q → q.resv 0 3 = false → q.f 0 1 0 ≤ 1 → q.resv 2 0x7FFFFF = false → q.par 3 = 0 →
    q.par 4 = 0 → s.dev.backup.load = none → s.dev.backup.sync.en = false → exec (.writeRtcNextEdge p) s =
      .next ((s.withDev (s.dev.setBackup { s.dev.backup with load := some { count := countOf (q.par 1) (q.par 2), edge := s.dev.backup.edgeNo + 1,
                                                                            pkt := some { q with started := true } } })).started q)) ∧
  (∀ (p : Packet) (s : State) (q : QPacket) (t : Int), Ready opWriteRtcAtTime p s q → q.resv 0 3 = false → q.resv 2 0x7FFFFF = false →
    q.resv 4 0xFFFF = false → nearEra s.dev.now (q.par 3) (q.f 4 15 0) = t → (s.dev.now : Int) + 100000 ≤ t → t < (s.dev.now : Int) + 2147483648 →
    s.dev.backup.load = none → s.dev.backup.sync.en = false → exec (.writeRtcAtTime p) s =
      .next ((s.withDev (s.dev.setBackup { s.dev.backup with load := some { count := countOf (q.par 1) (q.par 2), atTime := some t.toNat } })).finish q
        stOkPending 0 [])) ∧
  (∀ (p : Packet) (s : State) (q : QPacket) (d : Dev), Ready opRtcTrimSet p s q → q.resv 0 3 = false → q.f 0 1 0 ≤ 1 → q.resv 1 0x1FFF = false →
    (sgn 13 (q.f 1 12 0)).natAbs ≤ 4095 → s.dev.setTrim (sgn 13 (q.f 1 12 0)) false = d →
    exec (.rtcTrimSet p) s = .next ((s.withDev (d.setBackup { d.backup with refT := none })).finish q stOk 0 [])) ∧
  (∀ (p : Packet) (s : State) (q : QPacket) (c : SyncCfg) (b : Backup), Ready opRtcSyncConfig p s q → Journals s q → q.resv 0 3 = false →
    q.resv 1 0xFFFF0007 = false → q.resv 3 0xFF = false → q.resv 4 0xFFFFF = false → syncCfgOf q = c → c.syncS ≠ 0 → 31 ≤ c.tolUs → c.tolUs ≤ 1000000 →
    s.dev.backup = b → exec (.rtcSyncConfig p) s = .next (((s.withDev (s.dev.setBackup { b with
      sync := c, syncHeld := b.syncHeld && !c.backOk, refT := if c.en && !b.sync.en then none else b.refT })).entered 0x0812 q).finish q stOk 0 [])) ∧
  (∀ (p : Packet) (s : State) (q : QPacket) (a : RtcAlarm), Ready opRtcAlarmSet p s q → q.resv 0 7 = false → q.f 0 1 0 ≤ 1 → q.resv 2 0x7FFFFF = false →
    { sec := (countOf (q.par 1) (q.par 2)).sec, frac := (countOf (q.par 1) (q.par 2)).frac, suppress := q.b 0 2 } = a →
    (a.suppress = true → s.dev.oldFirmware = false) → s.dev.backup.count.toNat + 2 ≤ a.toNat →
    exec (.rtcAlarmSet p) s = .next ((s.withDev (s.dev.setBackup { s.dev.backup with alarm := some a, alarmReg := a })).finish q stOk 0 [])) ∧
  (∀ (p : Packet) (s : State) (q : QPacket), Ready opRtcAlarmCancel p s q → q.resv 0 7 = false →
    (s.dev.backup.alarm = none → exec (.rtcAlarmCancel p) s = .next (s.finish q stOkNoChange 0 [])) ∧
    (s.dev.backup.alarm.isSome = true → exec (.rtcAlarmCancel p) s =
      .next ((s.withDev (s.dev.setBackup { s.dev.backup with alarm := none })).finish q stOk 0 []))) ∧
  (∀ (s : State) (v : Word) (b : Backup), s.dev.hubUp = true → s.dev.backup = b →
    exec .rtcSecLoRead s = .next (s.withDev ((s.dev.setBackup { b with shadow := b.count }).emit (.regRead 0x40000000 (w32 b.count.sec.toNat)))) ∧
    exec (.rtcFlagsWrite v) s = .next (s.withDev (s.dev.setBackup { b with
      alarmFired := b.alarmFired && !bit v 3, alarmSkipped := b.alarmSkipped && !bit v 4 }))) ∧
  (∀ (s : State) (t : Nat) (d : Dev), s.dev.hubUp = true → s.dev.backup.sync.en = true →
    gridAt (max s.dev.now (s.dev.backup.lastMeas + 1)) (s.dev.backup.sync.syncS * 1000000000) 0 = t →
    (s.dev.toCt t).setBackup { (s.dev.toCt t).backup with lastMeas := t } = d →
    (d.time.servo ≠ .locked → exec .rtcSyncMeasure s = .next (s.withDev (d.setBackup { d.backup with refT := none }))) ∧
    (∀ e r f, d.time.servo = .locked → d.backup.error t (d.backup.edgeCt.getD t) = e →
      (d.setBackup { d.backup with lastSyncErrUs := satI 32 (divRoundEven e 64000) }).autoTrim t e = (r, f) →
      exec .rtcSyncMeasure s = .next (s.withDev (f.syncDecide t e r))))

/-- The backup domain's supplies and event inputs (R326, R327, R339 to R341, R377, R401, Table 15-3): the switch between the supplies, the reading of VBAT, the
loss of both, an accepted edge, a tamper edge, the status write, EVIN_CONFIG and EVIN_READ.
Conventions of the model that it shows: log entries 97, 100. -/
def Obligations.BackupAndEventInputCommandsComplete : Prop :=
  (∀ (v : Bool) (s : State) (b : Backup) (n : Nat), s.dev.backup = b → b.onVbat ≠ v → bump 16 b.switchCnt = n → exec (.backupSupplySwitch v) s =
    .next (s.withDev (((s.dev.setBackup { b with onVbat := v, switchCnt := n }).satAt 0x40 16 n).backupEvent 0x4006 0x4000 .info (b1 v + 2 ^ 16 * b.vbatMv)
      (fun p w => { p with supply := some w })))) ∧
  (∀ (mv v : Nat) (s : State) (b : Backup), s.dev.hubUp = true → s.dev.backup = b → satN 16 mv = v →
    (b.vbatLow = false → v < 2200 → exec (.vbatMeasure mv) s =
      .next (s.withDev ((s.dev.setBackup { b with vbatMv := v, vbatLow := true }).raise 0x4007 0x4000 .warn (1 + 2 ^ 16 * v)))) ∧
    (b.vbatLow = true → 2300 < v → exec (.vbatMeasure mv) s =
      .next (s.withDev ((s.dev.setBackup { b with vbatMv := v, vbatLow := false }).raise 0x4007 0x4000 .warn (2 ^ 16 * v)))) ∧
    ((b.vbatLow = false ∧ 2200 ≤ v ∨ b.vbatLow = true ∧ v ≤ 2300) → exec (.vbatMeasure mv) s = .next (s.withDev (s.dev.setBackup { b with vbatMv := v })))) ∧
  (∀ (s : State) (d : Dev), { s.dev with
      backup := { edgeCt := s.dev.backup.edgeCt, syncHeld := s.dev.backup.syncHeld, loadDelayNs := s.dev.backup.loadDelayNs, vbatMv := s.dev.backup.vbatMv,
                  vbatLow := s.dev.backup.vbatLow, lastSyncErrUs := s.dev.backup.lastSyncErrUs, driftPpb := s.dev.backup.driftPpb, sync := s.dev.backup.sync,
                  lastMeas := s.dev.backup.lastMeas, refT := s.dev.backup.refT, refE := s.dev.backup.refE, cor := s.dev.backup.cor, invalid := true }
      power := { s.dev.power with tableB := {}, table := {}, stepNext := 0, attempts := 0, railPend := [], alertPend := [], keep := false, wakeMask := 0,
                                  backupRec := !s.dev.hubUp }
      keys := { s.dev.keys with root := none, rootFp := 0, pend := 0, pendInput := 0, xtalEdges := 0 } } = d →
    (s.dev.hubUp = true → exec .backupLoss s = .next (s.withDev (d.causeRecord .backupLoss .backup 0 0 0 0))) ∧
    (s.dev.hubUp = false → exec .backupLoss s = .next (s.withDev d))) ∧
  (∀ (i : Fin 4) (r : Bool) (s : State) (e : Evin) (c : RtcCount) (x : EvinEntry), s.dev.backup.evin.rd i.val = e → e.cfg.selects r = true →
    s.dev.backup.countBack e.cfg.filt = c →
    { count := c, rising := r, ct := if s.dev.power.on && decide (e.cfg.filt ≤ xtalAt s.dev.time.raw) then
        some (s.dev.time.ctAt (xtalRaw (xtalAt s.dev.time.raw - e.cfg.filt))) else none } = x →
    (∀ d, e.fifo.length < 4 → s.dev.setEvin i.val { e with fifo := e.fifo ++ [x], level := r } = d →
      ((e.cfg.eventEn && s.dev.power.on) = true → exec (.evinEdgeAccept i r) s =
        .next (s.withDev (d.raise 0x4008 (0x4000 + i.val) .info (c.sec.toNat + 2 ^ 40 * c.frac.toNat + 2 ^ 55 * b1 r)))) ∧
      ((e.cfg.eventEn && s.dev.power.on) = false → exec (.evinEdgeAccept i r) s = .next (s.withDev d))) ∧
    (∀ n, 4 ≤ e.fifo.length → bump 16 e.ovfCnt = n → exec (.evinEdgeAccept i r) s =
      .next (s.withDev (((s.dev.setEvin i.val { e with overflow := true, ovfCnt := n, level := r }).satAt 0x40 16 n).backupEvent 0x4009 (0x4000 + i.val) .warn n
        (fun p w => { p with overflow := p.overflow.wr i.val w }))))) ∧
  (∀ (i : Fin 4) (r : Bool) (s : State) (e : Evin), s.dev.backup.evin.rd i.val = e → e.cfg.tamper = true → e.cfg.selects r = true →
    exec (.evinTamperEdge i r) s = .next (s.withDev (((s.dev.setEvin i.val { e with tamperHit := true }).zeroiseCore 1 i.val).backupEvent 0x400A
      (0x4000 + i.val) .crit i.val (fun p w => { p with tamper := some w })))) ∧
  (∀ (i : Fin 4) (v : Word) (s : State) (e : Evin), s.dev.hubUp = true → s.dev.backup.evin.rd i.val = e → exec (.evinStatusWrite i v) s =
    .next (s.withDev (s.dev.setEvin i.val { e with overflow := e.overflow && !bit v 3, tamperHit := e.tamperHit && !bit v 4, ovfCnt := fld v 31 16 }))) ∧
  (∀ (p : Packet) (s : State) (q : QPacket) (e : Evin) (c : EvinCfg), Ready opEvinConfig p s q → q.resv 0 0xFF0F = false →
    s.dev.backup.evin.rd q.pkt.inst = e →
    { edges := BitVec.ofNat 2 (q.f 0 1 0), tamper := q.b 0 2, eventEn := q.b 0 3, filt := q.f 0 15 8 } = c →
    (c.tamper ≠ e.cfg.tamper → q.pkt.transport = .pcie → q.tagged = true) → (c.tamper = true → c.edges ≠ 0) →
    exec (.evinConfig p) s = .next ((s.withDev (s.dev.setEvin q.pkt.inst { e with cfg := c })).finish q stOk 0 [])) ∧
  (∀ (p : Packet) (s : State) (q : QPacket) (e : Evin), Ready opEvinRead p s q → q.resv 0 1 = false → s.dev.backup.evin.rd q.pkt.inst = e →
    q.holds (1 + 4 * e.fifo.length) →
    (q.b 0 0 = false → exec (.evinRead p) s = .next (s.finish q stOk 0 (e.status :: e.fifo.flatMap EvinEntry.words))) ∧
    (q.b 0 0 = true → exec (.evinRead p) s = .next ((s.withDev (s.dev.setEvin q.pkt.inst { e with fifo := [] })).finish q stOk 0
      (e.status :: e.fifo.flatMap EvinEntry.words))))

/-- The CAN controllers' own happenings (R347 to R354, R356, R358): a frame received, a frame sent, a bus error, the fourth clash, the end of a recovery, the
begin of a reference cycle, a late reference, silence, and the check of the maps' timeouts.
Conventions of the model that it shows: log entries 98, 99. -/
def Obligations.CanBusEventsComplete : Prop :=
  (∀ (k : Fin 4) (f : CanFrame) (n : Nat) (s : State) (d e : Dev), s.dev.hubUp = true → s.dev.toRaw n = d → (d.canAt k.val).on = true →
    (d.canAt k.val).off = false → d.canReceive k.val f (d.time.ctAt n) = e →
    ((d.canAt k.val).cfg.mode = 2 → exec (.canFrameReceived k f n) s = .next (s.withDev (e.canIdle k.val))) ∧
    ((d.canAt k.val).cfg.mode ≠ 2 → exec (.canFrameReceived k f n) s = .next (s.withDev ((e.recvOk k.val).canIdle k.val)))) ∧
  (∀ (k : Fin 4) (b : Fin 33) (n : Nat) (s : State) (d : Dev) (x : CanCtl) (t : CanTx) (y : CanCtl), s.dev.hubUp = true → s.dev.toRaw n = d →
    d.canAt k.val = x → x.sends = true → x.tx.rd b.val = t → t.pending = true → t.suspended = false →
    { x with tx := x.tx.wr b.val { t with pending := false, clash := 0, cancel := false }, txOk := x.txOk + 1 } = y →
    (∀ e, b.val ≠ 32 → ((d.setCan k.val y).canCount k.val (x.tec - 1) x.recCnt).canConfine k.val = e →
      (x.cfg.mode = 3 → exec (.canTxComplete k b n) s = .next (s.withDev ((e.canReceive k.val t.frame (d.time.ctAt n)).canIdle k.val))) ∧
      (x.cfg.mode ≠ 3 → exec (.canTxComplete k b n) s = .next (s.withDev ((e.emit (.canFrame k.val t.frame)).canIdle k.val)))) ∧
    (∀ e, b.val = 32 → ((d.setCan k.val { y with refSent := y.refSent + 1, cycle := BitVec.ofNat 16 ((x.refDue.getD 0) % 65536), refDue := none }).canCount
        k.val (x.tec - 1) x.recCnt).canConfine k.val = e →
      (x.cfg.mode = 3 → exec (.canTxComplete k b n) s =
        .next (s.withDev ((e.canReceive k.val (x.refFrame (d.time.ctAt n)) (d.time.ctAt n)).canIdle k.val))) ∧
      (x.cfg.mode ≠ 3 → exec (.canTxComplete k b n) s =
        .next (s.withDev ((e.emit (.canFrame k.val (x.refFrame (d.time.ctAt n)))).canIdle k.val))))) ∧
  (∀ (k : Fin 4) (lec : BitVec 3) (post : Bool) (s : State) (x : CanCtl), s.dev.hubUp = true → s.dev.canAt k.val = x → x.on = true → x.off = false →
    (∀ tx, x.cfg.mode = 2 → exec (.canBusError k lec tx post) s = .next (s.withDev ((s.dev.setCan k.val { x with lec := lec }).canIdle k.val))) ∧
    (x.cfg.mode ≠ 2 → exec (.canBusError k lec none post) s = .next (s.withDev ((((s.dev.setCan k.val { x with lec := lec }).canCount k.val x.tec
      (min 255 (x.recCnt + (if post then 8 else 1)))).canConfine k.val).canIdle k.val))) ∧
    (∀ (b : Fin 33) (t : CanTx), x.cfg.mode ≠ 2 → x.tx.rd b.val = t → t.pending = true → t.suspended = false →
      exec (.canBusError k lec (some b) post) s = .next (s.withDev ((((s.dev.setCan k.val { x with
        lec := lec
        tx := x.tx.wr b.val { t with
          clash := if post = true ∧ (lec = 4 ∨ lec = 5) then min 4 (t.clash + 1) else 0, pending := !(t.oneShot || t.cancel), cancel := false } }).canCount
        k.val (if lec = 3 ∧ x.err = .passive then x.tec else x.tec + 8) x.recCnt).canConfine k.val).canIdle k.val)))) ∧
  (∀ (k : Fin 4) (b : Fin 33) (s : State) (x : CanCtl) (t : CanTx) (n : Nat) (d : Dev), s.dev.hubUp = true → s.dev.canAt k.val = x → x.tx.rd b.val = t →
    4 ≤ t.clash → t.suspended = false → bump 16 x.clashCnt = n →
    (s.dev.setCan k.val { x with tx := x.tx.wr b.val { t with suspended := true }, clashCnt := n }).satAt 0x31 16 n = d →
    (b.val = 32 → exec (.canClashLimit k b) s = .next (s.withDev ((d.raise 0x3107 (canSrc k.val) .crit
      (0xFF + 2 ^ 8 * (x.tcfg.refId + x.tcfg.prio) + 2 ^ 40 * min 255 x.tec)).canTime k.val .suspended))) ∧
    (b.val ≠ 32 → exec (.canClashLimit k b) s = .next (s.withDev (d.raise 0x3107 (canSrc k.val) .crit
      (b.val + 2 ^ 8 * t.frame.id + 2 ^ 40 * min 255 x.tec))))) ∧
  (∀ (k : Fin 4) (s : State) (d : Dev), s.dev.hubUp = true → (s.dev.canAt k.val).err = .busOff → (s.dev.canCount k.val 0 0).canErr k.val .active = d →
    ((d.canAt k.val).tcfg.role = 0 → exec (.canBusoffRecovered k) s = .next (s.withDev d)) ∧
    ((d.canAt k.val).tcfg.role ≠ 0 → exec (.canBusoffRecovered k) s = .next (s.withDev ((d.setCan k.val { d.canAt k.val with
      yielded := decide ((d.canAt k.val).tcfg.role = 1), pendTime := none }).canTime k.val .following)))) ∧
  (∀ (k : Fin 4) (s : State) (x : CanCtl) (c : Nat) (d e : Dev), s.dev.hubUp = true → s.dev.canAt k.val = x → x.tcfg.role ≠ 0 → x.on = true →
    max ((s.dev.now + x.tcfg.cycleUs * 1000 - 1) / (x.tcfg.cycleUs * 1000)) (x.cycleNow + 1) = c →
    (s.dev.toCt (c * (x.tcfg.cycleUs * 1000))).setCan k.val { x with cycleNow := c, pendTime := none } = d →
    ((x.pendTime = none ∧ d = e) ∨ ∃ v, x.pendTime = some v ∧ d.canTime k.val v = e) →
    (((e.canAt k.val).time = .mastering ∧ ((e.canAt k.val).tcfg.requireLock = false ∨ e.time.servo = .locked)) → exec (.canRefCycle k) s =
      .next (s.withDev (e.setCan k.val { e.canAt k.val with
        refDue := some c, tx := (e.canAt k.val).tx.wr 32 { (e.canAt k.val).tx.rd 32 with pending := true } }))) ∧
    (¬((e.canAt k.val).time = .mastering ∧ ((e.canAt k.val).tcfg.requireLock = false ∨ e.time.servo = .locked)) →
      exec (.canRefCycle k) s = .next (s.withDev e))) ∧
  (∀ (k : Fin 4) (s : State) (x : CanCtl) (c n : Nat), s.dev.hubUp = true → s.dev.canAt k.val = x → x.refDue = some c → bump 16 x.refLate = n →
    exec (.canRefLateTimeout k) s = .next (s.withDev ((((s.dev.toCt (c * (x.tcfg.cycleUs * 1000) + x.tcfg.cycleUs * 500)).setCan k.val { x with
      refDue := none, refLate := n, tx := x.tx.wr 32 { x.tx.rd 32 with pending := false } }).satAt 0x31 16 n).raise 0x3109 (canSrc k.val) .warn
      (c % 65536)))) ∧
  (∀ (k : Fin 4) (s : State) (x : CanCtl) (c : Nat) (d : Dev), s.dev.hubUp = true → s.dev.canAt k.val = x → x.time = .following → x.off = false →
    (x.tcfg.backup || x.yielded) = true →
    max ((List.range x.tcfg.prio).foldl (fun acc i => max acc (x.heard.rd i - 1)) x.followC + x.tcfg.silence + 1)
      ((s.dev.now + x.tcfg.cycleUs * 1000 - 1) / (x.tcfg.cycleUs * 1000)) = c →
    s.dev.toCt (c * (x.tcfg.cycleUs * 1000)) = d → exec (.canSilenceTimeout k) s =
      .next (s.withDev ((d.setCan k.val { d.canAt k.val with yielded := false }).canTime k.val .mastering))) ∧
  (∀ (s : State) (d : Dev), s.dev.hubUp = true → s.dev.toRaw ((s.dev.time.raw / 1000000 + 1) * 1000000) = d →
    exec .canMapTimeoutCheck s = .next (s.withDev ((List.range 4).foldl (fun acc k => (acc.canAt k).maps.foldl (Dev.mapTimeout k) acc) d)))

/-- The CAN opcodes (R346, R347, R350, R352 to R359, Tables 16-5 to 16-11): CAN_CONFIG, CAN_FILTER, CAN_SEND and its cancel, CAN_RECEIVE, CAN_STATUS,
CAN_TIME_CONFIG, CAN_MAP and CAN_RECOVER.
Conventions of the model that it shows: log entries 98. -/
def Obligations.CanCommandsComplete : Prop :=
  (∀ (p : Packet) (s : State) (q : QPacket) (x : CanCtl) (c : CanCfg) (k : Nat), Ready opCanConfig p s q → Journals s q →
    firstErr (canConfigChecks s q) = none → q.pkt.inst = k → s.dev.canAt k = x → canCfgOf q = c →
    (c.mode = 0 → x.cfg.mode ≠ 0 → s.dev.freeB.1 = true → exec (.canConfig p) s =
      .next (((s.withDev (s.dev.freeB.2.setCan k { x with cfg := c, offWait := true })).entered 0x0901 q).finish q stOk 0 [])) ∧
    (∀ d, c.mode = 0 → x.cfg.mode ≠ 0 → s.dev.freeB.1 = false → (s.dev.freeB.2.setCan k { x with cfg := c, offWait := false }).mapAllBad k = d →
      d.slalom.writeThrough = false → exec (.canConfig p) s = .next (((s.withDev d).entered 0x0901 q).finish q stOk 0 [])) ∧
    ((c.mode ≠ 0 ∨ x.cfg.mode = 0) → exec (.canConfig p) s =
      .next (((s.withDev (s.dev.setCan k { x with cfg := c, offWait := x.offWait && decide (c.mode = 0) })).entered 0x0901 q).finish q stOk 0 []))) ∧
  (∀ (p : Packet) (s : State) (q : QPacket), Ready opCanFilter p s q → Journals s q → firstErr (canFilterChecks s q) = none →
    exec (.canFilter p) s = .next (((s.withDev (s.dev.setCan q.pkt.inst ((s.dev.canAt q.pkt.inst).withFilters q))).entered 0x0902 q).finish q stOk 0 [])) ∧
  (∀ (p : Packet) (s : State) (q : QPacket) (x : CanCtl) (k b : Nat) (t : CanTx), Ready opCanSend p s q → q.pkt.inst = k → s.dev.canAt k = x → q.f 0 4 0 = b →
    x.tx.rd b = t →
    (q.b 0 9 = false → firstErr (canSendChecks s q) = none → exec (.canSend p) s = .next ((s.withDev (s.dev.setCan k { x with
      tx := x.tx.wr b { frame := { sendFrame q with data := (sendFrame q).bytes (sendFrame q).len }, pending := true, oneShot := q.b 0 8 } })).finish q
      stOk 0 [])) ∧
    (q.b 0 9 = true → q.resv 0 0x31F = false → x.cfg.mode ≠ 0 → x.cfg.mode ≠ 2 →
      (t.pending = false → exec (.canSend p) s = .next (s.finish q stOk 0 [])) ∧
      (∀ o, t.pending = true → (s.dev.freeB.1 && !t.suspended && x.sends) = o → exec (.canSend p) s = .next ((s.withDev (s.dev.freeB.2.setCan k { x with
        tx := x.tx.wr b { t with pending := o, cancel := o, suspended := false, clash := 0 } })).finish q stOk 0 [])))) ∧
  (∀ (p : Packet) (s : State) (q : QPacket) (x : CanCtl) (l : List CanRx) (k n : Nat), Ready opCanReceive p s q → q.pkt.inst = k → s.dev.canAt k = x →
    q.resv 0 0xFF03 = false → q.f 0 15 8 = n → 1 ≤ n → n ≤ canMax q.pkt.transport → (if q.b 0 0 then x.prioBuf else x.fifo) = l →
    (∀ ws, pack [((l.take n).length, 0), ((l.drop n).length, 8)] :: (l.take n).flatMap CanRx.words = ws → q.holds ws.length →
      (q.b 0 1 = false → exec (.canReceive p) s = .next ((s.withDev (s.dev.setCan k x)).finish q stOk 0 ws)) ∧
      (q.b 0 1 = true → q.b 0 0 = true → exec (.canReceive p) s = .next ((s.withDev (s.dev.setCan k { x with prioBuf := l.drop n })).finish q stOk 0 ws)) ∧
      (q.b 0 1 = true → q.b 0 0 = false → exec (.canReceive p) s = .next ((s.withDev (s.dev.setCan k { x with fifo := l.drop n })).finish q stOk 0 ws)))) ∧
  (∀ (p : Packet) (s : State) (q : QPacket), Ready opCanStatus p s q →
    exec (.canStatus p) s = .next (s.finish q stOk 0 ((List.range 14).map (s.dev.canAt q.pkt.inst).word))) ∧
  (∀ (p : Packet) (s : State) (q : QPacket) (c : CanTimeCfg) (k : Nat) (d : Dev), Ready opCanTimeConfig p s q → Journals s q →
    firstErr (canTimeChecks s q) = none → q.pkt.inst = k → canTimeCfgOf q = c →
    s.dev.setCan k { s.dev.canAt k with
      tcfg := c, pendTime := if c.role = 1 then some .mastering else none, yielded := false, heard := [], refDue := none, cycleNow := 0
      tx := (s.dev.canAt k).tx.wr 32 {} } = d →
    (c.role = 0 → exec (.canTimeConfig p) s = .next (((s.withDev (d.canTime k .none)).entered 0x0906 q).finish q stOk 0 [])) ∧
    (c.role = 2 → exec (.canTimeConfig p) s = .next (((s.withDev (d.canTime k .following)).entered 0x0906 q).finish q stOk 0 [])) ∧
    (c.role = 1 → exec (.canTimeConfig p) s = .next (((s.withDev d).entered 0x0906 q).finish q stOk 0 []))) ∧
  (∀ (p : Packet) (s : State) (q : QPacket), Ready opCanMap p s q → Journals s q → firstErr (canMapChecks q) = none →
    exec (.canMap p) s = .next (((s.withDev (s.dev.setCan q.pkt.inst { s.dev.canAt q.pkt.inst with
      maps := (s.dev.canAt q.pkt.inst).maps.wrAll (q.f 0 7 0) (mapsOf (q.from' 1)) })).entered 0x0907 q).finish q stOk 0 [])) ∧
  (∀ (p : Packet) (s : State) (q : QPacket), Ready opCanRecoverBus p s q → q.resv 0 0xFF01 = false →
    ((s.dev.canAt q.pkt.inst).err = .busOffHeld → exec (.canRecoverBus p) s =
      .next ((s.withDev (s.dev.canErr q.pkt.inst .busOff)).finish q stOk 0 [])) ∧
    ((s.dev.canAt q.pkt.inst).err ≠ .busOffHeld → exec (.canRecoverBus p) s = .next (s.finish q stOkNoChange 0 []))) ∧
  (∀ (p : Packet) (s : State) (q : QPacket) (x : CanCtl) (k b : Nat) (t : CanTx), Ready opCanRecoverBuffer p s q → q.resv 0 0xFF01 = false → q.pkt.inst = k →
    s.dev.canAt k = x → ((q.f 0 15 8 = 0xFF ∧ b = 32) ∨ (q.f 0 15 8 = b ∧ b < 32)) → x.tx.rd b = t →
    (t.suspended = false → exec (.canRecoverBuffer p) s = .next (s.finish q stOkNoChange 0 [])) ∧
    (t.suspended = true → b = 32 → exec (.canRecoverBuffer p) s = .next ((s.withDev ((s.dev.setCan k { x with
      tx := x.tx.wr b { t with suspended := false, clash := 0, pending := false } }).canTime k .following)).finish q stOk 0 [])) ∧
    (t.suspended = true → b < 32 → exec (.canRecoverBuffer p) s = .next ((s.withDev (s.dev.setCan k { x with
      tx := x.tx.wr b { t with suspended := false, clash := 0 } })).finish q stOk 0 [])))

/-- The key store's opcodes and the tamper zeroise (R374, R376, R377, R379 to R385, Tables 18-2, 18-4 and 18-7).
Conventions of the model that it shows: log entries 15, 100. -/
def Obligations.KeyCommandsComplete : Prop :=
  (∀ (p : Packet) (s : State) (q : QPacket) (k : List Byte), Ready opKeyProvision p s q → firstErr (keyProvisionChecks s.dev q) = none →
    s.dev.unwrapKey q = some k → exec (.keyProvision p) s = .next ((s.withDev ((s.dev.useKey (q.f 0 13 8)).fillSlot (q.f 0 5 0)
      { purpose := BitVec.ofNat 3 (q.f 0 18 16), lifetime := BitVec.ofNat 2 (q.f 0 20 19), parent := q.f 0 13 8, usesLeft := q.f 1 15 0,
        genLast := q.f 1 31 16, key := k } false)).finish q stOk 0 [])) ∧
  (∀ (p : Packet) (s : State) (q : QPacket) (k : List Byte), Ready opKeyDerive p s q → firstErr (keyDeriveChecks s.dev q) = none →
    hkdf32 (s.dev.keys.slots.rd (q.f 0 13 8)).key s.dev.serialBytes
      (BitVec.ofNat 8 (q.f 0 18 16) :: (bytesAll ((q.from' 2).take 12)).take (q.f 0 29 24)) = k →
    exec (.keyDerive p) s = .next ((s.withDev ((s.dev.useKey (q.f 0 13 8)).fillSlot (q.f 0 5 0)
      { purpose := BitVec.ofNat 3 (q.f 0 18 16), lifetime := BitVec.ofNat 2 (q.f 0 20 19), parent := q.f 0 13 8, usesLeft := q.f 1 15 0,
        genLast := (s.dev.keys.slots.rd (q.f 0 5 0)).genLast, key := k } true)).finish q stOk 0 [kcv k])) ∧
  (∀ (p : Packet) (s : State) (q : QPacket) (k : KeySlot), Ready opKeyStatus p s q → q.resv 0 0x3F = false → s.dev.keys.slots.rd (q.f 0 5 0) = k →
    (k.state = .valid → exec (.keyStatus p) s = .next (s.finish q stOk 0 ((List.range 4).map k.word ++ [kcv k.key]))) ∧
    (k.state ≠ .valid → exec (.keyStatus p) s = .next (s.finish q stOk 0 ((List.range 4).map k.word ++ [0])))) ∧
  (∀ (p : Packet) (s : State) (q : QPacket) (i n : Nat) (d : Dev), Ready opKeyChallenge p s q → q.resv 0 0x3F = false → q.f 0 5 0 = i →
    s.dev.keyRefusal i 3 = none → s.dev.keyWaits i = false → (s.dev.keys.slots.rd i).respCnt + 1 = n → n < 2 ^ 32 → s.dev.useKey i = d →
    (∀ ws, wordsOf (hmac (s.dev.keys.slots.rd i).key (bytesAll ((q.from' 1).take 8) ++ s.dev.serialBytes ++ leBytes 4 n)) = ws →
      q.holds (3 + ws.length) → exec (.keyChallenge p) s =
        .next ((s.withDev ((d.setKeySlot i { d.keys.slots.rd i with respCnt := n }).satAt 0x42 32 n)).finish q stOk 0
          ([w32 n, s.dev.serialLo, s.dev.serialHi] ++ ws)))) ∧
  (∀ (p : Packet) (s : State) (q : QPacket) (i : Nat), Ready opKeyErase p s q → q.resv 0 0x3F = false → q.f 0 5 0 = i → i ≠ 0 →
    (s.dev.keys.slots.rd i).state ≠ .exhausted →
    ((s.dev.keys.slots.rd i).state = .empty → exec (.keyErase p) s = .next (s.finish q stOkNoChange 0 [])) ∧
    ((s.dev.keys.slots.rd i).state ≠ .empty → exec (.keyErase p) s =
      .next ((s.withDev ((s.dev.cascade i true).chainChange s.dev.chainKey false)).finish q stOk 0 []))) ∧
  (∀ (v : BitVec 3) (s : State) (k : KeyStore), s.dev.keys = k →
    (s.dev.hubUp = true → k.pend = 0 → exec (.tamperZeroise v) s = .next (s.withDev (s.dev.zeroise v.toNat 0 false))) ∧
    (s.dev.hubUp = true → k.pend ≠ 0 → exec (.tamperZeroise v) s = .next (s.withDev (s.dev.zeroise k.pend.toNat k.pendInput false))) ∧
    (s.dev.hubUp = false → k.pend = 0 → exec (.tamperZeroise v) s = .next (s.withDev (s.dev.zeroiseCore v.toNat 0))) ∧
    (s.dev.hubUp = false → k.pend ≠ 0 → exec (.tamperZeroise v) s = .next (s.withDev (s.dev.zeroiseCore k.pend.toNat k.pendInput))))

/-- The rails (R279, R299, R391, R393 to R395): a step of the sequencer, a rail that does not come up, the retry, the loss and the return of a rail in
service, and the hub's mux.
Conventions of the model that it shows: log entries 104, 105, 108. -/
def Obligations.RailEventsComplete : Prop :=
  (∀ (pg : BitVec 6) (s : State) (p : Power) (n : Nat) (on : List Nat) (d : Dev) (t : Power), s.dev.power = p → p.sequencing = true →
    p.nextStep p.stepNext = n →
    (if (p.stepRails n).any (fun r => p.railEn.getLsbD r && !p.railPg.getLsbD r) then [] else p.toEnable n) = on →
    (on.foldl (fun acc r => acc.pmbusSet r) s.dev).pass (on.foldl (fun a r => max a (p.rail r).delayMs) 0 * 1000000) = d →
    { d.power with
      railEn := d.power.railEn ||| railBits on, railPg := (pg ||| d.power.railPg) &&& (d.power.railEn ||| railBits on), stepNext := n } = t →
    (n = 6 → exec (.railStep pg) s = .next (s.withDev (d.setPwr { t with stepNext := 6 }))) ∧
    (n ≠ 6 → exec (.railStep pg) s = .next (s.withDev (d.setPwr (t.endStep n))))) ∧
  (∀ (r : Fin 6) (s : State) (p : Power) (d : Dev), s.dev.power = p → p.sequencing = true → (p.rail r.val).stepNo = p.stepNext →
    p.railEn.getLsbD r.val = true → p.railPg.getLsbD r.val = false → s.dev.pass ((p.rail r.val).pgToMs * 1000000) = d →
    (p.spares r.val = true → exec (.railPgTimeout r) s =
      .next (s.withDev (d.setPwr (((d.power.holdFail r.val).railOff r.val).endStep p.stepNext)))) ∧
    (∀ e, p.spares r.val = false → (d.setPwr (d.power.holdFail r.val)).railsOff = e → exec (.railPgTimeout r) s =
      .next (s.withDev (e.setPwr { e.power with stepNext := 7, attempts := p.attempts + 1 })))) ∧
  (∀ (s : State) (d : Dev), s.dev.power.stepNext = 7 → s.dev.power.attempts < 3 → s.dev.power.on = true → s.dev.pass 1000000000 = d →
    exec .railSequenceRetry s = .next (s.withDev (d.setPwr { d.power with stepNext := 0 }))) ∧
  (∀ (r : Fin 6) (s : State) (d : Dev) (f : BitVec 7), s.dev.hubUp = true → s.dev.power.railPg.getLsbD r.val = true → s.dev.power.lbAt = none →
    s.dev.setPwr { s.dev.power with railPg := s.dev.power.railPg &&& ~~~ railBits [r.val] } = d → (d.power.rail r.val).func = f →
    (∀ b, (f.getLsbD 0 || f.getLsbD 1 || f.getLsbD 4 ||
        ((f.getLsbD 2 || f.getLsbD 3) && !d.power.good 2 && !d.power.good 3 && !d.power.saveOn)) = b →
      (b = true → exec (.railPgLoss r) s = .next (s.after (d.por .railPg r.val false true))) ∧
      (b = false → f.getLsbD 5 = true → f.getLsbD 6 = false → exec (.railPgLoss r) s = .next (s.withDev (d.ctlRailLost 0))) ∧
      (b = false → f.getLsbD 5 = false → f.getLsbD 6 = true → exec (.railPgLoss r) s = .next (s.withDev (d.ctlRailLost 1))) ∧
      (b = false → f.getLsbD 5 = true → f.getLsbD 6 = true → exec (.railPgLoss r) s = .next (s.withDev ((d.ctlRailLost 0).ctlRailLost 1))) ∧
      (b = false → f.getLsbD 5 = false → f.getLsbD 6 = false → exec (.railPgLoss r) s = .next (s.withDev d)))) ∧
  (∀ (r : Fin 6) (s : State) (d e : Dev) (f : BitVec 7), s.dev.hubUp = true → s.dev.power.railEn.getLsbD r.val = true →
    s.dev.power.railPg.getLsbD r.val = false → s.dev.setPwr { s.dev.power with railPg := s.dev.power.railPg ||| railBits [r.val] } = d →
    (d.power.rail r.val).func = f → (if f.getLsbD 5 then d.ctlRailBack 0 else d) = e →
    (f.getLsbD 6 = true → exec (.railPgReturn r) s = .next (s.withDev (e.ctlRailBack 1))) ∧
    (f.getLsbD 6 = false → exec (.railPgReturn r) s = .next (s.withDev e))) ∧
  (∀ (va vb a b : Nat) (s : State) (d : Dev), s.dev.hubUp = true → satN 16 va = a → satN 16 vb = b →
    s.dev.setPwr { s.dev.power with vhaMv := a, vhbMv := b } = d →
    (d.power.saveOn = true → exec (.hubMuxSwitch va vb) s = .next (s.withDev d)) ∧
    (d.power.saveOn = false → a < 780 → b < 780 → exec (.hubMuxSwitch va vb) s = .next (s.after (d.por .hubCoreUv 0 false true))) ∧
    (∀ vs vo, d.power.saveOn = false → (780 ≤ a ∨ 780 ≤ b) → (if d.power.hubSelB then (b, a) else (a, b)) = (vs, vo) →
      (¬(vs + 20 < vo ∨ (vs < 800 ∧ 820 ≤ vo)) → exec (.hubMuxSwitch va vb) s = .next (s.withDev d)) ∧
      (∀ x n, (vs + 20 < vo ∨ (vs < 800 ∧ 820 ≤ vo)) → d.freeNs 0 1000 = x → bump 16 (x.2.pass x.1).power.muxSwitchCnt = n →
        exec (.hubMuxSwitch va vb) s = .next (s.withDev ((((x.2.pass x.1).setPwr { (x.2.pass x.1).power with
          hubSelB := !(x.2.pass x.1).power.hubSelB, muxSwitchCnt := n }).satAt 0x50 16 n).raise 0x5005 0x5000 .warn
          (b1 (!(x.2.pass x.1).power.hubSelB) + 2 ^ 16 * vs + 2 ^ 32 * vo))))))

/-- The feeds, the save supply, the last breath, KEEP's wake, the thermal trips and PMBus in service (R279, R387, R388, R392, R395, R403, R408, R409).
Conventions of the model that it shows: log entries 82, 106. -/
def Obligations.FeedAndSupplyEventsComplete : Prop :=
  (∀ (k : Fin 4) (b low : Bool) (mv m : Nat) (s : State) (f : FeedState), s.dev.feedSeen k.val = true → s.dev.power.feeds.rd k.val = f → satN 16 mv = m →
    (if b then f.lowB else f.lowA) ≠ low →
    (if low = true then m < s.dev.power.table.feedWarn * 100 else s.dev.power.table.feedWarn * 100 + 500 ≤ m) → exec (.feedLowWarn k b low mv) s =
      .next (s.withDev ((s.dev.updFeed k.val (fun f => if b then { f.read b m with lowB := low } else { f.read b m with lowA := low })).feedEvent k.val 0x5002
        .warn (b1 b + 2 ^ 8 * b1 low + 2 ^ 16 * m)))) ∧
  (∀ (k : Fin 4) (b o : Bool) (mv m : Nat) (s : State) (f : FeedState) (d : Dev), s.dev.feedSeen k.val = true → s.dev.power.feeds.rd k.val = f → satN 16 mv = m →
    (if o then 36000 else 33000) < m → s.dev.updFeed k.val (fun f =>
      if b then { f.read b m with overB := true, openB := f.openB || o } else { f.read b m with overA := true, openA := f.openA || o }) = d →
    ((if b then f.overB else f.overA) = true → exec (.feedOvervoltage k b o mv) s = .next (s.withDev d)) ∧
    ((if b then f.overB else f.overA) = false → exec (.feedOvervoltage k b o mv) s =
      .next (s.withDev (d.feedEvent k.val 0x5002 .warn (b1 b + 2 ^ 9 + 2 ^ 16 * m))))) ∧
  (∀ (k : Fin 4) (b : Bool) (mv m : Nat) (s : State), s.dev.feedSeen k.val = true → satN 16 mv = m → m < 33000 → exec (.feedOvervoltageClear k b mv) s =
    .next (s.withDev (s.dev.updFeed k.val (fun f =>
      if b then { f.read b m with overB := false, openB := false } else { f.read b m with overA := false, openA := false })))) ∧
  (∀ (k : Fin 4) (av bv a b : Nat) (s : State) (d : Dev), s.dev.feedSeen k.val = true → satN 16 av = a → satN 16 bv = b → a < 16000 → b < 16000 →
    (s.dev.power.feeds.rd k.val).lost = false → s.dev.power.lbAt = none →
    (((s.dev.updFeed k.val (fun f => { f with aMv := a, bMv := b, lost := true })).allPowerFail k.val).setOutState k.val .disarmed).feedEvent k.val 0x5003 .crit
      (a + 2 ^ 16 * b) = d →
    exec (.feedLoss k av bv) s = .next (s.withDev (d.raise 0x1023 (fldSrc k.val) .info OutState.disarmed.num))) ∧
  (∀ (k : Fin 4) (b : Bool) (mv m : Nat) (s : State), satN 16 mv = m → 18000 < m →
    (s.dev.power.phase = .poweredOff → s.dev.power.keep = false → exec (.feedReturn k b mv) s =
      .next (s.after (s.dev.por .lastBreath 0 s.dev.power.lbDone false))) ∧
    (∀ d e, s.dev.power.phase ≠ .poweredOff → s.dev.power.lbAt = none → s.dev.updFeed k.val (fun f => { f.read b m with lost := false }) = d →
      d.setPwr { d.power with fieldFeed := d.power.fieldFeed.wr k.val false } = e →
      (((s.dev.power.feeds.rd k.val).lost && !s.dev.power.fieldFeed.rd k.val && e.fldRuns k.val) = true → exec (.feedReturn k b mv) s =
        .next (s.withDev (e.allOff k.val))) ∧
      (((s.dev.power.feeds.rd k.val).lost && !s.dev.power.fieldFeed.rd k.val && e.fldRuns k.val) = false → exec (.feedReturn k b mv) s =
        .next (s.withDev e)))) ∧
  (∀ (k : Fin 4) (s : State), s.dev.power.lbAt = none → s.dev.power.fieldFeed.rd k.val = false → exec (.feedReset k) s =
    .next (s.withDev ((s.dev.setPwr { s.dev.power with fieldFeed := s.dev.power.fieldFeed.wr k.val true }).orderFieldReset k.val 14))) ∧
  (∀ (s : State) (n : Nat) (d : Dev), s.dev.hubUp = true → s.dev.power.saveOn = false → s.dev.freeNs 0 20000 = (n, d) →
    exec .saveSupplyStart s = .next (s.withDev ((d.pass n).setPwr { (d.pass n).power with saveOn := true, saveAt := (d.pass n).time.raw }))) ∧
  (∀ (s : State), s.dev.power.saveOn = true → s.dev.power.lbAt = none →
    exec .saveSupplyRelease s = .next (s.withDev (s.dev.setPwr { s.dev.power with saveOn := false }))) ∧
  (∀ (s : State), s.dev.hubUp = true → s.dev.power.saveOn = true → s.dev.power.lbAt = none →
    exec .lastBreathConfirm s = .next (s.withDev ((s.dev.toRaw (s.dev.power.saveAt + 1000000)).lastBreath))) ∧
  (∀ (s : State) (t n us : Nat) (d e f : Dev), s.dev.power.lbAt = some t → s.dev.power.lbDone = false → s.dev.hubUp = true →
    s.dev.freeNs 0 (4000000 + 2000 * s.dev.slalom.journalUsed) = (n, d) → (d.toRaw (t + n)).saveAll = e → satN 16 ((e.time.raw - t) / 10000) = us →
    (e.setPwr { e.power with lbDone := true, lbLastUs := us }).railsOff = f →
    exec .lastBreathDone s = .next (s.after (f.setPwr { f.power with phase := .poweredOff, saveOn := false, lbAt := none }))) ∧
  (∀ (s : State), s.dev.power.phase = .poweredOff → s.dev.power.keep = true →
    exec (.keepWake none) s = .next (s.after (s.dev.por .keepWake 0 true true)) ∧
    (∀ b : Fin 5, s.dev.power.wakeMask.getLsbD b.val = true → exec (.keepWake (some b)) s =
      .next (s.after (s.dev.por .keepWake (8 + b.val) true true)))) ∧
  (∀ (s : State), s.dev.hubUp = true → s.dev.power.lbAt = none →
    (∀ d f, s.dev.deviceReset .thermal 0 true false = d →
      (List.range 6).filter (fun r => decide ((d.power.rail r).func.getLsbD 5 = true ∨ (d.power.rail r).func.getLsbD 6 = true)) = f →
      exec (.dieThermalTrip 0) s = .next (s.after (d.setPwr { d.power with
        thermalHold := true, railEn := d.power.railEn &&& ~~~ railBits f, railPg := d.power.railPg &&& ~~~ railBits f }))) ∧
    (∀ i : Fin 7, i.val = 1 ∨ i.val = 2 → exec (.dieThermalTrip i) s = .next (s.withDev (s.dev.hardFault (i.val - 1) .thermal))) ∧
    (∀ i : Fin 7, 3 ≤ i.val → s.dev.power.fieldThermal.rd (i.val - 3) = false → exec (.dieThermalTrip i) s =
      .next (s.withDev ((s.dev.setPwr { s.dev.power with fieldThermal := s.dev.power.fieldThermal.wr (i.val - 3) true }).orderFieldReset (i.val - 3) 11)))) ∧
  (∀ (s : State) (p : Power), s.dev.power = p →
    (p.thermalHold = true → exec (.thermalRecover 0) s =
      .next (s.withDev (s.dev.setPwr { p with thermalHold := false, stepNext := min (p.stepOf 5) (p.stepOf 6) }))) ∧
    (∀ i : Fin 7, 3 ≤ i.val → exec (.thermalRecover i) s =
      .next (s.withDev (s.dev.setPwr { p with fieldThermal := p.fieldThermal.wr (i.val - 3) false })))) ∧
  (∀ (s : State) (d : Dev), s.dev.hubUp = true →
    (∀ l : List (Option (Nat × Nat)), s.dev.power.table.telemEn = true → s.dev.pmbusAll [0x8B, 0x8C] = d → exec (.pmbusTelemetry l) s =
      .next (s.withDev (d.setPwr ((List.range 6).foldl (fun p r => p.telemetry r (l.getD r none)) d.power)))) ∧
    (∀ l : List Int, s.dev.power.table.telemEn = true → exec (.pmbusGainAdjust l) s = .next (s.withDev (s.dev.setPwr { s.dev.power with
      gains := (List.range 6).foldl (fun t r => if (s.dev.power.rail r).pmAddr = 0 then t else t.wr r (t.rd r + clampInt (-50) 50 (l.getD r (t.rd r) - t.rd r)))
        s.dev.power.gains }))) ∧
    (∀ l : List (Option (BitVec 16)), exec (.pmbusAlert l) s =
      .next (s.withDev ((List.range 6).foldl (fun acc r => acc.pmbusStatus r (l.getD r none)) (s.dev.pmbusAll [0x79])))))

/-- The commands of the power unit (R390, R393, R408, R412, Tables 19-7 to 19-9): PWR_STATUS, LOWPOWER_SET in its three states and RAIL_CONFIG.
Conventions of the model that it shows: log entries 107. -/
def Obligations.PowerCommandsComplete : Prop :=
  (∀ (p : Packet) (s : State) (q : QPacket) (d : Dev), Ready opPwrStatus p s q → s.dev.measurePower = d →
    exec (.pwrStatus p) s = .next ((s.withDev d).finish q stOk 0 ((List.range 12).map (fun i => d.power.word (4 * i))))) ∧
  (∀ (p : Packet) (s : State) (q : QPacket), Ready opLowpowerSetRun p s q → q.resv 0 0x1F03 = false → q.f 0 1 0 = 0 →
    (s.dev.power.lp = .quiesce → exec (.lowpowerSetRun p) s = .next ((s.withDev s.dev.leaveQuiesce).finish q stOk 0 [])) ∧
    (s.dev.power.lp ≠ .quiesce → exec (.lowpowerSetRun p) s = .next (s.finish q stOkNoChange 0 []))) ∧
  (∀ (p : Packet) (s : State) (q : QPacket), Ready opLowpowerSetQuiesce p s q → q.resv 0 0x1F03 = false → s.dev.frame.state = .stopped →
    (s.dev.power.lp = .quiesce → exec (.lowpowerSetQuiesce p) s = .next (s.finish q stOkNoChange 0 [])) ∧
    (s.dev.power.lp ≠ .quiesce → exec (.lowpowerSetQuiesce p) s =
      .next ((s.withDev ((List.range 16).foldl (fun acc k => acc.park k) (s.dev.setLp .quiesce (q.f 0 12 8)))).finish q stOk 0 []))) ∧
  (∀ (p : Packet) (s t : State) (q : QPacket), Ready opLowpowerSetKeep p s q → q.resv 0 0x1F03 = false → q.par 1 = 0x96160C21 →
    s.dev.frame.state = .stopped → (∀ k < 4, (s.dev.fld k).outState = .disarmed) → s.dev.eMramWrites = false → s.finish q stOk 0 [] = t →
    exec (.lowpowerSetKeep p) s = .next (t.after (t.dev.enterKeep (q.f 0 12 8)))) ∧
  (∀ (p : Packet) (s : State) (q : QPacket), Ready opRailConfig p s q → Journals s q → firstErr (railChecks q) = none →
    exec (.railConfig p) s = .next (((s.withDev (s.dev.setPwr { s.dev.power with
      tableN := railTableOf q, tableB := railTableOf q })).entered 0x0C22 q).finish q stOk 0 []))

/-- Resets and start-up (R377, R393 to R406, R411, R412, R421, R425): power-on reset, the hub's release, the first die's BIST, the wait for an ACTIVE die,
the pin, the hub's watchdog and the reset and firmware opcodes.
Conventions of the model that it shows: log entries 1, 101, 102, 103. -/
def Obligations.ResetCommandsComplete : Prop :=
  (∀ (s : State) (p : Power), s.dev.power = p →
    exec (.powerOnReset .powerUp) s = .next (s.after (s.dev.por .powerUp 0 false false)) ∧
    (p.lbAt = none → p.saveOn = false → p.on = true → exec (.powerOnReset .hubCoreUv) s = .next (s.after (s.dev.por .hubCoreUv 0 false true))) ∧
    (∀ n d, p.lbAt = none → p.on = true → s.dev.freeN 6 = (n, d) → exec (.powerOnReset .railPg) s = .next (s.after (d.por .railPg n false true))) ∧
    (p.lbAt.isSome = true → exec (.powerOnReset .lastBreath) s = .next (s.after (s.dev.por .lastBreath 0 p.lbDone false))) ∧
    (p.phase = .poweredOff → p.keep = false → exec (.powerOnReset .lastBreath) s = .next (s.after (s.dev.por .lastBreath 0 p.lbDone false))) ∧
    (p.phase = .poweredOff → p.keep = true → exec (.powerOnReset .keepWake) s = .next (s.after (s.dev.por .keepWake 0 true true)))) ∧
  (∀ (s : State) (d : Dev) (b : BootPick) (w : Bool), (s.dev.power.phase = .sequencing ∨ s.dev.power.phase = .inReset) → s.dev.power.stepNext = 6 →
    s.dev.power.resetN = true → s.dev.power.thermalHold = false → s.dev.releaseTime.pickHubRail = d → d.bootPick = b →
    d.warmStart b ((s.dev.power.pendKind.map (fun x => x.1)).getD .por) = w → exec .hubResetRelease s =
      .next (s.withDev (((((((d.openRecord b w).runFirmware b w).startField).raiseHeld b).startKeys).startPorts).startDies))) ∧
  (∀ (k : Fin 2) (s : State) (n : Nat) (d e : Dev), s.dev.power.phase = .hubUp → s.dev.power.boot ≠ .recovery → s.dev.ctlUp = false →
    s.dev.startDie = some k.val → s.dev.freeNs 891700000 1954500000 = (n, d) → d.toRaw (s.dev.power.noActiveSince.getD s.dev.time.raw + n) = e →
    exec (.activeDieBistDone k true) s = .next (s.withDev (e.startActive k.val)) ∧
    (∀ m f, e.freeN 320 = (m, f) → exec (.activeDieBistDone k false) s =
      .next (s.withDev (((f.updCtl k.val (fun c => { c with noAuto := true })).dieTo k.val .failed).sliceFail k.val m false)))) ∧
  (∀ (s : State) (t : Nat) (d e : Dev), s.dev.power.noActiveSince = some t → s.dev.hubUp = true → s.dev.ctlUp = false → s.dev.power.noActiveExpired = false →
    s.dev.toRaw (t + 2500000000) = d → (d.host.queue.filter QPacket.waitsDie).foldl (fun acc q => acc.finish q stWrongState 0 []) d = e →
    exec .noActiveWaitExpiry s = .next (s.withDev (e.setPwr { e.power with noActiveExpired := true }))) ∧
  (∀ (s : State) (d : Dev), s.dev.power.resetN = true → s.dev.setPwr { s.dev.power with resetN := false } = d →
    (d.power.phase = .sequencing → d.power.stepNext = 7 → exec .resetNLow s = .next (s.withDev (d.setPwr { d.power with stepNext := 0, attempts := 0 }))) ∧
    (¬(d.power.phase = .sequencing ∧ d.power.stepNext = 7) → exec .resetNLow s = .next (s.after (d.deviceReset .resetPin 0 true false)))) ∧
  (∀ (s : State) (b : BitVec 2), s.dev.power.resetN = false → exec (.resetNRise b) s =
    .next (s.withDev (s.dev.setPwr { s.dev.power with resetN := true, bootPins := b }))) ∧
  (∀ (s : State), s.dev.hubUp = true →
    exec (.hubWatchdogExpiry true) s = .next (s.after (s.dev.deviceReset .hubFault 1 false false)) ∧
    exec (.hubWatchdogExpiry false) s = .next (s.after (s.dev.deviceReset .hubFault 2 false false))) ∧
  (∀ (p : Packet) (s t : State) (q : QPacket), Ready opDeviceReset p s q → q.par 0 = 0x96160102 → q.resv 1 1 = false → s.finish q stOk 0 [] = t →
    exec (.deviceReset p) s = .next (t.after (t.dev.deviceReset .command 0 true (q.b 1 0)))) ∧
  (∀ (p : Packet) (s : State) (q : QPacket) (k : Nat), Ready opDieReset p s q → q.resv 0 1 = false → q.pkt.unit - 3 = k →
    ((s.dev.ctl k).state = .active → (q.b 0 0 = true ∨ (s.dev.twin.enabled = true ∧ s.dev.eligible (1 - k) = true)) → exec (.dieReset p) s =
      .next ((s.withDev (s.dev.declare k .command)).finish q stOk 0 [])) ∧
    (((s.dev.ctl k).state = .cold ∨ (s.dev.ctl k).state = .coldSynced) → exec (.dieReset p) s =
      .next ((s.withDev (s.dev.resetStandby k)).finish q stOk 0 []))) ∧
  (∀ (p : Packet) (s : State) (q : QPacket) (k : Nat), Ready opFieldReset p s q → q.pkt.inst = k → s.dev.power.lbAt = none →
    (s.dev.fieldTested k = true → exec (.fieldReset p) s =
      .next ((s.withDev (((s.dev.abortRun (2 + k)).fieldReset k .inReset).causeRecord .field .command k 0 0 0)).finish q stOk 0 [])) ∧
    (s.dev.fieldTested k = false → (s.dev.fld k).run = .run → exec (.fieldReset p) s = .next ((s.withDev (s.dev.orderFieldReset k 7)).finish q stOk 0 [])) ∧
    (s.dev.fieldTested k = false → (s.dev.fld k).run ≠ .run → exec (.fieldReset p) s = .next (s.finish q stOkNoChange 0 []))) ∧
  (∀ (p : Packet) (s : State) (q : QPacket) (r : CauseRec), Ready opResetCause p s q → q.resv 0 0xF = false → s.dev.power.causes[q.f 0 3 0]? = some r →
    exec (.resetCause p) s = .next (s.finish q stOk 0 [w32 r.data.toNat, w32 (r.data.toNat / 2 ^ 32), r.seq, w32 r.opTime])) ∧
  (∀ (p : Packet) (s : State) (q : QPacket), Ready opFwStage p s q → q.resv 0 3 = false → q.resv 1 0xFFFFF = false → q.f 1 19 0 + (q.n - 2) ≤ 1048576 →
    q.b 0 0 ≠ s.dev.power.runSlot → exec (.fwStage p) s =
      .next ((s.withDev ((s.dev.setPwr { s.dev.power with stageBusy := true }).setSlm (s.dev.slalom.request .firmware))).started q)) ∧
  (∀ (p : Packet) (s t : State) (q : QPacket) (v : Nat), Ready opFwActivate p s q → Journals s q → q.resv 0 3 = false →
    s.dev.power.image s.dev.host.revHub.toNat (q.f 0 0 0) = some v →
    ((s.withDev (s.dev.setPwr { s.dev.power with prefSlot := q.b 0 0 })).entered 0x0107 q).finish q stOk 0 [w32 v] = t →
    (q.b 0 1 = false → exec (.fwActivate p) s = .next t) ∧
    (q.b 0 1 = true → exec (.fwActivate p) s = .next (t.after (t.dev.deviceReset .fwActivate 0 true false))))

/-- Diagnostic access, single register accesses and the test access port (R7, R62, R80, R425, R433, Tables 00-3, 01-6, 02-8, 03-15, 08-10 and 13-9).
Conventions of the model that it shows: log entries 24, 25, 26, 28. -/
def Obligations.DiagnosticAndRegisterCommandsComplete : Prop :=
  (∀ (p : Packet) (s : State) (q : QPacket) (a : Word) (n : Nat), Ready opDiagRead p s q → s.dev.diagDie q.pkt.unit = .go → q.par 0 = a → q.f 1 8 0 = n →
    q.resv 1 0x1FF = false → 1 ≤ n → n ≤ 256 → rangeMapped q.pkt.unit (diagOfs a) n = true →
    (∀ ws t, State.readWords (diagUnit a) (diagInst a) (diagOfs a) n s = (ws, t) → q.holds ws.length →
      exec (.diagRead p) s = .next (t.finish q stOk 0 ws))) ∧
  (∀ (p : Packet) (s : State) (q : QPacket) (a : Word) (n : Nat), Ready opDiagWrite p s q → s.dev.diagDie q.pkt.unit = .go → q.par 0 = a → q.f 1 8 0 = n →
    q.resv 1 0x1FF = false → 1 ≤ n → n ≤ 256 → q.n = 2 + n → rangeMapped q.pkt.unit (diagOfs a) n = true →
    exec (.diagWrite p) s = .next ((s.withDev (s.dev.writeWords (diagUnit a) (diagInst a) (q.from' 2) (diagOfs a))).finish q stOk 0 [])) ∧
  (∀ (p : Packet) (s : State) (q : QPacket) (a v : Word) (d : Dev), Ready opDiagModify p s q → s.dev.diagDie q.pkt.unit = .go → q.par 0 = a →
    rangeMapped q.pkt.unit (diagOfs a) 1 = true → s.readWord (diagUnit a) (diagInst a) (diagOfs a) = (v, d) →
    exec (.diagModify p) s = .next ((s.withDev (d.writeWord (diagUnit a) (diagInst a) (diagOfs a)
      ((v &&& ~~~(q.par 1)) ||| (q.par 2 &&& q.par 1)))).finish q stOk 0 [v])) ∧
  (∀ (s : State), s.dev.hubUp = true →
    exec (.qmonLevelRead false) s = .next (s.readOut 0x01 0 0x204) ∧
    (s.dev.ctlUp = true → exec (.qmonLevelRead true) s = .next (s.readOut 0x02 0 0x204)) ∧
    exec .freeLowRead s = .next (s.readOut 0x01 0 0x608) ∧
    (s.dev.ctlUp = true → exec .minSlackRead s = .next (s.readOut 0x23 0 0x0C)) ∧
    exec .maxGlideUsRead s = .next (s.readOut 0x51 0 0x08)) ∧
  (∀ (s : State) (a v : Word), s.dev.hubUp = true →
    (diagUnit a = 0 → exec (.registerWrite a v) s = .next (s.withDev (s.dev.barWrite a.toNat v))) ∧
    (diagUnit a ≠ 0 → pageExists (diagUnit a) (diagInst a) = true → wordMapped (diagUnit a) (diagOfs a) = true → s.dev.diagDie (diagUnit a) = .go →
      exec (.registerWrite a v) s = .next (s.withDev (s.dev.writeWord (diagUnit a) (diagInst a) (diagOfs a) v)))) ∧
  (∀ (s : State) (r tms tdi : Bool) (d : Dev),
    (∀ t, { s.dev with tap := { s.dev.tap with tck := r, trstN := t } } = d →
      (t = false → exec (.tckEdge r tms tdi t) s = .next (s.withDev { d with tap := d.tap.reset })) ∧
      (t = true → s.dev.tap.tck = r → exec (.tckEdge r tms tdi t) s = .next (s.withDev d)) ∧
      (t = true → s.dev.tap.tck ≠ r → r = true → exec (.tckEdge r tms tdi t) s = .next (s.withDev (d.tapRise tms tdi))) ∧
      (t = true → s.dev.tap.tck ≠ r → r = false → exec (.tckEdge r tms tdi t) s =
        .next (s.withDev { d with tap := d.tap.fall d.power.resetN }))))

/-- A step takes the command at the front of the queue and runs it with the queue's rest. -/
def Obligations.StepRunsFrontCommand : Prop :=
  ∀ (c : Instr) (cs : List Instr) (s : State), step { s with pending := c :: cs } = exec c { s with pending := cs }

/-- On an empty queue a step is one CK_NET edge (the model's choice, log entry 5): RAW goes on by the 8 ns that the edge stands for (R302),
and nothing is captured, queued or signalled. -/
def Obligations.StepOnEmptyQueueIsOneEdge : Prop :=
  ∀ s : State, s.pending = [] →
    ∃ t, step s = .next t ∧ t.dev = s.dev.pass 8 ∧ t.dev.time.raw = (s.dev.time.raw + 8) % 2 ^ 64 ∧ t.dev.out = s.dev.out ∧ t.frameBank = s.frameBank ∧
      t.reqBank = s.reqBank ∧ t.pending = []

/-- Each command that is a packet of a row of Table 02-20 is run by the command interpreter with that row's checks and meaning. -/
def Obligations.PacketCommandsRunTheInterpreter : Prop :=
  ∀ (c : Instr) (op : Op) (p : Packet) (s : State), packetOf c = some (op, p) → exec c s = .next (packetRow op p s)

/-- Every command, in every state, answers a next state: none stops the block. The commands that wait are none of its effect. -/
def Obligations.EveryCommandAnswersANextState : Prop := ∀ (c : Instr) (s : State), ∃ t, exec c s = .next t ∧ t.pending = s.pending

/-- The queue is worked off from its front: `k` steps take the first `k` commands, in order, and leave the others as they stand. -/
def Obligations.QueueIsFirstInFirstOut : Prop :=
  ∀ (k : Nat) (s : State), k ≤ s.pending.length → ∃ t, Host.Core.run Sys2Proof.core k s = .next t ∧ t.pending = s.pending.drop k

/-- The state after reset meets the invariant that every step keeps: no command waits and no page has been captured. -/
def Obligations.InvariantHoldsAtReset : Prop := State.reset.Inv

/-- From every state that meets the invariant, reached or not, each step answers a next state that meets it: the commands that wait are well
formed, a frame capture carries a generation below 2^15 and a requested capture one below 2^16 (R76), a bank without a capture holds nothing,
and a captured page repeats no signal. -/
def Obligations.InvariantKeptByEveryStep : Prop := ∀ s : State, s.Inv → ∃ t, step s = .next t ∧ t.Inv

/-- The order of execution (R46, R48): a packet is held exactly while an earlier packet of its transport has not completed and either one of the
two is ORDERED or both are for one target unit (UNIT and INSTANCE, or UNIT 0x02 and the class of the die that was active at arrival); the command
of a packet that is held changes nothing, and one that is not held goes on to its checks. -/
def Obligations.PacketsOfOneUnitRunInOrder : Prop :=
  (∀ (queue : List QPacket) (q : QPacket), mayStart queue q = true ↔
    ∀ x ∈ ahead queue q, x.pkt.ordered = false ∧ q.pkt.ordered = false ∧ ¬(x.pkt.unit = q.pkt.unit ∧ x.pkt.inst = q.pkt.inst) ∧ x.unitKey ≠ q.unitKey) ∧
  (∀ (c : Instr) (op : Op) (p : Packet) (s : State) (q : QPacket), packetOf c = some (op, p) → p.opcode = op.code → op.sel p = true →
    s.dev.host.queue.find? (fun x => x.fresh p) = some q → mayStart s.dev.host.queue q = false → exec c s = .next s) ∧
  (∀ (c : Instr) (op : Op) (p : Packet) (s : State) (q : QPacket), packetOf c = some (op, p) → Stands op p s q → exec c s = .next (runBody op s q))

/-- CHECK_ONLY (Table 02-1): of any row, a packet that would be accepted is answered with ST_OK_CHECKED and nothing else of it takes effect, not
even where the row defers its reply, changes class N settings or waits for a capture; one that fails a check is answered as without the flag, an
AT_SNAPSHOT packet for which no capture is due (R47) among them. -/
def Obligations.CheckOnlyPacketsOnlyAnswer : Prop :=
  ∀ (c : Instr) (op : Op) (p : Packet) (s : State) (q : QPacket), packetOf c = some (op, p) → Stands op p s q → p.checkOnly = true →
    (op.body s q).waits = false →
    (accepted (op.body s q).status = true → q.holds (op.body s q).words.length →
      (p.atSnapshot = true → q.snapDone = false → s.dev.captureDue = true) → exec c s = .next (s.finish q stOkChecked 0 [])) ∧
    (accepted (op.body s q).status = true → q.holds (op.body s q).words.length → p.atSnapshot = true → q.snapDone = false →
      s.dev.captureDue = false → exec c s = .next (s.finish q stWrongState 0 [])) ∧
    (accepted (op.body s q).status = true → ¬q.holds (op.body s q).words.length → exec c s = .next (s.finish q stParamRange op.sizeAt [])) ∧
    (accepted (op.body s q).status = false → exec c s = .next (({ (op.body s q).st with dev := (op.body s q).st.dev.bookAuthFail p (op.body s q).status } : State).finish q
      (op.body s q).status (op.body s q).detail []))

/-- AT_SNAPSHOT (R47): a packet with the flag whose checks pass waits where a capture is due, in the queue, where it holds back what comes after it
for its unit, and nothing of it takes effect; it is answered ST_WRONG_STATE where no capture is due. A capture is due while a SNAPSHOT_AT is pending,
while frames run, while a frame up to STOP_FRAME is still to start, and while a frame schedule waits to start. -/
def Obligations.AtSnapshotPacketsWaitForACapture : Prop :=
  (∀ (c : Instr) (op : Op) (p : Packet) (s : State) (q : QPacket), packetOf c = some (op, p) → Stands op p s q → p.checkOnly = false →
    p.atSnapshot = true → q.snapDone = false → (op.body s q).waits = false → accepted (op.body s q).status = true →
    q.holds (op.body s q).words.length →
    (s.dev.captureDue = true → exec c s = .next (s.withDev { s.dev with host := { s.dev.host with
      queue := replaceQ q { q with waitsSnap := true } s.dev.host.queue } })) ∧
    (s.dev.captureDue = false → exec c s = .next (s.finish q stWrongState 0 []))) ∧
  (∀ d : Dev, d.captureDue = true ↔ d.points.reqs ≠ [] ∨ d.frame.state = .running ∨
    (d.frame.state = .stopping ∧ ∃ n, d.frame.stopFrame = some n ∧ d.frame.frameNum < n) ∨ (d.frame.state = .stopped ∧ d.frame.pendingSet.isSome = true))

/-- A packet rejected with an error status leaves its target as it was (R41), and one that must wait for its turn leaves everything: of any row that
answers an error status the reply goes out, an authentication status is also booked, and nothing else changes; KEY_PROVISION besides raises its
event, MODEL_COMMIT notes the reason and index of the error, and a block transfer whose host memory failed notes the failure. -/
def Obligations.RejectedPacketsOnlyAnswer : Prop :=
  (∀ (c : Instr) (op : Op) (p : Packet) (s : State) (q : QPacket), packetOf c = some (op, p) → Stands op p s q → (op.body s q).waits = true →
    exec c s = .next s) ∧
  (∀ (c : Instr) (op : Op) (p : Packet) (s : State) (q : QPacket), packetOf c = some (op, p) → Stands op p s q → (op.body s q).waits = false →
    accepted (op.body s q).status = false → op.code ∉ [0x0203, 0x0204, 0x0302, 0x0B01] →
    exec c s = .next ((s.withDev (s.dev.bookAuthFail p (op.body s q).status)).finish q (op.body s q).status (op.body s q).detail [])) ∧
  (∀ (p : Packet) (s : State) (q : QPacket), Stands opKeyProvision p s q → accepted (opKeyProvision.body s q).status = false →
    ∃ t, exec (.keyProvision p) s = .next t ∧ t.dev.keys = s.dev.keys) ∧
  (∀ (p : Packet) (s : State) (q : QPacket), Stands opModelCommit p s q → accepted (opModelCommit.body s q).status = false →
    ∃ t, exec (.modelCommit p) s = .next t ∧ t.dev.piste.active = s.dev.piste.active ∧ t.dev.piste.staging = s.dev.piste.staging ∧
      t.dev.piste.commit = s.dev.piste.commit) ∧
  (∀ (p : Packet) (s : State) (q : QPacket), Stands opPointBlockWrite p s q → accepted (opPointBlockWrite.body s q).status = false →
    ∃ t, exec (.pointBlockWrite p) s = .next t ∧ t.dev.points = s.dev.points) ∧
  (∀ (p : Packet) (s : State) (q : QPacket), Stands opPointBlockRead p s q → accepted (opPointBlockRead.body s q).status = false →
    ∃ t, exec (.pointBlockRead p) s = .next t ∧ t.dev.points = s.dev.points)

/-- The journal's waiting rule (R226): an accepted command of any class N row whose entry does not fit now waits, with nothing of it in effect: it
stands in the queue as started, so that what comes after it for its unit waits behind it, and in the journal's list with 100 ms to go. One whose
entry fits takes effect with its entry appended to the journal, and is answered at once unless settings are written through (R227). -/
def Obligations.ClassNCommandsNeedJournalRoom : Prop :=
  ∀ (c : Instr) (op : Op) (p : Packet) (s : State) (q : QPacket), packetOf c = some (op, p) → Ready op p s q → op.classN = true →
    (op.body s q).waits = false → accepted (op.body s q).status = true → (op.body s q).status ≠ stOkNoChange →
    q.holds (op.body s q).words.length →
    (s.dev.slalom.room (granulesOf q.n) = false → exec c s = .next (s.withDev { s.dev with
      host := { s.dev.host with queue := replaceQ q { q with started := true } s.dev.host.queue }
      slalom := { s.dev.slalom with
        jrnWait := s.dev.slalom.jrnWait ++ [{ pkt := { q with started := true }, deadline := s.dev.time.raw + 100000000 }]
        jrnlWaits := bump 16 s.dev.slalom.jrnlWaits } })) ∧
    (s.dev.slalom.room (granulesOf q.n) = true → (op.body s q).st.dev.slalom.writeThrough = false →
      exec c s = .next (op.after q (((op.body s q).st.entered op.code q).finish q (op.body s q).status 0 (op.body s q).words))) ∧
    (s.dev.slalom.room (granulesOf q.n) = true → (op.body s q).st.dev.slalom.writeThrough = true →
      ∃ t, exec c s = .next t ∧ t.dev.host.queue = replaceQ q { q with started := true } (op.body s q).st.dev.host.queue ∧
        ∃ e, t.dev.slalom.journal = (op.body s q).st.dev.slalom.journal ++ [e] ∧ e.words = q.pkt.params ∧ e.granules = granulesOf q.n ∧
          e.reply = some { pkt := { q with started := true }, status := (op.body s q).status, words := (op.body s q).words })

/-- The checks of the packet's header in their order (R40): of a packet that the device takes, a wrong MAGIC, else a VERSION that is neither 0x01 nor
0x02 (0x02 neither under firmware 3.1.4), else a LEN that R35 does not allow, is rejected with its own status. Of a packet that passes these, a
reserved header bit that is 1 (CHECK_ONLY too in VERSION 0x01), AUTH = 0 with KEY_SLOT or SEQ_LO not zero, NO_REPLY with CHECK_ONLY, and the RELAYED
flag used against R37 are rejected with ST_BAD_FLAGS, and nothing executes: the packet's credit is taken and the error reply goes out. -/
def Obligations.HeaderChecksInOrder : Prop :=
  ∀ (c : Instr) (op : Op) (p : Packet) (s : State), packetOf c = some (op, p) → p.opcode = op.code → op.sel p = true →
    (∀ x ∈ s.dev.host.queue, x.pkt ≠ p) → s.dev.hubUp = true → s.dev.creditFree p.transport = true →
    (∀ n det, ((s.dev.takeCredit p.transport).reply { pkt := p } n det []).host.queue = s.dev.host.queue) ∧
    (p.magic ≠ 0xD6 → exec c s = .next (s.withDev ((s.dev.takeCredit p.transport).reply { pkt := p } stBadMagic 0 []))) ∧
    (p.magic = 0xD6 → p.version ≠ 1 ∧ (p.version ≠ 2 ∨ s.dev.oldFirmware = true) →
      exec c s = .next (s.withDev ((s.dev.takeCredit p.transport).reply { pkt := p } stBadVersion 0 []))) ∧
    (p.magic = 0xD6 → p.version = 1 ∨ (p.version = 2 ∧ s.dev.oldFirmware = false) →
      p.len < 4 ∨ (p.auth = true ∧ p.len < 8) ∨ p.len ≠ p.framedWords ∨ p.len ≠ p.words.length ∨ p.transport.limit < p.len →
      exec c s = .next (s.withDev ((s.dev.takeCredit p.transport).reply { pkt := p } stBadLength 1 []))) ∧
    (p.magic = 0xD6 → p.version = 1 ∨ (p.version = 2 ∧ s.dev.oldFirmware = false) →
      4 ≤ p.len → (p.auth = true → 8 ≤ p.len) → p.len = p.framedWords → p.len = p.words.length → p.len ≤ p.transport.limit →
      (fld (p.w 3) 7 6 ≠ 0 ∨ fld (p.w 3) 23 14 ≠ 0 ∨ (p.version = 1 ∧ p.checkOnly = true)) ∨
        (p.auth = false ∧ (p.keySlot ≠ 0 ∨ p.seqLo ≠ 0)) ∨ (p.noReply = true ∧ p.checkOnly = true) ∨
        (p.transport = .relay ∧ (p.relayed = false ∨ p.auth = false)) ∨ (p.transport ≠ .relay ∧ p.relayed = true) →
      exec c s = .next (s.withDev ((s.dev.takeCredit p.transport).reply { pkt := p } stBadFlags 3 [])))

/-- A packet that finds no credit of its transport is refused explicitly (R18, R437): only the count of refused packets moves, no credit is taken,
nothing is queued and nothing is answered; while the hub is in reset nothing is taken at all. A transport has 256 credits (Table 01-3). -/
def Obligations.PacketWithoutCreditIsRefused : Prop :=
  (∀ (c : Instr) (op : Op) (p : Packet) (s : State), packetOf c = some (op, p) → p.opcode = op.code → op.sel p = true →
    (∀ x ∈ s.dev.host.queue, x.pkt ≠ p) →
    (s.dev.hubUp = false → exec c s = .next s) ∧
    (s.dev.hubUp = true → 256 ≤ s.dev.host.creditsUsed.rd p.transport.num → exec c s = .next (s.withDev s.dev.countRefused))) ∧
  (∀ d : Dev, d.countRefused.host = { d.host with refusedCnt := bump 16 d.host.refusedCnt } ∧ d.countRefused.out = d.out)

/-- The sequence numbers of authentication (R42 to R44): of a packet with a tag whose key slot may be used, the smallest 32-bit value above L with the
low byte SEQ_LO is the one that must verify, and accepting the packet makes it the new L; else a tag that verifies with the largest value not above L
is a replay; else the packet fails, or the key's sequence is spent where no value above L is left. Every rejection leaves L. A packet without a tag
is accepted only where Table 02-4 or the open opcodes allow it. -/
def Obligations.SequenceNumbersOfAuthentication : Prop :=
  (∀ (d : Dev) (p : Packet), p.auth = true → (p.keySlot = 0 → 0x0B01 ≤ p.opcode ∧ p.opcode ≤ 0x0B05) → d.keyRefusal p.keySlot 1 = none →
    d.keyWaits p.keySlot = false →
    ∀ l key, l = (d.host.lastSeq.rd (seqIndex p.transport p.keySlot)).toNat → key = (d.keys.slots.rd p.keySlot).key →
    (∀ v, v < 2 ^ 32 → l < v → v % 256 = p.seqLo → (∀ u, l < u → u % 256 = p.seqLo → v ≤ u) →
      (p.verifies key v = true → d.authCheck p = .tagged v) ∧
      (p.verifies key v = false → (∀ u, u ≤ l → l < u + 256 → u % 256 = p.seqLo → p.verifies key u = false) → d.authCheck p = .bad stAuthFail (p.len - 4))) ∧
    (∀ u, u ≤ l → l < u + 256 → u % 256 = p.seqLo → p.verifies key u = true →
      (∀ v, v < 2 ^ 32 → l < v → v ≤ l + 256 → v % 256 = p.seqLo → p.verifies key v = false) → d.authCheck p = .bad stAuthReplay 3) ∧
    ((∀ v, l < v → v % 256 = p.seqLo → 2 ^ 32 ≤ v) → (∀ u, u ≤ l → l < u + 256 → u % 256 = p.seqLo → p.verifies key u = false) →
      d.authCheck p = .bad stKeyExhausted 3)) ∧
  (∀ (d : Dev) (p : Packet) (v : Nat), d.authCheck p = .tagged v → p.headerErr d.oldFirmware = none → knownOpcode p.opcode = true →
    ((d.verify p).host.lastSeq.rd (seqIndex p.transport p.keySlot)).toNat = v ∧ (d.verify p).host.queue = d.host.queue ++
      [{ pkt := p, seq := BitVec.ofNat 32 v, tagged := true, key := (d.keys.slots.rd p.keySlot).key, die := d.activeDie }]) ∧
  (∀ (d : Dev) (p : Packet) (st det : Nat), d.authCheck p = .bad st det → p.headerErr d.oldFirmware = none →
    (d.verify p).host.lastSeq = d.host.lastSeq ∧ (d.verify p).host.queue = d.host.queue) ∧
  (∀ (d : Dev) (p : Packet), p.auth = false →
    d.authCheck p = (if (p.transport = .pcie ∧ d.host.cfg.pcieAuthReq = false) ∨ (openOpcode p.opcode = true ∧ p.transport ≠ .relay) then .plain
      else .bad stAuthRequired 3))

/-- Corrected time (R303, R304, R307): CT in units of 2^-16 ns is RAW + OFS + RATE × (RAW − T_REF), the product taken exactly and truncated towards
minus infinity, and what is read is its whole nanoseconds in 64 bits. A new RATE is sent for an instant at least 2 µs and at most 10 µs ahead, on a
CK_NET edge where RAW stands on one; the formula is rebased there, so that CT at that instant is the same under the old and the new RATE. Every
RATE that the servo forms lies within ±549,755,813. -/
def Obligations.CorrectedTimeIsContinuousAcrossARate : Prop :=
  (∀ (t : NetTime) (raw : Nat), ∃ e : Int, 0 ≤ e ∧ e < 2 ^ 24 ∧ t.ctFix raw * 2 ^ 24 + e = (raw * 65536 + t.ofs) * 2 ^ 24 + t.rate * (raw - t.tRef) ∧
    t.ctAt raw < 2 ^ 64 ∧ ((t.ctFix raw) / 65536) % 2 ^ 64 = t.ctAt raw) ∧
  (∀ (d : Dev) (rate : Int), ∃ x, (d.sendRate rate).time.pendingChg = some x ∧ x.rate = rate ∧ x.tRef = x.instant ∧ x.step = none ∧
    d.time.raw + 2000 ≤ x.instant ∧ x.instant ≤ d.time.raw + 10000 ∧ x.instant % 8 = 0 ∧
    (∀ e : Dev, e.time.ofs = d.time.ofs → e.time.rate = d.time.rate → e.time.tRef = d.time.tRef →
      (e.timeChanged x).time.ctFix x.instant = e.time.ctFix x.instant ∧
      (∀ r : Nat, x.instant ≤ r → (e.timeChanged x).time.ctFix r = e.time.ctFix x.instant + (r - x.instant) * 65536 + rate * (r - x.instant) / 2 ^ 24))) ∧
  (∀ f : Rat, -549755813 ≤ rateOf f ∧ rateOf f ≤ 549755813)

/-- What a reply does (R39, R51 to R53, R55, R437): a NO_REPLY packet with a status below 0x0100 sends none. Over PCIe the reply goes to the host's
buffer, cut to its size, then the completion entry is written and HUB_CQ_TAIL advances; a suspended or disabled ring writes neither and counts the
lost completion. Over quad-SPI the reply waits behind those before it, and the credit stays taken until ACK_REPLY; over PCIe and Ethernet the credit
returns at once. -/
def Obligations.ReplyGoesOutAndReturnsItsCredit : Prop :=
  (∀ (d : Dev) (q : QPacket) (st det : Nat) (ws : List Word), q.pkt.transport = .eth →
    (d.reply q st det ws).out = (if q.pkt.noReply = true ∧ st < 0x0100 then d.out
      else .ethReply q.pkt.port q.pkt.srcAddr q.pkt.srcPort q.pkt.vlan (replyWords q st det ws) :: d.out) ∧
    (d.reply q st det ws).host.creditsUsed = d.host.creditsUsed.wr 2 (d.host.creditsUsed.rd 2 - 1)) ∧
  (∀ (d : Dev) (q : QPacket) (st det : Nat) (ws : List Word), q.pkt.transport = .spi →
    (q.pkt.noReply = true ∧ st < 0x0100 → (d.reply q st det ws).host.spi = d.host.spi ∧
      (d.reply q st det ws).host.creditsUsed = d.host.creditsUsed.wr 1 (d.host.creditsUsed.rd 1 - 1)) ∧
    (¬(q.pkt.noReply = true ∧ st < 0x0100) → (d.reply q st det ws).host.spi.replies = d.host.spi.replies ++ [replyWords q st det ws] ∧
      (d.reply q st det ws).host.creditsUsed = d.host.creditsUsed)) ∧
  (∀ (d : Dev) (q : QPacket) (st det : Nat) (ws : List Word), q.pkt.transport = .pcie → d.host.ring.suspended = true ∨ d.host.ring.ringEn = false →
    (d.reply q st det ws).out = d.out ∧ (d.reply q st det ws).host.ring = { d.host.ring with lostCpl := bump 16 d.host.ring.lostCpl } ∧
    (d.reply q st det ws).host.creditsUsed = d.host.creditsUsed.wr 0 (d.host.creditsUsed.rd 0 - 1)) ∧
  (∀ (d : Dev) (q : QPacket) (st det : Nat) (ws : List Word), q.pkt.transport = .pcie → d.host.ring.suspended = false → d.host.ring.ringEn = true →
    d.host.ring.irqMsixEn = false → ∀ n, n = (if q.pkt.noReply = true ∧ st < 0x0100 then 0 else (replyWords q st det ws).length) →
    (d.reply q st det ws).out =
      .hostWrite (d.host.ring.cqBase.toNat + 16 * (d.host.ring.cqTail.toNat % 256))
        [pack [(q.pkt.sqIndex.toNat, 0), (q.pkt.tag, 16)], pack [(st, 0), (n, 16)],
          pack [(if d.host.ring.cqTail.toNat < 256 then 1 else 0, 0), (b1 (decide (q.pkt.rplCap < n)), 1)], 0] ::
      ((if ¬(q.pkt.noReply = true ∧ st < 0x0100) ∧ 0 < q.pkt.rplCap then [.hostWrite q.pkt.rplAddr ((replyWords q st det ws).take q.pkt.rplCap)] else []) ++ d.out) ∧
    (d.reply q st det ws).host.ring.cqTail = d.host.ring.cqTail + 1 ∧
    (d.reply q st det ws).host.creditsUsed = d.host.creditsUsed.wr 0 (d.host.creditsUsed.rd 0 - 1))

/-- The TAP controller (R433): from every state, with TCK low and TRST_N high, five rising edges of TCK with TMS = 1 reach Test-Logic-Reset, where the
falling edge selects IDCODE, whatever TDI shows; and TRST_N low reaches it at once. Nothing outside the TAP moves, but for the pin levels that a
capture on the way draws. -/
def Obligations.FiveTmsEdgesResetTheTap : Prop :=
  (∀ (s : State) (a b c d e : Bool), s.dev.tap.tck = false →
    ∃ t, Host.Core.run Sys2Proof.core 10 { s with pending := [.tckEdge true true a true, .tckEdge false true a true, .tckEdge true true b true,
      .tckEdge false true b true, .tckEdge true true c true, .tckEdge false true c true, .tckEdge true true d true, .tckEdge false true d true,
      .tckEdge true true e true, .tckEdge false true e true] } = .next t ∧
      t.dev.tap.state = .testLogicReset ∧ t.dev.tap.ir = 1 ∧ t = { s with dev := { s.dev with tap := t.dev.tap, free := t.dev.free }, pending := [] }) ∧
  (∀ (s : State) (r m i : Bool), ∃ t, exec (.tckEdge r m i false) s = .next t ∧ t.dev.tap.state = .testLogicReset ∧ t.dev.tap.ir = 1 ∧
    t = s.withDev { s.dev with tap := t.dev.tap })

/-- DIE_RESET (R404, R48): of the active die it is declared with cause COMMAND where a standby is eligible and twin operation is enabled, or where
FORCE is 1, else it is rejected with ST_WRONG_STATE; of a standby in COLD or COLD_SYNCED it starts recovery; of a die in any other state it is refused
with ST_WRONG_STATE and nothing is reset. -/
def Obligations.DieResetFollowsTheDieState : Prop :=
  ∀ (p : Packet) (s : State) (q : QPacket) (k : Nat), Ready opDieReset p s q → q.resv 0 1 = false → q.pkt.unit - 3 = k →
    ((s.dev.ctl k).state = .active →
      (q.b 0 0 = true ∨ (s.dev.twin.enabled = true ∧ s.dev.eligible (1 - k) = true) →
        exec (.dieReset p) s = .next ((s.withDev (s.dev.declare k .command)).finish q stOk 0 [])) ∧
      (q.b 0 0 = false → s.dev.twin.enabled = false ∨ s.dev.eligible (1 - k) = false →
        exec (.dieReset p) s = .next (s.finish q stWrongState 0 []))) ∧
    ((s.dev.ctl k).state = .cold ∨ (s.dev.ctl k).state = .coldSynced →
      exec (.dieReset p) s = .next ((s.withDev (s.dev.resetStandby k)).finish q stOk 0 []) ∧ ((s.dev.resetStandby k).ctl k).state = .recovering) ∧
    ((s.dev.ctl k).state = .off ∨ (s.dev.ctl k).state = .waking ∨ (s.dev.ctl k).state = .failed ∨ (s.dev.ctl k).state = .recovering →
      exec (.dieReset p) s = .next (s.finish q stWrongState 0 []))

/-- The bounds of the rings (R49): a write of HUB_SQ_TAIL by which more than 256 entries would be outstanding is ignored, sets SQ_OVERRUN and raises
HUB_HOST_SQ_OVERRUN, and any other moves the tail and fetches; a write of HUB_CQ_HEAD that would move past HUB_CQ_TAIL is ignored and sets
CQ_HEAD_ERR, and any other moves the head. Nothing else changes. -/
def Obligations.RingIndexesKeepTheirBounds : Prop :=
  (∀ (v : Word) (l : List SqFetch) (s : State) (t : Nat), s.dev.hubUp = true → t = v.toNat % 512 →
    (256 < (t + 512 - s.dev.host.ring.cqHead.toNat) % 512 →
      exec (.hubSqTailWrite v l) s = .next (s.withDev ((s.dev.setRing { s.dev.host.ring with sqOverrun := true }).raise 0x0110 0x0100 .warn t))) ∧
    ((t + 512 - s.dev.host.ring.cqHead.toNat) % 512 ≤ 256 →
      exec (.hubSqTailWrite v []) s = .next (s.withDev (s.dev.setRing { s.dev.host.ring with sqTail := BitVec.ofNat 9 t })) ∧
      exec (.hubSqTailWrite v l) s = .next (s.withDev ((s.dev.setRing { s.dev.host.ring with sqTail := BitVec.ofNat 9 t }).sqFetch l)) ∧
      ((s.dev.setRing { s.dev.host.ring with sqTail := BitVec.ofNat 9 t }).sqFetch l).host.ring.sqTail.toNat = t)) ∧
  (∀ (v : Word) (s : State) (h : Nat), s.dev.hubUp = true → h = v.toNat % 512 →
    ((s.dev.host.ring.cqTail.toNat + 512 - s.dev.host.ring.cqHead.toNat) % 512 < (h + 512 - s.dev.host.ring.cqHead.toNat) % 512 →
      exec (.hubCqHeadWrite v) s = .next (s.withDev (s.dev.setRing { s.dev.host.ring with cqHeadErr := true }))) ∧
    ((h + 512 - s.dev.host.ring.cqHead.toNat) % 512 ≤ (s.dev.host.ring.cqTail.toNat + 512 - s.dev.host.ring.cqHead.toNat) % 512 →
      exec (.hubCqHeadWrite v) s = .next (s.withDev (s.dev.setRing { s.dev.host.ring with cqHead := BitVec.ofNat 9 h }))))

/-- What reset leaves, where the spec gives the value: the hub is in reset and nothing waits (R400); frames are STOPPED with FRAME_LEN 100 (R25); both
control dies are OFF, every field die is DISARMED (R268) and no output is on; every L of authentication is 0 (R43); RATE, OFS and T_REF stand at their
defaults; the next requested generation is 0x8000 (R76); settings are written through (R227); and a device that was never powered has OP_TIME, OP_SUB
and POWER_CYCLES at 0 (R362). -/
def Obligations.ResetLeavesTheDefaults : Prop :=
  State.reset.pending = [] ∧ State.reset.dev.hubUp = false ∧ State.reset.dev.host.queue = [] ∧ State.reset.dev.frame.state = .stopped ∧
    State.reset.dev.frame.sched.len = 100 ∧ (∀ k, (State.reset.dev.ctl k).state = .off) ∧
    (∀ k, (State.reset.dev.fld k).outState = .disarmed ∧ ∀ c, ((State.reset.dev.fld k).dig.rd c).driving = false) ∧
    (∀ t k, State.reset.dev.host.lastSeq.rd (seqIndex t k) = 0) ∧
    State.reset.dev.time.rate = 0 ∧ State.reset.dev.time.ofs = 0 ∧ State.reset.dev.time.tRef = 0 ∧ State.reset.dev.points.nextReqGen = 0x8000 ∧
    State.reset.dev.points.reqs = [] ∧ State.reset.dev.slalom.writeThrough = true ∧ State.reset.dev.recorder.opTime = 0 ∧
    State.reset.dev.recorder.opSub = 0 ∧ State.reset.dev.recorder.cycles = 0

/-- A packet that is not queued yet is taken from its transport and executed in one step (R40): where its header is right, its authentication passes
(with no tag or with one) and its OPCODE is known, it joins the interpreter's queue behind every other packet, holding one credit of its transport,
and goes on to the checks of its row from there. An unknown OPCODE is answered ST_BAD_OPCODE and never queued. -/
def Obligations.TakenPacketJoinsTheQueue : Prop :=
  (∀ (c : Instr) (op : Op) (p : Packet) (s : State), packetOf c = some (op, p) → p.opcode = op.code → op.sel p = true →
    (∀ x ∈ s.dev.host.queue, x.pkt ≠ p) → s.dev.hubUp = true → s.dev.creditFree p.transport = true → p.headerErr s.dev.oldFirmware = none →
    knownOpcode p.opcode = true → (s.dev.authCheck p = .plain ∨ ∃ v, s.dev.authCheck p = .tagged v) →
    ∃ q, q.pkt = p ∧ q.started = false ∧ q.tagged = p.auth ∧ (s.dev.take p).host.queue = s.dev.host.queue ++ [q] ∧
      exec c s = .next (execQ op { s with dev := s.dev.take p } q)) ∧
  (∀ (d : Dev) (p : Packet), d.hubUp = true → d.creditFree p.transport = true → p.headerErr d.oldFirmware = none → d.authCheck p = .plain →
    (knownOpcode p.opcode = true → (d.take p).host.creditsUsed = d.host.creditsUsed.wr p.transport.num (d.host.creditsUsed.rd p.transport.num + 1)) ∧
    (knownOpcode p.opcode = false → d.take p = (d.takeCredit p.transport).reply { pkt := p, die := d.activeDie } stBadOpcode 0 [] ∧
      (d.take p).host.queue = d.host.queue))

/-- The point store as an addressed memory (R66, R67): any list of writes that its sources hand over, landed, lost or made to wait, leaves its live
entries in their canonical form (indices rising, no entry equal to what an unwritten one reads as), and leaves every entry whose ID no write of the
list names; so does an uncorrectable error; and after reset the form holds and every entry reads as NaN with quality 0xFF and source 0. -/
def Obligations.PointStoreKeepsItsCanonicalForm : Prop :=
  (∀ (ws : List PointWrite) (d : Dev), d.points.live.wf = true → (d.writePoints ws).points.live.wf = true ∧
    ∀ j, (∀ w ∈ ws, w.id ≠ j) → (d.writePoints ws).points.live.rd j = d.points.live.rd j) ∧
  (∀ (id : Nat) (s : State), s.dev.points.live.wf = true → ∃ t, exec (.pointEccError id) s = .next t ∧ t.dev.points.live.wf = true ∧
    ∀ j, j ≠ id % 2 ^ 20 → t.dev.points.live.rd j = s.dev.points.live.rd j) ∧
  State.reset.dev.points.live.wf = true ∧
  (∀ i, (State.reset.dev.points.live.rd i).value = 0x7FC00000 ∧ (State.reset.dev.points.live.rd i).quality = 0xFF ∧ (State.reset.dev.points.live.rd i).source = 0)
end

