-- ==== Sys2Proof/Laws/State.lean ====
section
/-! SUPPORT. What each named update of the device sets, and what it leaves as it was: one lemma per field and update. -/

namespace Sys2Proof.Machine

/-! The state. -/

@[simp] theorem State.finish_dev (s : State) (q : QPacket) (st det : Nat) (ws : List Word) : (s.finish q st det ws).dev = s.dev.finish q st det ws := rfl
@[simp] theorem State.finish_frameBank (s : State) (q : QPacket) (st det : Nat) (ws : List Word) : (s.finish q st det ws).frameBank = s.frameBank := rfl
@[simp] theorem State.finish_reqBank (s : State) (q : QPacket) (st det : Nat) (ws : List Word) : (s.finish q st det ws).reqBank = s.reqBank := rfl
@[simp] theorem State.finish_pending (s : State) (q : QPacket) (st det : Nat) (ws : List Word) : (s.finish q st det ws).pending = s.pending := rfl
@[simp] theorem State.after_dev (s : State) (d : Dev) : (s.after d).dev = d := by unfold State.after; split <;> rfl
@[simp] theorem State.after_pending (s : State) (d : Dev) : (s.after d).pending = s.pending := by unfold State.after; split <;> rfl
@[simp] theorem State.tick_pending (s : State) : s.tick.pending = s.pending := rfl
@[simp] theorem State.tick_frameBank (s : State) : s.tick.frameBank = s.frameBank := rfl
@[simp] theorem State.tick_reqBank (s : State) : s.tick.reqBank = s.reqBank := rfl

/-! The free values: a draw moves the counter and nothing else. -/

@[simp] theorem Dev.freeN_snd (d : Dev) (n : Nat) : (d.freeN n).2 = { d with free := d.free + 1 } := rfl
@[simp] theorem Dev.freeW_snd (d : Dev) : d.freeW.2 = { d with free := d.free + 1 } := rfl
@[simp] theorem Dev.freeB_snd (d : Dev) : d.freeB.2 = { d with free := d.free + 1 } := rfl
@[simp] theorem Dev.freeNs_snd (d : Dev) (lo hi : Nat) : (d.freeNs lo hi).2 = { d with free := d.free + 1 } := rfl
theorem Dev.freeN_lt (d : Dev) (n : Nat) (h : 0 < n) : (d.freeN n).1 < n := Nat.mod_lt _ h
theorem Dev.freeNs_le (d : Dev) (lo hi : Nat) (h : lo ≤ hi) : lo ≤ (d.freeNs lo hi).1 ∧ (d.freeNs lo hi).1 ≤ hi := by
  have := Nat.mod_lt (Config.freeNat d.free) (show 0 < hi + 1 - lo by omega)
  simp only [Dev.freeNs, Dev.freeN]
  omega

/-! The device. -/

@[simp] theorem Dev.setLink_evr (d : Dev) (l : LinkId) (x : Link) : (d.setLink l x).evr = d.evr := by unfold Dev.setLink; split <;> rfl
@[simp] theorem Dev.setLink_frame (d : Dev) (l : LinkId) (x : Link) : (d.setLink l x).frame = d.frame := by unfold Dev.setLink; split <;> rfl
@[simp] theorem Dev.setLink_host (d : Dev) (l : LinkId) (x : Link) : (d.setLink l x).host = d.host := by unfold Dev.setLink; split <;> rfl
@[simp] theorem Dev.setLink_points (d : Dev) (l : LinkId) (x : Link) : (d.setLink l x).points = d.points := by unfold Dev.setLink; split <;> rfl
@[simp] theorem Dev.setLink_piste (d : Dev) (l : LinkId) (x : Link) : (d.setLink l x).piste = d.piste := by unfold Dev.setLink; split <;> rfl
@[simp] theorem Dev.setLink_solver (d : Dev) (l : LinkId) (x : Link) : (d.setLink l x).solver = d.solver := by unfold Dev.setLink; split <;> rfl
@[simp] theorem Dev.setLink_jobs (d : Dev) (l : LinkId) (x : Link) : (d.setLink l x).jobs = d.jobs := by unfold Dev.setLink; split <;> rfl
@[simp] theorem Dev.setLink_coord (d : Dev) (l : LinkId) (x : Link) : (d.setLink l x).coord = d.coord := by unfold Dev.setLink; split <;> rfl
@[simp] theorem Dev.setLink_jalow (d : Dev) (l : LinkId) (x : Link) : (d.setLink l x).jalow = d.jalow := by unfold Dev.setLink; split <;> rfl
@[simp] theorem Dev.setLink_loops (d : Dev) (l : LinkId) (x : Link) : (d.setLink l x).loops = d.loops := by unfold Dev.setLink; split <;> rfl
@[simp] theorem Dev.setLink_aux (d : Dev) (l : LinkId) (x : Link) : (d.setLink l x).aux = d.aux := by unfold Dev.setLink; split <;> rfl
@[simp] theorem Dev.setLink_slalom (d : Dev) (l : LinkId) (x : Link) : (d.setLink l x).slalom = d.slalom := by unfold Dev.setLink; split <;> rfl
@[simp] theorem Dev.setLink_field (d : Dev) (l : LinkId) (x : Link) : (d.setLink l x).field = d.field := by unfold Dev.setLink; split <;> rfl
@[simp] theorem Dev.setLink_twin (d : Dev) (l : LinkId) (x : Link) : (d.setLink l x).twin = d.twin := by unfold Dev.setLink; split <;> rfl
@[simp] theorem Dev.setLink_time (d : Dev) (l : LinkId) (x : Link) : (d.setLink l x).time = d.time := by unfold Dev.setLink; split <;> rfl
@[simp] theorem Dev.setLink_backup (d : Dev) (l : LinkId) (x : Link) : (d.setLink l x).backup = d.backup := by unfold Dev.setLink; split <;> rfl
@[simp] theorem Dev.setLink_can (d : Dev) (l : LinkId) (x : Link) : (d.setLink l x).can = d.can := by unfold Dev.setLink; split <;> rfl
@[simp] theorem Dev.setLink_recorder (d : Dev) (l : LinkId) (x : Link) : (d.setLink l x).recorder = d.recorder := by unfold Dev.setLink; split <;> rfl
@[simp] theorem Dev.setLink_keys (d : Dev) (l : LinkId) (x : Link) : (d.setLink l x).keys = d.keys := by unfold Dev.setLink; split <;> rfl
@[simp] theorem Dev.setLink_power (d : Dev) (l : LinkId) (x : Link) : (d.setLink l x).power = d.power := by unfold Dev.setLink; split <;> rfl
@[simp] theorem Dev.setLink_test (d : Dev) (l : LinkId) (x : Link) : (d.setLink l x).test = d.test := by unfold Dev.setLink; split <;> rfl
@[simp] theorem Dev.setLink_tap (d : Dev) (l : LinkId) (x : Link) : (d.setLink l x).tap = d.tap := by unfold Dev.setLink; split <;> rfl
@[simp] theorem Dev.setLink_sat (d : Dev) (l : LinkId) (x : Link) : (d.setLink l x).sat = d.sat := by unfold Dev.setLink; split <;> rfl
@[simp] theorem Dev.setLink_free (d : Dev) (l : LinkId) (x : Link) : (d.setLink l x).free = d.free := by unfold Dev.setLink; split <;> rfl
@[simp] theorem Dev.setLink_out (d : Dev) (l : LinkId) (x : Link) : (d.setLink l x).out = d.out := by unfold Dev.setLink; split <;> rfl

@[simp] theorem Dev.mon_evr (d : Dev) (kind inst v : Nat) : (d.mon kind inst v).evr = d.evr := by unfold Dev.mon; split <;> rfl
@[simp] theorem Dev.mon_frame (d : Dev) (kind inst v : Nat) : (d.mon kind inst v).frame = d.frame := by unfold Dev.mon; split <;> rfl
@[simp] theorem Dev.mon_host (d : Dev) (kind inst v : Nat) : (d.mon kind inst v).host = d.host := by unfold Dev.mon; split <;> rfl
@[simp] theorem Dev.mon_points (d : Dev) (kind inst v : Nat) : (d.mon kind inst v).points = d.points := by unfold Dev.mon; split <;> rfl
@[simp] theorem Dev.mon_piste (d : Dev) (kind inst v : Nat) : (d.mon kind inst v).piste = d.piste := by unfold Dev.mon; split <;> rfl
@[simp] theorem Dev.mon_solver (d : Dev) (kind inst v : Nat) : (d.mon kind inst v).solver = d.solver := by unfold Dev.mon; split <;> rfl
@[simp] theorem Dev.mon_jobs (d : Dev) (kind inst v : Nat) : (d.mon kind inst v).jobs = d.jobs := by unfold Dev.mon; split <;> rfl
@[simp] theorem Dev.mon_coord (d : Dev) (kind inst v : Nat) : (d.mon kind inst v).coord = d.coord := by unfold Dev.mon; split <;> rfl
@[simp] theorem Dev.mon_jalow (d : Dev) (kind inst v : Nat) : (d.mon kind inst v).jalow = d.jalow := by unfold Dev.mon; split <;> rfl
@[simp] theorem Dev.mon_loops (d : Dev) (kind inst v : Nat) : (d.mon kind inst v).loops = d.loops := by unfold Dev.mon; split <;> rfl
@[simp] theorem Dev.mon_aux (d : Dev) (kind inst v : Nat) : (d.mon kind inst v).aux = d.aux := by unfold Dev.mon; split <;> rfl
@[simp] theorem Dev.mon_slalom (d : Dev) (kind inst v : Nat) : (d.mon kind inst v).slalom = d.slalom := by unfold Dev.mon; split <;> rfl
@[simp] theorem Dev.mon_field (d : Dev) (kind inst v : Nat) : (d.mon kind inst v).field = d.field := by unfold Dev.mon; split <;> rfl
@[simp] theorem Dev.mon_twin (d : Dev) (kind inst v : Nat) : (d.mon kind inst v).twin = d.twin := by unfold Dev.mon; split <;> rfl
@[simp] theorem Dev.mon_time (d : Dev) (kind inst v : Nat) : (d.mon kind inst v).time = d.time := by unfold Dev.mon; split <;> rfl
@[simp] theorem Dev.mon_backup (d : Dev) (kind inst v : Nat) : (d.mon kind inst v).backup = d.backup := by unfold Dev.mon; split <;> rfl
@[simp] theorem Dev.mon_can (d : Dev) (kind inst v : Nat) : (d.mon kind inst v).can = d.can := by unfold Dev.mon; split <;> rfl
@[simp] theorem Dev.mon_recorder (d : Dev) (kind inst v : Nat) : (d.mon kind inst v).recorder = d.recorder := by unfold Dev.mon; split <;> rfl
@[simp] theorem Dev.mon_keys (d : Dev) (kind inst v : Nat) : (d.mon kind inst v).keys = d.keys := by unfold Dev.mon; split <;> rfl
@[simp] theorem Dev.mon_power (d : Dev) (kind inst v : Nat) : (d.mon kind inst v).power = d.power := by unfold Dev.mon; split <;> rfl
@[simp] theorem Dev.mon_test (d : Dev) (kind inst v : Nat) : (d.mon kind inst v).test = d.test := by unfold Dev.mon; split <;> rfl
@[simp] theorem Dev.mon_tap (d : Dev) (kind inst v : Nat) : (d.mon kind inst v).tap = d.tap := by unfold Dev.mon; split <;> rfl
@[simp] theorem Dev.mon_sat (d : Dev) (kind inst v : Nat) : (d.mon kind inst v).sat = d.sat := by unfold Dev.mon; split <;> rfl
@[simp] theorem Dev.mon_free (d : Dev) (kind inst v : Nat) : (d.mon kind inst v).free = d.free := by unfold Dev.mon; split <;> rfl
@[simp] theorem Dev.mon_out (d : Dev) (kind inst v : Nat) : (d.mon kind inst v).out = d.out := by unfold Dev.mon; split <;> rfl

@[simp] theorem Dev.monHeld_evr (d : Dev) (kind inst v : Nat) : (d.monHeld kind inst v).evr = d.evr := by unfold Dev.monHeld; split <;> rfl
@[simp] theorem Dev.monHeld_frame (d : Dev) (kind inst v : Nat) : (d.monHeld kind inst v).frame = d.frame := by unfold Dev.monHeld; split <;> rfl
@[simp] theorem Dev.monHeld_host (d : Dev) (kind inst v : Nat) : (d.monHeld kind inst v).host = d.host := by unfold Dev.monHeld; split <;> rfl
@[simp] theorem Dev.monHeld_points (d : Dev) (kind inst v : Nat) : (d.monHeld kind inst v).points = d.points := by unfold Dev.monHeld; split <;> rfl
@[simp] theorem Dev.monHeld_piste (d : Dev) (kind inst v : Nat) : (d.monHeld kind inst v).piste = d.piste := by unfold Dev.monHeld; split <;> rfl
@[simp] theorem Dev.monHeld_solver (d : Dev) (kind inst v : Nat) : (d.monHeld kind inst v).solver = d.solver := by unfold Dev.monHeld; split <;> rfl
@[simp] theorem Dev.monHeld_jobs (d : Dev) (kind inst v : Nat) : (d.monHeld kind inst v).jobs = d.jobs := by unfold Dev.monHeld; split <;> rfl
@[simp] theorem Dev.monHeld_coord (d : Dev) (kind inst v : Nat) : (d.monHeld kind inst v).coord = d.coord := by unfold Dev.monHeld; split <;> rfl
@[simp] theorem Dev.monHeld_jalow (d : Dev) (kind inst v : Nat) : (d.monHeld kind inst v).jalow = d.jalow := by unfold Dev.monHeld; split <;> rfl
@[simp] theorem Dev.monHeld_loops (d : Dev) (kind inst v : Nat) : (d.monHeld kind inst v).loops = d.loops := by unfold Dev.monHeld; split <;> rfl
@[simp] theorem Dev.monHeld_aux (d : Dev) (kind inst v : Nat) : (d.monHeld kind inst v).aux = d.aux := by unfold Dev.monHeld; split <;> rfl
@[simp] theorem Dev.monHeld_slalom (d : Dev) (kind inst v : Nat) : (d.monHeld kind inst v).slalom = d.slalom := by unfold Dev.monHeld; split <;> rfl
@[simp] theorem Dev.monHeld_field (d : Dev) (kind inst v : Nat) : (d.monHeld kind inst v).field = d.field := by unfold Dev.monHeld; split <;> rfl
@[simp] theorem Dev.monHeld_twin (d : Dev) (kind inst v : Nat) : (d.monHeld kind inst v).twin = d.twin := by unfold Dev.monHeld; split <;> rfl
@[simp] theorem Dev.monHeld_time (d : Dev) (kind inst v : Nat) : (d.monHeld kind inst v).time = d.time := by unfold Dev.monHeld; split <;> rfl
@[simp] theorem Dev.monHeld_backup (d : Dev) (kind inst v : Nat) : (d.monHeld kind inst v).backup = d.backup := by unfold Dev.monHeld; split <;> rfl
@[simp] theorem Dev.monHeld_can (d : Dev) (kind inst v : Nat) : (d.monHeld kind inst v).can = d.can := by unfold Dev.monHeld; split <;> rfl
@[simp] theorem Dev.monHeld_recorder (d : Dev) (kind inst v : Nat) : (d.monHeld kind inst v).recorder = d.recorder := by unfold Dev.monHeld; split <;> rfl
@[simp] theorem Dev.monHeld_keys (d : Dev) (kind inst v : Nat) : (d.monHeld kind inst v).keys = d.keys := by unfold Dev.monHeld; split <;> rfl
@[simp] theorem Dev.monHeld_power (d : Dev) (kind inst v : Nat) : (d.monHeld kind inst v).power = d.power := by unfold Dev.monHeld; split <;> rfl
@[simp] theorem Dev.monHeld_test (d : Dev) (kind inst v : Nat) : (d.monHeld kind inst v).test = d.test := by unfold Dev.monHeld; split <;> rfl
@[simp] theorem Dev.monHeld_tap (d : Dev) (kind inst v : Nat) : (d.monHeld kind inst v).tap = d.tap := by unfold Dev.monHeld; split <;> rfl
@[simp] theorem Dev.monHeld_sat (d : Dev) (kind inst v : Nat) : (d.monHeld kind inst v).sat = d.sat := by unfold Dev.monHeld; split <;> rfl
@[simp] theorem Dev.monHeld_free (d : Dev) (kind inst v : Nat) : (d.monHeld kind inst v).free = d.free := by unfold Dev.monHeld; split <;> rfl
@[simp] theorem Dev.monHeld_out (d : Dev) (kind inst v : Nat) : (d.monHeld kind inst v).out = d.out := by unfold Dev.monHeld; split <;> rfl

@[simp] theorem Dev.through_evr (d : Dev) (kind inst : Nat) : (d.through kind inst).evr = d.evr := by simp [Dev.through]
@[simp] theorem Dev.through_frame (d : Dev) (kind inst : Nat) : (d.through kind inst).frame = d.frame := by simp [Dev.through]
@[simp] theorem Dev.through_host (d : Dev) (kind inst : Nat) : (d.through kind inst).host = d.host := by simp [Dev.through]
@[simp] theorem Dev.through_points (d : Dev) (kind inst : Nat) : (d.through kind inst).points = d.points := by simp [Dev.through]
@[simp] theorem Dev.through_piste (d : Dev) (kind inst : Nat) : (d.through kind inst).piste = d.piste := by simp [Dev.through]
@[simp] theorem Dev.through_solver (d : Dev) (kind inst : Nat) : (d.through kind inst).solver = d.solver := by simp [Dev.through]
@[simp] theorem Dev.through_jobs (d : Dev) (kind inst : Nat) : (d.through kind inst).jobs = d.jobs := by simp [Dev.through]
@[simp] theorem Dev.through_coord (d : Dev) (kind inst : Nat) : (d.through kind inst).coord = d.coord := by simp [Dev.through]
@[simp] theorem Dev.through_jalow (d : Dev) (kind inst : Nat) : (d.through kind inst).jalow = d.jalow := by simp [Dev.through]
@[simp] theorem Dev.through_loops (d : Dev) (kind inst : Nat) : (d.through kind inst).loops = d.loops := by simp [Dev.through]
@[simp] theorem Dev.through_aux (d : Dev) (kind inst : Nat) : (d.through kind inst).aux = d.aux := by simp [Dev.through]
@[simp] theorem Dev.through_slalom (d : Dev) (kind inst : Nat) : (d.through kind inst).slalom = d.slalom := by simp [Dev.through]
@[simp] theorem Dev.through_field (d : Dev) (kind inst : Nat) : (d.through kind inst).field = d.field := by simp [Dev.through]
@[simp] theorem Dev.through_twin (d : Dev) (kind inst : Nat) : (d.through kind inst).twin = d.twin := by simp [Dev.through]
@[simp] theorem Dev.through_time (d : Dev) (kind inst : Nat) : (d.through kind inst).time = d.time := by simp [Dev.through]
@[simp] theorem Dev.through_backup (d : Dev) (kind inst : Nat) : (d.through kind inst).backup = d.backup := by simp [Dev.through]
@[simp] theorem Dev.through_can (d : Dev) (kind inst : Nat) : (d.through kind inst).can = d.can := by simp [Dev.through]
@[simp] theorem Dev.through_recorder (d : Dev) (kind inst : Nat) : (d.through kind inst).recorder = d.recorder := by simp [Dev.through]
@[simp] theorem Dev.through_keys (d : Dev) (kind inst : Nat) : (d.through kind inst).keys = d.keys := by simp [Dev.through]
@[simp] theorem Dev.through_power (d : Dev) (kind inst : Nat) : (d.through kind inst).power = d.power := by simp [Dev.through]
@[simp] theorem Dev.through_test (d : Dev) (kind inst : Nat) : (d.through kind inst).test = d.test := by simp [Dev.through]
@[simp] theorem Dev.through_tap (d : Dev) (kind inst : Nat) : (d.through kind inst).tap = d.tap := by simp [Dev.through]
@[simp] theorem Dev.through_sat (d : Dev) (kind inst : Nat) : (d.through kind inst).sat = d.sat := by simp [Dev.through]
@[simp] theorem Dev.through_free (d : Dev) (kind inst : Nat) : (d.through kind inst).free = d.free := by simp [Dev.through]
@[simp] theorem Dev.through_out (d : Dev) (kind inst : Nat) : (d.through kind inst).out = d.out := by simp [Dev.through]

@[simp] theorem Dev.raise_fabric (d : Dev) (code source : Nat) (sev : Severity) (data : Nat) : (d.raise code source sev data).fabric = d.fabric := rfl
@[simp] theorem Dev.raise_frame (d : Dev) (code source : Nat) (sev : Severity) (data : Nat) : (d.raise code source sev data).frame = d.frame := rfl
@[simp] theorem Dev.raise_host (d : Dev) (code source : Nat) (sev : Severity) (data : Nat) : (d.raise code source sev data).host = d.host := rfl
@[simp] theorem Dev.raise_points (d : Dev) (code source : Nat) (sev : Severity) (data : Nat) : (d.raise code source sev data).points = d.points := rfl
@[simp] theorem Dev.raise_piste (d : Dev) (code source : Nat) (sev : Severity) (data : Nat) : (d.raise code source sev data).piste = d.piste := rfl
@[simp] theorem Dev.raise_solver (d : Dev) (code source : Nat) (sev : Severity) (data : Nat) : (d.raise code source sev data).solver = d.solver := rfl
@[simp] theorem Dev.raise_jobs (d : Dev) (code source : Nat) (sev : Severity) (data : Nat) : (d.raise code source sev data).jobs = d.jobs := rfl
@[simp] theorem Dev.raise_coord (d : Dev) (code source : Nat) (sev : Severity) (data : Nat) : (d.raise code source sev data).coord = d.coord := rfl
@[simp] theorem Dev.raise_jalow (d : Dev) (code source : Nat) (sev : Severity) (data : Nat) : (d.raise code source sev data).jalow = d.jalow := rfl
@[simp] theorem Dev.raise_loops (d : Dev) (code source : Nat) (sev : Severity) (data : Nat) : (d.raise code source sev data).loops = d.loops := rfl
@[simp] theorem Dev.raise_aux (d : Dev) (code source : Nat) (sev : Severity) (data : Nat) : (d.raise code source sev data).aux = d.aux := rfl
@[simp] theorem Dev.raise_slalom (d : Dev) (code source : Nat) (sev : Severity) (data : Nat) : (d.raise code source sev data).slalom = d.slalom := rfl
@[simp] theorem Dev.raise_field (d : Dev) (code source : Nat) (sev : Severity) (data : Nat) : (d.raise code source sev data).field = d.field := rfl
@[simp] theorem Dev.raise_twin (d : Dev) (code source : Nat) (sev : Severity) (data : Nat) : (d.raise code source sev data).twin = d.twin := rfl
@[simp] theorem Dev.raise_time (d : Dev) (code source : Nat) (sev : Severity) (data : Nat) : (d.raise code source sev data).time = d.time := rfl
@[simp] theorem Dev.raise_backup (d : Dev) (code source : Nat) (sev : Severity) (data : Nat) : (d.raise code source sev data).backup = d.backup := rfl
@[simp] theorem Dev.raise_can (d : Dev) (code source : Nat) (sev : Severity) (data : Nat) : (d.raise code source sev data).can = d.can := rfl
@[simp] theorem Dev.raise_recorder (d : Dev) (code source : Nat) (sev : Severity) (data : Nat) : (d.raise code source sev data).recorder = d.recorder := rfl
@[simp] theorem Dev.raise_keys (d : Dev) (code source : Nat) (sev : Severity) (data : Nat) : (d.raise code source sev data).keys = d.keys := rfl
@[simp] theorem Dev.raise_power (d : Dev) (code source : Nat) (sev : Severity) (data : Nat) : (d.raise code source sev data).power = d.power := rfl
@[simp] theorem Dev.raise_test (d : Dev) (code source : Nat) (sev : Severity) (data : Nat) : (d.raise code source sev data).test = d.test := rfl
@[simp] theorem Dev.raise_tap (d : Dev) (code source : Nat) (sev : Severity) (data : Nat) : (d.raise code source sev data).tap = d.tap := rfl
@[simp] theorem Dev.raise_sat (d : Dev) (code source : Nat) (sev : Severity) (data : Nat) : (d.raise code source sev data).sat = d.sat := rfl
@[simp] theorem Dev.raise_free (d : Dev) (code source : Nat) (sev : Severity) (data : Nat) : (d.raise code source sev data).free = d.free := rfl
@[simp] theorem Dev.raise_out (d : Dev) (code source : Nat) (sev : Severity) (data : Nat) : (d.raise code source sev data).out = d.out := rfl

@[simp] theorem Dev.raiseIf_fabric (d : Dev) (c : Bool) (code source : Nat) (sev : Severity) (data : Nat) : (d.raiseIf c code source sev data).fabric = d.fabric := by cases c <;> rfl
@[simp] theorem Dev.raiseIf_frame (d : Dev) (c : Bool) (code source : Nat) (sev : Severity) (data : Nat) : (d.raiseIf c code source sev data).frame = d.frame := by cases c <;> rfl
@[simp] theorem Dev.raiseIf_host (d : Dev) (c : Bool) (code source : Nat) (sev : Severity) (data : Nat) : (d.raiseIf c code source sev data).host = d.host := by cases c <;> rfl
@[simp] theorem Dev.raiseIf_points (d : Dev) (c : Bool) (code source : Nat) (sev : Severity) (data : Nat) : (d.raiseIf c code source sev data).points = d.points := by cases c <;> rfl
@[simp] theorem Dev.raiseIf_piste (d : Dev) (c : Bool) (code source : Nat) (sev : Severity) (data : Nat) : (d.raiseIf c code source sev data).piste = d.piste := by cases c <;> rfl
@[simp] theorem Dev.raiseIf_solver (d : Dev) (c : Bool) (code source : Nat) (sev : Severity) (data : Nat) : (d.raiseIf c code source sev data).solver = d.solver := by cases c <;> rfl
@[simp] theorem Dev.raiseIf_jobs (d : Dev) (c : Bool) (code source : Nat) (sev : Severity) (data : Nat) : (d.raiseIf c code source sev data).jobs = d.jobs := by cases c <;> rfl
@[simp] theorem Dev.raiseIf_coord (d : Dev) (c : Bool) (code source : Nat) (sev : Severity) (data : Nat) : (d.raiseIf c code source sev data).coord = d.coord := by cases c <;> rfl
@[simp] theorem Dev.raiseIf_jalow (d : Dev) (c : Bool) (code source : Nat) (sev : Severity) (data : Nat) : (d.raiseIf c code source sev data).jalow = d.jalow := by cases c <;> rfl
@[simp] theorem Dev.raiseIf_loops (d : Dev) (c : Bool) (code source : Nat) (sev : Severity) (data : Nat) : (d.raiseIf c code source sev data).loops = d.loops := by cases c <;> rfl
@[simp] theorem Dev.raiseIf_aux (d : Dev) (c : Bool) (code source : Nat) (sev : Severity) (data : Nat) : (d.raiseIf c code source sev data).aux = d.aux := by cases c <;> rfl
@[simp] theorem Dev.raiseIf_slalom (d : Dev) (c : Bool) (code source : Nat) (sev : Severity) (data : Nat) : (d.raiseIf c code source sev data).slalom = d.slalom := by cases c <;> rfl
@[simp] theorem Dev.raiseIf_field (d : Dev) (c : Bool) (code source : Nat) (sev : Severity) (data : Nat) : (d.raiseIf c code source sev data).field = d.field := by cases c <;> rfl
@[simp] theorem Dev.raiseIf_twin (d : Dev) (c : Bool) (code source : Nat) (sev : Severity) (data : Nat) : (d.raiseIf c code source sev data).twin = d.twin := by cases c <;> rfl
@[simp] theorem Dev.raiseIf_time (d : Dev) (c : Bool) (code source : Nat) (sev : Severity) (data : Nat) : (d.raiseIf c code source sev data).time = d.time := by cases c <;> rfl
@[simp] theorem Dev.raiseIf_backup (d : Dev) (c : Bool) (code source : Nat) (sev : Severity) (data : Nat) : (d.raiseIf c code source sev data).backup = d.backup := by cases c <;> rfl
@[simp] theorem Dev.raiseIf_can (d : Dev) (c : Bool) (code source : Nat) (sev : Severity) (data : Nat) : (d.raiseIf c code source sev data).can = d.can := by cases c <;> rfl
@[simp] theorem Dev.raiseIf_recorder (d : Dev) (c : Bool) (code source : Nat) (sev : Severity) (data : Nat) : (d.raiseIf c code source sev data).recorder = d.recorder := by cases c <;> rfl
@[simp] theorem Dev.raiseIf_keys (d : Dev) (c : Bool) (code source : Nat) (sev : Severity) (data : Nat) : (d.raiseIf c code source sev data).keys = d.keys := by cases c <;> rfl
@[simp] theorem Dev.raiseIf_power (d : Dev) (c : Bool) (code source : Nat) (sev : Severity) (data : Nat) : (d.raiseIf c code source sev data).power = d.power := by cases c <;> rfl
@[simp] theorem Dev.raiseIf_test (d : Dev) (c : Bool) (code source : Nat) (sev : Severity) (data : Nat) : (d.raiseIf c code source sev data).test = d.test := by cases c <;> rfl
@[simp] theorem Dev.raiseIf_tap (d : Dev) (c : Bool) (code source : Nat) (sev : Severity) (data : Nat) : (d.raiseIf c code source sev data).tap = d.tap := by cases c <;> rfl
@[simp] theorem Dev.raiseIf_sat (d : Dev) (c : Bool) (code source : Nat) (sev : Severity) (data : Nat) : (d.raiseIf c code source sev data).sat = d.sat := by cases c <;> rfl
@[simp] theorem Dev.raiseIf_free (d : Dev) (c : Bool) (code source : Nat) (sev : Severity) (data : Nat) : (d.raiseIf c code source sev data).free = d.free := by cases c <;> rfl
@[simp] theorem Dev.raiseIf_out (d : Dev) (c : Bool) (code source : Nat) (sev : Severity) (data : Nat) : (d.raiseIf c code source sev data).out = d.out := by cases c <;> rfl

@[simp] theorem Dev.raiseCtl_fabric (d : Dev) (num source : Nat) (sev : Severity) (data : Nat) : (d.raiseCtl num source sev data).fabric = d.fabric := rfl
@[simp] theorem Dev.raiseCtl_frame (d : Dev) (num source : Nat) (sev : Severity) (data : Nat) : (d.raiseCtl num source sev data).frame = d.frame := rfl
@[simp] theorem Dev.raiseCtl_host (d : Dev) (num source : Nat) (sev : Severity) (data : Nat) : (d.raiseCtl num source sev data).host = d.host := rfl
@[simp] theorem Dev.raiseCtl_points (d : Dev) (num source : Nat) (sev : Severity) (data : Nat) : (d.raiseCtl num source sev data).points = d.points := rfl
@[simp] theorem Dev.raiseCtl_piste (d : Dev) (num source : Nat) (sev : Severity) (data : Nat) : (d.raiseCtl num source sev data).piste = d.piste := rfl
@[simp] theorem Dev.raiseCtl_solver (d : Dev) (num source : Nat) (sev : Severity) (data : Nat) : (d.raiseCtl num source sev data).solver = d.solver := rfl
@[simp] theorem Dev.raiseCtl_jobs (d : Dev) (num source : Nat) (sev : Severity) (data : Nat) : (d.raiseCtl num source sev data).jobs = d.jobs := rfl
@[simp] theorem Dev.raiseCtl_coord (d : Dev) (num source : Nat) (sev : Severity) (data : Nat) : (d.raiseCtl num source sev data).coord = d.coord := rfl
@[simp] theorem Dev.raiseCtl_jalow (d : Dev) (num source : Nat) (sev : Severity) (data : Nat) : (d.raiseCtl num source sev data).jalow = d.jalow := rfl
@[simp] theorem Dev.raiseCtl_loops (d : Dev) (num source : Nat) (sev : Severity) (data : Nat) : (d.raiseCtl num source sev data).loops = d.loops := rfl
@[simp] theorem Dev.raiseCtl_aux (d : Dev) (num source : Nat) (sev : Severity) (data : Nat) : (d.raiseCtl num source sev data).aux = d.aux := rfl
@[simp] theorem Dev.raiseCtl_slalom (d : Dev) (num source : Nat) (sev : Severity) (data : Nat) : (d.raiseCtl num source sev data).slalom = d.slalom := rfl
@[simp] theorem Dev.raiseCtl_field (d : Dev) (num source : Nat) (sev : Severity) (data : Nat) : (d.raiseCtl num source sev data).field = d.field := rfl
@[simp] theorem Dev.raiseCtl_twin (d : Dev) (num source : Nat) (sev : Severity) (data : Nat) : (d.raiseCtl num source sev data).twin = d.twin := rfl
@[simp] theorem Dev.raiseCtl_time (d : Dev) (num source : Nat) (sev : Severity) (data : Nat) : (d.raiseCtl num source sev data).time = d.time := rfl
@[simp] theorem Dev.raiseCtl_backup (d : Dev) (num source : Nat) (sev : Severity) (data : Nat) : (d.raiseCtl num source sev data).backup = d.backup := rfl
@[simp] theorem Dev.raiseCtl_can (d : Dev) (num source : Nat) (sev : Severity) (data : Nat) : (d.raiseCtl num source sev data).can = d.can := rfl
@[simp] theorem Dev.raiseCtl_recorder (d : Dev) (num source : Nat) (sev : Severity) (data : Nat) : (d.raiseCtl num source sev data).recorder = d.recorder := rfl
@[simp] theorem Dev.raiseCtl_keys (d : Dev) (num source : Nat) (sev : Severity) (data : Nat) : (d.raiseCtl num source sev data).keys = d.keys := rfl
@[simp] theorem Dev.raiseCtl_power (d : Dev) (num source : Nat) (sev : Severity) (data : Nat) : (d.raiseCtl num source sev data).power = d.power := rfl
@[simp] theorem Dev.raiseCtl_test (d : Dev) (num source : Nat) (sev : Severity) (data : Nat) : (d.raiseCtl num source sev data).test = d.test := rfl
@[simp] theorem Dev.raiseCtl_tap (d : Dev) (num source : Nat) (sev : Severity) (data : Nat) : (d.raiseCtl num source sev data).tap = d.tap := rfl
@[simp] theorem Dev.raiseCtl_sat (d : Dev) (num source : Nat) (sev : Severity) (data : Nat) : (d.raiseCtl num source sev data).sat = d.sat := rfl
@[simp] theorem Dev.raiseCtl_free (d : Dev) (num source : Nat) (sev : Severity) (data : Nat) : (d.raiseCtl num source sev data).free = d.free := rfl
@[simp] theorem Dev.raiseCtl_out (d : Dev) (num source : Nat) (sev : Severity) (data : Nat) : (d.raiseCtl num source sev data).out = d.out := rfl

@[simp] theorem Dev.emit_out (d : Dev) (o : Output) : (d.emit o).out = o :: d.out := rfl
@[simp] theorem Dev.emit_fabric (d : Dev) (o : Output) : (d.emit o).fabric = d.fabric := rfl
@[simp] theorem Dev.emit_evr (d : Dev) (o : Output) : (d.emit o).evr = d.evr := rfl
@[simp] theorem Dev.emit_frame (d : Dev) (o : Output) : (d.emit o).frame = d.frame := rfl
@[simp] theorem Dev.emit_host (d : Dev) (o : Output) : (d.emit o).host = d.host := rfl
@[simp] theorem Dev.emit_points (d : Dev) (o : Output) : (d.emit o).points = d.points := rfl
@[simp] theorem Dev.emit_piste (d : Dev) (o : Output) : (d.emit o).piste = d.piste := rfl
@[simp] theorem Dev.emit_solver (d : Dev) (o : Output) : (d.emit o).solver = d.solver := rfl
@[simp] theorem Dev.emit_jobs (d : Dev) (o : Output) : (d.emit o).jobs = d.jobs := rfl
@[simp] theorem Dev.emit_coord (d : Dev) (o : Output) : (d.emit o).coord = d.coord := rfl
@[simp] theorem Dev.emit_jalow (d : Dev) (o : Output) : (d.emit o).jalow = d.jalow := rfl
@[simp] theorem Dev.emit_loops (d : Dev) (o : Output) : (d.emit o).loops = d.loops := rfl
@[simp] theorem Dev.emit_aux (d : Dev) (o : Output) : (d.emit o).aux = d.aux := rfl
@[simp] theorem Dev.emit_slalom (d : Dev) (o : Output) : (d.emit o).slalom = d.slalom := rfl
@[simp] theorem Dev.emit_field (d : Dev) (o : Output) : (d.emit o).field = d.field := rfl
@[simp] theorem Dev.emit_twin (d : Dev) (o : Output) : (d.emit o).twin = d.twin := rfl
@[simp] theorem Dev.emit_time (d : Dev) (o : Output) : (d.emit o).time = d.time := rfl
@[simp] theorem Dev.emit_backup (d : Dev) (o : Output) : (d.emit o).backup = d.backup := rfl
@[simp] theorem Dev.emit_can (d : Dev) (o : Output) : (d.emit o).can = d.can := rfl
@[simp] theorem Dev.emit_recorder (d : Dev) (o : Output) : (d.emit o).recorder = d.recorder := rfl
@[simp] theorem Dev.emit_keys (d : Dev) (o : Output) : (d.emit o).keys = d.keys := rfl
@[simp] theorem Dev.emit_power (d : Dev) (o : Output) : (d.emit o).power = d.power := rfl
@[simp] theorem Dev.emit_test (d : Dev) (o : Output) : (d.emit o).test = d.test := rfl
@[simp] theorem Dev.emit_tap (d : Dev) (o : Output) : (d.emit o).tap = d.tap := rfl
@[simp] theorem Dev.emit_sat (d : Dev) (o : Output) : (d.emit o).sat = d.sat := rfl
@[simp] theorem Dev.emit_free (d : Dev) (o : Output) : (d.emit o).free = d.free := rfl

@[simp] theorem Dev.satAt_fabric (d : Dev) (cls n v : Nat) : (d.satAt cls n v).fabric = d.fabric := by unfold Dev.satAt; split <;> rfl
@[simp] theorem Dev.satAt_evr (d : Dev) (cls n v : Nat) : (d.satAt cls n v).evr = d.evr := by unfold Dev.satAt; split <;> rfl
@[simp] theorem Dev.satAt_frame (d : Dev) (cls n v : Nat) : (d.satAt cls n v).frame = d.frame := by unfold Dev.satAt; split <;> rfl
@[simp] theorem Dev.satAt_host (d : Dev) (cls n v : Nat) : (d.satAt cls n v).host = d.host := by unfold Dev.satAt; split <;> rfl
@[simp] theorem Dev.satAt_points (d : Dev) (cls n v : Nat) : (d.satAt cls n v).points = d.points := by unfold Dev.satAt; split <;> rfl
@[simp] theorem Dev.satAt_piste (d : Dev) (cls n v : Nat) : (d.satAt cls n v).piste = d.piste := by unfold Dev.satAt; split <;> rfl
@[simp] theorem Dev.satAt_solver (d : Dev) (cls n v : Nat) : (d.satAt cls n v).solver = d.solver := by unfold Dev.satAt; split <;> rfl
@[simp] theorem Dev.satAt_jobs (d : Dev) (cls n v : Nat) : (d.satAt cls n v).jobs = d.jobs := by unfold Dev.satAt; split <;> rfl
@[simp] theorem Dev.satAt_coord (d : Dev) (cls n v : Nat) : (d.satAt cls n v).coord = d.coord := by unfold Dev.satAt; split <;> rfl
@[simp] theorem Dev.satAt_jalow (d : Dev) (cls n v : Nat) : (d.satAt cls n v).jalow = d.jalow := by unfold Dev.satAt; split <;> rfl
@[simp] theorem Dev.satAt_loops (d : Dev) (cls n v : Nat) : (d.satAt cls n v).loops = d.loops := by unfold Dev.satAt; split <;> rfl
@[simp] theorem Dev.satAt_aux (d : Dev) (cls n v : Nat) : (d.satAt cls n v).aux = d.aux := by unfold Dev.satAt; split <;> rfl
@[simp] theorem Dev.satAt_slalom (d : Dev) (cls n v : Nat) : (d.satAt cls n v).slalom = d.slalom := by unfold Dev.satAt; split <;> rfl
@[simp] theorem Dev.satAt_field (d : Dev) (cls n v : Nat) : (d.satAt cls n v).field = d.field := by unfold Dev.satAt; split <;> rfl
@[simp] theorem Dev.satAt_twin (d : Dev) (cls n v : Nat) : (d.satAt cls n v).twin = d.twin := by unfold Dev.satAt; split <;> rfl
@[simp] theorem Dev.satAt_time (d : Dev) (cls n v : Nat) : (d.satAt cls n v).time = d.time := by unfold Dev.satAt; split <;> rfl
@[simp] theorem Dev.satAt_backup (d : Dev) (cls n v : Nat) : (d.satAt cls n v).backup = d.backup := by unfold Dev.satAt; split <;> rfl
@[simp] theorem Dev.satAt_can (d : Dev) (cls n v : Nat) : (d.satAt cls n v).can = d.can := by unfold Dev.satAt; split <;> rfl
@[simp] theorem Dev.satAt_recorder (d : Dev) (cls n v : Nat) : (d.satAt cls n v).recorder = d.recorder := by unfold Dev.satAt; split <;> rfl
@[simp] theorem Dev.satAt_keys (d : Dev) (cls n v : Nat) : (d.satAt cls n v).keys = d.keys := by unfold Dev.satAt; split <;> rfl
@[simp] theorem Dev.satAt_power (d : Dev) (cls n v : Nat) : (d.satAt cls n v).power = d.power := by unfold Dev.satAt; split <;> rfl
@[simp] theorem Dev.satAt_test (d : Dev) (cls n v : Nat) : (d.satAt cls n v).test = d.test := by unfold Dev.satAt; split <;> rfl
@[simp] theorem Dev.satAt_tap (d : Dev) (cls n v : Nat) : (d.satAt cls n v).tap = d.tap := by unfold Dev.satAt; split <;> rfl
@[simp] theorem Dev.satAt_free (d : Dev) (cls n v : Nat) : (d.satAt cls n v).free = d.free := by unfold Dev.satAt; split <;> rfl
@[simp] theorem Dev.satAt_out (d : Dev) (cls n v : Nat) : (d.satAt cls n v).out = d.out := by unfold Dev.satAt; split <;> rfl

@[simp] theorem Dev.reserve_free (d : Dev) : (d.reserve).free = d.free + 1024 := rfl
@[simp] theorem Dev.reserve_fabric (d : Dev) : (d.reserve).fabric = d.fabric := rfl
@[simp] theorem Dev.reserve_evr (d : Dev) : (d.reserve).evr = d.evr := rfl
@[simp] theorem Dev.reserve_frame (d : Dev) : (d.reserve).frame = d.frame := rfl
@[simp] theorem Dev.reserve_host (d : Dev) : (d.reserve).host = d.host := rfl
@[simp] theorem Dev.reserve_points (d : Dev) : (d.reserve).points = d.points := rfl
@[simp] theorem Dev.reserve_piste (d : Dev) : (d.reserve).piste = d.piste := rfl
@[simp] theorem Dev.reserve_solver (d : Dev) : (d.reserve).solver = d.solver := rfl
@[simp] theorem Dev.reserve_jobs (d : Dev) : (d.reserve).jobs = d.jobs := rfl
@[simp] theorem Dev.reserve_coord (d : Dev) : (d.reserve).coord = d.coord := rfl
@[simp] theorem Dev.reserve_jalow (d : Dev) : (d.reserve).jalow = d.jalow := rfl
@[simp] theorem Dev.reserve_loops (d : Dev) : (d.reserve).loops = d.loops := rfl
@[simp] theorem Dev.reserve_aux (d : Dev) : (d.reserve).aux = d.aux := rfl
@[simp] theorem Dev.reserve_slalom (d : Dev) : (d.reserve).slalom = d.slalom := rfl
@[simp] theorem Dev.reserve_field (d : Dev) : (d.reserve).field = d.field := rfl
@[simp] theorem Dev.reserve_twin (d : Dev) : (d.reserve).twin = d.twin := rfl
@[simp] theorem Dev.reserve_time (d : Dev) : (d.reserve).time = d.time := rfl
@[simp] theorem Dev.reserve_backup (d : Dev) : (d.reserve).backup = d.backup := rfl
@[simp] theorem Dev.reserve_can (d : Dev) : (d.reserve).can = d.can := rfl
@[simp] theorem Dev.reserve_recorder (d : Dev) : (d.reserve).recorder = d.recorder := rfl
@[simp] theorem Dev.reserve_keys (d : Dev) : (d.reserve).keys = d.keys := rfl
@[simp] theorem Dev.reserve_power (d : Dev) : (d.reserve).power = d.power := rfl
@[simp] theorem Dev.reserve_test (d : Dev) : (d.reserve).test = d.test := rfl
@[simp] theorem Dev.reserve_tap (d : Dev) : (d.reserve).tap = d.tap := rfl
@[simp] theorem Dev.reserve_sat (d : Dev) : (d.reserve).sat = d.sat := rfl
@[simp] theorem Dev.reserve_out (d : Dev) : (d.reserve).out = d.out := rfl

@[simp] theorem Dev.journal_fabric (d : Dev) (e : JournalEntry) : (d.journal e).fabric = d.fabric := rfl
@[simp] theorem Dev.journal_evr (d : Dev) (e : JournalEntry) : (d.journal e).evr = d.evr := rfl
@[simp] theorem Dev.journal_frame (d : Dev) (e : JournalEntry) : (d.journal e).frame = d.frame := rfl
@[simp] theorem Dev.journal_host (d : Dev) (e : JournalEntry) : (d.journal e).host = d.host := rfl
@[simp] theorem Dev.journal_points (d : Dev) (e : JournalEntry) : (d.journal e).points = d.points := rfl
@[simp] theorem Dev.journal_piste (d : Dev) (e : JournalEntry) : (d.journal e).piste = d.piste := rfl
@[simp] theorem Dev.journal_solver (d : Dev) (e : JournalEntry) : (d.journal e).solver = d.solver := rfl
@[simp] theorem Dev.journal_jobs (d : Dev) (e : JournalEntry) : (d.journal e).jobs = d.jobs := rfl
@[simp] theorem Dev.journal_coord (d : Dev) (e : JournalEntry) : (d.journal e).coord = d.coord := rfl
@[simp] theorem Dev.journal_jalow (d : Dev) (e : JournalEntry) : (d.journal e).jalow = d.jalow := rfl
@[simp] theorem Dev.journal_loops (d : Dev) (e : JournalEntry) : (d.journal e).loops = d.loops := rfl
@[simp] theorem Dev.journal_aux (d : Dev) (e : JournalEntry) : (d.journal e).aux = d.aux := rfl
@[simp] theorem Dev.journal_field (d : Dev) (e : JournalEntry) : (d.journal e).field = d.field := rfl
@[simp] theorem Dev.journal_twin (d : Dev) (e : JournalEntry) : (d.journal e).twin = d.twin := rfl
@[simp] theorem Dev.journal_time (d : Dev) (e : JournalEntry) : (d.journal e).time = d.time := rfl
@[simp] theorem Dev.journal_backup (d : Dev) (e : JournalEntry) : (d.journal e).backup = d.backup := rfl
@[simp] theorem Dev.journal_can (d : Dev) (e : JournalEntry) : (d.journal e).can = d.can := rfl
@[simp] theorem Dev.journal_recorder (d : Dev) (e : JournalEntry) : (d.journal e).recorder = d.recorder := rfl
@[simp] theorem Dev.journal_keys (d : Dev) (e : JournalEntry) : (d.journal e).keys = d.keys := rfl
@[simp] theorem Dev.journal_power (d : Dev) (e : JournalEntry) : (d.journal e).power = d.power := rfl
@[simp] theorem Dev.journal_test (d : Dev) (e : JournalEntry) : (d.journal e).test = d.test := rfl
@[simp] theorem Dev.journal_tap (d : Dev) (e : JournalEntry) : (d.journal e).tap = d.tap := rfl
@[simp] theorem Dev.journal_sat (d : Dev) (e : JournalEntry) : (d.journal e).sat = d.sat := rfl
@[simp] theorem Dev.journal_free (d : Dev) (e : JournalEntry) : (d.journal e).free = d.free := rfl
@[simp] theorem Dev.journal_out (d : Dev) (e : JournalEntry) : (d.journal e).out = d.out := rfl

@[simp] theorem Dev.setRing_host_ring (d : Dev) (r : PcieRing) : (d.setRing r).host.ring = r := rfl
@[simp] theorem Dev.setRing_fabric (d : Dev) (r : PcieRing) : (d.setRing r).fabric = d.fabric := rfl
@[simp] theorem Dev.setRing_evr (d : Dev) (r : PcieRing) : (d.setRing r).evr = d.evr := rfl
@[simp] theorem Dev.setRing_frame (d : Dev) (r : PcieRing) : (d.setRing r).frame = d.frame := rfl
@[simp] theorem Dev.setRing_points (d : Dev) (r : PcieRing) : (d.setRing r).points = d.points := rfl
@[simp] theorem Dev.setRing_piste (d : Dev) (r : PcieRing) : (d.setRing r).piste = d.piste := rfl
@[simp] theorem Dev.setRing_solver (d : Dev) (r : PcieRing) : (d.setRing r).solver = d.solver := rfl
@[simp] theorem Dev.setRing_jobs (d : Dev) (r : PcieRing) : (d.setRing r).jobs = d.jobs := rfl
@[simp] theorem Dev.setRing_coord (d : Dev) (r : PcieRing) : (d.setRing r).coord = d.coord := rfl
@[simp] theorem Dev.setRing_jalow (d : Dev) (r : PcieRing) : (d.setRing r).jalow = d.jalow := rfl
@[simp] theorem Dev.setRing_loops (d : Dev) (r : PcieRing) : (d.setRing r).loops = d.loops := rfl
@[simp] theorem Dev.setRing_aux (d : Dev) (r : PcieRing) : (d.setRing r).aux = d.aux := rfl
@[simp] theorem Dev.setRing_slalom (d : Dev) (r : PcieRing) : (d.setRing r).slalom = d.slalom := rfl
@[simp] theorem Dev.setRing_field (d : Dev) (r : PcieRing) : (d.setRing r).field = d.field := rfl
@[simp] theorem Dev.setRing_twin (d : Dev) (r : PcieRing) : (d.setRing r).twin = d.twin := rfl
@[simp] theorem Dev.setRing_time (d : Dev) (r : PcieRing) : (d.setRing r).time = d.time := rfl
@[simp] theorem Dev.setRing_backup (d : Dev) (r : PcieRing) : (d.setRing r).backup = d.backup := rfl
@[simp] theorem Dev.setRing_can (d : Dev) (r : PcieRing) : (d.setRing r).can = d.can := rfl
@[simp] theorem Dev.setRing_recorder (d : Dev) (r : PcieRing) : (d.setRing r).recorder = d.recorder := rfl
@[simp] theorem Dev.setRing_keys (d : Dev) (r : PcieRing) : (d.setRing r).keys = d.keys := rfl
@[simp] theorem Dev.setRing_power (d : Dev) (r : PcieRing) : (d.setRing r).power = d.power := rfl
@[simp] theorem Dev.setRing_test (d : Dev) (r : PcieRing) : (d.setRing r).test = d.test := rfl
@[simp] theorem Dev.setRing_tap (d : Dev) (r : PcieRing) : (d.setRing r).tap = d.tap := rfl
@[simp] theorem Dev.setRing_sat (d : Dev) (r : PcieRing) : (d.setRing r).sat = d.sat := rfl
@[simp] theorem Dev.setRing_free (d : Dev) (r : PcieRing) : (d.setRing r).free = d.free := rfl
@[simp] theorem Dev.setRing_out (d : Dev) (r : PcieRing) : (d.setRing r).out = d.out := rfl

@[simp] theorem Dev.setSpi_host_spi (d : Dev) (x : SpiPort) : (d.setSpi x).host.spi = x := rfl
@[simp] theorem Dev.setSpi_fabric (d : Dev) (x : SpiPort) : (d.setSpi x).fabric = d.fabric := rfl
@[simp] theorem Dev.setSpi_evr (d : Dev) (x : SpiPort) : (d.setSpi x).evr = d.evr := rfl
@[simp] theorem Dev.setSpi_frame (d : Dev) (x : SpiPort) : (d.setSpi x).frame = d.frame := rfl
@[simp] theorem Dev.setSpi_points (d : Dev) (x : SpiPort) : (d.setSpi x).points = d.points := rfl
@[simp] theorem Dev.setSpi_piste (d : Dev) (x : SpiPort) : (d.setSpi x).piste = d.piste := rfl
@[simp] theorem Dev.setSpi_solver (d : Dev) (x : SpiPort) : (d.setSpi x).solver = d.solver := rfl
@[simp] theorem Dev.setSpi_jobs (d : Dev) (x : SpiPort) : (d.setSpi x).jobs = d.jobs := rfl
@[simp] theorem Dev.setSpi_coord (d : Dev) (x : SpiPort) : (d.setSpi x).coord = d.coord := rfl
@[simp] theorem Dev.setSpi_jalow (d : Dev) (x : SpiPort) : (d.setSpi x).jalow = d.jalow := rfl
@[simp] theorem Dev.setSpi_loops (d : Dev) (x : SpiPort) : (d.setSpi x).loops = d.loops := rfl
@[simp] theorem Dev.setSpi_aux (d : Dev) (x : SpiPort) : (d.setSpi x).aux = d.aux := rfl
@[simp] theorem Dev.setSpi_slalom (d : Dev) (x : SpiPort) : (d.setSpi x).slalom = d.slalom := rfl
@[simp] theorem Dev.setSpi_field (d : Dev) (x : SpiPort) : (d.setSpi x).field = d.field := rfl
@[simp] theorem Dev.setSpi_twin (d : Dev) (x : SpiPort) : (d.setSpi x).twin = d.twin := rfl
@[simp] theorem Dev.setSpi_time (d : Dev) (x : SpiPort) : (d.setSpi x).time = d.time := rfl
@[simp] theorem Dev.setSpi_backup (d : Dev) (x : SpiPort) : (d.setSpi x).backup = d.backup := rfl
@[simp] theorem Dev.setSpi_can (d : Dev) (x : SpiPort) : (d.setSpi x).can = d.can := rfl
@[simp] theorem Dev.setSpi_recorder (d : Dev) (x : SpiPort) : (d.setSpi x).recorder = d.recorder := rfl
@[simp] theorem Dev.setSpi_keys (d : Dev) (x : SpiPort) : (d.setSpi x).keys = d.keys := rfl
@[simp] theorem Dev.setSpi_power (d : Dev) (x : SpiPort) : (d.setSpi x).power = d.power := rfl
@[simp] theorem Dev.setSpi_test (d : Dev) (x : SpiPort) : (d.setSpi x).test = d.test := rfl
@[simp] theorem Dev.setSpi_tap (d : Dev) (x : SpiPort) : (d.setSpi x).tap = d.tap := rfl
@[simp] theorem Dev.setSpi_sat (d : Dev) (x : SpiPort) : (d.setSpi x).sat = d.sat := rfl
@[simp] theorem Dev.setSpi_free (d : Dev) (x : SpiPort) : (d.setSpi x).free = d.free := rfl
@[simp] theorem Dev.setSpi_out (d : Dev) (x : SpiPort) : (d.setSpi x).out = d.out := rfl

@[simp] theorem Dev.setRelay_fabric (d : Dev) (i : Nat) (w : RelayWait) : (d.setRelay i w).fabric = d.fabric := rfl
@[simp] theorem Dev.setRelay_evr (d : Dev) (i : Nat) (w : RelayWait) : (d.setRelay i w).evr = d.evr := rfl
@[simp] theorem Dev.setRelay_frame (d : Dev) (i : Nat) (w : RelayWait) : (d.setRelay i w).frame = d.frame := rfl
@[simp] theorem Dev.setRelay_points (d : Dev) (i : Nat) (w : RelayWait) : (d.setRelay i w).points = d.points := rfl
@[simp] theorem Dev.setRelay_piste (d : Dev) (i : Nat) (w : RelayWait) : (d.setRelay i w).piste = d.piste := rfl
@[simp] theorem Dev.setRelay_solver (d : Dev) (i : Nat) (w : RelayWait) : (d.setRelay i w).solver = d.solver := rfl
@[simp] theorem Dev.setRelay_jobs (d : Dev) (i : Nat) (w : RelayWait) : (d.setRelay i w).jobs = d.jobs := rfl
@[simp] theorem Dev.setRelay_coord (d : Dev) (i : Nat) (w : RelayWait) : (d.setRelay i w).coord = d.coord := rfl
@[simp] theorem Dev.setRelay_jalow (d : Dev) (i : Nat) (w : RelayWait) : (d.setRelay i w).jalow = d.jalow := rfl
@[simp] theorem Dev.setRelay_loops (d : Dev) (i : Nat) (w : RelayWait) : (d.setRelay i w).loops = d.loops := rfl
@[simp] theorem Dev.setRelay_aux (d : Dev) (i : Nat) (w : RelayWait) : (d.setRelay i w).aux = d.aux := rfl
@[simp] theorem Dev.setRelay_slalom (d : Dev) (i : Nat) (w : RelayWait) : (d.setRelay i w).slalom = d.slalom := rfl
@[simp] theorem Dev.setRelay_field (d : Dev) (i : Nat) (w : RelayWait) : (d.setRelay i w).field = d.field := rfl
@[simp] theorem Dev.setRelay_twin (d : Dev) (i : Nat) (w : RelayWait) : (d.setRelay i w).twin = d.twin := rfl
@[simp] theorem Dev.setRelay_time (d : Dev) (i : Nat) (w : RelayWait) : (d.setRelay i w).time = d.time := rfl
@[simp] theorem Dev.setRelay_backup (d : Dev) (i : Nat) (w : RelayWait) : (d.setRelay i w).backup = d.backup := rfl
@[simp] theorem Dev.setRelay_can (d : Dev) (i : Nat) (w : RelayWait) : (d.setRelay i w).can = d.can := rfl
@[simp] theorem Dev.setRelay_recorder (d : Dev) (i : Nat) (w : RelayWait) : (d.setRelay i w).recorder = d.recorder := rfl
@[simp] theorem Dev.setRelay_keys (d : Dev) (i : Nat) (w : RelayWait) : (d.setRelay i w).keys = d.keys := rfl
@[simp] theorem Dev.setRelay_power (d : Dev) (i : Nat) (w : RelayWait) : (d.setRelay i w).power = d.power := rfl
@[simp] theorem Dev.setRelay_test (d : Dev) (i : Nat) (w : RelayWait) : (d.setRelay i w).test = d.test := rfl
@[simp] theorem Dev.setRelay_tap (d : Dev) (i : Nat) (w : RelayWait) : (d.setRelay i w).tap = d.tap := rfl
@[simp] theorem Dev.setRelay_sat (d : Dev) (i : Nat) (w : RelayWait) : (d.setRelay i w).sat = d.sat := rfl
@[simp] theorem Dev.setRelay_free (d : Dev) (i : Nat) (w : RelayWait) : (d.setRelay i w).free = d.free := rfl
@[simp] theorem Dev.setRelay_out (d : Dev) (i : Nat) (w : RelayWait) : (d.setRelay i w).out = d.out := rfl

@[simp] theorem Dev.setFrame_frame (d : Dev) (f : FrameCtl) : (d.setFrame f).frame = f := rfl
@[simp] theorem Dev.setFrame_fabric (d : Dev) (f : FrameCtl) : (d.setFrame f).fabric = d.fabric := rfl
@[simp] theorem Dev.setFrame_evr (d : Dev) (f : FrameCtl) : (d.setFrame f).evr = d.evr := rfl
@[simp] theorem Dev.setFrame_host (d : Dev) (f : FrameCtl) : (d.setFrame f).host = d.host := rfl
@[simp] theorem Dev.setFrame_points (d : Dev) (f : FrameCtl) : (d.setFrame f).points = d.points := rfl
@[simp] theorem Dev.setFrame_piste (d : Dev) (f : FrameCtl) : (d.setFrame f).piste = d.piste := rfl
@[simp] theorem Dev.setFrame_solver (d : Dev) (f : FrameCtl) : (d.setFrame f).solver = d.solver := rfl
@[simp] theorem Dev.setFrame_jobs (d : Dev) (f : FrameCtl) : (d.setFrame f).jobs = d.jobs := rfl
@[simp] theorem Dev.setFrame_coord (d : Dev) (f : FrameCtl) : (d.setFrame f).coord = d.coord := rfl
@[simp] theorem Dev.setFrame_jalow (d : Dev) (f : FrameCtl) : (d.setFrame f).jalow = d.jalow := rfl
@[simp] theorem Dev.setFrame_loops (d : Dev) (f : FrameCtl) : (d.setFrame f).loops = d.loops := rfl
@[simp] theorem Dev.setFrame_aux (d : Dev) (f : FrameCtl) : (d.setFrame f).aux = d.aux := rfl
@[simp] theorem Dev.setFrame_slalom (d : Dev) (f : FrameCtl) : (d.setFrame f).slalom = d.slalom := rfl
@[simp] theorem Dev.setFrame_field (d : Dev) (f : FrameCtl) : (d.setFrame f).field = d.field := rfl
@[simp] theorem Dev.setFrame_twin (d : Dev) (f : FrameCtl) : (d.setFrame f).twin = d.twin := rfl
@[simp] theorem Dev.setFrame_time (d : Dev) (f : FrameCtl) : (d.setFrame f).time = d.time := rfl
@[simp] theorem Dev.setFrame_backup (d : Dev) (f : FrameCtl) : (d.setFrame f).backup = d.backup := rfl
@[simp] theorem Dev.setFrame_can (d : Dev) (f : FrameCtl) : (d.setFrame f).can = d.can := rfl
@[simp] theorem Dev.setFrame_recorder (d : Dev) (f : FrameCtl) : (d.setFrame f).recorder = d.recorder := rfl
@[simp] theorem Dev.setFrame_keys (d : Dev) (f : FrameCtl) : (d.setFrame f).keys = d.keys := rfl
@[simp] theorem Dev.setFrame_power (d : Dev) (f : FrameCtl) : (d.setFrame f).power = d.power := rfl
@[simp] theorem Dev.setFrame_test (d : Dev) (f : FrameCtl) : (d.setFrame f).test = d.test := rfl
@[simp] theorem Dev.setFrame_tap (d : Dev) (f : FrameCtl) : (d.setFrame f).tap = d.tap := rfl
@[simp] theorem Dev.setFrame_sat (d : Dev) (f : FrameCtl) : (d.setFrame f).sat = d.sat := rfl
@[simp] theorem Dev.setFrame_free (d : Dev) (f : FrameCtl) : (d.setFrame f).free = d.free := rfl
@[simp] theorem Dev.setFrame_out (d : Dev) (f : FrameCtl) : (d.setFrame f).out = d.out := rfl

@[simp] theorem Dev.setPiste_piste (d : Dev) (p : Piste) : (d.setPiste p).piste = p := rfl
@[simp] theorem Dev.setPiste_fabric (d : Dev) (p : Piste) : (d.setPiste p).fabric = d.fabric := rfl
@[simp] theorem Dev.setPiste_evr (d : Dev) (p : Piste) : (d.setPiste p).evr = d.evr := rfl
@[simp] theorem Dev.setPiste_frame (d : Dev) (p : Piste) : (d.setPiste p).frame = d.frame := rfl
@[simp] theorem Dev.setPiste_host (d : Dev) (p : Piste) : (d.setPiste p).host = d.host := rfl
@[simp] theorem Dev.setPiste_points (d : Dev) (p : Piste) : (d.setPiste p).points = d.points := rfl
@[simp] theorem Dev.setPiste_solver (d : Dev) (p : Piste) : (d.setPiste p).solver = d.solver := rfl
@[simp] theorem Dev.setPiste_jobs (d : Dev) (p : Piste) : (d.setPiste p).jobs = d.jobs := rfl
@[simp] theorem Dev.setPiste_coord (d : Dev) (p : Piste) : (d.setPiste p).coord = d.coord := rfl
@[simp] theorem Dev.setPiste_jalow (d : Dev) (p : Piste) : (d.setPiste p).jalow = d.jalow := rfl
@[simp] theorem Dev.setPiste_loops (d : Dev) (p : Piste) : (d.setPiste p).loops = d.loops := rfl
@[simp] theorem Dev.setPiste_aux (d : Dev) (p : Piste) : (d.setPiste p).aux = d.aux := rfl
@[simp] theorem Dev.setPiste_slalom (d : Dev) (p : Piste) : (d.setPiste p).slalom = d.slalom := rfl
@[simp] theorem Dev.setPiste_field (d : Dev) (p : Piste) : (d.setPiste p).field = d.field := rfl
@[simp] theorem Dev.setPiste_twin (d : Dev) (p : Piste) : (d.setPiste p).twin = d.twin := rfl
@[simp] theorem Dev.setPiste_time (d : Dev) (p : Piste) : (d.setPiste p).time = d.time := rfl
@[simp] theorem Dev.setPiste_backup (d : Dev) (p : Piste) : (d.setPiste p).backup = d.backup := rfl
@[simp] theorem Dev.setPiste_can (d : Dev) (p : Piste) : (d.setPiste p).can = d.can := rfl
@[simp] theorem Dev.setPiste_recorder (d : Dev) (p : Piste) : (d.setPiste p).recorder = d.recorder := rfl
@[simp] theorem Dev.setPiste_keys (d : Dev) (p : Piste) : (d.setPiste p).keys = d.keys := rfl
@[simp] theorem Dev.setPiste_power (d : Dev) (p : Piste) : (d.setPiste p).power = d.power := rfl
@[simp] theorem Dev.setPiste_test (d : Dev) (p : Piste) : (d.setPiste p).test = d.test := rfl
@[simp] theorem Dev.setPiste_tap (d : Dev) (p : Piste) : (d.setPiste p).tap = d.tap := rfl
@[simp] theorem Dev.setPiste_sat (d : Dev) (p : Piste) : (d.setPiste p).sat = d.sat := rfl
@[simp] theorem Dev.setPiste_free (d : Dev) (p : Piste) : (d.setPiste p).free = d.free := rfl
@[simp] theorem Dev.setPiste_out (d : Dev) (p : Piste) : (d.setPiste p).out = d.out := rfl

@[simp] theorem Dev.setEng_fabric (d : Dev) (k : Nat) (e : Engine) : (d.setEng k e).fabric = d.fabric := rfl
@[simp] theorem Dev.setEng_evr (d : Dev) (k : Nat) (e : Engine) : (d.setEng k e).evr = d.evr := rfl
@[simp] theorem Dev.setEng_frame (d : Dev) (k : Nat) (e : Engine) : (d.setEng k e).frame = d.frame := rfl
@[simp] theorem Dev.setEng_host (d : Dev) (k : Nat) (e : Engine) : (d.setEng k e).host = d.host := rfl
@[simp] theorem Dev.setEng_points (d : Dev) (k : Nat) (e : Engine) : (d.setEng k e).points = d.points := rfl
@[simp] theorem Dev.setEng_piste (d : Dev) (k : Nat) (e : Engine) : (d.setEng k e).piste = d.piste := rfl
@[simp] theorem Dev.setEng_jobs (d : Dev) (k : Nat) (e : Engine) : (d.setEng k e).jobs = d.jobs := rfl
@[simp] theorem Dev.setEng_coord (d : Dev) (k : Nat) (e : Engine) : (d.setEng k e).coord = d.coord := rfl
@[simp] theorem Dev.setEng_jalow (d : Dev) (k : Nat) (e : Engine) : (d.setEng k e).jalow = d.jalow := rfl
@[simp] theorem Dev.setEng_loops (d : Dev) (k : Nat) (e : Engine) : (d.setEng k e).loops = d.loops := rfl
@[simp] theorem Dev.setEng_aux (d : Dev) (k : Nat) (e : Engine) : (d.setEng k e).aux = d.aux := rfl
@[simp] theorem Dev.setEng_slalom (d : Dev) (k : Nat) (e : Engine) : (d.setEng k e).slalom = d.slalom := rfl
@[simp] theorem Dev.setEng_field (d : Dev) (k : Nat) (e : Engine) : (d.setEng k e).field = d.field := rfl
@[simp] theorem Dev.setEng_twin (d : Dev) (k : Nat) (e : Engine) : (d.setEng k e).twin = d.twin := rfl
@[simp] theorem Dev.setEng_time (d : Dev) (k : Nat) (e : Engine) : (d.setEng k e).time = d.time := rfl
@[simp] theorem Dev.setEng_backup (d : Dev) (k : Nat) (e : Engine) : (d.setEng k e).backup = d.backup := rfl
@[simp] theorem Dev.setEng_can (d : Dev) (k : Nat) (e : Engine) : (d.setEng k e).can = d.can := rfl
@[simp] theorem Dev.setEng_recorder (d : Dev) (k : Nat) (e : Engine) : (d.setEng k e).recorder = d.recorder := rfl
@[simp] theorem Dev.setEng_keys (d : Dev) (k : Nat) (e : Engine) : (d.setEng k e).keys = d.keys := rfl
@[simp] theorem Dev.setEng_power (d : Dev) (k : Nat) (e : Engine) : (d.setEng k e).power = d.power := rfl
@[simp] theorem Dev.setEng_test (d : Dev) (k : Nat) (e : Engine) : (d.setEng k e).test = d.test := rfl
@[simp] theorem Dev.setEng_tap (d : Dev) (k : Nat) (e : Engine) : (d.setEng k e).tap = d.tap := rfl
@[simp] theorem Dev.setEng_sat (d : Dev) (k : Nat) (e : Engine) : (d.setEng k e).sat = d.sat := rfl
@[simp] theorem Dev.setEng_free (d : Dev) (k : Nat) (e : Engine) : (d.setEng k e).free = d.free := rfl
@[simp] theorem Dev.setEng_out (d : Dev) (k : Nat) (e : Engine) : (d.setEng k e).out = d.out := rfl

@[simp] theorem Dev.setCoord_coord (d : Dev) (c : Coord) : (d.setCoord c).coord = c := rfl
@[simp] theorem Dev.setCoord_fabric (d : Dev) (c : Coord) : (d.setCoord c).fabric = d.fabric := rfl
@[simp] theorem Dev.setCoord_evr (d : Dev) (c : Coord) : (d.setCoord c).evr = d.evr := rfl
@[simp] theorem Dev.setCoord_frame (d : Dev) (c : Coord) : (d.setCoord c).frame = d.frame := rfl
@[simp] theorem Dev.setCoord_host (d : Dev) (c : Coord) : (d.setCoord c).host = d.host := rfl
@[simp] theorem Dev.setCoord_points (d : Dev) (c : Coord) : (d.setCoord c).points = d.points := rfl
@[simp] theorem Dev.setCoord_piste (d : Dev) (c : Coord) : (d.setCoord c).piste = d.piste := rfl
@[simp] theorem Dev.setCoord_solver (d : Dev) (c : Coord) : (d.setCoord c).solver = d.solver := rfl
@[simp] theorem Dev.setCoord_jobs (d : Dev) (c : Coord) : (d.setCoord c).jobs = d.jobs := rfl
@[simp] theorem Dev.setCoord_jalow (d : Dev) (c : Coord) : (d.setCoord c).jalow = d.jalow := rfl
@[simp] theorem Dev.setCoord_loops (d : Dev) (c : Coord) : (d.setCoord c).loops = d.loops := rfl
@[simp] theorem Dev.setCoord_aux (d : Dev) (c : Coord) : (d.setCoord c).aux = d.aux := rfl
@[simp] theorem Dev.setCoord_slalom (d : Dev) (c : Coord) : (d.setCoord c).slalom = d.slalom := rfl
@[simp] theorem Dev.setCoord_field (d : Dev) (c : Coord) : (d.setCoord c).field = d.field := rfl
@[simp] theorem Dev.setCoord_twin (d : Dev) (c : Coord) : (d.setCoord c).twin = d.twin := rfl
@[simp] theorem Dev.setCoord_time (d : Dev) (c : Coord) : (d.setCoord c).time = d.time := rfl
@[simp] theorem Dev.setCoord_backup (d : Dev) (c : Coord) : (d.setCoord c).backup = d.backup := rfl
@[simp] theorem Dev.setCoord_can (d : Dev) (c : Coord) : (d.setCoord c).can = d.can := rfl
@[simp] theorem Dev.setCoord_recorder (d : Dev) (c : Coord) : (d.setCoord c).recorder = d.recorder := rfl
@[simp] theorem Dev.setCoord_keys (d : Dev) (c : Coord) : (d.setCoord c).keys = d.keys := rfl
@[simp] theorem Dev.setCoord_power (d : Dev) (c : Coord) : (d.setCoord c).power = d.power := rfl
@[simp] theorem Dev.setCoord_test (d : Dev) (c : Coord) : (d.setCoord c).test = d.test := rfl
@[simp] theorem Dev.setCoord_tap (d : Dev) (c : Coord) : (d.setCoord c).tap = d.tap := rfl
@[simp] theorem Dev.setCoord_sat (d : Dev) (c : Coord) : (d.setCoord c).sat = d.sat := rfl
@[simp] theorem Dev.setCoord_free (d : Dev) (c : Coord) : (d.setCoord c).free = d.free := rfl
@[simp] theorem Dev.setCoord_out (d : Dev) (c : Coord) : (d.setCoord c).out = d.out := rfl

@[simp] theorem Dev.setPort_fabric (d : Dev) (p : Nat) (x : DownPort) : (d.setPort p x).fabric = d.fabric := rfl
@[simp] theorem Dev.setPort_evr (d : Dev) (p : Nat) (x : DownPort) : (d.setPort p x).evr = d.evr := rfl
@[simp] theorem Dev.setPort_frame (d : Dev) (p : Nat) (x : DownPort) : (d.setPort p x).frame = d.frame := rfl
@[simp] theorem Dev.setPort_host (d : Dev) (p : Nat) (x : DownPort) : (d.setPort p x).host = d.host := rfl
@[simp] theorem Dev.setPort_points (d : Dev) (p : Nat) (x : DownPort) : (d.setPort p x).points = d.points := rfl
@[simp] theorem Dev.setPort_piste (d : Dev) (p : Nat) (x : DownPort) : (d.setPort p x).piste = d.piste := rfl
@[simp] theorem Dev.setPort_solver (d : Dev) (p : Nat) (x : DownPort) : (d.setPort p x).solver = d.solver := rfl
@[simp] theorem Dev.setPort_jobs (d : Dev) (p : Nat) (x : DownPort) : (d.setPort p x).jobs = d.jobs := rfl
@[simp] theorem Dev.setPort_jalow (d : Dev) (p : Nat) (x : DownPort) : (d.setPort p x).jalow = d.jalow := rfl
@[simp] theorem Dev.setPort_loops (d : Dev) (p : Nat) (x : DownPort) : (d.setPort p x).loops = d.loops := rfl
@[simp] theorem Dev.setPort_aux (d : Dev) (p : Nat) (x : DownPort) : (d.setPort p x).aux = d.aux := rfl
@[simp] theorem Dev.setPort_slalom (d : Dev) (p : Nat) (x : DownPort) : (d.setPort p x).slalom = d.slalom := rfl
@[simp] theorem Dev.setPort_field (d : Dev) (p : Nat) (x : DownPort) : (d.setPort p x).field = d.field := rfl
@[simp] theorem Dev.setPort_twin (d : Dev) (p : Nat) (x : DownPort) : (d.setPort p x).twin = d.twin := rfl
@[simp] theorem Dev.setPort_time (d : Dev) (p : Nat) (x : DownPort) : (d.setPort p x).time = d.time := rfl
@[simp] theorem Dev.setPort_backup (d : Dev) (p : Nat) (x : DownPort) : (d.setPort p x).backup = d.backup := rfl
@[simp] theorem Dev.setPort_can (d : Dev) (p : Nat) (x : DownPort) : (d.setPort p x).can = d.can := rfl
@[simp] theorem Dev.setPort_recorder (d : Dev) (p : Nat) (x : DownPort) : (d.setPort p x).recorder = d.recorder := rfl
@[simp] theorem Dev.setPort_keys (d : Dev) (p : Nat) (x : DownPort) : (d.setPort p x).keys = d.keys := rfl
@[simp] theorem Dev.setPort_power (d : Dev) (p : Nat) (x : DownPort) : (d.setPort p x).power = d.power := rfl
@[simp] theorem Dev.setPort_test (d : Dev) (p : Nat) (x : DownPort) : (d.setPort p x).test = d.test := rfl
@[simp] theorem Dev.setPort_tap (d : Dev) (p : Nat) (x : DownPort) : (d.setPort p x).tap = d.tap := rfl
@[simp] theorem Dev.setPort_sat (d : Dev) (p : Nat) (x : DownPort) : (d.setPort p x).sat = d.sat := rfl
@[simp] theorem Dev.setPort_free (d : Dev) (p : Nat) (x : DownPort) : (d.setPort p x).free = d.free := rfl
@[simp] theorem Dev.setPort_out (d : Dev) (p : Nat) (x : DownPort) : (d.setPort p x).out = d.out := rfl

@[simp] theorem Dev.setJl_fabric (d : Dev) (p : Nat) (q : JlPort) : (d.setJl p q).fabric = d.fabric := rfl
@[simp] theorem Dev.setJl_evr (d : Dev) (p : Nat) (q : JlPort) : (d.setJl p q).evr = d.evr := rfl
@[simp] theorem Dev.setJl_frame (d : Dev) (p : Nat) (q : JlPort) : (d.setJl p q).frame = d.frame := rfl
@[simp] theorem Dev.setJl_host (d : Dev) (p : Nat) (q : JlPort) : (d.setJl p q).host = d.host := rfl
@[simp] theorem Dev.setJl_points (d : Dev) (p : Nat) (q : JlPort) : (d.setJl p q).points = d.points := rfl
@[simp] theorem Dev.setJl_piste (d : Dev) (p : Nat) (q : JlPort) : (d.setJl p q).piste = d.piste := rfl
@[simp] theorem Dev.setJl_solver (d : Dev) (p : Nat) (q : JlPort) : (d.setJl p q).solver = d.solver := rfl
@[simp] theorem Dev.setJl_jobs (d : Dev) (p : Nat) (q : JlPort) : (d.setJl p q).jobs = d.jobs := rfl
@[simp] theorem Dev.setJl_coord (d : Dev) (p : Nat) (q : JlPort) : (d.setJl p q).coord = d.coord := rfl
@[simp] theorem Dev.setJl_loops (d : Dev) (p : Nat) (q : JlPort) : (d.setJl p q).loops = d.loops := rfl
@[simp] theorem Dev.setJl_aux (d : Dev) (p : Nat) (q : JlPort) : (d.setJl p q).aux = d.aux := rfl
@[simp] theorem Dev.setJl_slalom (d : Dev) (p : Nat) (q : JlPort) : (d.setJl p q).slalom = d.slalom := rfl
@[simp] theorem Dev.setJl_field (d : Dev) (p : Nat) (q : JlPort) : (d.setJl p q).field = d.field := rfl
@[simp] theorem Dev.setJl_twin (d : Dev) (p : Nat) (q : JlPort) : (d.setJl p q).twin = d.twin := rfl
@[simp] theorem Dev.setJl_time (d : Dev) (p : Nat) (q : JlPort) : (d.setJl p q).time = d.time := rfl
@[simp] theorem Dev.setJl_backup (d : Dev) (p : Nat) (q : JlPort) : (d.setJl p q).backup = d.backup := rfl
@[simp] theorem Dev.setJl_can (d : Dev) (p : Nat) (q : JlPort) : (d.setJl p q).can = d.can := rfl
@[simp] theorem Dev.setJl_recorder (d : Dev) (p : Nat) (q : JlPort) : (d.setJl p q).recorder = d.recorder := rfl
@[simp] theorem Dev.setJl_keys (d : Dev) (p : Nat) (q : JlPort) : (d.setJl p q).keys = d.keys := rfl
@[simp] theorem Dev.setJl_power (d : Dev) (p : Nat) (q : JlPort) : (d.setJl p q).power = d.power := rfl
@[simp] theorem Dev.setJl_test (d : Dev) (p : Nat) (q : JlPort) : (d.setJl p q).test = d.test := rfl
@[simp] theorem Dev.setJl_tap (d : Dev) (p : Nat) (q : JlPort) : (d.setJl p q).tap = d.tap := rfl
@[simp] theorem Dev.setJl_sat (d : Dev) (p : Nat) (q : JlPort) : (d.setJl p q).sat = d.sat := rfl
@[simp] theorem Dev.setJl_free (d : Dev) (p : Nat) (q : JlPort) : (d.setJl p q).free = d.free := rfl
@[simp] theorem Dev.setJl_out (d : Dev) (p : Nat) (q : JlPort) : (d.setJl p q).out = d.out := rfl

@[simp] theorem Dev.setSlot_fabric (d : Dev) (i : Nat) (l : LoopSlot) : (d.setSlot i l).fabric = d.fabric := rfl
@[simp] theorem Dev.setSlot_evr (d : Dev) (i : Nat) (l : LoopSlot) : (d.setSlot i l).evr = d.evr := rfl
@[simp] theorem Dev.setSlot_frame (d : Dev) (i : Nat) (l : LoopSlot) : (d.setSlot i l).frame = d.frame := rfl
@[simp] theorem Dev.setSlot_host (d : Dev) (i : Nat) (l : LoopSlot) : (d.setSlot i l).host = d.host := rfl
@[simp] theorem Dev.setSlot_points (d : Dev) (i : Nat) (l : LoopSlot) : (d.setSlot i l).points = d.points := rfl
@[simp] theorem Dev.setSlot_piste (d : Dev) (i : Nat) (l : LoopSlot) : (d.setSlot i l).piste = d.piste := rfl
@[simp] theorem Dev.setSlot_solver (d : Dev) (i : Nat) (l : LoopSlot) : (d.setSlot i l).solver = d.solver := rfl
@[simp] theorem Dev.setSlot_jobs (d : Dev) (i : Nat) (l : LoopSlot) : (d.setSlot i l).jobs = d.jobs := rfl
@[simp] theorem Dev.setSlot_coord (d : Dev) (i : Nat) (l : LoopSlot) : (d.setSlot i l).coord = d.coord := rfl
@[simp] theorem Dev.setSlot_jalow (d : Dev) (i : Nat) (l : LoopSlot) : (d.setSlot i l).jalow = d.jalow := rfl
@[simp] theorem Dev.setSlot_aux (d : Dev) (i : Nat) (l : LoopSlot) : (d.setSlot i l).aux = d.aux := rfl
@[simp] theorem Dev.setSlot_slalom (d : Dev) (i : Nat) (l : LoopSlot) : (d.setSlot i l).slalom = d.slalom := rfl
@[simp] theorem Dev.setSlot_field (d : Dev) (i : Nat) (l : LoopSlot) : (d.setSlot i l).field = d.field := rfl
@[simp] theorem Dev.setSlot_twin (d : Dev) (i : Nat) (l : LoopSlot) : (d.setSlot i l).twin = d.twin := rfl
@[simp] theorem Dev.setSlot_time (d : Dev) (i : Nat) (l : LoopSlot) : (d.setSlot i l).time = d.time := rfl
@[simp] theorem Dev.setSlot_backup (d : Dev) (i : Nat) (l : LoopSlot) : (d.setSlot i l).backup = d.backup := rfl
@[simp] theorem Dev.setSlot_can (d : Dev) (i : Nat) (l : LoopSlot) : (d.setSlot i l).can = d.can := rfl
@[simp] theorem Dev.setSlot_recorder (d : Dev) (i : Nat) (l : LoopSlot) : (d.setSlot i l).recorder = d.recorder := rfl
@[simp] theorem Dev.setSlot_keys (d : Dev) (i : Nat) (l : LoopSlot) : (d.setSlot i l).keys = d.keys := rfl
@[simp] theorem Dev.setSlot_power (d : Dev) (i : Nat) (l : LoopSlot) : (d.setSlot i l).power = d.power := rfl
@[simp] theorem Dev.setSlot_test (d : Dev) (i : Nat) (l : LoopSlot) : (d.setSlot i l).test = d.test := rfl
@[simp] theorem Dev.setSlot_tap (d : Dev) (i : Nat) (l : LoopSlot) : (d.setSlot i l).tap = d.tap := rfl
@[simp] theorem Dev.setSlot_sat (d : Dev) (i : Nat) (l : LoopSlot) : (d.setSlot i l).sat = d.sat := rfl
@[simp] theorem Dev.setSlot_free (d : Dev) (i : Nat) (l : LoopSlot) : (d.setSlot i l).free = d.free := rfl
@[simp] theorem Dev.setSlot_out (d : Dev) (i : Nat) (l : LoopSlot) : (d.setSlot i l).out = d.out := rfl

@[simp] theorem Dev.setGrp_fabric (d : Dev) (g : Nat) (x : OvrGroup) : (d.setGrp g x).fabric = d.fabric := rfl
@[simp] theorem Dev.setGrp_evr (d : Dev) (g : Nat) (x : OvrGroup) : (d.setGrp g x).evr = d.evr := rfl
@[simp] theorem Dev.setGrp_frame (d : Dev) (g : Nat) (x : OvrGroup) : (d.setGrp g x).frame = d.frame := rfl
@[simp] theorem Dev.setGrp_host (d : Dev) (g : Nat) (x : OvrGroup) : (d.setGrp g x).host = d.host := rfl
@[simp] theorem Dev.setGrp_points (d : Dev) (g : Nat) (x : OvrGroup) : (d.setGrp g x).points = d.points := rfl
@[simp] theorem Dev.setGrp_piste (d : Dev) (g : Nat) (x : OvrGroup) : (d.setGrp g x).piste = d.piste := rfl
@[simp] theorem Dev.setGrp_solver (d : Dev) (g : Nat) (x : OvrGroup) : (d.setGrp g x).solver = d.solver := rfl
@[simp] theorem Dev.setGrp_jobs (d : Dev) (g : Nat) (x : OvrGroup) : (d.setGrp g x).jobs = d.jobs := rfl
@[simp] theorem Dev.setGrp_coord (d : Dev) (g : Nat) (x : OvrGroup) : (d.setGrp g x).coord = d.coord := rfl
@[simp] theorem Dev.setGrp_jalow (d : Dev) (g : Nat) (x : OvrGroup) : (d.setGrp g x).jalow = d.jalow := rfl
@[simp] theorem Dev.setGrp_aux (d : Dev) (g : Nat) (x : OvrGroup) : (d.setGrp g x).aux = d.aux := rfl
@[simp] theorem Dev.setGrp_slalom (d : Dev) (g : Nat) (x : OvrGroup) : (d.setGrp g x).slalom = d.slalom := rfl
@[simp] theorem Dev.setGrp_field (d : Dev) (g : Nat) (x : OvrGroup) : (d.setGrp g x).field = d.field := rfl
@[simp] theorem Dev.setGrp_twin (d : Dev) (g : Nat) (x : OvrGroup) : (d.setGrp g x).twin = d.twin := rfl
@[simp] theorem Dev.setGrp_time (d : Dev) (g : Nat) (x : OvrGroup) : (d.setGrp g x).time = d.time := rfl
@[simp] theorem Dev.setGrp_backup (d : Dev) (g : Nat) (x : OvrGroup) : (d.setGrp g x).backup = d.backup := rfl
@[simp] theorem Dev.setGrp_can (d : Dev) (g : Nat) (x : OvrGroup) : (d.setGrp g x).can = d.can := rfl
@[simp] theorem Dev.setGrp_recorder (d : Dev) (g : Nat) (x : OvrGroup) : (d.setGrp g x).recorder = d.recorder := rfl
@[simp] theorem Dev.setGrp_keys (d : Dev) (g : Nat) (x : OvrGroup) : (d.setGrp g x).keys = d.keys := rfl
@[simp] theorem Dev.setGrp_power (d : Dev) (g : Nat) (x : OvrGroup) : (d.setGrp g x).power = d.power := rfl
@[simp] theorem Dev.setGrp_test (d : Dev) (g : Nat) (x : OvrGroup) : (d.setGrp g x).test = d.test := rfl
@[simp] theorem Dev.setGrp_tap (d : Dev) (g : Nat) (x : OvrGroup) : (d.setGrp g x).tap = d.tap := rfl
@[simp] theorem Dev.setGrp_sat (d : Dev) (g : Nat) (x : OvrGroup) : (d.setGrp g x).sat = d.sat := rfl
@[simp] theorem Dev.setGrp_free (d : Dev) (g : Nat) (x : OvrGroup) : (d.setGrp g x).free = d.free := rfl
@[simp] theorem Dev.setGrp_out (d : Dev) (g : Nat) (x : OvrGroup) : (d.setGrp g x).out = d.out := rfl

@[simp] theorem Dev.setSup_fabric (d : Dev) (i : Nat) (x : Superv) : (d.setSup i x).fabric = d.fabric := rfl
@[simp] theorem Dev.setSup_evr (d : Dev) (i : Nat) (x : Superv) : (d.setSup i x).evr = d.evr := rfl
@[simp] theorem Dev.setSup_frame (d : Dev) (i : Nat) (x : Superv) : (d.setSup i x).frame = d.frame := rfl
@[simp] theorem Dev.setSup_host (d : Dev) (i : Nat) (x : Superv) : (d.setSup i x).host = d.host := rfl
@[simp] theorem Dev.setSup_points (d : Dev) (i : Nat) (x : Superv) : (d.setSup i x).points = d.points := rfl
@[simp] theorem Dev.setSup_piste (d : Dev) (i : Nat) (x : Superv) : (d.setSup i x).piste = d.piste := rfl
@[simp] theorem Dev.setSup_solver (d : Dev) (i : Nat) (x : Superv) : (d.setSup i x).solver = d.solver := rfl
@[simp] theorem Dev.setSup_jobs (d : Dev) (i : Nat) (x : Superv) : (d.setSup i x).jobs = d.jobs := rfl
@[simp] theorem Dev.setSup_coord (d : Dev) (i : Nat) (x : Superv) : (d.setSup i x).coord = d.coord := rfl
@[simp] theorem Dev.setSup_jalow (d : Dev) (i : Nat) (x : Superv) : (d.setSup i x).jalow = d.jalow := rfl
@[simp] theorem Dev.setSup_loops (d : Dev) (i : Nat) (x : Superv) : (d.setSup i x).loops = d.loops := rfl
@[simp] theorem Dev.setSup_slalom (d : Dev) (i : Nat) (x : Superv) : (d.setSup i x).slalom = d.slalom := rfl
@[simp] theorem Dev.setSup_field (d : Dev) (i : Nat) (x : Superv) : (d.setSup i x).field = d.field := rfl
@[simp] theorem Dev.setSup_twin (d : Dev) (i : Nat) (x : Superv) : (d.setSup i x).twin = d.twin := rfl
@[simp] theorem Dev.setSup_time (d : Dev) (i : Nat) (x : Superv) : (d.setSup i x).time = d.time := rfl
@[simp] theorem Dev.setSup_backup (d : Dev) (i : Nat) (x : Superv) : (d.setSup i x).backup = d.backup := rfl
@[simp] theorem Dev.setSup_can (d : Dev) (i : Nat) (x : Superv) : (d.setSup i x).can = d.can := rfl
@[simp] theorem Dev.setSup_recorder (d : Dev) (i : Nat) (x : Superv) : (d.setSup i x).recorder = d.recorder := rfl
@[simp] theorem Dev.setSup_keys (d : Dev) (i : Nat) (x : Superv) : (d.setSup i x).keys = d.keys := rfl
@[simp] theorem Dev.setSup_power (d : Dev) (i : Nat) (x : Superv) : (d.setSup i x).power = d.power := rfl
@[simp] theorem Dev.setSup_test (d : Dev) (i : Nat) (x : Superv) : (d.setSup i x).test = d.test := rfl
@[simp] theorem Dev.setSup_tap (d : Dev) (i : Nat) (x : Superv) : (d.setSup i x).tap = d.tap := rfl
@[simp] theorem Dev.setSup_sat (d : Dev) (i : Nat) (x : Superv) : (d.setSup i x).sat = d.sat := rfl
@[simp] theorem Dev.setSup_free (d : Dev) (i : Nat) (x : Superv) : (d.setSup i x).free = d.free := rfl
@[simp] theorem Dev.setSup_out (d : Dev) (i : Nat) (x : Superv) : (d.setSup i x).out = d.out := rfl

@[simp] theorem Dev.setMog_fabric (d : Dev) (i : Nat) (x : Mogul) : (d.setMog i x).fabric = d.fabric := rfl
@[simp] theorem Dev.setMog_evr (d : Dev) (i : Nat) (x : Mogul) : (d.setMog i x).evr = d.evr := rfl
@[simp] theorem Dev.setMog_frame (d : Dev) (i : Nat) (x : Mogul) : (d.setMog i x).frame = d.frame := rfl
@[simp] theorem Dev.setMog_host (d : Dev) (i : Nat) (x : Mogul) : (d.setMog i x).host = d.host := rfl
@[simp] theorem Dev.setMog_points (d : Dev) (i : Nat) (x : Mogul) : (d.setMog i x).points = d.points := rfl
@[simp] theorem Dev.setMog_piste (d : Dev) (i : Nat) (x : Mogul) : (d.setMog i x).piste = d.piste := rfl
@[simp] theorem Dev.setMog_solver (d : Dev) (i : Nat) (x : Mogul) : (d.setMog i x).solver = d.solver := rfl
@[simp] theorem Dev.setMog_jobs (d : Dev) (i : Nat) (x : Mogul) : (d.setMog i x).jobs = d.jobs := rfl
@[simp] theorem Dev.setMog_coord (d : Dev) (i : Nat) (x : Mogul) : (d.setMog i x).coord = d.coord := rfl
@[simp] theorem Dev.setMog_jalow (d : Dev) (i : Nat) (x : Mogul) : (d.setMog i x).jalow = d.jalow := rfl
@[simp] theorem Dev.setMog_loops (d : Dev) (i : Nat) (x : Mogul) : (d.setMog i x).loops = d.loops := rfl
@[simp] theorem Dev.setMog_slalom (d : Dev) (i : Nat) (x : Mogul) : (d.setMog i x).slalom = d.slalom := rfl
@[simp] theorem Dev.setMog_field (d : Dev) (i : Nat) (x : Mogul) : (d.setMog i x).field = d.field := rfl
@[simp] theorem Dev.setMog_twin (d : Dev) (i : Nat) (x : Mogul) : (d.setMog i x).twin = d.twin := rfl
@[simp] theorem Dev.setMog_time (d : Dev) (i : Nat) (x : Mogul) : (d.setMog i x).time = d.time := rfl
@[simp] theorem Dev.setMog_backup (d : Dev) (i : Nat) (x : Mogul) : (d.setMog i x).backup = d.backup := rfl
@[simp] theorem Dev.setMog_can (d : Dev) (i : Nat) (x : Mogul) : (d.setMog i x).can = d.can := rfl
@[simp] theorem Dev.setMog_recorder (d : Dev) (i : Nat) (x : Mogul) : (d.setMog i x).recorder = d.recorder := rfl
@[simp] theorem Dev.setMog_keys (d : Dev) (i : Nat) (x : Mogul) : (d.setMog i x).keys = d.keys := rfl
@[simp] theorem Dev.setMog_power (d : Dev) (i : Nat) (x : Mogul) : (d.setMog i x).power = d.power := rfl
@[simp] theorem Dev.setMog_test (d : Dev) (i : Nat) (x : Mogul) : (d.setMog i x).test = d.test := rfl
@[simp] theorem Dev.setMog_tap (d : Dev) (i : Nat) (x : Mogul) : (d.setMog i x).tap = d.tap := rfl
@[simp] theorem Dev.setMog_sat (d : Dev) (i : Nat) (x : Mogul) : (d.setMog i x).sat = d.sat := rfl
@[simp] theorem Dev.setMog_free (d : Dev) (i : Nat) (x : Mogul) : (d.setMog i x).free = d.free := rfl
@[simp] theorem Dev.setMog_out (d : Dev) (i : Nat) (x : Mogul) : (d.setMog i x).out = d.out := rfl

@[simp] theorem Dev.setTrc_fabric (d : Dev) (u : Nat) (x : TraceUnit) : (d.setTrc u x).fabric = d.fabric := rfl
@[simp] theorem Dev.setTrc_evr (d : Dev) (u : Nat) (x : TraceUnit) : (d.setTrc u x).evr = d.evr := rfl
@[simp] theorem Dev.setTrc_frame (d : Dev) (u : Nat) (x : TraceUnit) : (d.setTrc u x).frame = d.frame := rfl
@[simp] theorem Dev.setTrc_host (d : Dev) (u : Nat) (x : TraceUnit) : (d.setTrc u x).host = d.host := rfl
@[simp] theorem Dev.setTrc_points (d : Dev) (u : Nat) (x : TraceUnit) : (d.setTrc u x).points = d.points := rfl
@[simp] theorem Dev.setTrc_piste (d : Dev) (u : Nat) (x : TraceUnit) : (d.setTrc u x).piste = d.piste := rfl
@[simp] theorem Dev.setTrc_solver (d : Dev) (u : Nat) (x : TraceUnit) : (d.setTrc u x).solver = d.solver := rfl
@[simp] theorem Dev.setTrc_jobs (d : Dev) (u : Nat) (x : TraceUnit) : (d.setTrc u x).jobs = d.jobs := rfl
@[simp] theorem Dev.setTrc_coord (d : Dev) (u : Nat) (x : TraceUnit) : (d.setTrc u x).coord = d.coord := rfl
@[simp] theorem Dev.setTrc_jalow (d : Dev) (u : Nat) (x : TraceUnit) : (d.setTrc u x).jalow = d.jalow := rfl
@[simp] theorem Dev.setTrc_loops (d : Dev) (u : Nat) (x : TraceUnit) : (d.setTrc u x).loops = d.loops := rfl
@[simp] theorem Dev.setTrc_slalom (d : Dev) (u : Nat) (x : TraceUnit) : (d.setTrc u x).slalom = d.slalom := rfl
@[simp] theorem Dev.setTrc_field (d : Dev) (u : Nat) (x : TraceUnit) : (d.setTrc u x).field = d.field := rfl
@[simp] theorem Dev.setTrc_twin (d : Dev) (u : Nat) (x : TraceUnit) : (d.setTrc u x).twin = d.twin := rfl
@[simp] theorem Dev.setTrc_time (d : Dev) (u : Nat) (x : TraceUnit) : (d.setTrc u x).time = d.time := rfl
@[simp] theorem Dev.setTrc_backup (d : Dev) (u : Nat) (x : TraceUnit) : (d.setTrc u x).backup = d.backup := rfl
@[simp] theorem Dev.setTrc_can (d : Dev) (u : Nat) (x : TraceUnit) : (d.setTrc u x).can = d.can := rfl
@[simp] theorem Dev.setTrc_recorder (d : Dev) (u : Nat) (x : TraceUnit) : (d.setTrc u x).recorder = d.recorder := rfl
@[simp] theorem Dev.setTrc_keys (d : Dev) (u : Nat) (x : TraceUnit) : (d.setTrc u x).keys = d.keys := rfl
@[simp] theorem Dev.setTrc_power (d : Dev) (u : Nat) (x : TraceUnit) : (d.setTrc u x).power = d.power := rfl
@[simp] theorem Dev.setTrc_test (d : Dev) (u : Nat) (x : TraceUnit) : (d.setTrc u x).test = d.test := rfl
@[simp] theorem Dev.setTrc_tap (d : Dev) (u : Nat) (x : TraceUnit) : (d.setTrc u x).tap = d.tap := rfl
@[simp] theorem Dev.setTrc_sat (d : Dev) (u : Nat) (x : TraceUnit) : (d.setTrc u x).sat = d.sat := rfl
@[simp] theorem Dev.setTrc_free (d : Dev) (u : Nat) (x : TraceUnit) : (d.setTrc u x).free = d.free := rfl
@[simp] theorem Dev.setTrc_out (d : Dev) (u : Nat) (x : TraceUnit) : (d.setTrc u x).out = d.out := rfl

@[simp] theorem Dev.setSlm_slalom (d : Dev) (x : Slalom) : (d.setSlm x).slalom = x := rfl
@[simp] theorem Dev.setSlm_fabric (d : Dev) (x : Slalom) : (d.setSlm x).fabric = d.fabric := rfl
@[simp] theorem Dev.setSlm_evr (d : Dev) (x : Slalom) : (d.setSlm x).evr = d.evr := rfl
@[simp] theorem Dev.setSlm_frame (d : Dev) (x : Slalom) : (d.setSlm x).frame = d.frame := rfl
@[simp] theorem Dev.setSlm_host (d : Dev) (x : Slalom) : (d.setSlm x).host = d.host := rfl
@[simp] theorem Dev.setSlm_points (d : Dev) (x : Slalom) : (d.setSlm x).points = d.points := rfl
@[simp] theorem Dev.setSlm_piste (d : Dev) (x : Slalom) : (d.setSlm x).piste = d.piste := rfl
@[simp] theorem Dev.setSlm_solver (d : Dev) (x : Slalom) : (d.setSlm x).solver = d.solver := rfl
@[simp] theorem Dev.setSlm_jobs (d : Dev) (x : Slalom) : (d.setSlm x).jobs = d.jobs := rfl
@[simp] theorem Dev.setSlm_coord (d : Dev) (x : Slalom) : (d.setSlm x).coord = d.coord := rfl
@[simp] theorem Dev.setSlm_jalow (d : Dev) (x : Slalom) : (d.setSlm x).jalow = d.jalow := rfl
@[simp] theorem Dev.setSlm_loops (d : Dev) (x : Slalom) : (d.setSlm x).loops = d.loops := rfl
@[simp] theorem Dev.setSlm_aux (d : Dev) (x : Slalom) : (d.setSlm x).aux = d.aux := rfl
@[simp] theorem Dev.setSlm_field (d : Dev) (x : Slalom) : (d.setSlm x).field = d.field := rfl
@[simp] theorem Dev.setSlm_twin (d : Dev) (x : Slalom) : (d.setSlm x).twin = d.twin := rfl
@[simp] theorem Dev.setSlm_time (d : Dev) (x : Slalom) : (d.setSlm x).time = d.time := rfl
@[simp] theorem Dev.setSlm_backup (d : Dev) (x : Slalom) : (d.setSlm x).backup = d.backup := rfl
@[simp] theorem Dev.setSlm_can (d : Dev) (x : Slalom) : (d.setSlm x).can = d.can := rfl
@[simp] theorem Dev.setSlm_recorder (d : Dev) (x : Slalom) : (d.setSlm x).recorder = d.recorder := rfl
@[simp] theorem Dev.setSlm_keys (d : Dev) (x : Slalom) : (d.setSlm x).keys = d.keys := rfl
@[simp] theorem Dev.setSlm_power (d : Dev) (x : Slalom) : (d.setSlm x).power = d.power := rfl
@[simp] theorem Dev.setSlm_test (d : Dev) (x : Slalom) : (d.setSlm x).test = d.test := rfl
@[simp] theorem Dev.setSlm_tap (d : Dev) (x : Slalom) : (d.setSlm x).tap = d.tap := rfl
@[simp] theorem Dev.setSlm_sat (d : Dev) (x : Slalom) : (d.setSlm x).sat = d.sat := rfl
@[simp] theorem Dev.setSlm_free (d : Dev) (x : Slalom) : (d.setSlm x).free = d.free := rfl
@[simp] theorem Dev.setSlm_out (d : Dev) (x : Slalom) : (d.setSlm x).out = d.out := rfl

@[simp] theorem Dev.setFld_fabric (d : Dev) (k : Nat) (f : FieldDie) : (d.setFld k f).fabric = d.fabric := rfl
@[simp] theorem Dev.setFld_evr (d : Dev) (k : Nat) (f : FieldDie) : (d.setFld k f).evr = d.evr := rfl
@[simp] theorem Dev.setFld_frame (d : Dev) (k : Nat) (f : FieldDie) : (d.setFld k f).frame = d.frame := rfl
@[simp] theorem Dev.setFld_host (d : Dev) (k : Nat) (f : FieldDie) : (d.setFld k f).host = d.host := rfl
@[simp] theorem Dev.setFld_points (d : Dev) (k : Nat) (f : FieldDie) : (d.setFld k f).points = d.points := rfl
@[simp] theorem Dev.setFld_piste (d : Dev) (k : Nat) (f : FieldDie) : (d.setFld k f).piste = d.piste := rfl
@[simp] theorem Dev.setFld_solver (d : Dev) (k : Nat) (f : FieldDie) : (d.setFld k f).solver = d.solver := rfl
@[simp] theorem Dev.setFld_jobs (d : Dev) (k : Nat) (f : FieldDie) : (d.setFld k f).jobs = d.jobs := rfl
@[simp] theorem Dev.setFld_coord (d : Dev) (k : Nat) (f : FieldDie) : (d.setFld k f).coord = d.coord := rfl
@[simp] theorem Dev.setFld_jalow (d : Dev) (k : Nat) (f : FieldDie) : (d.setFld k f).jalow = d.jalow := rfl
@[simp] theorem Dev.setFld_loops (d : Dev) (k : Nat) (f : FieldDie) : (d.setFld k f).loops = d.loops := rfl
@[simp] theorem Dev.setFld_aux (d : Dev) (k : Nat) (f : FieldDie) : (d.setFld k f).aux = d.aux := rfl
@[simp] theorem Dev.setFld_slalom (d : Dev) (k : Nat) (f : FieldDie) : (d.setFld k f).slalom = d.slalom := rfl
@[simp] theorem Dev.setFld_twin (d : Dev) (k : Nat) (f : FieldDie) : (d.setFld k f).twin = d.twin := rfl
@[simp] theorem Dev.setFld_time (d : Dev) (k : Nat) (f : FieldDie) : (d.setFld k f).time = d.time := rfl
@[simp] theorem Dev.setFld_backup (d : Dev) (k : Nat) (f : FieldDie) : (d.setFld k f).backup = d.backup := rfl
@[simp] theorem Dev.setFld_can (d : Dev) (k : Nat) (f : FieldDie) : (d.setFld k f).can = d.can := rfl
@[simp] theorem Dev.setFld_recorder (d : Dev) (k : Nat) (f : FieldDie) : (d.setFld k f).recorder = d.recorder := rfl
@[simp] theorem Dev.setFld_keys (d : Dev) (k : Nat) (f : FieldDie) : (d.setFld k f).keys = d.keys := rfl
@[simp] theorem Dev.setFld_power (d : Dev) (k : Nat) (f : FieldDie) : (d.setFld k f).power = d.power := rfl
@[simp] theorem Dev.setFld_test (d : Dev) (k : Nat) (f : FieldDie) : (d.setFld k f).test = d.test := rfl
@[simp] theorem Dev.setFld_tap (d : Dev) (k : Nat) (f : FieldDie) : (d.setFld k f).tap = d.tap := rfl
@[simp] theorem Dev.setFld_sat (d : Dev) (k : Nat) (f : FieldDie) : (d.setFld k f).sat = d.sat := rfl
@[simp] theorem Dev.setFld_free (d : Dev) (k : Nat) (f : FieldDie) : (d.setFld k f).free = d.free := rfl
@[simp] theorem Dev.setFld_out (d : Dev) (k : Nat) (f : FieldDie) : (d.setFld k f).out = d.out := rfl

@[simp] theorem Dev.setAna_fabric (d : Dev) (k c : Nat) (a : AnaChan) : (d.setAna k c a).fabric = d.fabric := rfl
@[simp] theorem Dev.setAna_evr (d : Dev) (k c : Nat) (a : AnaChan) : (d.setAna k c a).evr = d.evr := rfl
@[simp] theorem Dev.setAna_frame (d : Dev) (k c : Nat) (a : AnaChan) : (d.setAna k c a).frame = d.frame := rfl
@[simp] theorem Dev.setAna_host (d : Dev) (k c : Nat) (a : AnaChan) : (d.setAna k c a).host = d.host := rfl
@[simp] theorem Dev.setAna_points (d : Dev) (k c : Nat) (a : AnaChan) : (d.setAna k c a).points = d.points := rfl
@[simp] theorem Dev.setAna_piste (d : Dev) (k c : Nat) (a : AnaChan) : (d.setAna k c a).piste = d.piste := rfl
@[simp] theorem Dev.setAna_solver (d : Dev) (k c : Nat) (a : AnaChan) : (d.setAna k c a).solver = d.solver := rfl
@[simp] theorem Dev.setAna_jobs (d : Dev) (k c : Nat) (a : AnaChan) : (d.setAna k c a).jobs = d.jobs := rfl
@[simp] theorem Dev.setAna_coord (d : Dev) (k c : Nat) (a : AnaChan) : (d.setAna k c a).coord = d.coord := rfl
@[simp] theorem Dev.setAna_jalow (d : Dev) (k c : Nat) (a : AnaChan) : (d.setAna k c a).jalow = d.jalow := rfl
@[simp] theorem Dev.setAna_loops (d : Dev) (k c : Nat) (a : AnaChan) : (d.setAna k c a).loops = d.loops := rfl
@[simp] theorem Dev.setAna_aux (d : Dev) (k c : Nat) (a : AnaChan) : (d.setAna k c a).aux = d.aux := rfl
@[simp] theorem Dev.setAna_slalom (d : Dev) (k c : Nat) (a : AnaChan) : (d.setAna k c a).slalom = d.slalom := rfl
@[simp] theorem Dev.setAna_twin (d : Dev) (k c : Nat) (a : AnaChan) : (d.setAna k c a).twin = d.twin := rfl
@[simp] theorem Dev.setAna_time (d : Dev) (k c : Nat) (a : AnaChan) : (d.setAna k c a).time = d.time := rfl
@[simp] theorem Dev.setAna_backup (d : Dev) (k c : Nat) (a : AnaChan) : (d.setAna k c a).backup = d.backup := rfl
@[simp] theorem Dev.setAna_can (d : Dev) (k c : Nat) (a : AnaChan) : (d.setAna k c a).can = d.can := rfl
@[simp] theorem Dev.setAna_recorder (d : Dev) (k c : Nat) (a : AnaChan) : (d.setAna k c a).recorder = d.recorder := rfl
@[simp] theorem Dev.setAna_keys (d : Dev) (k c : Nat) (a : AnaChan) : (d.setAna k c a).keys = d.keys := rfl
@[simp] theorem Dev.setAna_power (d : Dev) (k c : Nat) (a : AnaChan) : (d.setAna k c a).power = d.power := rfl
@[simp] theorem Dev.setAna_test (d : Dev) (k c : Nat) (a : AnaChan) : (d.setAna k c a).test = d.test := rfl
@[simp] theorem Dev.setAna_tap (d : Dev) (k c : Nat) (a : AnaChan) : (d.setAna k c a).tap = d.tap := rfl
@[simp] theorem Dev.setAna_sat (d : Dev) (k c : Nat) (a : AnaChan) : (d.setAna k c a).sat = d.sat := rfl
@[simp] theorem Dev.setAna_free (d : Dev) (k c : Nat) (a : AnaChan) : (d.setAna k c a).free = d.free := rfl
@[simp] theorem Dev.setAna_out (d : Dev) (k c : Nat) (a : AnaChan) : (d.setAna k c a).out = d.out := rfl

@[simp] theorem Dev.setDig_fabric (d : Dev) (k c : Nat) (x : DigChan) : (d.setDig k c x).fabric = d.fabric := rfl
@[simp] theorem Dev.setDig_evr (d : Dev) (k c : Nat) (x : DigChan) : (d.setDig k c x).evr = d.evr := rfl
@[simp] theorem Dev.setDig_frame (d : Dev) (k c : Nat) (x : DigChan) : (d.setDig k c x).frame = d.frame := rfl
@[simp] theorem Dev.setDig_host (d : Dev) (k c : Nat) (x : DigChan) : (d.setDig k c x).host = d.host := rfl
@[simp] theorem Dev.setDig_points (d : Dev) (k c : Nat) (x : DigChan) : (d.setDig k c x).points = d.points := rfl
@[simp] theorem Dev.setDig_piste (d : Dev) (k c : Nat) (x : DigChan) : (d.setDig k c x).piste = d.piste := rfl
@[simp] theorem Dev.setDig_solver (d : Dev) (k c : Nat) (x : DigChan) : (d.setDig k c x).solver = d.solver := rfl
@[simp] theorem Dev.setDig_jobs (d : Dev) (k c : Nat) (x : DigChan) : (d.setDig k c x).jobs = d.jobs := rfl
@[simp] theorem Dev.setDig_coord (d : Dev) (k c : Nat) (x : DigChan) : (d.setDig k c x).coord = d.coord := rfl
@[simp] theorem Dev.setDig_jalow (d : Dev) (k c : Nat) (x : DigChan) : (d.setDig k c x).jalow = d.jalow := rfl
@[simp] theorem Dev.setDig_loops (d : Dev) (k c : Nat) (x : DigChan) : (d.setDig k c x).loops = d.loops := rfl
@[simp] theorem Dev.setDig_aux (d : Dev) (k c : Nat) (x : DigChan) : (d.setDig k c x).aux = d.aux := rfl
@[simp] theorem Dev.setDig_slalom (d : Dev) (k c : Nat) (x : DigChan) : (d.setDig k c x).slalom = d.slalom := rfl
@[simp] theorem Dev.setDig_twin (d : Dev) (k c : Nat) (x : DigChan) : (d.setDig k c x).twin = d.twin := rfl
@[simp] theorem Dev.setDig_time (d : Dev) (k c : Nat) (x : DigChan) : (d.setDig k c x).time = d.time := rfl
@[simp] theorem Dev.setDig_backup (d : Dev) (k c : Nat) (x : DigChan) : (d.setDig k c x).backup = d.backup := rfl
@[simp] theorem Dev.setDig_can (d : Dev) (k c : Nat) (x : DigChan) : (d.setDig k c x).can = d.can := rfl
@[simp] theorem Dev.setDig_recorder (d : Dev) (k c : Nat) (x : DigChan) : (d.setDig k c x).recorder = d.recorder := rfl
@[simp] theorem Dev.setDig_keys (d : Dev) (k c : Nat) (x : DigChan) : (d.setDig k c x).keys = d.keys := rfl
@[simp] theorem Dev.setDig_power (d : Dev) (k c : Nat) (x : DigChan) : (d.setDig k c x).power = d.power := rfl
@[simp] theorem Dev.setDig_test (d : Dev) (k c : Nat) (x : DigChan) : (d.setDig k c x).test = d.test := rfl
@[simp] theorem Dev.setDig_tap (d : Dev) (k c : Nat) (x : DigChan) : (d.setDig k c x).tap = d.tap := rfl
@[simp] theorem Dev.setDig_sat (d : Dev) (k c : Nat) (x : DigChan) : (d.setDig k c x).sat = d.sat := rfl
@[simp] theorem Dev.setDig_free (d : Dev) (k c : Nat) (x : DigChan) : (d.setDig k c x).free = d.free := rfl
@[simp] theorem Dev.setDig_out (d : Dev) (k c : Nat) (x : DigChan) : (d.setDig k c x).out = d.out := rfl

@[simp] theorem Dev.setSeq_fabric (d : Dev) (k : Nat) (x : Sequencer) : (d.setSeq k x).fabric = d.fabric := rfl
@[simp] theorem Dev.setSeq_evr (d : Dev) (k : Nat) (x : Sequencer) : (d.setSeq k x).evr = d.evr := rfl
@[simp] theorem Dev.setSeq_frame (d : Dev) (k : Nat) (x : Sequencer) : (d.setSeq k x).frame = d.frame := rfl
@[simp] theorem Dev.setSeq_host (d : Dev) (k : Nat) (x : Sequencer) : (d.setSeq k x).host = d.host := rfl
@[simp] theorem Dev.setSeq_points (d : Dev) (k : Nat) (x : Sequencer) : (d.setSeq k x).points = d.points := rfl
@[simp] theorem Dev.setSeq_piste (d : Dev) (k : Nat) (x : Sequencer) : (d.setSeq k x).piste = d.piste := rfl
@[simp] theorem Dev.setSeq_solver (d : Dev) (k : Nat) (x : Sequencer) : (d.setSeq k x).solver = d.solver := rfl
@[simp] theorem Dev.setSeq_jobs (d : Dev) (k : Nat) (x : Sequencer) : (d.setSeq k x).jobs = d.jobs := rfl
@[simp] theorem Dev.setSeq_coord (d : Dev) (k : Nat) (x : Sequencer) : (d.setSeq k x).coord = d.coord := rfl
@[simp] theorem Dev.setSeq_jalow (d : Dev) (k : Nat) (x : Sequencer) : (d.setSeq k x).jalow = d.jalow := rfl
@[simp] theorem Dev.setSeq_loops (d : Dev) (k : Nat) (x : Sequencer) : (d.setSeq k x).loops = d.loops := rfl
@[simp] theorem Dev.setSeq_aux (d : Dev) (k : Nat) (x : Sequencer) : (d.setSeq k x).aux = d.aux := rfl
@[simp] theorem Dev.setSeq_slalom (d : Dev) (k : Nat) (x : Sequencer) : (d.setSeq k x).slalom = d.slalom := rfl
@[simp] theorem Dev.setSeq_twin (d : Dev) (k : Nat) (x : Sequencer) : (d.setSeq k x).twin = d.twin := rfl
@[simp] theorem Dev.setSeq_time (d : Dev) (k : Nat) (x : Sequencer) : (d.setSeq k x).time = d.time := rfl
@[simp] theorem Dev.setSeq_backup (d : Dev) (k : Nat) (x : Sequencer) : (d.setSeq k x).backup = d.backup := rfl
@[simp] theorem Dev.setSeq_can (d : Dev) (k : Nat) (x : Sequencer) : (d.setSeq k x).can = d.can := rfl
@[simp] theorem Dev.setSeq_recorder (d : Dev) (k : Nat) (x : Sequencer) : (d.setSeq k x).recorder = d.recorder := rfl
@[simp] theorem Dev.setSeq_keys (d : Dev) (k : Nat) (x : Sequencer) : (d.setSeq k x).keys = d.keys := rfl
@[simp] theorem Dev.setSeq_power (d : Dev) (k : Nat) (x : Sequencer) : (d.setSeq k x).power = d.power := rfl
@[simp] theorem Dev.setSeq_test (d : Dev) (k : Nat) (x : Sequencer) : (d.setSeq k x).test = d.test := rfl
@[simp] theorem Dev.setSeq_tap (d : Dev) (k : Nat) (x : Sequencer) : (d.setSeq k x).tap = d.tap := rfl
@[simp] theorem Dev.setSeq_sat (d : Dev) (k : Nat) (x : Sequencer) : (d.setSeq k x).sat = d.sat := rfl
@[simp] theorem Dev.setSeq_free (d : Dev) (k : Nat) (x : Sequencer) : (d.setSeq k x).free = d.free := rfl
@[simp] theorem Dev.setSeq_out (d : Dev) (k : Nat) (x : Sequencer) : (d.setSeq k x).out = d.out := rfl

@[simp] theorem Dev.setTwin_twin (d : Dev) (t : Twin) : (d.setTwin t).twin = t := rfl
@[simp] theorem Dev.setTwin_fabric (d : Dev) (t : Twin) : (d.setTwin t).fabric = d.fabric := rfl
@[simp] theorem Dev.setTwin_evr (d : Dev) (t : Twin) : (d.setTwin t).evr = d.evr := rfl
@[simp] theorem Dev.setTwin_frame (d : Dev) (t : Twin) : (d.setTwin t).frame = d.frame := rfl
@[simp] theorem Dev.setTwin_host (d : Dev) (t : Twin) : (d.setTwin t).host = d.host := rfl
@[simp] theorem Dev.setTwin_points (d : Dev) (t : Twin) : (d.setTwin t).points = d.points := rfl
@[simp] theorem Dev.setTwin_piste (d : Dev) (t : Twin) : (d.setTwin t).piste = d.piste := rfl
@[simp] theorem Dev.setTwin_solver (d : Dev) (t : Twin) : (d.setTwin t).solver = d.solver := rfl
@[simp] theorem Dev.setTwin_jobs (d : Dev) (t : Twin) : (d.setTwin t).jobs = d.jobs := rfl
@[simp] theorem Dev.setTwin_coord (d : Dev) (t : Twin) : (d.setTwin t).coord = d.coord := rfl
@[simp] theorem Dev.setTwin_jalow (d : Dev) (t : Twin) : (d.setTwin t).jalow = d.jalow := rfl
@[simp] theorem Dev.setTwin_loops (d : Dev) (t : Twin) : (d.setTwin t).loops = d.loops := rfl
@[simp] theorem Dev.setTwin_aux (d : Dev) (t : Twin) : (d.setTwin t).aux = d.aux := rfl
@[simp] theorem Dev.setTwin_slalom (d : Dev) (t : Twin) : (d.setTwin t).slalom = d.slalom := rfl
@[simp] theorem Dev.setTwin_field (d : Dev) (t : Twin) : (d.setTwin t).field = d.field := rfl
@[simp] theorem Dev.setTwin_time (d : Dev) (t : Twin) : (d.setTwin t).time = d.time := rfl
@[simp] theorem Dev.setTwin_backup (d : Dev) (t : Twin) : (d.setTwin t).backup = d.backup := rfl
@[simp] theorem Dev.setTwin_can (d : Dev) (t : Twin) : (d.setTwin t).can = d.can := rfl
@[simp] theorem Dev.setTwin_recorder (d : Dev) (t : Twin) : (d.setTwin t).recorder = d.recorder := rfl
@[simp] theorem Dev.setTwin_keys (d : Dev) (t : Twin) : (d.setTwin t).keys = d.keys := rfl
@[simp] theorem Dev.setTwin_power (d : Dev) (t : Twin) : (d.setTwin t).power = d.power := rfl
@[simp] theorem Dev.setTwin_test (d : Dev) (t : Twin) : (d.setTwin t).test = d.test := rfl
@[simp] theorem Dev.setTwin_tap (d : Dev) (t : Twin) : (d.setTwin t).tap = d.tap := rfl
@[simp] theorem Dev.setTwin_sat (d : Dev) (t : Twin) : (d.setTwin t).sat = d.sat := rfl
@[simp] theorem Dev.setTwin_free (d : Dev) (t : Twin) : (d.setTwin t).free = d.free := rfl
@[simp] theorem Dev.setTwin_out (d : Dev) (t : Twin) : (d.setTwin t).out = d.out := rfl

@[simp] theorem Dev.updCtl_fabric (d : Dev) (k : Nat) (f : CtlDie → CtlDie) : (d.updCtl k f).fabric = d.fabric := rfl
@[simp] theorem Dev.updCtl_evr (d : Dev) (k : Nat) (f : CtlDie → CtlDie) : (d.updCtl k f).evr = d.evr := rfl
@[simp] theorem Dev.updCtl_frame (d : Dev) (k : Nat) (f : CtlDie → CtlDie) : (d.updCtl k f).frame = d.frame := rfl
@[simp] theorem Dev.updCtl_host (d : Dev) (k : Nat) (f : CtlDie → CtlDie) : (d.updCtl k f).host = d.host := rfl
@[simp] theorem Dev.updCtl_points (d : Dev) (k : Nat) (f : CtlDie → CtlDie) : (d.updCtl k f).points = d.points := rfl
@[simp] theorem Dev.updCtl_piste (d : Dev) (k : Nat) (f : CtlDie → CtlDie) : (d.updCtl k f).piste = d.piste := rfl
@[simp] theorem Dev.updCtl_solver (d : Dev) (k : Nat) (f : CtlDie → CtlDie) : (d.updCtl k f).solver = d.solver := rfl
@[simp] theorem Dev.updCtl_jobs (d : Dev) (k : Nat) (f : CtlDie → CtlDie) : (d.updCtl k f).jobs = d.jobs := rfl
@[simp] theorem Dev.updCtl_coord (d : Dev) (k : Nat) (f : CtlDie → CtlDie) : (d.updCtl k f).coord = d.coord := rfl
@[simp] theorem Dev.updCtl_jalow (d : Dev) (k : Nat) (f : CtlDie → CtlDie) : (d.updCtl k f).jalow = d.jalow := rfl
@[simp] theorem Dev.updCtl_loops (d : Dev) (k : Nat) (f : CtlDie → CtlDie) : (d.updCtl k f).loops = d.loops := rfl
@[simp] theorem Dev.updCtl_aux (d : Dev) (k : Nat) (f : CtlDie → CtlDie) : (d.updCtl k f).aux = d.aux := rfl
@[simp] theorem Dev.updCtl_slalom (d : Dev) (k : Nat) (f : CtlDie → CtlDie) : (d.updCtl k f).slalom = d.slalom := rfl
@[simp] theorem Dev.updCtl_field (d : Dev) (k : Nat) (f : CtlDie → CtlDie) : (d.updCtl k f).field = d.field := rfl
@[simp] theorem Dev.updCtl_time (d : Dev) (k : Nat) (f : CtlDie → CtlDie) : (d.updCtl k f).time = d.time := rfl
@[simp] theorem Dev.updCtl_backup (d : Dev) (k : Nat) (f : CtlDie → CtlDie) : (d.updCtl k f).backup = d.backup := rfl
@[simp] theorem Dev.updCtl_can (d : Dev) (k : Nat) (f : CtlDie → CtlDie) : (d.updCtl k f).can = d.can := rfl
@[simp] theorem Dev.updCtl_recorder (d : Dev) (k : Nat) (f : CtlDie → CtlDie) : (d.updCtl k f).recorder = d.recorder := rfl
@[simp] theorem Dev.updCtl_keys (d : Dev) (k : Nat) (f : CtlDie → CtlDie) : (d.updCtl k f).keys = d.keys := rfl
@[simp] theorem Dev.updCtl_power (d : Dev) (k : Nat) (f : CtlDie → CtlDie) : (d.updCtl k f).power = d.power := rfl
@[simp] theorem Dev.updCtl_test (d : Dev) (k : Nat) (f : CtlDie → CtlDie) : (d.updCtl k f).test = d.test := rfl
@[simp] theorem Dev.updCtl_tap (d : Dev) (k : Nat) (f : CtlDie → CtlDie) : (d.updCtl k f).tap = d.tap := rfl
@[simp] theorem Dev.updCtl_sat (d : Dev) (k : Nat) (f : CtlDie → CtlDie) : (d.updCtl k f).sat = d.sat := rfl
@[simp] theorem Dev.updCtl_free (d : Dev) (k : Nat) (f : CtlDie → CtlDie) : (d.updCtl k f).free = d.free := rfl
@[simp] theorem Dev.updCtl_out (d : Dev) (k : Nat) (f : CtlDie → CtlDie) : (d.updCtl k f).out = d.out := rfl

@[simp] theorem Dev.setTime_time (d : Dev) (t : NetTime) : (d.setTime t).time = t := rfl
@[simp] theorem Dev.setTime_fabric (d : Dev) (t : NetTime) : (d.setTime t).fabric = d.fabric := rfl
@[simp] theorem Dev.setTime_evr (d : Dev) (t : NetTime) : (d.setTime t).evr = d.evr := rfl
@[simp] theorem Dev.setTime_frame (d : Dev) (t : NetTime) : (d.setTime t).frame = d.frame := rfl
@[simp] theorem Dev.setTime_host (d : Dev) (t : NetTime) : (d.setTime t).host = d.host := rfl
@[simp] theorem Dev.setTime_points (d : Dev) (t : NetTime) : (d.setTime t).points = d.points := rfl
@[simp] theorem Dev.setTime_piste (d : Dev) (t : NetTime) : (d.setTime t).piste = d.piste := rfl
@[simp] theorem Dev.setTime_solver (d : Dev) (t : NetTime) : (d.setTime t).solver = d.solver := rfl
@[simp] theorem Dev.setTime_jobs (d : Dev) (t : NetTime) : (d.setTime t).jobs = d.jobs := rfl
@[simp] theorem Dev.setTime_coord (d : Dev) (t : NetTime) : (d.setTime t).coord = d.coord := rfl
@[simp] theorem Dev.setTime_jalow (d : Dev) (t : NetTime) : (d.setTime t).jalow = d.jalow := rfl
@[simp] theorem Dev.setTime_loops (d : Dev) (t : NetTime) : (d.setTime t).loops = d.loops := rfl
@[simp] theorem Dev.setTime_aux (d : Dev) (t : NetTime) : (d.setTime t).aux = d.aux := rfl
@[simp] theorem Dev.setTime_slalom (d : Dev) (t : NetTime) : (d.setTime t).slalom = d.slalom := rfl
@[simp] theorem Dev.setTime_field (d : Dev) (t : NetTime) : (d.setTime t).field = d.field := rfl
@[simp] theorem Dev.setTime_twin (d : Dev) (t : NetTime) : (d.setTime t).twin = d.twin := rfl
@[simp] theorem Dev.setTime_backup (d : Dev) (t : NetTime) : (d.setTime t).backup = d.backup := rfl
@[simp] theorem Dev.setTime_can (d : Dev) (t : NetTime) : (d.setTime t).can = d.can := rfl
@[simp] theorem Dev.setTime_recorder (d : Dev) (t : NetTime) : (d.setTime t).recorder = d.recorder := rfl
@[simp] theorem Dev.setTime_keys (d : Dev) (t : NetTime) : (d.setTime t).keys = d.keys := rfl
@[simp] theorem Dev.setTime_power (d : Dev) (t : NetTime) : (d.setTime t).power = d.power := rfl
@[simp] theorem Dev.setTime_test (d : Dev) (t : NetTime) : (d.setTime t).test = d.test := rfl
@[simp] theorem Dev.setTime_tap (d : Dev) (t : NetTime) : (d.setTime t).tap = d.tap := rfl
@[simp] theorem Dev.setTime_sat (d : Dev) (t : NetTime) : (d.setTime t).sat = d.sat := rfl
@[simp] theorem Dev.setTime_free (d : Dev) (t : NetTime) : (d.setTime t).free = d.free := rfl
@[simp] theorem Dev.setTime_out (d : Dev) (t : NetTime) : (d.setTime t).out = d.out := rfl

@[simp] theorem Dev.setPtp_fabric (d : Dev) (p : Nat) (q : PtpPort) : (d.setPtp p q).fabric = d.fabric := rfl
@[simp] theorem Dev.setPtp_evr (d : Dev) (p : Nat) (q : PtpPort) : (d.setPtp p q).evr = d.evr := rfl
@[simp] theorem Dev.setPtp_frame (d : Dev) (p : Nat) (q : PtpPort) : (d.setPtp p q).frame = d.frame := rfl
@[simp] theorem Dev.setPtp_host (d : Dev) (p : Nat) (q : PtpPort) : (d.setPtp p q).host = d.host := rfl
@[simp] theorem Dev.setPtp_points (d : Dev) (p : Nat) (q : PtpPort) : (d.setPtp p q).points = d.points := rfl
@[simp] theorem Dev.setPtp_piste (d : Dev) (p : Nat) (q : PtpPort) : (d.setPtp p q).piste = d.piste := rfl
@[simp] theorem Dev.setPtp_solver (d : Dev) (p : Nat) (q : PtpPort) : (d.setPtp p q).solver = d.solver := rfl
@[simp] theorem Dev.setPtp_jobs (d : Dev) (p : Nat) (q : PtpPort) : (d.setPtp p q).jobs = d.jobs := rfl
@[simp] theorem Dev.setPtp_coord (d : Dev) (p : Nat) (q : PtpPort) : (d.setPtp p q).coord = d.coord := rfl
@[simp] theorem Dev.setPtp_jalow (d : Dev) (p : Nat) (q : PtpPort) : (d.setPtp p q).jalow = d.jalow := rfl
@[simp] theorem Dev.setPtp_loops (d : Dev) (p : Nat) (q : PtpPort) : (d.setPtp p q).loops = d.loops := rfl
@[simp] theorem Dev.setPtp_aux (d : Dev) (p : Nat) (q : PtpPort) : (d.setPtp p q).aux = d.aux := rfl
@[simp] theorem Dev.setPtp_slalom (d : Dev) (p : Nat) (q : PtpPort) : (d.setPtp p q).slalom = d.slalom := rfl
@[simp] theorem Dev.setPtp_field (d : Dev) (p : Nat) (q : PtpPort) : (d.setPtp p q).field = d.field := rfl
@[simp] theorem Dev.setPtp_twin (d : Dev) (p : Nat) (q : PtpPort) : (d.setPtp p q).twin = d.twin := rfl
@[simp] theorem Dev.setPtp_backup (d : Dev) (p : Nat) (q : PtpPort) : (d.setPtp p q).backup = d.backup := rfl
@[simp] theorem Dev.setPtp_can (d : Dev) (p : Nat) (q : PtpPort) : (d.setPtp p q).can = d.can := rfl
@[simp] theorem Dev.setPtp_recorder (d : Dev) (p : Nat) (q : PtpPort) : (d.setPtp p q).recorder = d.recorder := rfl
@[simp] theorem Dev.setPtp_keys (d : Dev) (p : Nat) (q : PtpPort) : (d.setPtp p q).keys = d.keys := rfl
@[simp] theorem Dev.setPtp_power (d : Dev) (p : Nat) (q : PtpPort) : (d.setPtp p q).power = d.power := rfl
@[simp] theorem Dev.setPtp_test (d : Dev) (p : Nat) (q : PtpPort) : (d.setPtp p q).test = d.test := rfl
@[simp] theorem Dev.setPtp_tap (d : Dev) (p : Nat) (q : PtpPort) : (d.setPtp p q).tap = d.tap := rfl
@[simp] theorem Dev.setPtp_sat (d : Dev) (p : Nat) (q : PtpPort) : (d.setPtp p q).sat = d.sat := rfl
@[simp] theorem Dev.setPtp_free (d : Dev) (p : Nat) (q : PtpPort) : (d.setPtp p q).free = d.free := rfl
@[simp] theorem Dev.setPtp_out (d : Dev) (p : Nat) (q : PtpPort) : (d.setPtp p q).out = d.out := rfl

@[simp] theorem Dev.setBackup_backup (d : Dev) (b : Backup) : (d.setBackup b).backup = b := rfl
@[simp] theorem Dev.setBackup_fabric (d : Dev) (b : Backup) : (d.setBackup b).fabric = d.fabric := rfl
@[simp] theorem Dev.setBackup_evr (d : Dev) (b : Backup) : (d.setBackup b).evr = d.evr := rfl
@[simp] theorem Dev.setBackup_frame (d : Dev) (b : Backup) : (d.setBackup b).frame = d.frame := rfl
@[simp] theorem Dev.setBackup_host (d : Dev) (b : Backup) : (d.setBackup b).host = d.host := rfl
@[simp] theorem Dev.setBackup_points (d : Dev) (b : Backup) : (d.setBackup b).points = d.points := rfl
@[simp] theorem Dev.setBackup_piste (d : Dev) (b : Backup) : (d.setBackup b).piste = d.piste := rfl
@[simp] theorem Dev.setBackup_solver (d : Dev) (b : Backup) : (d.setBackup b).solver = d.solver := rfl
@[simp] theorem Dev.setBackup_jobs (d : Dev) (b : Backup) : (d.setBackup b).jobs = d.jobs := rfl
@[simp] theorem Dev.setBackup_coord (d : Dev) (b : Backup) : (d.setBackup b).coord = d.coord := rfl
@[simp] theorem Dev.setBackup_jalow (d : Dev) (b : Backup) : (d.setBackup b).jalow = d.jalow := rfl
@[simp] theorem Dev.setBackup_loops (d : Dev) (b : Backup) : (d.setBackup b).loops = d.loops := rfl
@[simp] theorem Dev.setBackup_aux (d : Dev) (b : Backup) : (d.setBackup b).aux = d.aux := rfl
@[simp] theorem Dev.setBackup_slalom (d : Dev) (b : Backup) : (d.setBackup b).slalom = d.slalom := rfl
@[simp] theorem Dev.setBackup_field (d : Dev) (b : Backup) : (d.setBackup b).field = d.field := rfl
@[simp] theorem Dev.setBackup_twin (d : Dev) (b : Backup) : (d.setBackup b).twin = d.twin := rfl
@[simp] theorem Dev.setBackup_time (d : Dev) (b : Backup) : (d.setBackup b).time = d.time := rfl
@[simp] theorem Dev.setBackup_can (d : Dev) (b : Backup) : (d.setBackup b).can = d.can := rfl
@[simp] theorem Dev.setBackup_recorder (d : Dev) (b : Backup) : (d.setBackup b).recorder = d.recorder := rfl
@[simp] theorem Dev.setBackup_keys (d : Dev) (b : Backup) : (d.setBackup b).keys = d.keys := rfl
@[simp] theorem Dev.setBackup_power (d : Dev) (b : Backup) : (d.setBackup b).power = d.power := rfl
@[simp] theorem Dev.setBackup_test (d : Dev) (b : Backup) : (d.setBackup b).test = d.test := rfl
@[simp] theorem Dev.setBackup_tap (d : Dev) (b : Backup) : (d.setBackup b).tap = d.tap := rfl
@[simp] theorem Dev.setBackup_sat (d : Dev) (b : Backup) : (d.setBackup b).sat = d.sat := rfl
@[simp] theorem Dev.setBackup_free (d : Dev) (b : Backup) : (d.setBackup b).free = d.free := rfl
@[simp] theorem Dev.setBackup_out (d : Dev) (b : Backup) : (d.setBackup b).out = d.out := rfl

@[simp] theorem Dev.setEvin_fabric (d : Dev) (i : Nat) (e : Evin) : (d.setEvin i e).fabric = d.fabric := rfl
@[simp] theorem Dev.setEvin_evr (d : Dev) (i : Nat) (e : Evin) : (d.setEvin i e).evr = d.evr := rfl
@[simp] theorem Dev.setEvin_frame (d : Dev) (i : Nat) (e : Evin) : (d.setEvin i e).frame = d.frame := rfl
@[simp] theorem Dev.setEvin_host (d : Dev) (i : Nat) (e : Evin) : (d.setEvin i e).host = d.host := rfl
@[simp] theorem Dev.setEvin_points (d : Dev) (i : Nat) (e : Evin) : (d.setEvin i e).points = d.points := rfl
@[simp] theorem Dev.setEvin_piste (d : Dev) (i : Nat) (e : Evin) : (d.setEvin i e).piste = d.piste := rfl
@[simp] theorem Dev.setEvin_solver (d : Dev) (i : Nat) (e : Evin) : (d.setEvin i e).solver = d.solver := rfl
@[simp] theorem Dev.setEvin_jobs (d : Dev) (i : Nat) (e : Evin) : (d.setEvin i e).jobs = d.jobs := rfl
@[simp] theorem Dev.setEvin_coord (d : Dev) (i : Nat) (e : Evin) : (d.setEvin i e).coord = d.coord := rfl
@[simp] theorem Dev.setEvin_jalow (d : Dev) (i : Nat) (e : Evin) : (d.setEvin i e).jalow = d.jalow := rfl
@[simp] theorem Dev.setEvin_loops (d : Dev) (i : Nat) (e : Evin) : (d.setEvin i e).loops = d.loops := rfl
@[simp] theorem Dev.setEvin_aux (d : Dev) (i : Nat) (e : Evin) : (d.setEvin i e).aux = d.aux := rfl
@[simp] theorem Dev.setEvin_slalom (d : Dev) (i : Nat) (e : Evin) : (d.setEvin i e).slalom = d.slalom := rfl
@[simp] theorem Dev.setEvin_field (d : Dev) (i : Nat) (e : Evin) : (d.setEvin i e).field = d.field := rfl
@[simp] theorem Dev.setEvin_twin (d : Dev) (i : Nat) (e : Evin) : (d.setEvin i e).twin = d.twin := rfl
@[simp] theorem Dev.setEvin_time (d : Dev) (i : Nat) (e : Evin) : (d.setEvin i e).time = d.time := rfl
@[simp] theorem Dev.setEvin_can (d : Dev) (i : Nat) (e : Evin) : (d.setEvin i e).can = d.can := rfl
@[simp] theorem Dev.setEvin_recorder (d : Dev) (i : Nat) (e : Evin) : (d.setEvin i e).recorder = d.recorder := rfl
@[simp] theorem Dev.setEvin_keys (d : Dev) (i : Nat) (e : Evin) : (d.setEvin i e).keys = d.keys := rfl
@[simp] theorem Dev.setEvin_power (d : Dev) (i : Nat) (e : Evin) : (d.setEvin i e).power = d.power := rfl
@[simp] theorem Dev.setEvin_test (d : Dev) (i : Nat) (e : Evin) : (d.setEvin i e).test = d.test := rfl
@[simp] theorem Dev.setEvin_tap (d : Dev) (i : Nat) (e : Evin) : (d.setEvin i e).tap = d.tap := rfl
@[simp] theorem Dev.setEvin_sat (d : Dev) (i : Nat) (e : Evin) : (d.setEvin i e).sat = d.sat := rfl
@[simp] theorem Dev.setEvin_free (d : Dev) (i : Nat) (e : Evin) : (d.setEvin i e).free = d.free := rfl
@[simp] theorem Dev.setEvin_out (d : Dev) (i : Nat) (e : Evin) : (d.setEvin i e).out = d.out := rfl

@[simp] theorem Dev.setCan_fabric (d : Dev) (k : Nat) (q : CanCtl) : (d.setCan k q).fabric = d.fabric := rfl
@[simp] theorem Dev.setCan_evr (d : Dev) (k : Nat) (q : CanCtl) : (d.setCan k q).evr = d.evr := rfl
@[simp] theorem Dev.setCan_frame (d : Dev) (k : Nat) (q : CanCtl) : (d.setCan k q).frame = d.frame := rfl
@[simp] theorem Dev.setCan_host (d : Dev) (k : Nat) (q : CanCtl) : (d.setCan k q).host = d.host := rfl
@[simp] theorem Dev.setCan_points (d : Dev) (k : Nat) (q : CanCtl) : (d.setCan k q).points = d.points := rfl
@[simp] theorem Dev.setCan_piste (d : Dev) (k : Nat) (q : CanCtl) : (d.setCan k q).piste = d.piste := rfl
@[simp] theorem Dev.setCan_solver (d : Dev) (k : Nat) (q : CanCtl) : (d.setCan k q).solver = d.solver := rfl
@[simp] theorem Dev.setCan_jobs (d : Dev) (k : Nat) (q : CanCtl) : (d.setCan k q).jobs = d.jobs := rfl
@[simp] theorem Dev.setCan_coord (d : Dev) (k : Nat) (q : CanCtl) : (d.setCan k q).coord = d.coord := rfl
@[simp] theorem Dev.setCan_jalow (d : Dev) (k : Nat) (q : CanCtl) : (d.setCan k q).jalow = d.jalow := rfl
@[simp] theorem Dev.setCan_loops (d : Dev) (k : Nat) (q : CanCtl) : (d.setCan k q).loops = d.loops := rfl
@[simp] theorem Dev.setCan_aux (d : Dev) (k : Nat) (q : CanCtl) : (d.setCan k q).aux = d.aux := rfl
@[simp] theorem Dev.setCan_slalom (d : Dev) (k : Nat) (q : CanCtl) : (d.setCan k q).slalom = d.slalom := rfl
@[simp] theorem Dev.setCan_field (d : Dev) (k : Nat) (q : CanCtl) : (d.setCan k q).field = d.field := rfl
@[simp] theorem Dev.setCan_twin (d : Dev) (k : Nat) (q : CanCtl) : (d.setCan k q).twin = d.twin := rfl
@[simp] theorem Dev.setCan_time (d : Dev) (k : Nat) (q : CanCtl) : (d.setCan k q).time = d.time := rfl
@[simp] theorem Dev.setCan_backup (d : Dev) (k : Nat) (q : CanCtl) : (d.setCan k q).backup = d.backup := rfl
@[simp] theorem Dev.setCan_recorder (d : Dev) (k : Nat) (q : CanCtl) : (d.setCan k q).recorder = d.recorder := rfl
@[simp] theorem Dev.setCan_keys (d : Dev) (k : Nat) (q : CanCtl) : (d.setCan k q).keys = d.keys := rfl
@[simp] theorem Dev.setCan_power (d : Dev) (k : Nat) (q : CanCtl) : (d.setCan k q).power = d.power := rfl
@[simp] theorem Dev.setCan_test (d : Dev) (k : Nat) (q : CanCtl) : (d.setCan k q).test = d.test := rfl
@[simp] theorem Dev.setCan_tap (d : Dev) (k : Nat) (q : CanCtl) : (d.setCan k q).tap = d.tap := rfl
@[simp] theorem Dev.setCan_sat (d : Dev) (k : Nat) (q : CanCtl) : (d.setCan k q).sat = d.sat := rfl
@[simp] theorem Dev.setCan_free (d : Dev) (k : Nat) (q : CanCtl) : (d.setCan k q).free = d.free := rfl
@[simp] theorem Dev.setCan_out (d : Dev) (k : Nat) (q : CanCtl) : (d.setCan k q).out = d.out := rfl

@[simp] theorem Dev.setKeySlot_fabric (d : Dev) (i : Nat) (k : KeySlot) : (d.setKeySlot i k).fabric = d.fabric := rfl
@[simp] theorem Dev.setKeySlot_evr (d : Dev) (i : Nat) (k : KeySlot) : (d.setKeySlot i k).evr = d.evr := rfl
@[simp] theorem Dev.setKeySlot_frame (d : Dev) (i : Nat) (k : KeySlot) : (d.setKeySlot i k).frame = d.frame := rfl
@[simp] theorem Dev.setKeySlot_host (d : Dev) (i : Nat) (k : KeySlot) : (d.setKeySlot i k).host = d.host := rfl
@[simp] theorem Dev.setKeySlot_points (d : Dev) (i : Nat) (k : KeySlot) : (d.setKeySlot i k).points = d.points := rfl
@[simp] theorem Dev.setKeySlot_piste (d : Dev) (i : Nat) (k : KeySlot) : (d.setKeySlot i k).piste = d.piste := rfl
@[simp] theorem Dev.setKeySlot_solver (d : Dev) (i : Nat) (k : KeySlot) : (d.setKeySlot i k).solver = d.solver := rfl
@[simp] theorem Dev.setKeySlot_jobs (d : Dev) (i : Nat) (k : KeySlot) : (d.setKeySlot i k).jobs = d.jobs := rfl
@[simp] theorem Dev.setKeySlot_coord (d : Dev) (i : Nat) (k : KeySlot) : (d.setKeySlot i k).coord = d.coord := rfl
@[simp] theorem Dev.setKeySlot_jalow (d : Dev) (i : Nat) (k : KeySlot) : (d.setKeySlot i k).jalow = d.jalow := rfl
@[simp] theorem Dev.setKeySlot_loops (d : Dev) (i : Nat) (k : KeySlot) : (d.setKeySlot i k).loops = d.loops := rfl
@[simp] theorem Dev.setKeySlot_aux (d : Dev) (i : Nat) (k : KeySlot) : (d.setKeySlot i k).aux = d.aux := rfl
@[simp] theorem Dev.setKeySlot_slalom (d : Dev) (i : Nat) (k : KeySlot) : (d.setKeySlot i k).slalom = d.slalom := rfl
@[simp] theorem Dev.setKeySlot_field (d : Dev) (i : Nat) (k : KeySlot) : (d.setKeySlot i k).field = d.field := rfl
@[simp] theorem Dev.setKeySlot_twin (d : Dev) (i : Nat) (k : KeySlot) : (d.setKeySlot i k).twin = d.twin := rfl
@[simp] theorem Dev.setKeySlot_time (d : Dev) (i : Nat) (k : KeySlot) : (d.setKeySlot i k).time = d.time := rfl
@[simp] theorem Dev.setKeySlot_backup (d : Dev) (i : Nat) (k : KeySlot) : (d.setKeySlot i k).backup = d.backup := rfl
@[simp] theorem Dev.setKeySlot_can (d : Dev) (i : Nat) (k : KeySlot) : (d.setKeySlot i k).can = d.can := rfl
@[simp] theorem Dev.setKeySlot_recorder (d : Dev) (i : Nat) (k : KeySlot) : (d.setKeySlot i k).recorder = d.recorder := rfl
@[simp] theorem Dev.setKeySlot_power (d : Dev) (i : Nat) (k : KeySlot) : (d.setKeySlot i k).power = d.power := rfl
@[simp] theorem Dev.setKeySlot_test (d : Dev) (i : Nat) (k : KeySlot) : (d.setKeySlot i k).test = d.test := rfl
@[simp] theorem Dev.setKeySlot_tap (d : Dev) (i : Nat) (k : KeySlot) : (d.setKeySlot i k).tap = d.tap := rfl
@[simp] theorem Dev.setKeySlot_sat (d : Dev) (i : Nat) (k : KeySlot) : (d.setKeySlot i k).sat = d.sat := rfl
@[simp] theorem Dev.setKeySlot_free (d : Dev) (i : Nat) (k : KeySlot) : (d.setKeySlot i k).free = d.free := rfl
@[simp] theorem Dev.setKeySlot_out (d : Dev) (i : Nat) (k : KeySlot) : (d.setKeySlot i k).out = d.out := rfl

@[simp] theorem Dev.setPwr_power (d : Dev) (p : Power) : (d.setPwr p).power = p := rfl
@[simp] theorem Dev.setPwr_fabric (d : Dev) (p : Power) : (d.setPwr p).fabric = d.fabric := rfl
@[simp] theorem Dev.setPwr_evr (d : Dev) (p : Power) : (d.setPwr p).evr = d.evr := rfl
@[simp] theorem Dev.setPwr_frame (d : Dev) (p : Power) : (d.setPwr p).frame = d.frame := rfl
@[simp] theorem Dev.setPwr_host (d : Dev) (p : Power) : (d.setPwr p).host = d.host := rfl
@[simp] theorem Dev.setPwr_points (d : Dev) (p : Power) : (d.setPwr p).points = d.points := rfl
@[simp] theorem Dev.setPwr_piste (d : Dev) (p : Power) : (d.setPwr p).piste = d.piste := rfl
@[simp] theorem Dev.setPwr_solver (d : Dev) (p : Power) : (d.setPwr p).solver = d.solver := rfl
@[simp] theorem Dev.setPwr_jobs (d : Dev) (p : Power) : (d.setPwr p).jobs = d.jobs := rfl
@[simp] theorem Dev.setPwr_coord (d : Dev) (p : Power) : (d.setPwr p).coord = d.coord := rfl
@[simp] theorem Dev.setPwr_jalow (d : Dev) (p : Power) : (d.setPwr p).jalow = d.jalow := rfl
@[simp] theorem Dev.setPwr_loops (d : Dev) (p : Power) : (d.setPwr p).loops = d.loops := rfl
@[simp] theorem Dev.setPwr_aux (d : Dev) (p : Power) : (d.setPwr p).aux = d.aux := rfl
@[simp] theorem Dev.setPwr_slalom (d : Dev) (p : Power) : (d.setPwr p).slalom = d.slalom := rfl
@[simp] theorem Dev.setPwr_field (d : Dev) (p : Power) : (d.setPwr p).field = d.field := rfl
@[simp] theorem Dev.setPwr_twin (d : Dev) (p : Power) : (d.setPwr p).twin = d.twin := rfl
@[simp] theorem Dev.setPwr_time (d : Dev) (p : Power) : (d.setPwr p).time = d.time := rfl
@[simp] theorem Dev.setPwr_backup (d : Dev) (p : Power) : (d.setPwr p).backup = d.backup := rfl
@[simp] theorem Dev.setPwr_can (d : Dev) (p : Power) : (d.setPwr p).can = d.can := rfl
@[simp] theorem Dev.setPwr_recorder (d : Dev) (p : Power) : (d.setPwr p).recorder = d.recorder := rfl
@[simp] theorem Dev.setPwr_keys (d : Dev) (p : Power) : (d.setPwr p).keys = d.keys := rfl
@[simp] theorem Dev.setPwr_test (d : Dev) (p : Power) : (d.setPwr p).test = d.test := rfl
@[simp] theorem Dev.setPwr_tap (d : Dev) (p : Power) : (d.setPwr p).tap = d.tap := rfl
@[simp] theorem Dev.setPwr_sat (d : Dev) (p : Power) : (d.setPwr p).sat = d.sat := rfl
@[simp] theorem Dev.setPwr_free (d : Dev) (p : Power) : (d.setPwr p).free = d.free := rfl
@[simp] theorem Dev.setPwr_out (d : Dev) (p : Power) : (d.setPwr p).out = d.out := rfl

@[simp] theorem Dev.updFeed_fabric (d : Dev) (k : Nat) (f : FeedState → FeedState) : (d.updFeed k f).fabric = d.fabric := rfl
@[simp] theorem Dev.updFeed_evr (d : Dev) (k : Nat) (f : FeedState → FeedState) : (d.updFeed k f).evr = d.evr := rfl
@[simp] theorem Dev.updFeed_frame (d : Dev) (k : Nat) (f : FeedState → FeedState) : (d.updFeed k f).frame = d.frame := rfl
@[simp] theorem Dev.updFeed_host (d : Dev) (k : Nat) (f : FeedState → FeedState) : (d.updFeed k f).host = d.host := rfl
@[simp] theorem Dev.updFeed_points (d : Dev) (k : Nat) (f : FeedState → FeedState) : (d.updFeed k f).points = d.points := rfl
@[simp] theorem Dev.updFeed_piste (d : Dev) (k : Nat) (f : FeedState → FeedState) : (d.updFeed k f).piste = d.piste := rfl
@[simp] theorem Dev.updFeed_solver (d : Dev) (k : Nat) (f : FeedState → FeedState) : (d.updFeed k f).solver = d.solver := rfl
@[simp] theorem Dev.updFeed_jobs (d : Dev) (k : Nat) (f : FeedState → FeedState) : (d.updFeed k f).jobs = d.jobs := rfl
@[simp] theorem Dev.updFeed_coord (d : Dev) (k : Nat) (f : FeedState → FeedState) : (d.updFeed k f).coord = d.coord := rfl
@[simp] theorem Dev.updFeed_jalow (d : Dev) (k : Nat) (f : FeedState → FeedState) : (d.updFeed k f).jalow = d.jalow := rfl
@[simp] theorem Dev.updFeed_loops (d : Dev) (k : Nat) (f : FeedState → FeedState) : (d.updFeed k f).loops = d.loops := rfl
@[simp] theorem Dev.updFeed_aux (d : Dev) (k : Nat) (f : FeedState → FeedState) : (d.updFeed k f).aux = d.aux := rfl
@[simp] theorem Dev.updFeed_slalom (d : Dev) (k : Nat) (f : FeedState → FeedState) : (d.updFeed k f).slalom = d.slalom := rfl
@[simp] theorem Dev.updFeed_field (d : Dev) (k : Nat) (f : FeedState → FeedState) : (d.updFeed k f).field = d.field := rfl
@[simp] theorem Dev.updFeed_twin (d : Dev) (k : Nat) (f : FeedState → FeedState) : (d.updFeed k f).twin = d.twin := rfl
@[simp] theorem Dev.updFeed_time (d : Dev) (k : Nat) (f : FeedState → FeedState) : (d.updFeed k f).time = d.time := rfl
@[simp] theorem Dev.updFeed_backup (d : Dev) (k : Nat) (f : FeedState → FeedState) : (d.updFeed k f).backup = d.backup := rfl
@[simp] theorem Dev.updFeed_can (d : Dev) (k : Nat) (f : FeedState → FeedState) : (d.updFeed k f).can = d.can := rfl
@[simp] theorem Dev.updFeed_recorder (d : Dev) (k : Nat) (f : FeedState → FeedState) : (d.updFeed k f).recorder = d.recorder := rfl
@[simp] theorem Dev.updFeed_keys (d : Dev) (k : Nat) (f : FeedState → FeedState) : (d.updFeed k f).keys = d.keys := rfl
@[simp] theorem Dev.updFeed_test (d : Dev) (k : Nat) (f : FeedState → FeedState) : (d.updFeed k f).test = d.test := rfl
@[simp] theorem Dev.updFeed_tap (d : Dev) (k : Nat) (f : FeedState → FeedState) : (d.updFeed k f).tap = d.tap := rfl
@[simp] theorem Dev.updFeed_sat (d : Dev) (k : Nat) (f : FeedState → FeedState) : (d.updFeed k f).sat = d.sat := rfl
@[simp] theorem Dev.updFeed_free (d : Dev) (k : Nat) (f : FeedState → FeedState) : (d.updFeed k f).free = d.free := rfl
@[simp] theorem Dev.updFeed_out (d : Dev) (k : Nat) (f : FeedState → FeedState) : (d.updFeed k f).out = d.out := rfl

@[simp] theorem Dev.setTest_test (d : Dev) (t : TestUnit) : (d.setTest t).test = t := rfl
@[simp] theorem Dev.setTest_fabric (d : Dev) (t : TestUnit) : (d.setTest t).fabric = d.fabric := rfl
@[simp] theorem Dev.setTest_evr (d : Dev) (t : TestUnit) : (d.setTest t).evr = d.evr := rfl
@[simp] theorem Dev.setTest_frame (d : Dev) (t : TestUnit) : (d.setTest t).frame = d.frame := rfl
@[simp] theorem Dev.setTest_host (d : Dev) (t : TestUnit) : (d.setTest t).host = d.host := rfl
@[simp] theorem Dev.setTest_points (d : Dev) (t : TestUnit) : (d.setTest t).points = d.points := rfl
@[simp] theorem Dev.setTest_piste (d : Dev) (t : TestUnit) : (d.setTest t).piste = d.piste := rfl
@[simp] theorem Dev.setTest_solver (d : Dev) (t : TestUnit) : (d.setTest t).solver = d.solver := rfl
@[simp] theorem Dev.setTest_jobs (d : Dev) (t : TestUnit) : (d.setTest t).jobs = d.jobs := rfl
@[simp] theorem Dev.setTest_coord (d : Dev) (t : TestUnit) : (d.setTest t).coord = d.coord := rfl
@[simp] theorem Dev.setTest_jalow (d : Dev) (t : TestUnit) : (d.setTest t).jalow = d.jalow := rfl
@[simp] theorem Dev.setTest_loops (d : Dev) (t : TestUnit) : (d.setTest t).loops = d.loops := rfl
@[simp] theorem Dev.setTest_aux (d : Dev) (t : TestUnit) : (d.setTest t).aux = d.aux := rfl
@[simp] theorem Dev.setTest_slalom (d : Dev) (t : TestUnit) : (d.setTest t).slalom = d.slalom := rfl
@[simp] theorem Dev.setTest_field (d : Dev) (t : TestUnit) : (d.setTest t).field = d.field := rfl
@[simp] theorem Dev.setTest_twin (d : Dev) (t : TestUnit) : (d.setTest t).twin = d.twin := rfl
@[simp] theorem Dev.setTest_time (d : Dev) (t : TestUnit) : (d.setTest t).time = d.time := rfl
@[simp] theorem Dev.setTest_backup (d : Dev) (t : TestUnit) : (d.setTest t).backup = d.backup := rfl
@[simp] theorem Dev.setTest_can (d : Dev) (t : TestUnit) : (d.setTest t).can = d.can := rfl
@[simp] theorem Dev.setTest_recorder (d : Dev) (t : TestUnit) : (d.setTest t).recorder = d.recorder := rfl
@[simp] theorem Dev.setTest_keys (d : Dev) (t : TestUnit) : (d.setTest t).keys = d.keys := rfl
@[simp] theorem Dev.setTest_power (d : Dev) (t : TestUnit) : (d.setTest t).power = d.power := rfl
@[simp] theorem Dev.setTest_tap (d : Dev) (t : TestUnit) : (d.setTest t).tap = d.tap := rfl
@[simp] theorem Dev.setTest_sat (d : Dev) (t : TestUnit) : (d.setTest t).sat = d.sat := rfl
@[simp] theorem Dev.setTest_free (d : Dev) (t : TestUnit) : (d.setTest t).free = d.free := rfl
@[simp] theorem Dev.setTest_out (d : Dev) (t : TestUnit) : (d.setTest t).out = d.out := rfl

end Sys2Proof.Machine
end

