-- ==== Sys2Proof/Laws/Rows.lean ====
section
/-! SUPPORT. What every packet row has in common: the meaning of an opcode touches neither the captured pages nor the waiting commands, and
where it rejects the packet or lets it wait the state is the one it found. -/

namespace Sys2Proof.Machine

open Sys2Proof.Bits

/-- The two states agree in everything but the device. -/
def State.Held (s t : State) : Prop := t.pending = s.pending ∧ t.frameBank = s.frameBank ∧ t.reqBank = s.reqBank

theorem State.Held.refl (s : State) : s.Held s := ⟨rfl, rfl, rfl⟩
theorem State.Held.trans {s t u : State} (h : s.Held t) (k : t.Held u) : s.Held u :=
  ⟨k.1.trans h.1, k.2.1.trans h.2.1, k.2.2.trans h.2.2⟩
theorem State.Held.dev {s t : State} (h : s.Held t) (d : Dev) : s.Held { t with dev := d } := h
theorem State.Held.finish {s t : State} (h : s.Held t) (q : QPacket) (st det : Nat) (ws : List Word) : s.Held (t.finish q st det ws) := h

/-- The meaning of an opcode changes only the device, and nothing where it rejects the packet or lets it wait. -/
def Ans.Plain (s : State) (a : Ans) : Prop := s.Held a.st ∧ (accepted a.status = false ∨ a.waits = true → a.st = s)

theorem Ans.plain_same {s : State} {a : Ans} (h : a.st = s) : a.Plain s := ⟨by rw [h]; exact State.Held.refl s, fun _ => h⟩
theorem Ans.plain_done {s : State} {d : Dev} {st det : Nat} {ws : List Word} {l : Bool} (h : accepted st = true) :
    Ans.Plain s { st := { s with dev := d }, status := st, detail := det, words := ws, later := l } :=
  ⟨⟨rfl, rfl, rfl⟩, fun k => by rcases k with k | k <;> simp_all⟩
theorem Ans.plain_done0 (s : State) (d : Dev) (ws : List Word) (l : Bool) : Ans.Plain s { st := { s with dev := d }, words := ws, later := l } :=
  plain_done (by decide)
theorem Ans.plain_pending (s : State) (d : Dev) (ws : List Word) (l : Bool) :
    Ans.Plain s { st := { s with dev := d }, status := stOkPending, words := ws, later := l } := plain_done (by decide)
theorem Ans.plain_noChange (s : State) (d : Dev) (ws : List Word) : Ans.Plain s { st := { s with dev := d }, status := stOkNoChange, words := ws } :=
  plain_done (by decide)
theorem Ans.plain_partial (s : State) (d : Dev) (ws : List Word) (l : Bool) :
    Ans.Plain s { st := { s with dev := d }, status := stOkPartial, words := ws, later := l } := plain_done (by decide)
theorem Ans.plain_at (s : State) (st det : Nat) (ws : List Word) (w : Bool) :
    Ans.Plain s { st := s, status := st, detail := det, words := ws, waits := w } := plain_same rfl
theorem Ans.plain_ok (s : State) (d : Dev) : Ans.Plain s (.ok s d) := plain_done (by decide)
theorem Ans.plain_err (s : State) (st det : Nat) : Ans.Plain s (.err s st det) := plain_same rfl
theorem Ans.plain_read (s : State) (ws : List Word) : Ans.Plain s (.read s ws) := plain_same rfl
theorem guarded_plain {s : State} {cs : List (Bool × Nat × Nat)} {k : Ans} (h : k.Plain s) : (guarded s cs k).Plain s := by
  unfold guarded; split
  · exact Ans.plain_same rfl
  · exact h

theorem State.readWords_held (u i o n : Nat) (s : State) : s.Held (State.readWords u i o n s).2 := by
  induction n generalizing o s with
  | zero => exact State.Held.refl s
  | succ n ih => exact State.Held.trans (t := { s with dev := (s.readWord u i o).2 }) ⟨rfl, rfl, rfl⟩ (ih _ _)

theorem Ans.held_same {s : State} {a : Ans} (h : a.st = s) : s.Held a.st := by rw [h]; exact State.Held.refl s
theorem guarded_held {s : State} {cs : List (Bool × Nat × Nat)} {k : Ans} (h : s.Held k.st) : s.Held (guarded s cs k).st := by
  unfold guarded; split
  · exact State.Held.refl s
  · exact h

theorem opAchConfig_plain (s : State) (q : QPacket) : (opAchConfig.body s q).Plain s := guarded_plain (Ans.plain_ok _ _)

theorem opSeqWrite_plain (s : State) (q : QPacket) : (opSeqWrite.body s q).Plain s := by
  dsimp only [opSeqWrite]
  repeat' (first
    | with_reducible first
      | apply guarded_plain | exact Ans.plain_ok _ _ | exact Ans.plain_err _ _ _ | exact Ans.plain_read _ _ | exact Ans.plain_at _ _ _ _ _
      | exact Ans.plain_done0 _ _ _ _ | exact Ans.plain_pending _ _ _ _ | exact Ans.plain_noChange _ _ _ | exact Ans.plain_partial _ _ _ _
    | split)

theorem opSeqStart_plain (s : State) (q : QPacket) : (opSeqStart.body s q).Plain s := guarded_plain (Ans.plain_ok _ _)

theorem opSeqStop_plain (s : State) (q : QPacket) : (opSeqStop.body s q).Plain s := by
  dsimp only [opSeqStop]
  repeat' (first
    | with_reducible first
      | apply guarded_plain | exact Ans.plain_ok _ _ | exact Ans.plain_err _ _ _ | exact Ans.plain_read _ _ | exact Ans.plain_at _ _ _ _ _
      | exact Ans.plain_done0 _ _ _ _ | exact Ans.plain_pending _ _ _ _ | exact Ans.plain_noChange _ _ _ | exact Ans.plain_partial _ _ _ _
    | split)

theorem opSeqResult_plain (s : State) (q : QPacket) : (opSeqResult.body s q).Plain s := guarded_plain (Ans.plain_ok _ _)
theorem opCalChannelTrim_plain (s : State) (q : QPacket) : (opCalChannelTrim.body s q).Plain s := guarded_plain (Ans.plain_ok _ _)
theorem opCalNtc_plain (s : State) (q : QPacket) : (opCalNtc.body s q).Plain s := guarded_plain (Ans.plain_ok _ _)
theorem opCalAoTrim_plain (s : State) (q : QPacket) : (opCalAoTrim.body s q).Plain s := guarded_plain (Ans.plain_ok _ _)
theorem opCalHbManual_plain (s : State) (q : QPacket) : (opCalHbManual.body s q).Plain s := guarded_plain (Ans.plain_ok _ _)
theorem opCalHbAuto_plain (s : State) (q : QPacket) : (opCalHbAuto.body s q).Plain s := guarded_plain (Ans.plain_ok _ _)

theorem opCalUserDefaults_plain (s : State) (q : QPacket) : (opCalUserDefaults.body s q).Plain s := by
  dsimp only [opCalUserDefaults]
  repeat' (first
    | with_reducible first
      | apply guarded_plain | exact Ans.plain_ok _ _ | exact Ans.plain_err _ _ _ | exact Ans.plain_read _ _ | exact Ans.plain_at _ _ _ _ _
      | exact Ans.plain_done0 _ _ _ _ | exact Ans.plain_pending _ _ _ _ | exact Ans.plain_noChange _ _ _ | exact Ans.plain_partial _ _ _ _
    | split)

theorem opTestdacSet_plain (s : State) (q : QPacket) : (opTestdacSet.body s q).Plain s := guarded_plain (Ans.plain_ok _ _)

theorem opCanConfig_plain (s : State) (q : QPacket) : (opCanConfig.body s q).Plain s := by
  dsimp only [opCanConfig]
  repeat' (first
    | with_reducible first
      | apply guarded_plain | exact Ans.plain_ok _ _ | exact Ans.plain_err _ _ _ | exact Ans.plain_read _ _ | exact Ans.plain_at _ _ _ _ _
      | exact Ans.plain_done0 _ _ _ _ | exact Ans.plain_pending _ _ _ _ | exact Ans.plain_noChange _ _ _ | exact Ans.plain_partial _ _ _ _
    | split)

theorem opCanFilter_plain (s : State) (q : QPacket) : (opCanFilter.body s q).Plain s := guarded_plain (Ans.plain_ok _ _)

theorem opCanSend_plain (s : State) (q : QPacket) : (opCanSend.body s q).Plain s := by
  dsimp only [opCanSend]
  repeat' (first
    | with_reducible first
      | apply guarded_plain | exact Ans.plain_ok _ _ | exact Ans.plain_err _ _ _ | exact Ans.plain_read _ _ | exact Ans.plain_at _ _ _ _ _
      | exact Ans.plain_done0 _ _ _ _ | exact Ans.plain_pending _ _ _ _ | exact Ans.plain_noChange _ _ _ | exact Ans.plain_partial _ _ _ _
    | split)

theorem opCanReceive_plain (s : State) (q : QPacket) : (opCanReceive.body s q).Plain s := guarded_plain (Ans.plain_ok _ _)
theorem opCanStatus_plain (s : State) (q : QPacket) : (opCanStatus.body s q).Plain s := Ans.plain_read _ _
theorem opCanTimeConfig_plain (s : State) (q : QPacket) : (opCanTimeConfig.body s q).Plain s := guarded_plain (Ans.plain_ok _ _)
theorem opCanMap_plain (s : State) (q : QPacket) : (opCanMap.body s q).Plain s := guarded_plain (Ans.plain_ok _ _)

theorem opCanRecoverBus_plain (s : State) (q : QPacket) : (opCanRecoverBus.body s q).Plain s := by
  dsimp only [opCanRecoverBus]
  repeat' (first
    | with_reducible first
      | apply guarded_plain | exact Ans.plain_ok _ _ | exact Ans.plain_err _ _ _ | exact Ans.plain_read _ _ | exact Ans.plain_at _ _ _ _ _
      | exact Ans.plain_done0 _ _ _ _ | exact Ans.plain_pending _ _ _ _ | exact Ans.plain_noChange _ _ _ | exact Ans.plain_partial _ _ _ _
    | split)

theorem opCanRecoverBuffer_plain (s : State) (q : QPacket) : (opCanRecoverBuffer.body s q).Plain s := by
  dsimp only [opCanRecoverBuffer]
  repeat' (first
    | with_reducible first
      | apply guarded_plain | exact Ans.plain_ok _ _ | exact Ans.plain_err _ _ _ | exact Ans.plain_read _ _ | exact Ans.plain_at _ _ _ _ _
      | exact Ans.plain_done0 _ _ _ _ | exact Ans.plain_pending _ _ _ _ | exact Ans.plain_noChange _ _ _ | exact Ans.plain_partial _ _ _ _
    | split)

theorem opCoordConfigSettings_plain (s : State) (q : QPacket) : (opCoordConfigSettings.body s q).Plain s := guarded_plain (Ans.plain_ok _ _)
theorem opCoordConfigScope_plain (s : State) (q : QPacket) : (opCoordConfigScope.body s q).Plain s := guarded_plain (Ans.plain_ok _ _)
theorem opCoordStatus_plain (s : State) (q : QPacket) : (opCoordStatus.body s q).Plain s := Ans.plain_read _ _
theorem opDchConfig_plain (s : State) (q : QPacket) : (opDchConfig.body s q).Plain s := guarded_plain (Ans.plain_ok _ _)
theorem opDchStatus_plain (s : State) (q : QPacket) : (opDchStatus.body s q).Plain s := guarded_plain (Ans.plain_ok _ _)

theorem opArmOutputs_plain (s : State) (q : QPacket) : (opArmOutputs.body s q).Plain s := by
  dsimp only [opArmOutputs]
  repeat' (first
    | with_reducible first
      | apply guarded_plain | exact Ans.plain_ok _ _ | exact Ans.plain_err _ _ _ | exact Ans.plain_read _ _ | exact Ans.plain_at _ _ _ _ _
      | exact Ans.plain_done0 _ _ _ _ | exact Ans.plain_pending _ _ _ _ | exact Ans.plain_noChange _ _ _ | exact Ans.plain_partial _ _ _ _
    | split)

theorem opOutputSet_plain (s : State) (q : QPacket) : (opOutputSet.body s q).Plain s := guarded_plain (Ans.plain_ok _ _)
theorem opSafeConfig_plain (s : State) (q : QPacket) : (opSafeConfig.body s q).Plain s := guarded_plain (Ans.plain_ok _ _)
theorem opCounterRead_plain (s : State) (q : QPacket) : (opCounterRead.body s q).Plain s := guarded_plain (Ans.plain_ok _ _)

theorem opMemAlloc_plain (s : State) (q : QPacket) : (opMemAlloc.body s q).Plain s := by
  dsimp only [opMemAlloc]
  repeat' (first
    | with_reducible first
      | apply guarded_plain | exact Ans.plain_ok _ _ | exact Ans.plain_err _ _ _ | exact Ans.plain_read _ _ | exact Ans.plain_at _ _ _ _ _
      | exact Ans.plain_done0 _ _ _ _ | exact Ans.plain_pending _ _ _ _ | exact Ans.plain_noChange _ _ _ | exact Ans.plain_partial _ _ _ _
    | split)

theorem opMemFree_plain (s : State) (q : QPacket) : (opMemFree.body s q).Plain s := by
  dsimp only [opMemFree]
  repeat' (first
    | with_reducible first
      | apply guarded_plain | exact Ans.plain_ok _ _ | exact Ans.plain_err _ _ _ | exact Ans.plain_read _ _ | exact Ans.plain_at _ _ _ _ _
      | exact Ans.plain_done0 _ _ _ _ | exact Ans.plain_pending _ _ _ _ | exact Ans.plain_noChange _ _ _ | exact Ans.plain_partial _ _ _ _
    | split)

theorem opMemWrite_plain (s : State) (q : QPacket) : (opMemWrite.body s q).Plain s := by
  dsimp only [opMemWrite]
  repeat' (first
    | with_reducible first
      | apply guarded_plain | exact Ans.plain_ok _ _ | exact Ans.plain_err _ _ _ | exact Ans.plain_read _ _ | exact Ans.plain_at _ _ _ _ _
      | exact Ans.plain_done0 _ _ _ _ | exact Ans.plain_pending _ _ _ _ | exact Ans.plain_noChange _ _ _ | exact Ans.plain_partial _ _ _ _
    | split)

theorem opMemRead_plain (s : State) (q : QPacket) : (opMemRead.body s q).Plain s := by
  dsimp only [opMemRead]
  repeat' (first
    | with_reducible first
      | apply guarded_plain | exact Ans.plain_ok _ _ | exact Ans.plain_err _ _ _ | exact Ans.plain_read _ _ | exact Ans.plain_at _ _ _ _ _
      | exact Ans.plain_done0 _ _ _ _ | exact Ans.plain_pending _ _ _ _ | exact Ans.plain_noChange _ _ _ | exact Ans.plain_partial _ _ _ _
    | split)

theorem opSolverConfig_plain (s : State) (q : QPacket) : (opSolverConfig.body s q).Plain s := guarded_plain (Ans.plain_ok _ _)
theorem opSolverStatus_plain (s : State) (q : QPacket) : (opSolverStatus.body s q).Plain s := Ans.plain_read _ _
theorem opFrameSet_plain (s : State) (q : QPacket) : (opFrameSet.body s q).Plain s := guarded_plain (Ans.plain_ok _ _)

theorem opFrameStop_plain (s : State) (q : QPacket) : (opFrameStop.body s q).Plain s := by
  dsimp only [opFrameStop]
  repeat' (first
    | with_reducible first
      | apply guarded_plain | exact Ans.plain_ok _ _ | exact Ans.plain_err _ _ _ | exact Ans.plain_read _ _ | exact Ans.plain_at _ _ _ _ _
      | exact Ans.plain_done0 _ _ _ _ | exact Ans.plain_pending _ _ _ _ | exact Ans.plain_noChange _ _ _ | exact Ans.plain_partial _ _ _ _
    | split)

theorem opFrameStatus_plain (s : State) (q : QPacket) : (opFrameStatus.body s q).Plain s := Ans.plain_read _ _

theorem opRelay_plain (s : State) (q : QPacket) : (opRelay.body s q).Plain s := by
  dsimp only [opRelay]
  repeat' (first
    | with_reducible first
      | apply guarded_plain | exact Ans.plain_ok _ _ | exact Ans.plain_err _ _ _ | exact Ans.plain_read _ _ | exact Ans.plain_at _ _ _ _ _
      | exact Ans.plain_done0 _ _ _ _ | exact Ans.plain_pending _ _ _ _ | exact Ans.plain_noChange _ _ _ | exact Ans.plain_partial _ _ _ _
    | split)

theorem opNop_plain (s : State) (q : QPacket) : (opNop.body s q).Plain s := guarded_plain (Ans.plain_ok _ _)
theorem opDevIdent_plain (s : State) (q : QPacket) : (opDevIdent.body s q).Plain s := Ans.plain_read _ _
theorem opHostConfig_plain (s : State) (q : QPacket) : (opHostConfig.body s q).Plain s := guarded_plain (Ans.plain_ok _ _)

theorem opHostStatus_plain (s : State) (q : QPacket) : (opHostStatus.body s q).Plain s := by
  dsimp only [opHostStatus]
  repeat' (first
    | with_reducible first
      | apply guarded_plain | exact Ans.plain_ok _ _ | exact Ans.plain_err _ _ _ | exact Ans.plain_read _ _ | exact Ans.plain_at _ _ _ _ _
      | exact Ans.plain_done0 _ _ _ _ | exact Ans.plain_pending _ _ _ _ | exact Ans.plain_noChange _ _ _ | exact Ans.plain_partial _ _ _ _
    | split)

theorem opEthIfConfig_plain (s : State) (q : QPacket) : (opEthIfConfig.body s q).Plain s := guarded_plain (Ans.plain_ok _ _)
theorem opJlPortConfig_plain (s : State) (q : QPacket) : (opJlPortConfig.body s q).Plain s := guarded_plain (Ans.plain_ok _ _)
theorem opJlStatus_plain (s : State) (q : QPacket) : (opJlStatus.body s q).Plain s := Ans.plain_read _ _

theorem opJobSubmit_plain (s : State) (q : QPacket) : (opJobSubmit.body s q).Plain s := by
  dsimp only [opJobSubmit]
  repeat' (first
    | with_reducible first
      | apply guarded_plain | exact Ans.plain_ok _ _ | exact Ans.plain_err _ _ _ | exact Ans.plain_read _ _ | exact Ans.plain_at _ _ _ _ _
      | exact Ans.plain_done0 _ _ _ _ | exact Ans.plain_pending _ _ _ _ | exact Ans.plain_noChange _ _ _ | exact Ans.plain_partial _ _ _ _
    | split)

theorem opJobResult_plain (s : State) (q : QPacket) : (opJobResult.body s q).Plain s := by
  dsimp only [opJobResult]
  repeat' (first
    | with_reducible first
      | apply guarded_plain | exact Ans.plain_ok _ _ | exact Ans.plain_err _ _ _ | exact Ans.plain_read _ _ | exact Ans.plain_at _ _ _ _ _
      | exact Ans.plain_done0 _ _ _ _ | exact Ans.plain_pending _ _ _ _ | exact Ans.plain_noChange _ _ _ | exact Ans.plain_partial _ _ _ _
    | split)

theorem opJobCancel_plain (s : State) (q : QPacket) : (opJobCancel.body s q).Plain s := by
  dsimp only [opJobCancel]
  repeat' (first
    | with_reducible first
      | apply guarded_plain | exact Ans.plain_ok _ _ | exact Ans.plain_err _ _ _ | exact Ans.plain_read _ _ | exact Ans.plain_at _ _ _ _ _
      | exact Ans.plain_done0 _ _ _ _ | exact Ans.plain_pending _ _ _ _ | exact Ans.plain_noChange _ _ _ | exact Ans.plain_partial _ _ _ _
    | split)

theorem opKeyProvision_held (s : State) (q : QPacket) : s.Held (opKeyProvision.body s q).st := by
  dsimp only [opKeyProvision]
  repeat' (first
    | with_reducible apply guarded_held
    | with_reducible exact State.Held.refl s
    | split
    | exact ⟨rfl, rfl, rfl⟩)

theorem opKeyDerive_plain (s : State) (q : QPacket) : (opKeyDerive.body s q).Plain s := guarded_plain (Ans.plain_ok _ _)
theorem opKeyStatus_plain (s : State) (q : QPacket) : (opKeyStatus.body s q).Plain s := guarded_plain (Ans.plain_ok _ _)
theorem opKeyChallenge_plain (s : State) (q : QPacket) : (opKeyChallenge.body s q).Plain s := guarded_plain (Ans.plain_ok _ _)

theorem opKeyErase_plain (s : State) (q : QPacket) : (opKeyErase.body s q).Plain s := by
  dsimp only [opKeyErase]
  repeat' (first
    | with_reducible first
      | apply guarded_plain | exact Ans.plain_ok _ _ | exact Ans.plain_err _ _ _ | exact Ans.plain_read _ _ | exact Ans.plain_at _ _ _ _ _
      | exact Ans.plain_done0 _ _ _ _ | exact Ans.plain_pending _ _ _ _ | exact Ans.plain_noChange _ _ _ | exact Ans.plain_partial _ _ _ _
    | split)

theorem opLoopConfig_plain (s : State) (q : QPacket) : (opLoopConfig.body s q).Plain s := by
  dsimp only [opLoopConfig]
  repeat' (first
    | with_reducible first
      | apply guarded_plain | exact Ans.plain_ok _ _ | exact Ans.plain_err _ _ _ | exact Ans.plain_read _ _ | exact Ans.plain_at _ _ _ _ _
      | exact Ans.plain_done0 _ _ _ _ | exact Ans.plain_pending _ _ _ _ | exact Ans.plain_noChange _ _ _ | exact Ans.plain_partial _ _ _ _
    | split)

theorem opLoopSectionSet_plain (s : State) (q : QPacket) : (opLoopSectionSet.body s q).Plain s := by
  dsimp only [opLoopSectionSet]
  repeat' (first
    | with_reducible first
      | apply guarded_plain | exact Ans.plain_ok _ _ | exact Ans.plain_err _ _ _ | exact Ans.plain_read _ _ | exact Ans.plain_at _ _ _ _ _
      | exact Ans.plain_done0 _ _ _ _ | exact Ans.plain_pending _ _ _ _ | exact Ans.plain_noChange _ _ _ | exact Ans.plain_partial _ _ _ _
    | split)

theorem opLoopMode_plain (s : State) (q : QPacket) : (opLoopMode.body s q).Plain s := by
  dsimp only [opLoopMode]
  repeat' (first
    | with_reducible first
      | apply guarded_plain | exact Ans.plain_ok _ _ | exact Ans.plain_err _ _ _ | exact Ans.plain_read _ _ | exact Ans.plain_at _ _ _ _ _
      | exact Ans.plain_done0 _ _ _ _ | exact Ans.plain_pending _ _ _ _ | exact Ans.plain_noChange _ _ _ | exact Ans.plain_partial _ _ _ _
    | split)

theorem opLoopStatus_plain (s : State) (q : QPacket) : (opLoopStatus.body s q).Plain s := Ans.plain_read _ _
theorem opOverrideConfig_plain (s : State) (q : QPacket) : (opOverrideConfig.body s q).Plain s := guarded_plain (Ans.plain_ok _ _)

theorem opModelLoad_plain (s : State) (q : QPacket) : (opModelLoad.body s q).Plain s := by
  dsimp only [opModelLoad]
  repeat' (first
    | with_reducible first
      | apply guarded_plain | exact Ans.plain_ok _ _ | exact Ans.plain_err _ _ _ | exact Ans.plain_read _ _ | exact Ans.plain_at _ _ _ _ _
      | exact Ans.plain_done0 _ _ _ _ | exact Ans.plain_pending _ _ _ _ | exact Ans.plain_noChange _ _ _ | exact Ans.plain_partial _ _ _ _
    | split)

theorem opModelCommit_held (s : State) (q : QPacket) : s.Held (opModelCommit.body s q).st := by
  dsimp only [opModelCommit]
  repeat' (first
    | with_reducible apply guarded_held
    | with_reducible exact State.Held.refl s
    | split
    | exact ⟨rfl, rfl, rfl⟩)

theorem opModelStatus_plain (s : State) (q : QPacket) : (opModelStatus.body s q).Plain s := Ans.plain_read _ _
theorem opPartitionSet_plain (s : State) (q : QPacket) : (opPartitionSet.body s q).Plain s := guarded_plain (Ans.plain_ok _ _)
theorem opSubstSet_plain (s : State) (q : QPacket) : (opSubstSet.body s q).Plain s := guarded_plain (Ans.plain_ok _ _)
theorem opPointRead_plain (s : State) (q : QPacket) : (opPointRead.body s q).Plain s := guarded_plain (Ans.plain_ok _ _)
theorem opPointWrite_plain (s : State) (q : QPacket) : (opPointWrite.body s q).Plain s := guarded_plain (Ans.plain_ok _ _)

theorem opPointBlockWrite_held (s : State) (q : QPacket) : s.Held (opPointBlockWrite.body s q).st := by
  dsimp only [opPointBlockWrite]
  repeat' (first
    | with_reducible apply guarded_held
    | with_reducible exact State.Held.refl s
    | split
    | exact ⟨rfl, rfl, rfl⟩)

theorem opPointBlockRead_held (s : State) (q : QPacket) : s.Held (opPointBlockRead.body s q).st := by
  dsimp only [opPointBlockRead]
  repeat' (first
    | with_reducible apply guarded_held
    | with_reducible exact State.Held.refl s
    | split
    | exact ⟨rfl, rfl, rfl⟩)

theorem opSnapshotAt_plain (s : State) (q : QPacket) : (opSnapshotAt.body s q).Plain s := guarded_plain (Ans.plain_ok _ _)
theorem opSnapshotRead_plain (s : State) (q : QPacket) : (opSnapshotRead.body s q).Plain s := guarded_plain (Ans.plain_ok _ _)
theorem opSnapshotStatus_plain (s : State) (q : QPacket) : (opSnapshotStatus.body s q).Plain s := Ans.plain_read _ _
theorem opPframeConfig_plain (s : State) (q : QPacket) : (opPframeConfig.body s q).Plain s := guarded_plain (Ans.plain_ok _ _)
theorem opPwrStatus_plain (s : State) (q : QPacket) : (opPwrStatus.body s q).Plain s := Ans.plain_done0 _ _ _ _

theorem opLowpowerSetRun_plain (s : State) (q : QPacket) : (opLowpowerSetRun.body s q).Plain s := by
  dsimp only [opLowpowerSetRun]
  repeat' (first
    | with_reducible first
      | apply guarded_plain | exact Ans.plain_ok _ _ | exact Ans.plain_err _ _ _ | exact Ans.plain_read _ _ | exact Ans.plain_at _ _ _ _ _
      | exact Ans.plain_done0 _ _ _ _ | exact Ans.plain_pending _ _ _ _ | exact Ans.plain_noChange _ _ _ | exact Ans.plain_partial _ _ _ _
    | split)

theorem opLowpowerSetQuiesce_plain (s : State) (q : QPacket) : (opLowpowerSetQuiesce.body s q).Plain s := by
  dsimp only [opLowpowerSetQuiesce]
  repeat' (first
    | with_reducible first
      | apply guarded_plain | exact Ans.plain_ok _ _ | exact Ans.plain_err _ _ _ | exact Ans.plain_read _ _ | exact Ans.plain_at _ _ _ _ _
      | exact Ans.plain_done0 _ _ _ _ | exact Ans.plain_pending _ _ _ _ | exact Ans.plain_noChange _ _ _ | exact Ans.plain_partial _ _ _ _
    | split)

theorem opLowpowerSetKeep_plain (s : State) (q : QPacket) : (opLowpowerSetKeep.body s q).Plain s := guarded_plain (Ans.plain_ok _ _)
theorem opRailConfig_plain (s : State) (q : QPacket) : (opRailConfig.body s q).Plain s := guarded_plain (Ans.plain_ok _ _)
theorem opPtpConfig_plain (s : State) (q : QPacket) : (opPtpConfig.body s q).Plain s := guarded_plain (Ans.plain_ok _ _)
theorem opPtpStatus_plain (s : State) (q : QPacket) : (opPtpStatus.body s q).Plain s := Ans.plain_read _ _
theorem opRecRead_plain (s : State) (q : QPacket) : (opRecRead.body s q).Plain s := guarded_plain (Ans.plain_ok _ _)
theorem opRecStatus_plain (s : State) (q : QPacket) : (opRecStatus.body s q).Plain s := Ans.plain_read _ _
theorem opRecMark_plain (s : State) (q : QPacket) : (opRecMark.body s q).Plain s := guarded_plain (Ans.plain_ok _ _)

theorem opDiagRead_plain (s : State) (q : QPacket) : (opDiagRead.body s q).Plain s := by
  dsimp only [opDiagRead]
  unfold State.diag
  split
  · exact Ans.plain_same rfl
  · exact Ans.plain_same rfl
  · exact guarded_plain ⟨State.readWords_held _ _ _ _ s, fun h => by simp [accepted] at h⟩

theorem opDiagWrite_plain (s : State) (q : QPacket) : (opDiagWrite.body s q).Plain s := by
  dsimp only [opDiagWrite]
  unfold State.diag
  split
  · exact Ans.plain_same rfl
  · exact Ans.plain_same rfl
  · exact guarded_plain ⟨⟨rfl, rfl, rfl⟩, fun h => by simp [accepted, Ans.ok] at h⟩

theorem opDiagModify_plain (s : State) (q : QPacket) : (opDiagModify.body s q).Plain s := by
  dsimp only [opDiagModify]
  unfold State.diag
  split
  · exact Ans.plain_same rfl
  · exact Ans.plain_same rfl
  · exact guarded_plain ⟨⟨rfl, rfl, rfl⟩, fun h => by simp [accepted] at h⟩

theorem opDeviceReset_plain (s : State) (q : QPacket) : (opDeviceReset.body s q).Plain s := guarded_plain (Ans.plain_ok _ _)
theorem opDieReset_plain (s : State) (q : QPacket) : (opDieReset.body s q).Plain s := guarded_plain (Ans.plain_ok _ _)

theorem opFieldReset_plain (s : State) (q : QPacket) : (opFieldReset.body s q).Plain s := by
  dsimp only [opFieldReset]
  repeat' (first
    | with_reducible first
      | apply guarded_plain | exact Ans.plain_ok _ _ | exact Ans.plain_err _ _ _ | exact Ans.plain_read _ _ | exact Ans.plain_at _ _ _ _ _
      | exact Ans.plain_done0 _ _ _ _ | exact Ans.plain_pending _ _ _ _ | exact Ans.plain_noChange _ _ _ | exact Ans.plain_partial _ _ _ _
    | split)

theorem opResetCause_plain (s : State) (q : QPacket) : (opResetCause.body s q).Plain s := guarded_plain (Ans.plain_ok _ _)
theorem opFwStage_plain (s : State) (q : QPacket) : (opFwStage.body s q).Plain s := guarded_plain (Ans.plain_ok _ _)
theorem opFwActivate_plain (s : State) (q : QPacket) : (opFwActivate.body s q).Plain s := guarded_plain (Ans.plain_ok _ _)
theorem opReadRtc_plain (s : State) (q : QPacket) : (opReadRtc.body s q).Plain s := Ans.plain_read _ _

theorem opWriteRtcNextEdge_plain (s : State) (q : QPacket) : (opWriteRtcNextEdge.body s q).Plain s := by
  dsimp only [opWriteRtcNextEdge]
  repeat' (first
    | with_reducible first
      | apply guarded_plain | exact Ans.plain_ok _ _ | exact Ans.plain_err _ _ _ | exact Ans.plain_read _ _ | exact Ans.plain_at _ _ _ _ _
      | exact Ans.plain_done0 _ _ _ _ | exact Ans.plain_pending _ _ _ _ | exact Ans.plain_noChange _ _ _ | exact Ans.plain_partial _ _ _ _
    | split)

theorem opWriteRtcAtTime_plain (s : State) (q : QPacket) : (opWriteRtcAtTime.body s q).Plain s := by
  dsimp only [opWriteRtcAtTime]
  repeat' (first
    | with_reducible first
      | apply guarded_plain | exact Ans.plain_ok _ _ | exact Ans.plain_err _ _ _ | exact Ans.plain_read _ _ | exact Ans.plain_at _ _ _ _ _
      | exact Ans.plain_done0 _ _ _ _ | exact Ans.plain_pending _ _ _ _ | exact Ans.plain_noChange _ _ _ | exact Ans.plain_partial _ _ _ _
    | split)

theorem opRtcTrimSet_plain (s : State) (q : QPacket) : (opRtcTrimSet.body s q).Plain s := guarded_plain (Ans.plain_ok _ _)
theorem opRtcSyncConfig_plain (s : State) (q : QPacket) : (opRtcSyncConfig.body s q).Plain s := guarded_plain (Ans.plain_ok _ _)
theorem opRtcAlarmSet_plain (s : State) (q : QPacket) : (opRtcAlarmSet.body s q).Plain s := guarded_plain (Ans.plain_ok _ _)

theorem opRtcAlarmCancel_plain (s : State) (q : QPacket) : (opRtcAlarmCancel.body s q).Plain s := by
  dsimp only [opRtcAlarmCancel]
  repeat' (first
    | with_reducible first
      | apply guarded_plain | exact Ans.plain_ok _ _ | exact Ans.plain_err _ _ _ | exact Ans.plain_read _ _ | exact Ans.plain_at _ _ _ _ _
      | exact Ans.plain_done0 _ _ _ _ | exact Ans.plain_pending _ _ _ _ | exact Ans.plain_noChange _ _ _ | exact Ans.plain_partial _ _ _ _
    | split)

theorem opEvinConfig_plain (s : State) (q : QPacket) : (opEvinConfig.body s q).Plain s := guarded_plain (Ans.plain_ok _ _)

theorem opEvinRead_plain (s : State) (q : QPacket) : (opEvinRead.body s q).Plain s := by
  dsimp only [opEvinRead]
  repeat' (first
    | with_reducible first
      | apply guarded_plain | exact Ans.plain_ok _ _ | exact Ans.plain_err _ _ _ | exact Ans.plain_read _ _ | exact Ans.plain_at _ _ _ _ _
      | exact Ans.plain_done0 _ _ _ _ | exact Ans.plain_pending _ _ _ _ | exact Ans.plain_noChange _ _ _ | exact Ans.plain_partial _ _ _ _
    | split)

theorem opSelftestRun_plain (s : State) (q : QPacket) : (opSelftestRun.body s q).Plain s := by
  dsimp only [opSelftestRun]
  repeat' (first
    | with_reducible first
      | apply guarded_plain | exact Ans.plain_ok _ _ | exact Ans.plain_err _ _ _ | exact Ans.plain_read _ _ | exact Ans.plain_at _ _ _ _ _
      | exact Ans.plain_done0 _ _ _ _ | exact Ans.plain_pending _ _ _ _ | exact Ans.plain_noChange _ _ _ | exact Ans.plain_partial _ _ _ _
    | split)

theorem opSelftestResult_plain (s : State) (q : QPacket) : (opSelftestResult.body s q).Plain s := guarded_plain (Ans.plain_ok _ _)
theorem opHealthReport_plain (s : State) (q : QPacket) : (opHealthReport.body s q).Plain s := guarded_plain (Ans.plain_ok _ _)
theorem opTimeRead_plain (s : State) (q : QPacket) : (opTimeRead.body s q).Plain s := Ans.plain_read _ _
theorem opTimeAdjustOffset_plain (s : State) (q : QPacket) : (opTimeAdjustOffset.body s q).Plain s := guarded_plain (Ans.plain_ok _ _)

theorem opTimeAdjustStep_plain (s : State) (q : QPacket) : (opTimeAdjustStep.body s q).Plain s := by
  simp only [opTimeAdjustStep, stepAns]
  repeat' (first
    | with_reducible first
      | apply guarded_plain | exact Ans.plain_ok _ _ | exact Ans.plain_err _ _ _ | exact Ans.plain_read _ _ | exact Ans.plain_at _ _ _ _ _
      | exact Ans.plain_done0 _ _ _ _ | exact Ans.plain_pending _ _ _ _ | exact Ans.plain_noChange _ _ _ | exact Ans.plain_partial _ _ _ _
    | split)

theorem opTimeAdjustSet_plain (s : State) (q : QPacket) : (opTimeAdjustSet.body s q).Plain s := by
  simp only [opTimeAdjustSet, stepAns]
  repeat' (first
    | with_reducible first
      | apply guarded_plain | exact Ans.plain_ok _ _ | exact Ans.plain_err _ _ _ | exact Ans.plain_read _ _ | exact Ans.plain_at _ _ _ _ _
      | exact Ans.plain_done0 _ _ _ _ | exact Ans.plain_pending _ _ _ _ | exact Ans.plain_noChange _ _ _ | exact Ans.plain_partial _ _ _ _
    | split)

theorem opTimeAdjustFreq_plain (s : State) (q : QPacket) : (opTimeAdjustFreq.body s q).Plain s := by
  dsimp only [opTimeAdjustFreq]
  repeat' (first
    | with_reducible first
      | apply guarded_plain | exact Ans.plain_ok _ _ | exact Ans.plain_err _ _ _ | exact Ans.plain_read _ _ | exact Ans.plain_at _ _ _ _ _
      | exact Ans.plain_done0 _ _ _ _ | exact Ans.plain_pending _ _ _ _ | exact Ans.plain_noChange _ _ _ | exact Ans.plain_partial _ _ _ _
    | split)

theorem opServoConfig_plain (s : State) (q : QPacket) : (opServoConfig.body s q).Plain s := by
  dsimp only [opServoConfig]
  repeat' (first
    | with_reducible first
      | apply guarded_plain | exact Ans.plain_ok _ _ | exact Ans.plain_err _ _ _ | exact Ans.plain_read _ _ | exact Ans.plain_at _ _ _ _ _
      | exact Ans.plain_done0 _ _ _ _ | exact Ans.plain_pending _ _ _ _ | exact Ans.plain_noChange _ _ _ | exact Ans.plain_partial _ _ _ _
    | split)

theorem opBudgetStatus_plain (s : State) (q : QPacket) : (opBudgetStatus.body s q).Plain s := Ans.plain_read _ _
theorem opPwrCapSet_plain (s : State) (q : QPacket) : (opPwrCapSet.body s q).Plain s := guarded_plain (Ans.plain_ok _ _)
theorem opBudgetConfig_plain (s : State) (q : QPacket) : (opBudgetConfig.body s q).Plain s := guarded_plain (Ans.plain_ok _ _)

theorem opSupervConfig_plain (s : State) (q : QPacket) : (opSupervConfig.body s q).Plain s := by
  dsimp only [opSupervConfig]
  repeat' (first
    | with_reducible first
      | apply guarded_plain | exact Ans.plain_ok _ _ | exact Ans.plain_err _ _ _ | exact Ans.plain_read _ _ | exact Ans.plain_at _ _ _ _ _
      | exact Ans.plain_done0 _ _ _ _ | exact Ans.plain_pending _ _ _ _ | exact Ans.plain_noChange _ _ _ | exact Ans.plain_partial _ _ _ _
    | split)

theorem opSupervAck_plain (s : State) (q : QPacket) : (opSupervAck.body s q).Plain s := by
  dsimp only [opSupervAck]
  repeat' (first
    | with_reducible first
      | apply guarded_plain | exact Ans.plain_ok _ _ | exact Ans.plain_err _ _ _ | exact Ans.plain_read _ _ | exact Ans.plain_at _ _ _ _ _
      | exact Ans.plain_done0 _ _ _ _ | exact Ans.plain_pending _ _ _ _ | exact Ans.plain_noChange _ _ _ | exact Ans.plain_partial _ _ _ _
    | split)

theorem opSupervRestartModel_plain (s : State) (q : QPacket) : (opSupervRestartModel.body s q).Plain s := by
  dsimp only [opSupervRestartModel]
  repeat' (first
    | with_reducible first
      | apply guarded_plain | exact Ans.plain_ok _ _ | exact Ans.plain_err _ _ _ | exact Ans.plain_read _ _ | exact Ans.plain_at _ _ _ _ _
      | exact Ans.plain_done0 _ _ _ _ | exact Ans.plain_pending _ _ _ _ | exact Ans.plain_noChange _ _ _ | exact Ans.plain_partial _ _ _ _
    | split)

theorem opSupervStatus_plain (s : State) (q : QPacket) : (opSupervStatus.body s q).Plain s := Ans.plain_read _ _

theorem opMogulConfig_plain (s : State) (q : QPacket) : (opMogulConfig.body s q).Plain s := by
  dsimp only [opMogulConfig]
  repeat' (first
    | with_reducible first
      | apply guarded_plain | exact Ans.plain_ok _ _ | exact Ans.plain_err _ _ _ | exact Ans.plain_read _ _ | exact Ans.plain_at _ _ _ _ _
      | exact Ans.plain_done0 _ _ _ _ | exact Ans.plain_pending _ _ _ _ | exact Ans.plain_noChange _ _ _ | exact Ans.plain_partial _ _ _ _
    | split)

theorem opMogulPageRead_plain (s : State) (q : QPacket) : (opMogulPageRead.body s q).Plain s := guarded_plain (Ans.plain_ok _ _)
theorem opTraceConfig_plain (s : State) (q : QPacket) : (opTraceConfig.body s q).Plain s := guarded_plain (Ans.plain_ok _ _)

theorem opTraceArm_plain (s : State) (q : QPacket) : (opTraceArm.body s q).Plain s := by
  dsimp only [opTraceArm]
  repeat' (first
    | with_reducible first
      | apply guarded_plain | exact Ans.plain_ok _ _ | exact Ans.plain_err _ _ _ | exact Ans.plain_read _ _ | exact Ans.plain_at _ _ _ _ _
      | exact Ans.plain_done0 _ _ _ _ | exact Ans.plain_pending _ _ _ _ | exact Ans.plain_noChange _ _ _ | exact Ans.plain_partial _ _ _ _
    | split)

theorem opTraceDisarm_plain (s : State) (q : QPacket) : (opTraceDisarm.body s q).Plain s := guarded_plain (Ans.plain_ok _ _)
theorem opTraceRead_plain (s : State) (q : QPacket) : (opTraceRead.body s q).Plain s := guarded_plain (Ans.plain_ok _ _)
theorem opSwap_plain (s : State) (q : QPacket) : (opSwap.body s q).Plain s := guarded_plain (Ans.plain_ok _ _)

theorem opSwapCancel_plain (s : State) (q : QPacket) : (opSwapCancel.body s q).Plain s := by
  dsimp only [opSwapCancel]
  repeat' (first
    | with_reducible first
      | apply guarded_plain | exact Ans.plain_ok _ _ | exact Ans.plain_err _ _ _ | exact Ans.plain_read _ _ | exact Ans.plain_at _ _ _ _ _
      | exact Ans.plain_done0 _ _ _ _ | exact Ans.plain_pending _ _ _ _ | exact Ans.plain_noChange _ _ _ | exact Ans.plain_partial _ _ _ _
    | split)

theorem opTwinStatus_plain (s : State) (q : QPacket) : (opTwinStatus.body s q).Plain s := Ans.plain_read _ _

theorem opTwinConfig_plain (s : State) (q : QPacket) : (opTwinConfig.body s q).Plain s := by
  dsimp only [opTwinConfig]
  repeat' (first
    | with_reducible first
      | apply guarded_plain | exact Ans.plain_ok _ _ | exact Ans.plain_err _ _ _ | exact Ans.plain_read _ _ | exact Ans.plain_at _ _ _ _ _
      | exact Ans.plain_done0 _ _ _ _ | exact Ans.plain_pending _ _ _ _ | exact Ans.plain_noChange _ _ _ | exact Ans.plain_partial _ _ _ _
    | split)

theorem opTwinRecover_plain (s : State) (q : QPacket) : (opTwinRecover.body s q).Plain s := guarded_plain (Ans.plain_ok _ _)

/-- The device may change, and a capture bank may be cleared, but the waiting commands are the same and no page is captured. -/
def State.Moves (s t : State) : Prop :=
  t.pending = s.pending ∧ (t.frameBank = s.frameBank ∨ t.frameBank = {}) ∧ (t.reqBank = s.reqBank ∨ t.reqBank = {})

theorem State.Held.moves {s t : State} (h : s.Held t) : s.Moves t := ⟨h.1, .inl h.2.1, .inl h.2.2⟩
theorem State.Moves.trans_held {s t u : State} (h : s.Held t) (k : t.Moves u) : s.Moves u :=
  ⟨k.1.trans h.1, by rw [← h.2.1]; exact k.2.1, by rw [← h.2.2]; exact k.2.2⟩
theorem State.after_moves (s : State) (d : Dev) : s.Moves (s.after d) := by
  unfold State.after; split
  · exact ⟨rfl, .inl rfl, .inl rfl⟩
  · exact ⟨rfl, .inr rfl, .inr rfl⟩
theorem State.dev_moves (s : State) (d : Dev) : s.Moves { s with dev := d } := ⟨rfl, .inl rfl, .inl rfl⟩

theorem runBody_moves {op : Op} (hb : ∀ s q, State.Held s (op.body s q).st) (ha : ∀ q s, State.Moves s (op.after q s)) (s : State) (q : QPacket) :
    s.Moves (runBody op s q) := by
  have h := hb s q
  unfold runBody
  dsimp only
  split
  · exact State.dev_moves _ _
  split
  · exact h.moves
  split
  · exact (h.dev _).moves
  split
  · exact State.dev_moves _ _
  split
  · split
    · exact State.dev_moves _ _
    split
    · exact State.dev_moves _ _
    · exact State.dev_moves _ _
  split
  · exact State.dev_moves _ _
  split
  · unfold endClassN
    dsimp only
    split
    · exact State.dev_moves _ _
    split
    · exact (h.dev _).moves
    · exact State.Moves.trans_held (h.dev _) (ha _ _)
  split
  · exact (h.dev _).moves
  · exact State.Moves.trans_held (h.dev _) (ha _ _)

theorem execQ_moves {op : Op} (hb : ∀ s q, State.Held s (op.body s q).st) (ha : ∀ q s, State.Moves s (op.after q s)) (s : State) (q : QPacket) :
    s.Moves (execQ op s q) := by
  unfold execQ
  split
  · exact State.dev_moves s s.dev
  split
  · exact State.dev_moves _ _
  split
  · exact State.dev_moves _ _
  split
  · exact runBody_moves hb ha s q
  split
  · exact runBody_moves hb ha s q
  · exact State.dev_moves s s.dev
  · exact State.dev_moves _ _

/-- A packet row leaves the waiting commands and captures no page, where its meaning and what follows the reply do so. -/
theorem packetRow_moves {op : Op} (hb : ∀ s q, State.Held s (op.body s q).st) (ha : ∀ q s, State.Moves s (op.after q s)) (p : Packet) (s : State) :
    s.Moves (packetRow op p s) := by
  unfold packetRow
  split
  · exact State.dev_moves s s.dev
  split
  · exact execQ_moves hb ha s _
  split
  · exact State.dev_moves s s.dev
  dsimp only
  split
  · exact State.Moves.trans_held (t := { s with dev := s.dev.take p }) ⟨rfl, rfl, rfl⟩ (execQ_moves hb ha _ _)
  · exact State.dev_moves _ _

/-- What every row of Table 02-20 keeps. -/
def Op.Keeps (op : Op) : Prop := (∀ s q, State.Held s (op.body s q).st) ∧ (∀ q s, State.Moves s (op.after q s))

theorem op_moves {op : Op} (h : ∀ s q, State.Held s (op.body s q).st) (ha : ∀ q s, op.after q s = s := by intros; rfl) : op.Keeps :=
  ⟨h, fun q s => by rw [ha]; exact (State.Held.refl s).moves⟩

theorem opDeviceReset_keeps : opDeviceReset.Keeps := ⟨fun s q => (opDeviceReset_plain s q).1, fun _ s => State.after_moves s _⟩

theorem opFwActivate_keeps : opFwActivate.Keeps := by
  refine ⟨fun s q => (opFwActivate_plain s q).1, fun q s => ?_⟩
  dsimp only [opFwActivate]
  split
  · exact State.after_moves s _
  · exact (State.Held.refl s).moves

theorem opHostConfig_keeps : opHostConfig.Keeps := ⟨fun s q => (opHostConfig_plain s q).1, fun _ s => State.dev_moves s _⟩

theorem opPframeConfig_keeps : opPframeConfig.Keeps := ⟨fun s q => (opPframeConfig_plain s q).1, fun _ s => State.dev_moves s _⟩

theorem opJlPortConfig_keeps : opJlPortConfig.Keeps := ⟨fun s q => (opJlPortConfig_plain s q).1, fun _ s => State.dev_moves s _⟩

theorem opPtpConfig_keeps : opPtpConfig.Keeps := ⟨fun s q => (opPtpConfig_plain s q).1, fun _ s => State.dev_moves s _⟩

theorem opLowpowerSetKeep_keeps : opLowpowerSetKeep.Keeps := ⟨fun s q => (opLowpowerSetKeep_plain s q).1, fun _ s => State.after_moves s _⟩

theorem opcodes1_keeps : ∀ op ∈ opcodes1, op.Keeps := by
  unfold opcodes1
  simp only [List.forall_mem_cons, List.not_mem_nil, false_imp_iff, implies_true, and_true]
  exact ⟨(op_moves (fun s q => (opNop_plain s q).1)),
    (op_moves (fun s q => (opDevIdent_plain s q).1)),
    opDeviceReset_keeps,
    (op_moves (fun s q => (opDieReset_plain s q).1)),
    (op_moves (fun s q => (opFieldReset_plain s q).1)),
    (op_moves (fun s q => (opResetCause_plain s q).1)),
    (op_moves (fun s q => (opFwStage_plain s q).1)),
    opFwActivate_keeps,
    (op_moves (fun s q => (opFrameSet_plain s q).1)),
    (op_moves (fun s q => (opFrameStop_plain s q).1)),
    (op_moves (fun s q => (opFrameStatus_plain s q).1)),
    opHostConfig_keeps,
    (op_moves (fun s q => (opHostStatus_plain s q).1)),
    (op_moves (fun s q => (opEthIfConfig_plain s q).1)),
    (op_moves (fun s q => (opPointRead_plain s q).1)),
    (op_moves (fun s q => (opPointWrite_plain s q).1)),
    (op_moves opPointBlockWrite_held),
    (op_moves opPointBlockRead_held),
    (op_moves (fun s q => (opSnapshotAt_plain s q).1)),
    (op_moves (fun s q => (opSnapshotRead_plain s q).1)),
    (op_moves (fun s q => (opSnapshotStatus_plain s q).1)),
    opPframeConfig_keeps,
    (op_moves (fun s q => (opModelLoad_plain s q).1)),
    (op_moves opModelCommit_held),
    (op_moves (fun s q => (opModelStatus_plain s q).1)),
    (op_moves (fun s q => (opPartitionSet_plain s q).1)),
    (op_moves (fun s q => (opSubstSet_plain s q).1)),
    (op_moves (fun s q => (opJobSubmit_plain s q).1)),
    (op_moves (fun s q => (opJobResult_plain s q).1)),
    (op_moves (fun s q => (opJobCancel_plain s q).1)),
    (op_moves (fun s q => (opMemAlloc_plain s q).1)),
    (op_moves (fun s q => (opMemFree_plain s q).1))⟩

theorem opcodes2_keeps : ∀ op ∈ opcodes2, op.Keeps := by
  unfold opcodes2
  simp only [List.forall_mem_cons, List.not_mem_nil, false_imp_iff, implies_true, and_true]
  exact ⟨(op_moves (fun s q => (opMemWrite_plain s q).1)),
    (op_moves (fun s q => (opMemRead_plain s q).1)),
    (op_moves (fun s q => (opSolverConfig_plain s q).1)),
    (op_moves (fun s q => (opSolverStatus_plain s q).1)),
    (op_moves (fun s q => (opCoordConfigSettings_plain s q).1)),
    (op_moves (fun s q => (opCoordConfigScope_plain s q).1)),
    (op_moves (fun s q => (opCoordStatus_plain s q).1)),
    opJlPortConfig_keeps,
    (op_moves (fun s q => (opJlStatus_plain s q).1)),
    (op_moves (fun s q => (opRelay_plain s q).1)),
    (op_moves (fun s q => (opLoopConfig_plain s q).1)),
    (op_moves (fun s q => (opLoopSectionSet_plain s q).1)),
    (op_moves (fun s q => (opLoopMode_plain s q).1)),
    (op_moves (fun s q => (opLoopStatus_plain s q).1)),
    (op_moves (fun s q => (opOverrideConfig_plain s q).1)),
    (op_moves (fun s q => (opSupervConfig_plain s q).1)),
    (op_moves (fun s q => (opSupervAck_plain s q).1)),
    (op_moves (fun s q => (opSupervRestartModel_plain s q).1)),
    (op_moves (fun s q => (opSupervStatus_plain s q).1)),
    (op_moves (fun s q => (opMogulConfig_plain s q).1)),
    (op_moves (fun s q => (opMogulPageRead_plain s q).1)),
    (op_moves (fun s q => (opTraceConfig_plain s q).1)),
    (op_moves (fun s q => (opTraceArm_plain s q).1)),
    (op_moves (fun s q => (opTraceDisarm_plain s q).1)),
    (op_moves (fun s q => (opTraceRead_plain s q).1)),
    (op_moves (fun s q => (opDchConfig_plain s q).1)),
    (op_moves (fun s q => (opDchStatus_plain s q).1)),
    (op_moves (fun s q => (opArmOutputs_plain s q).1)),
    (op_moves (fun s q => (opOutputSet_plain s q).1)),
    (op_moves (fun s q => (opSafeConfig_plain s q).1)),
    (op_moves (fun s q => (opCounterRead_plain s q).1)),
    (op_moves (fun s q => (opAchConfig_plain s q).1))⟩

theorem opcodes3_keeps : ∀ op ∈ opcodes3, op.Keeps := by
  unfold opcodes3
  simp only [List.forall_mem_cons, List.not_mem_nil, false_imp_iff, implies_true, and_true]
  exact ⟨(op_moves (fun s q => (opSeqWrite_plain s q).1)),
    (op_moves (fun s q => (opSeqStart_plain s q).1)),
    (op_moves (fun s q => (opSeqStop_plain s q).1)),
    (op_moves (fun s q => (opSeqResult_plain s q).1)),
    (op_moves (fun s q => (opCalChannelTrim_plain s q).1)),
    (op_moves (fun s q => (opCalNtc_plain s q).1)),
    (op_moves (fun s q => (opCalAoTrim_plain s q).1)),
    (op_moves (fun s q => (opCalHbManual_plain s q).1)),
    (op_moves (fun s q => (opCalHbAuto_plain s q).1)),
    (op_moves (fun s q => (opCalUserDefaults_plain s q).1)),
    (op_moves (fun s q => (opTestdacSet_plain s q).1)),
    (op_moves (fun s q => (opTimeRead_plain s q).1)),
    (op_moves (fun s q => (opTimeAdjustOffset_plain s q).1)),
    (op_moves (fun s q => (opTimeAdjustStep_plain s q).1)),
    (op_moves (fun s q => (opTimeAdjustSet_plain s q).1)),
    (op_moves (fun s q => (opTimeAdjustFreq_plain s q).1)),
    opPtpConfig_keeps,
    (op_moves (fun s q => (opPtpStatus_plain s q).1)),
    (op_moves (fun s q => (opServoConfig_plain s q).1)),
    (op_moves (fun s q => (opReadRtc_plain s q).1)),
    (op_moves (fun s q => (opWriteRtcNextEdge_plain s q).1)),
    (op_moves (fun s q => (opWriteRtcAtTime_plain s q).1)),
    (op_moves (fun s q => (opRtcTrimSet_plain s q).1)),
    (op_moves (fun s q => (opRtcSyncConfig_plain s q).1)),
    (op_moves (fun s q => (opRtcAlarmSet_plain s q).1)),
    (op_moves (fun s q => (opRtcAlarmCancel_plain s q).1)),
    (op_moves (fun s q => (opEvinConfig_plain s q).1)),
    (op_moves (fun s q => (opEvinRead_plain s q).1)),
    (op_moves (fun s q => (opCanConfig_plain s q).1)),
    (op_moves (fun s q => (opCanFilter_plain s q).1)),
    (op_moves (fun s q => (opCanSend_plain s q).1)),
    (op_moves (fun s q => (opCanReceive_plain s q).1))⟩

theorem opcodes4_keeps : ∀ op ∈ opcodes4, op.Keeps := by
  unfold opcodes4
  simp only [List.forall_mem_cons, List.not_mem_nil, false_imp_iff, implies_true, and_true]
  exact ⟨(op_moves (fun s q => (opCanStatus_plain s q).1)),
    (op_moves (fun s q => (opCanTimeConfig_plain s q).1)),
    (op_moves (fun s q => (opCanMap_plain s q).1)),
    (op_moves (fun s q => (opCanRecoverBus_plain s q).1)),
    (op_moves (fun s q => (opCanRecoverBuffer_plain s q).1)),
    (op_moves (fun s q => (opRecRead_plain s q).1)),
    (op_moves (fun s q => (opRecStatus_plain s q).1)),
    (op_moves (fun s q => (opRecMark_plain s q).1)),
    (op_moves opKeyProvision_held),
    (op_moves (fun s q => (opKeyDerive_plain s q).1)),
    (op_moves (fun s q => (opKeyStatus_plain s q).1)),
    (op_moves (fun s q => (opKeyChallenge_plain s q).1)),
    (op_moves (fun s q => (opKeyErase_plain s q).1)),
    (op_moves (fun s q => (opBudgetStatus_plain s q).1)),
    (op_moves (fun s q => (opPwrCapSet_plain s q).1)),
    (op_moves (fun s q => (opBudgetConfig_plain s q).1)),
    (op_moves (fun s q => (opTwinStatus_plain s q).1)),
    (op_moves (fun s q => (opSwap_plain s q).1)),
    (op_moves (fun s q => (opSwapCancel_plain s q).1)),
    (op_moves (fun s q => (opTwinConfig_plain s q).1)),
    (op_moves (fun s q => (opTwinRecover_plain s q).1)),
    (op_moves (fun s q => (opHealthReport_plain s q).1)),
    (op_moves (fun s q => (opPwrStatus_plain s q).1)),
    (op_moves (fun s q => (opLowpowerSetRun_plain s q).1)),
    (op_moves (fun s q => (opLowpowerSetQuiesce_plain s q).1)),
    opLowpowerSetKeep_keeps,
    (op_moves (fun s q => (opRailConfig_plain s q).1)),
    (op_moves (fun s q => (opSelftestRun_plain s q).1)),
    (op_moves (fun s q => (opSelftestResult_plain s q).1)),
    (op_moves (fun s q => (opDiagRead_plain s q).1)),
    (op_moves (fun s q => (opDiagWrite_plain s q).1)),
    (op_moves (fun s q => (opDiagModify_plain s q).1))⟩

/-- The row that a packet spells keeps what every row keeps. -/
theorem opOf_keeps {p : Packet} {op : Op} (h : opOf p = some op) : op.Keeps := by
  have m := List.mem_of_find?_eq_some h
  simp only [List.mem_append] at m
  rcases m with ((m | m) | m) | m
  · exact opcodes1_keeps op m
  · exact opcodes2_keeps op m
  · exact opcodes3_keeps op m
  · exact opcodes4_keeps op m

theorem State.admitNow_moves {op : Op} (k : op.Keeps) (s : State) (q : QPacket) : s.Moves (s.admitNow op q) := by
  have h := k.1 s q
  unfold State.admitNow endClassN
  dsimp only
  split
  · exact State.dev_moves s _
  split
  · exact State.Moves.trans_held (h.dev _) (k.2 _ _)
  split
  · exact State.dev_moves s _
  split
  · exact (h.dev _).moves
  · exact State.Moves.trans_held (h.dev _) (k.2 _ _)

theorem State.journalled_moves (s : State) (e : JournalEntry) : s.Moves (s.journalled e) := by
  unfold State.journalled
  split
  · exact State.dev_moves s s.dev
  dsimp only
  split
  · exact State.dev_moves s _
  · exact State.Moves.trans_held (State.Held.refl s |>.dev _) ((opOf_keeps ‹_›).2 _ _)

/-- The write that ends leaves the waiting commands and captures no page. -/
theorem State.written_moves (s : State) (r : EmramReq) : s.Moves (s.written r) := by
  unfold State.written
  split
  · exact State.dev_moves s s.dev
  · exact State.dev_moves s s.dev
  · unfold State.drain
    split
    · exact State.dev_moves s s.dev
    dsimp only
    split
    · exact State.Moves.trans_held (State.Held.refl s |>.dev _) (State.journalled_moves _ _)
    · exact State.dev_moves s _
  · exact State.dev_moves s _
  · exact State.dev_moves s _

theorem core_run_next (M : Host.Core) (k : Nat) (s t : M.State) (h : M.step s = .next t) : M.run (k + 1) s = M.run k t := by
  simp [Host.Core.run, h]

/-- A run whose first step answers a next state goes on from it. -/
theorem run_next (k : Nat) (s t : State) (h : step s = .next t) : Host.Core.run Sys2Proof.core (k + 1) s = Host.Core.run Sys2Proof.core k t :=
  core_run_next Sys2Proof.core k s t h

end Sys2Proof.Machine
end

