-- ==== Sys2Proof/Laws/Commands.lean ====
section
/-! SUPPORT. What every command has in common: it answers a next state, leaves the waiting commands as they stand, and keeps the banks of captured
pages sound. One lemma for each row of the command table. -/

namespace Sys2Proof.Machine

open Sys2Proof.Bits

/-- The waiting commands stand as they were, and sound banks stay sound. -/
def State.Keeps (s t : State) : Prop :=
  t.pending = s.pending ∧ (s.frameBank.Sound 32768 → t.frameBank.Sound 32768) ∧ (s.reqBank.Sound 65536 → t.reqBank.Sound 65536)

theorem Bank.sound_empty (limit : Nat) : Bank.Sound limit {} := ⟨fun _ h => (by cases h), rfl, fun _ => rfl⟩
theorem State.Moves.keeps {s t : State} (h : s.Moves t) : s.Keeps t :=
  ⟨h.1, fun k => by rcases h.2.1 with e | e <;> rw [e] <;> first | exact k | exact Bank.sound_empty _,
    fun k => by rcases h.2.2 with e | e <;> rw [e] <;> first | exact k | exact Bank.sound_empty _⟩
theorem State.dev_keeps (s : State) (d : Dev) : s.Keeps { s with dev := d } := (State.dev_moves s d).keeps
theorem State.Keeps.refl (s : State) : s.Keeps s := ⟨rfl, id, id⟩
theorem State.after_keeps (s : State) (d : Dev) : s.Keeps (s.after d) := (State.after_moves s d).keeps
theorem State.keeps_after {s t : State} (d : Dev) (h : s.Keeps t) : s.Keeps (t.after d) :=
  ⟨(State.after_keeps t d).1.trans h.1, fun k => (State.after_keeps t d).2.1 (h.2.1 k), fun k => (State.after_keeps t d).2.2 (h.2.2 k)⟩

theorem execLinkTransferError_keeps : ∀ l s, ∃ t, execLinkTransferError l s = .next t ∧ s.Keeps t := by
  intro l s
  unfold execLinkTransferError
  refine ⟨_, rfl, ?_⟩
  try dsimp only [hubStep]
  repeat' (first | with_reducible exact State.dev_keeps _ _ | with_reducible exact State.Keeps.refl _ | with_reducible exact State.after_keeps _ _ | exact ⟨rfl, id, id⟩ | split)
theorem execLinkReplayExhausted_keeps : ∀ l s, ∃ t, execLinkReplayExhausted l s = .next t ∧ s.Keeps t := by
  intro l s
  unfold execLinkReplayExhausted
  refine ⟨_, rfl, ?_⟩
  try dsimp only [hubStep]
  repeat' (first | with_reducible exact State.dev_keeps _ _ | with_reducible exact State.Keeps.refl _ | with_reducible exact State.after_keeps _ _ | exact ⟨rfl, id, id⟩ | split)
theorem execLinkRetrain_keeps : ∀ l ok s, ∃ t, execLinkRetrain l ok s = .next t ∧ s.Keeps t := by
  intro l ok s
  unfold execLinkRetrain
  refine ⟨_, rfl, ?_⟩
  try dsimp only [hubStep]
  repeat' (first | with_reducible exact State.dev_keeps _ _ | with_reducible exact State.Keeps.refl _ | with_reducible exact State.after_keeps _ _ | exact ⟨rfl, id, id⟩ | split)
theorem execHubPllLoss_keeps : ∀ s, ∃ t, execHubPllLoss s = .next t ∧ s.Keeps t := by
  intro s
  unfold execHubPllLoss
  refine ⟨_, rfl, ?_⟩
  try dsimp only [hubStep]
  repeat' (first | with_reducible exact State.dev_keeps _ _ | with_reducible exact State.Keeps.refl _ | with_reducible exact State.after_keeps _ _)
theorem execCtlPllLoss_keeps : ∀ die s, ∃ t, execCtlPllLoss die s = .next t ∧ s.Keeps t := by
  intro die s
  unfold execCtlPllLoss
  refine ⟨_, rfl, ?_⟩
  try dsimp only [hubStep]
  repeat' (with_reducible exact State.dev_keeps _ _)
theorem execFldPllLoss_keeps : ∀ die s, ∃ t, execFldPllLoss die s = .next t ∧ s.Keeps t := by
  intro die s
  unfold execFldPllLoss
  refine ⟨_, rfl, ?_⟩
  try dsimp only [hubStep]
  repeat' (first | with_reducible exact State.dev_keeps _ _ | with_reducible exact State.Keeps.refl _ | with_reducible exact State.after_keeps _ _ | exact ⟨rfl, id, id⟩ | split)
theorem execFldPllRelock_keeps : ∀ die s, ∃ t, execFldPllRelock die s = .next t ∧ s.Keeps t := by
  intro die s
  unfold execFldPllRelock
  refine ⟨_, rfl, ?_⟩
  try dsimp only [hubStep]
  repeat' (first | with_reducible exact State.dev_keeps _ _ | with_reducible exact State.Keeps.refl _ | with_reducible exact State.after_keeps _ _ | exact ⟨rfl, id, id⟩ | split)
theorem execCreditReturn_keeps : ∀ kind inst s, ∃ t, execCreditReturn kind inst s = .next t ∧ s.Keeps t := by
  intro kind inst s
  unfold execCreditReturn execSampleSend
  split
  · split
    · refine ⟨_, rfl, ?_⟩
      split
      · exact State.Keeps.refl _
      · exact State.dev_keeps _ _
    · exact ⟨_, rfl, State.Keeps.refl _⟩
  all_goals (refine ⟨_, rfl, ?_⟩; (repeat' (with_reducible exact State.dev_keeps _ _)))
theorem execSampleArrival_keeps : ∀ die s, ∃ t, execSampleArrival die s = .next t ∧ s.Keeps t := by
  intro die s
  unfold execSampleArrival
  refine ⟨_, rfl, ?_⟩
  try dsimp only [hubStep]
  repeat' (first | with_reducible exact State.dev_keeps _ _ | with_reducible exact State.Keeps.refl _ | with_reducible exact State.after_keeps _ _ | exact ⟨rfl, id, id⟩ | split)
theorem execEventRoute_keeps : ∀ s, ∃ t, execEventRoute s = .next t ∧ s.Keeps t := by
  intro s
  unfold execEventRoute
  refine ⟨_, rfl, ?_⟩
  try dsimp only [hubStep]
  repeat' (first | with_reducible exact State.dev_keeps _ _ | with_reducible exact State.Keeps.refl _ | with_reducible exact State.after_keeps _ _ | exact ⟨rfl, id, id⟩ | split)
theorem execEvrQueueDrain_keeps : ∀ s, ∃ t, execEvrQueueDrain s = .next t ∧ s.Keeps t := by
  intro s
  unfold execEvrQueueDrain
  refine ⟨_, rfl, ?_⟩
  try dsimp only [hubStep]
  repeat' (first | with_reducible exact State.dev_keeps _ _ | with_reducible exact State.Keeps.refl _ | with_reducible exact State.after_keeps _ _ | exact ⟨rfl, id, id⟩ | split)
theorem execFrameBoundary_keeps : ∀ s, ∃ t, execFrameBoundary s = .next t ∧ s.Keeps t := by
  intro s
  unfold execFrameBoundary
  refine ⟨_, rfl, ?_⟩
  (repeat' (first | with_reducible exact State.dev_keeps _ _ | exact ⟨rfl, id, id⟩ | exact ⟨rfl, fun _ => ⟨fun n h => (by cases h; omega), rfl, fun h => (by cases h)⟩, id⟩ | exact ⟨rfl, id, fun _ => ⟨fun n h => (by cases h; exact BitVec.isLt _), rfl, fun h => (by cases h)⟩⟩ | split))
theorem execGenerationCommit_keeps : ∀ s, ∃ t, execGenerationCommit s = .next t ∧ s.Keeps t := by
  intro s
  unfold execGenerationCommit
  refine ⟨_, rfl, ?_⟩
  try dsimp only [hubStep]
  repeat' (first | with_reducible exact State.dev_keeps _ _ | with_reducible exact State.Keeps.refl _ | with_reducible exact State.after_keeps _ _ | exact ⟨rfl, id, id⟩ | split)
theorem execPisteResume_keeps : ∀ pipe s, ∃ t, execPisteResume pipe s = .next t ∧ s.Keeps t := by
  intro pipe s
  unfold execPisteResume
  refine ⟨_, rfl, ?_⟩
  try dsimp only [hubStep]
  repeat' (with_reducible exact State.dev_keeps _ _)
theorem execJobIssue_keeps : ∀ k s, ∃ t, execJobIssue k s = .next t ∧ s.Keeps t := by
  intro k s
  unfold execJobIssue
  refine ⟨_, rfl, ?_⟩
  try dsimp only [hubStep]
  repeat' (first | with_reducible exact State.dev_keeps _ _ | with_reducible exact State.Keeps.refl _ | with_reducible exact State.after_keeps _ _ | exact ⟨rfl, id, id⟩ | split)
theorem execJobEnd_keeps : ∀ k j cycles s, ∃ t, execJobEnd k j cycles s = .next t ∧ s.Keeps t := by
  intro k j cycles s
  unfold execJobEnd
  refine ⟨_, rfl, ?_⟩
  try dsimp only [hubStep]
  repeat' (first | with_reducible exact State.dev_keeps _ _ | with_reducible exact State.Keeps.refl _ | with_reducible exact State.after_keeps _ _ | exact ⟨rfl, id, id⟩ | split)
theorem execSeMemoryEcc_keeps : ∀ k uncorrectable s, ∃ t, execSeMemoryEcc k uncorrectable s = .next t ∧ s.Keeps t := by
  intro k uncorrectable s
  unfold execSeMemoryEcc
  refine ⟨_, rfl, ?_⟩
  try dsimp only [hubStep]
  repeat' (first | with_reducible exact State.dev_keeps _ _ | with_reducible exact State.Keeps.refl _ | with_reducible exact State.after_keeps _ _ | exact ⟨rfl, id, id⟩ | split)
theorem execEngineDrained_keeps : ∀ k s, ∃ t, execEngineDrained k s = .next t ∧ s.Keeps t := by
  intro k s
  unfold execEngineDrained
  refine ⟨_, rfl, ?_⟩
  try dsimp only [hubStep]
  repeat' (first | with_reducible exact State.dev_keeps _ _ | with_reducible exact State.Keeps.refl _ | with_reducible exact State.after_keeps _ _ | exact ⟨rfl, id, id⟩ | split)
theorem execCoordStep_keeps : ∀ s, ∃ t, execCoordStep s = .next t ∧ s.Keeps t := by
  intro s
  unfold execCoordStep
  refine ⟨_, rfl, ?_⟩
  try dsimp only [hubStep]
  repeat' (first | with_reducible exact State.dev_keeps _ _ | with_reducible exact State.Keeps.refl _ | with_reducible exact State.after_keeps _ _ | exact ⟨rfl, id, id⟩ | split)
theorem execReportDeadline_keeps : ∀ s, ∃ t, execReportDeadline s = .next t ∧ s.Keeps t := by
  intro s
  unfold execReportDeadline
  refine ⟨_, rfl, ?_⟩
  try dsimp only [hubStep]
  repeat' (first | with_reducible exact State.dev_keeps _ _ | with_reducible exact State.Keeps.refl _ | with_reducible exact State.after_keeps _ _ | exact ⟨rfl, id, id⟩ | split)
theorem execWorkerDrop_keeps : ∀ port s, ∃ t, execWorkerDrop port s = .next t ∧ s.Keeps t := by
  intro port s
  unfold execWorkerDrop
  refine ⟨_, rfl, ?_⟩
  try dsimp only [hubStep]
  repeat' (first | with_reducible exact State.dev_keeps _ _ | with_reducible exact State.Keeps.refl _ | with_reducible exact State.after_keeps _ _ | exact ⟨rfl, id, id⟩ | split)
theorem execCoordUpReceive_keeps : ∀ port m s, ∃ t, execCoordUpReceive port m s = .next t ∧ s.Keeps t := by
  intro port m s
  unfold execCoordUpReceive
  refine ⟨_, rfl, ?_⟩
  try dsimp only [hubStep]
  repeat' (first | with_reducible exact State.dev_keeps _ _ | with_reducible exact State.Keeps.refl _ | with_reducible exact State.after_keeps _ _ | exact ⟨rfl, id, id⟩ | split)
theorem execCoordDownReceive_keeps : ∀ m s, ∃ t, execCoordDownReceive m s = .next t ∧ s.Keeps t := by
  intro m s
  unfold execCoordDownReceive
  refine ⟨_, rfl, ?_⟩
  try dsimp only [hubStep]
  repeat' (first | with_reducible exact State.dev_keeps _ _ | with_reducible exact State.Keeps.refl _ | with_reducible exact State.after_keeps _ _ | exact ⟨rfl, id, id⟩ | split)
theorem execFrameDeadline_keeps : ∀ s, ∃ t, execFrameDeadline s = .next t ∧ s.Keeps t := by
  intro s
  unfold execFrameDeadline
  refine ⟨_, rfl, ?_⟩
  try dsimp only [hubStep]
  repeat' (first | with_reducible exact State.dev_keeps _ _ | with_reducible exact State.Keeps.refl _ | with_reducible exact State.after_keeps _ _ | exact ⟨rfl, id, id⟩ | split)
theorem execFrameCheckpoint_keeps : ∀ s, ∃ t, execFrameCheckpoint s = .next t ∧ s.Keeps t := by
  intro s
  unfold execFrameCheckpoint
  refine ⟨_, rfl, ?_⟩
  try dsimp only [hubStep]
  repeat' (first | with_reducible exact State.dev_keeps _ _ | with_reducible exact State.Keeps.refl _ | with_reducible exact State.after_keeps _ _ | exact ⟨rfl, id, id⟩ | split)
theorem execStoppedCheckpoint_keeps : ∀ s, ∃ t, execStoppedCheckpoint s = .next t ∧ s.Keeps t := by
  intro s
  unfold execStoppedCheckpoint
  refine ⟨_, rfl, ?_⟩
  try dsimp only [hubStep]
  repeat' (first | with_reducible exact State.dev_keeps _ _ | with_reducible exact State.Keeps.refl _ | with_reducible exact State.after_keeps _ _ | exact ⟨rfl, id, id⟩ | split)
theorem execHubSqTailWrite_keeps : ∀ v fetched s, ∃ t, execHubSqTailWrite v fetched s = .next t ∧ s.Keeps t := by
  intro v fetched s
  unfold execHubSqTailWrite
  refine ⟨_, rfl, ?_⟩
  try dsimp only [hubStep]
  repeat' (first | with_reducible exact State.dev_keeps _ _ | with_reducible exact State.Keeps.refl _ | with_reducible exact State.after_keeps _ _ | exact ⟨rfl, id, id⟩ | split)
theorem execHubCqHeadWrite_keeps : ∀ v s, ∃ t, execHubCqHeadWrite v s = .next t ∧ s.Keeps t := by
  intro v s
  unfold execHubCqHeadWrite
  refine ⟨_, rfl, ?_⟩
  try dsimp only [hubStep]
  repeat' (first | with_reducible exact State.dev_keeps _ _ | with_reducible exact State.Keeps.refl _ | with_reducible exact State.after_keeps _ _ | exact ⟨rfl, id, id⟩ | split)
theorem execHubHostCtlWrite_keeps : ∀ v s, ∃ t, execHubHostCtlWrite v s = .next t ∧ s.Keeps t := by
  intro v s
  unfold execHubHostCtlWrite
  refine ⟨_, rfl, ?_⟩
  try dsimp only [hubStep]
  repeat' (first | with_reducible exact State.dev_keeps _ _ | with_reducible exact State.Keeps.refl _ | with_reducible exact State.after_keeps _ _ | exact ⟨rfl, id, id⟩ | split)
theorem execHubHostErrWrite_keeps : ∀ v s, ∃ t, execHubHostErrWrite v s = .next t ∧ s.Keeps t := by
  intro v s
  unfold execHubHostErrWrite
  refine ⟨_, rfl, ?_⟩
  try dsimp only [hubStep]
  repeat' (first | with_reducible exact State.dev_keeps _ _ | with_reducible exact State.Keeps.refl _ | with_reducible exact State.after_keeps _ _ | exact ⟨rfl, id, id⟩ | split)
theorem execCqIrqTimeout_keeps : ∀ s, ∃ t, execCqIrqTimeout s = .next t ∧ s.Keeps t := by
  intro s
  unfold execCqIrqTimeout
  refine ⟨_, rfl, ?_⟩
  try dsimp only [hubStep]
  repeat' (first | with_reducible exact State.dev_keeps _ _ | with_reducible exact State.Keeps.refl _ | with_reducible exact State.after_keeps _ _ | exact ⟨rfl, id, id⟩ | split)
theorem execPcieLinkReset_keeps : ∀ kind s, ∃ t, execPcieLinkReset kind s = .next t ∧ s.Keeps t := by
  intro kind s
  unfold execPcieLinkReset
  refine ⟨_, rfl, ?_⟩
  try dsimp only [hubStep]
  repeat' (first | with_reducible exact State.dev_keeps _ _ | with_reducible exact State.Keeps.refl _ | with_reducible exact State.after_keeps _ _ | exact ⟨rfl, id, id⟩ | split)
theorem execReadStatus_keeps : ∀ s, ∃ t, execReadStatus s = .next t ∧ s.Keeps t := by
  intro s
  unfold execReadStatus
  refine ⟨_, rfl, ?_⟩
  try dsimp only [hubStep]
  repeat' (first | with_reducible exact State.dev_keeps _ _ | with_reducible exact State.Keeps.refl _ | with_reducible exact State.after_keeps _ _ | exact ⟨rfl, id, id⟩ | split)
theorem execWritePacket_keeps : ∀ p crc s, ∃ t, execWritePacket p crc s = .next t ∧ s.Keeps t := by
  intro p crc s
  unfold execWritePacket
  refine ⟨_, rfl, ?_⟩
  try dsimp only [hubStep]
  repeat' (first | with_reducible exact State.dev_keeps _ _ | with_reducible exact State.Keeps.refl _ | with_reducible exact State.after_keeps _ _ | exact ⟨rfl, id, id⟩ | split)
theorem execWritePacketQ_keeps : ∀ p crc s, ∃ t, execWritePacketQ p crc s = .next t ∧ s.Keeps t := by
  intro p crc s
  unfold execWritePacketQ
  refine ⟨_, rfl, ?_⟩
  try dsimp only [hubStep]
  repeat' (first | with_reducible exact State.dev_keeps _ _ | with_reducible exact State.Keeps.refl _ | with_reducible exact State.after_keeps _ _ | exact ⟨rfl, id, id⟩ | split)
theorem execReadReply_keeps : ∀ s, ∃ t, execReadReply s = .next t ∧ s.Keeps t := by
  intro s
  unfold execReadReply
  refine ⟨_, rfl, ?_⟩
  try dsimp only [hubStep]
  repeat' (first | with_reducible exact State.dev_keeps _ _ | with_reducible exact State.Keeps.refl _ | with_reducible exact State.after_keeps _ _ | exact ⟨rfl, id, id⟩ | split)
theorem execReadReplyQ_keeps : ∀ s, ∃ t, execReadReplyQ s = .next t ∧ s.Keeps t := by
  intro s
  unfold execReadReplyQ
  refine ⟨_, rfl, ?_⟩
  try dsimp only [hubStep]
  repeat' (first | with_reducible exact State.dev_keeps _ _ | with_reducible exact State.Keeps.refl _ | with_reducible exact State.after_keeps _ _ | exact ⟨rfl, id, id⟩ | split)
theorem execAckReply_keeps : ∀ tag crc s, ∃ t, execAckReply tag crc s = .next t ∧ s.Keeps t := by
  intro tag crc s
  unfold execAckReply
  refine ⟨_, rfl, ?_⟩
  try dsimp only [hubStep]
  repeat' (first | with_reducible exact State.dev_keeps _ _ | with_reducible exact State.Keeps.refl _ | with_reducible exact State.after_keeps _ _ | exact ⟨rfl, id, id⟩ | split)
theorem execEthCmdDatagram_keeps : ∀ port p s, ∃ t, execEthCmdDatagram port p s = .next t ∧ s.Keeps t := by
  intro port p s
  unfold execEthCmdDatagram
  refine ⟨_, rfl, ?_⟩
  try dsimp only [hubStep]
  repeat' (first | with_reducible exact State.dev_keeps _ _ | with_reducible exact State.Keeps.refl _ | with_reducible exact State.after_keeps _ _ | exact ⟨rfl, id, id⟩ | split)
theorem execJalowRelayReceive_keeps : ∀ m s, ∃ t, execJalowRelayReceive m s = .next t ∧ s.Keeps t := by
  intro m s
  unfold execJalowRelayReceive
  refine ⟨_, rfl, ?_⟩
  try dsimp only [hubStep]
  repeat' (first | with_reducible exact State.dev_keeps _ _ | with_reducible exact State.Keeps.refl _ | with_reducible exact State.after_keeps _ _ | exact ⟨rfl, id, id⟩ | split)
theorem execJalowReplyReceive_keeps : ∀ port m s, ∃ t, execJalowReplyReceive port m s = .next t ∧ s.Keeps t := by
  intro port m s
  unfold execJalowReplyReceive
  refine ⟨_, rfl, ?_⟩
  try dsimp only [hubStep]
  repeat' (first | with_reducible exact State.dev_keeps _ _ | with_reducible exact State.Keeps.refl _ | with_reducible exact State.after_keeps _ _ | exact ⟨rfl, id, id⟩ | split)
theorem execRelayTimeout_keeps : ∀ tag s, ∃ t, execRelayTimeout tag s = .next t ∧ s.Keeps t := by
  intro tag s
  unfold execRelayTimeout
  refine ⟨_, rfl, ?_⟩
  try dsimp only [hubStep]
  repeat' (first | with_reducible exact State.dev_keeps _ _ | with_reducible exact State.Keeps.refl _ | with_reducible exact State.after_keeps _ _ | exact ⟨rfl, id, id⟩ | split)
theorem execPointFrameReceive_keeps : ∀ port src dg s, ∃ t, execPointFrameReceive port src dg s = .next t ∧ s.Keeps t := by
  intro port src dg s
  unfold execPointFrameReceive
  refine ⟨_, rfl, ?_⟩
  try dsimp only [hubStep]
  repeat' (first | with_reducible exact State.dev_keeps _ _ | with_reducible exact State.Keeps.refl _ | with_reducible exact State.after_keeps _ _ | exact ⟨rfl, id, id⟩ | split)
theorem execPointEccError_keeps : ∀ id s, ∃ t, execPointEccError id s = .next t ∧ s.Keeps t := by
  intro id s
  unfold execPointEccError
  refine ⟨_, rfl, ?_⟩
  try dsimp only [hubStep]
  repeat' (first | with_reducible exact State.dev_keeps _ _ | with_reducible exact State.Keeps.refl _ | with_reducible exact State.after_keeps _ _ | exact ⟨rfl, id, id⟩ | split)
theorem execWaitingWriteLand_keeps : ∀ s, ∃ t, execWaitingWriteLand s = .next t ∧ s.Keeps t := by
  intro s
  unfold execWaitingWriteLand
  refine ⟨_, rfl, ?_⟩
  try dsimp only [hubStep]
  repeat' (first | with_reducible exact State.dev_keeps _ _ | with_reducible exact State.Keeps.refl _ | with_reducible exact State.after_keeps _ _ | exact ⟨rfl, id, id⟩ | split)
theorem execRequestedCapture_keeps : ∀ s, ∃ t, execRequestedCapture s = .next t ∧ s.Keeps t := by
  intro s
  unfold execRequestedCapture
  refine ⟨_, rfl, ?_⟩
  (repeat' (first | with_reducible exact State.dev_keeps _ _ | exact ⟨rfl, id, id⟩ | exact ⟨rfl, fun _ => ⟨fun n h => (by cases h; omega), rfl, fun h => (by cases h)⟩, id⟩ | exact ⟨rfl, id, fun _ => ⟨fun n h => (by cases h; exact BitVec.isLt _), rfl, fun h => (by cases h)⟩⟩ | split))
theorem execAtSnapshotRelease_keeps : ∀ s, ∃ t, execAtSnapshotRelease s = .next t ∧ s.Keeps t := by
  intro s
  unfold execAtSnapshotRelease
  refine ⟨_, rfl, ?_⟩
  split
  · exact State.Keeps.refl _
  split
  · exact State.Keeps.refl _
  · exact (execQ_moves (opOf_keeps ‹_›).1 (opOf_keeps ‹_›).2 _ _).keeps
theorem execModelImageLoad_keeps : ∀ s, ∃ t, execModelImageLoad s = .next t ∧ s.Keeps t := by
  intro s
  unfold execModelImageLoad
  refine ⟨_, rfl, ?_⟩
  try dsimp only [hubStep]
  repeat' (first | with_reducible exact State.dev_keeps _ _ | with_reducible exact State.Keeps.refl _ | with_reducible exact State.after_keeps _ _ | exact ⟨rfl, id, id⟩ | split)
theorem execJlHelloTimer_keeps : ∀ port s, ∃ t, execJlHelloTimer port s = .next t ∧ s.Keeps t := by
  intro port s
  unfold execJlHelloTimer
  refine ⟨_, rfl, ?_⟩
  try dsimp only [hubStep]
  repeat' (first | with_reducible exact State.dev_keeps _ _ | with_reducible exact State.Keeps.refl _ | with_reducible exact State.after_keeps _ _ | exact ⟨rfl, id, id⟩ | split)
theorem execJlHelloReceive_keeps : ∀ port m s, ∃ t, execJlHelloReceive port m s = .next t ∧ s.Keeps t := by
  intro port m s
  unfold execJlHelloReceive
  refine ⟨_, rfl, ?_⟩
  try dsimp only [hubStep]
  repeat' (first | with_reducible exact State.dev_keeps _ _ | with_reducible exact State.Keeps.refl _ | with_reducible exact State.after_keeps _ _ | exact ⟨rfl, id, id⟩ | split)
theorem execJlRetryTimer_keeps : ∀ port s, ∃ t, execJlRetryTimer port s = .next t ∧ s.Keeps t := by
  intro port s
  unfold execJlRetryTimer
  refine ⟨_, rfl, ?_⟩
  try dsimp only [hubStep]
  repeat' (first | with_reducible exact State.dev_keeps _ _ | with_reducible exact State.Keeps.refl _ | with_reducible exact State.after_keeps _ _ | exact ⟨rfl, id, id⟩ | split)
theorem execJlFrameReceive_keeps : ∀ port f s, ∃ t, execJlFrameReceive port f s = .next t ∧ s.Keeps t := by
  intro port f s
  unfold execJlFrameReceive
  refine ⟨_, rfl, ?_⟩
  try dsimp only [hubStep]
  repeat' (first | with_reducible exact State.dev_keeps _ _ | with_reducible exact State.Keeps.refl _ | with_reducible exact State.after_keeps _ _ | exact ⟨rfl, id, id⟩ | split)
theorem execJlNakReceive_keeps : ∀ port seq s, ∃ t, execJlNakReceive port seq s = .next t ∧ s.Keeps t := by
  intro port seq s
  unfold execJlNakReceive
  refine ⟨_, rfl, ?_⟩
  try dsimp only [hubStep]
  repeat' (first | with_reducible exact State.dev_keeps _ _ | with_reducible exact State.Keeps.refl _ | with_reducible exact State.after_keeps _ _ | exact ⟨rfl, id, id⟩ | split)
theorem execJlAckTimeout_keeps : ∀ port s, ∃ t, execJlAckTimeout port s = .next t ∧ s.Keeps t := by
  intro port s
  unfold execJlAckTimeout
  refine ⟨_, rfl, ?_⟩
  try dsimp only [hubStep]
  repeat' (first | with_reducible exact State.dev_keeps _ _ | with_reducible exact State.Keeps.refl _ | with_reducible exact State.after_keeps _ _ | exact ⟨rfl, id, id⟩ | split)
theorem execJlIdleTimer_keeps : ∀ port s, ∃ t, execJlIdleTimer port s = .next t ∧ s.Keeps t := by
  intro port s
  unfold execJlIdleTimer
  refine ⟨_, rfl, ?_⟩
  try dsimp only [hubStep]
  repeat' (first | with_reducible exact State.dev_keeps _ _ | with_reducible exact State.Keeps.refl _ | with_reducible exact State.after_keeps _ _ | exact ⟨rfl, id, id⟩ | split)
theorem execJlLinkLoss_keeps : ∀ port signal s, ∃ t, execJlLinkLoss port signal s = .next t ∧ s.Keeps t := by
  intro port signal s
  unfold execJlLinkLoss
  refine ⟨_, rfl, ?_⟩
  try dsimp only [hubStep]
  repeat' (first | with_reducible exact State.dev_keeps _ _ | with_reducible exact State.Keeps.refl _ | with_reducible exact State.after_keeps _ _ | exact ⟨rfl, id, id⟩ | split)
theorem execJlPointsReceive_keeps : ∀ port m s, ∃ t, execJlPointsReceive port m s = .next t ∧ s.Keeps t := by
  intro port m s
  unfold execJlPointsReceive
  refine ⟨_, rfl, ?_⟩
  try dsimp only [hubStep]
  repeat' (first | with_reducible exact State.dev_keeps _ _ | with_reducible exact State.Keeps.refl _ | with_reducible exact State.after_keeps _ _ | exact ⟨rfl, id, id⟩ | split)
theorem execJlEventReceive_keeps : ∀ port m s, ∃ t, execJlEventReceive port m s = .next t ∧ s.Keeps t := by
  intro port m s
  unfold execJlEventReceive
  refine ⟨_, rfl, ?_⟩
  try dsimp only [hubStep]
  repeat' (first | with_reducible exact State.dev_keeps _ _ | with_reducible exact State.Keeps.refl _ | with_reducible exact State.after_keeps _ _ | exact ⟨rfl, id, id⟩ | split)
theorem execLoopTick_keeps : ∀ i s, ∃ t, execLoopTick i s = .next t ∧ s.Keeps t := by
  intro i s
  unfold execLoopTick
  refine ⟨_, rfl, ?_⟩
  try dsimp only [hubStep]
  repeat' (first | with_reducible exact State.dev_keeps _ _ | with_reducible exact State.Keeps.refl _ | with_reducible exact State.after_keeps _ _ | exact ⟨rfl, id, id⟩ | split)
theorem execLoopComputeDeadline_keeps : ∀ i s, ∃ t, execLoopComputeDeadline i s = .next t ∧ s.Keeps t := by
  intro i s
  unfold execLoopComputeDeadline
  refine ⟨_, rfl, ?_⟩
  try dsimp only [hubStep]
  repeat' (first | with_reducible exact State.dev_keeps _ _ | with_reducible exact State.Keeps.refl _ | with_reducible exact State.after_keeps _ _ | exact ⟨rfl, id, id⟩ | split)
theorem execLoopStaleLimit_keeps : ∀ i s, ∃ t, execLoopStaleLimit i s = .next t ∧ s.Keeps t := by
  intro i s
  unfold execLoopStaleLimit
  refine ⟨_, rfl, ?_⟩
  try dsimp only [hubStep]
  repeat' (first | with_reducible exact State.dev_keeps _ _ | with_reducible exact State.Keeps.refl _ | with_reducible exact State.after_keeps _ _ | exact ⟨rfl, id, id⟩ | split)
theorem execNumericManual_keeps : ∀ i s, ∃ t, execNumericManual i s = .next t ∧ s.Keeps t := by
  intro i s
  unfold execNumericManual
  refine ⟨_, rfl, ?_⟩
  try dsimp only [hubStep]
  repeat' (first | with_reducible exact State.dev_keeps _ _ | with_reducible exact State.Keeps.refl _ | with_reducible exact State.after_keeps _ _ | exact ⟨rfl, id, id⟩ | split)
theorem execOutputApply_keeps : ∀ s, ∃ t, execOutputApply s = .next t ∧ s.Keeps t := by
  intro s
  unfold execOutputApply
  refine ⟨_, rfl, ?_⟩
  try dsimp only [hubStep]
  repeat' (first | with_reducible exact State.dev_keeps _ _ | with_reducible exact State.Keeps.refl _ | with_reducible exact State.after_keeps _ _ | exact ⟨rfl, id, id⟩ | split)
theorem execSupervEvaluation_keeps : ∀ i s, ∃ t, execSupervEvaluation i s = .next t ∧ s.Keeps t := by
  intro i s
  unfold execSupervEvaluation
  refine ⟨_, rfl, ?_⟩
  try dsimp only [hubStep]
  repeat' (first | with_reducible exact State.dev_keeps _ _ | with_reducible exact State.Keeps.refl _ | with_reducible exact State.after_keeps _ _ | exact ⟨rfl, id, id⟩ | split)
theorem execSupervPersistReached_keeps : ∀ i s, ∃ t, execSupervPersistReached i s = .next t ∧ s.Keeps t := by
  intro i s
  unfold execSupervPersistReached
  refine ⟨_, rfl, ?_⟩
  try dsimp only [hubStep]
  repeat' (first | with_reducible exact State.dev_keeps _ _ | with_reducible exact State.Keeps.refl _ | with_reducible exact State.after_keeps _ _ | exact ⟨rfl, id, id⟩ | split)
theorem execSupervQuietReached_keeps : ∀ i s, ∃ t, execSupervQuietReached i s = .next t ∧ s.Keeps t := by
  intro i s
  unfold execSupervQuietReached
  refine ⟨_, rfl, ?_⟩
  try dsimp only [hubStep]
  repeat' (first | with_reducible exact State.dev_keeps _ _ | with_reducible exact State.Keeps.refl _ | with_reducible exact State.after_keeps _ _ | exact ⟨rfl, id, id⟩ | split)
theorem execTraceComplete_keeps : ∀ u s, ∃ t, execTraceComplete u s = .next t ∧ s.Keeps t := by
  intro u s
  unfold execTraceComplete
  refine ⟨_, rfl, ?_⟩
  try dsimp only [hubStep]
  repeat' (first | with_reducible exact State.dev_keeps _ _ | with_reducible exact State.Keeps.refl _ | with_reducible exact State.after_keeps _ _ | exact ⟨rfl, id, id⟩ | split)
theorem execSlalomEvaluation_keeps : ∀ s, ∃ t, execSlalomEvaluation s = .next t ∧ s.Keeps t := by
  intro s
  unfold execSlalomEvaluation
  refine ⟨_, rfl, ?_⟩
  try dsimp only [hubStep]
  repeat' (first | with_reducible exact State.dev_keeps _ _ | with_reducible exact State.Keeps.refl _ | with_reducible exact State.after_keeps _ _ | exact ⟨rfl, id, id⟩ | split)
theorem execCapUnmetTimer_keeps : ∀ s, ∃ t, execCapUnmetTimer s = .next t ∧ s.Keeps t := by
  intro s
  unfold execCapUnmetTimer
  refine ⟨_, rfl, ?_⟩
  try dsimp only [hubStep]
  repeat' (first | with_reducible exact State.dev_keeps _ _ | with_reducible exact State.Keeps.refl _ | with_reducible exact State.after_keeps _ _ | exact ⟨rfl, id, id⟩ | split)
theorem execHoldupOkTimer_keeps : ∀ s, ∃ t, execHoldupOkTimer s = .next t ∧ s.Keeps t := by
  intro s
  unfold execHoldupOkTimer
  refine ⟨_, rfl, ?_⟩
  try dsimp only [hubStep]
  repeat' (first | with_reducible exact State.dev_keeps _ _ | with_reducible exact State.Keeps.refl _ | with_reducible exact State.after_keeps _ _ | exact ⟨rfl, id, id⟩ | split)
theorem execPowerSample_keeps : ∀ mw s, ∃ t, execPowerSample mw s = .next t ∧ s.Keeps t := by
  intro mw s
  unfold execPowerSample
  refine ⟨_, rfl, ?_⟩
  try dsimp only [hubStep]
  repeat' (first | with_reducible exact State.dev_keeps _ _ | with_reducible exact State.Keeps.refl _ | with_reducible exact State.after_keeps _ _ | exact ⟨rfl, id, id⟩ | split)
theorem execTempSensorRead_keeps : ∀ temps s, ∃ t, execTempSensorRead temps s = .next t ∧ s.Keeps t := by
  intro temps s
  unfold execTempSensorRead
  refine ⟨_, rfl, ?_⟩
  try dsimp only [hubStep]
  repeat' (first | with_reducible exact State.dev_keeps _ _ | with_reducible exact State.Keeps.refl _ | with_reducible exact State.after_keeps _ _ | exact ⟨rfl, id, id⟩ | split)
theorem execClampReport_keeps : ∀ die s, ∃ t, execClampReport die s = .next t ∧ s.Keeps t := by
  intro die s
  unfold execClampReport
  refine ⟨_, rfl, ?_⟩
  try dsimp only [hubStep]
  repeat' (first | with_reducible exact State.dev_keeps _ _ | with_reducible exact State.Keeps.refl _ | with_reducible exact State.after_keeps _ _ | exact ⟨rfl, id, id⟩ | split)
theorem execHoldoutRead_keeps : ∀ n mv s, ∃ t, execHoldoutRead n mv s = .next t ∧ s.Keeps t := by
  intro n mv s
  unfold execHoldoutRead
  refine ⟨_, rfl, ?_⟩
  try dsimp only [hubStep]
  repeat' (first | with_reducible exact State.dev_keeps _ _ | with_reducible exact State.Keeps.refl _ | with_reducible exact State.after_keeps _ _ | exact ⟨rfl, id, id⟩ | split)
theorem execHoldupCapTest_keeps : ∀ n s, ∃ t, execHoldupCapTest n s = .next t ∧ s.Keeps t := by
  intro n s
  unfold execHoldupCapTest
  refine ⟨_, rfl, ?_⟩
  try dsimp only [hubStep]
  repeat' (first | with_reducible exact State.dev_keeps _ _ | with_reducible exact State.Keeps.refl _ | with_reducible exact State.after_keeps _ _ | exact ⟨rfl, id, id⟩ | split)
theorem execHoldupCapTestEnd_keeps : ∀ n mv s, ∃ t, execHoldupCapTestEnd n mv s = .next t ∧ s.Keeps t := by
  intro n mv s
  unfold execHoldupCapTestEnd
  refine ⟨_, rfl, ?_⟩
  try dsimp only [hubStep]
  repeat' (first | with_reducible exact State.dev_keeps _ _ | with_reducible exact State.Keeps.refl _ | with_reducible exact State.after_keeps _ _ | exact ⟨rfl, id, id⟩ | split)
theorem execJournalAdmit_keeps : ∀ s, ∃ t, execJournalAdmit s = .next t ∧ s.Keeps t := by
  intro s
  unfold execJournalAdmit
  refine ⟨_, rfl, ?_⟩
  split
  · exact State.Keeps.refl _
  dsimp only
  split
  · exact State.dev_keeps _ _
  split
  · exact State.Keeps.refl _
  split
  · exact (State.Moves.trans_held (s := s) (t := s.unwait _) ⟨rfl, rfl, rfl⟩ (State.admitNow_moves (opOf_keeps ‹_›) _ _)).keeps
  split
  · exact (State.Moves.trans_held (s := s) (t := s.unwait _) ⟨rfl, rfl, rfl⟩ (State.admitNow_moves (opOf_keeps ‹_›) _ _)).keeps
  · exact State.Keeps.refl _
  · exact State.dev_keeps _ _
theorem execJournalWaitTimeout_keeps : ∀ s, ∃ t, execJournalWaitTimeout s = .next t ∧ s.Keeps t := by
  intro s
  unfold execJournalWaitTimeout
  refine ⟨_, rfl, ?_⟩
  try dsimp only [hubStep]
  repeat' (first | with_reducible exact State.dev_keeps _ _ | with_reducible exact State.Keeps.refl _ | with_reducible exact State.after_keeps _ _ | exact ⟨rfl, id, id⟩ | split)
theorem execEmramWriteDone_keeps : ∀ s, ∃ t, execEmramWriteDone s = .next t ∧ s.Keeps t := by
  intro s
  unfold execEmramWriteDone
  refine ⟨_, rfl, ?_⟩
  split
  · exact State.Keeps.refl _
  · exact State.Moves.keeps (State.written_moves s _)
theorem execSeqCycleStart_keeps : ∀ die s, ∃ t, execSeqCycleStart die s = .next t ∧ s.Keeps t := by
  intro die s
  unfold execSeqCycleStart
  refine ⟨_, rfl, ?_⟩
  try dsimp only [hubStep]
  repeat' (first | with_reducible exact State.dev_keeps _ _ | with_reducible exact State.Keeps.refl _ | with_reducible exact State.after_keeps _ _ | exact ⟨rfl, id, id⟩ | split)
theorem execEntryResult_keeps : ∀ die e codes s, ∃ t, execEntryResult die e codes s = .next t ∧ s.Keeps t := by
  intro die e codes s
  unfold execEntryResult
  refine ⟨_, rfl, ?_⟩
  try dsimp only [hubStep]
  repeat' (first | with_reducible exact State.dev_keeps _ _ | with_reducible exact State.Keeps.refl _ | with_reducible exact State.after_keeps _ _ | exact ⟨rfl, id, id⟩ | split)
theorem execSampleSend_keeps : ∀ die s, ∃ t, execSampleSend die s = .next t ∧ s.Keeps t := by
  intro die s
  unfold execSampleSend
  refine ⟨_, rfl, ?_⟩
  try dsimp only [hubStep]
  repeat' (first | with_reducible exact State.dev_keeps _ _ | with_reducible exact State.Keeps.refl _ | with_reducible exact State.after_keeps _ _ | exact ⟨rfl, id, id⟩ | split)
theorem execAoFaultDetect_keeps : ∀ die c short s, ∃ t, execAoFaultDetect die c short s = .next t ∧ s.Keeps t := by
  intro die c short s
  unfold execAoFaultDetect
  refine ⟨_, rfl, ?_⟩
  try dsimp only [hubStep]
  repeat' (first | with_reducible exact State.dev_keeps _ _ | with_reducible exact State.Keeps.refl _ | with_reducible exact State.after_keeps _ _ | exact ⟨rfl, id, id⟩ | split)
theorem execAoFaultClear_keeps : ∀ die c short s, ∃ t, execAoFaultClear die c short s = .next t ∧ s.Keeps t := by
  intro die c short s
  unfold execAoFaultClear
  refine ⟨_, rfl, ?_⟩
  try dsimp only [hubStep]
  repeat' (first | with_reducible exact State.dev_keeps _ _ | with_reducible exact State.Keeps.refl _ | with_reducible exact State.after_keeps _ _ | exact ⟨rfl, id, id⟩ | split)
theorem execSeqAutostart_keeps : ∀ die s, ∃ t, execSeqAutostart die s = .next t ∧ s.Keeps t := by
  intro die s
  unfold execSeqAutostart
  refine ⟨_, rfl, ?_⟩
  try dsimp only [hubStep]
  repeat' (first | with_reducible exact State.dev_keeps _ _ | with_reducible exact State.Keeps.refl _ | with_reducible exact State.after_keeps _ _ | exact ⟨rfl, id, id⟩ | split)
theorem execDiEdgeAccept_keeps : ∀ die c s, ∃ t, execDiEdgeAccept die c s = .next t ∧ s.Keeps t := by
  intro die c s
  unfold execDiEdgeAccept
  refine ⟨_, rfl, ?_⟩
  try dsimp only [hubStep]
  repeat' (first | with_reducible exact State.dev_keeps _ _ | with_reducible exact State.Keeps.refl _ | with_reducible exact State.after_keeps _ _ | exact ⟨rfl, id, id⟩ | split)
theorem execDiPointRefresh_keeps : ∀ die c s, ∃ t, execDiPointRefresh die c s = .next t ∧ s.Keeps t := by
  intro die c s
  unfold execDiPointRefresh
  refine ⟨_, rfl, ?_⟩
  try dsimp only [hubStep]
  repeat' (first | with_reducible exact State.dev_keeps _ _ | with_reducible exact State.Keeps.refl _ | with_reducible exact State.after_keeps _ _ | exact ⟨rfl, id, id⟩ | split)
theorem execDiLoopSample_keeps : ∀ die c s, ∃ t, execDiLoopSample die c s = .next t ∧ s.Keeps t := by
  intro die c s
  unfold execDiLoopSample
  refine ⟨_, rfl, ?_⟩
  try dsimp only [hubStep]
  repeat' (first | with_reducible exact State.dev_keeps _ _ | with_reducible exact State.Keeps.refl _ | with_reducible exact State.after_keeps _ _ | exact ⟨rfl, id, id⟩ | split)
theorem execWireBreakDeclare_keeps : ∀ die c s, ∃ t, execWireBreakDeclare die c s = .next t ∧ s.Keeps t := by
  intro die c s
  unfold execWireBreakDeclare
  refine ⟨_, rfl, ?_⟩
  try dsimp only [hubStep]
  repeat' (first | with_reducible exact State.dev_keeps _ _ | with_reducible exact State.Keeps.refl _ | with_reducible exact State.after_keeps _ _ | exact ⟨rfl, id, id⟩ | split)
theorem execWireBreakClear_keeps : ∀ die c s, ∃ t, execWireBreakClear die c s = .next t ∧ s.Keeps t := by
  intro die c s
  unfold execWireBreakClear
  refine ⟨_, rfl, ?_⟩
  try dsimp only [hubStep]
  repeat' (first | with_reducible exact State.dev_keeps _ _ | with_reducible exact State.Keeps.refl _ | with_reducible exact State.after_keeps _ _ | exact ⟨rfl, id, id⟩ | split)
theorem execCountAccumulate_keeps : ∀ s, ∃ t, execCountAccumulate s = .next t ∧ s.Keeps t := by
  intro s
  unfold execCountAccumulate
  refine ⟨_, rfl, ?_⟩
  try dsimp only [hubStep]
  repeat' (first | with_reducible exact State.dev_keeps _ _ | with_reducible exact State.Keeps.refl _ | with_reducible exact State.after_keeps _ _ | exact ⟨rfl, id, id⟩ | split)
theorem execOutputFoldback_keeps : ∀ die c s, ∃ t, execOutputFoldback die c s = .next t ∧ s.Keeps t := by
  intro die c s
  unfold execOutputFoldback
  refine ⟨_, rfl, ?_⟩
  try dsimp only [hubStep]
  repeat' (first | with_reducible exact State.dev_keeps _ _ | with_reducible exact State.Keeps.refl _ | with_reducible exact State.after_keeps _ _ | exact ⟨rfl, id, id⟩ | split)
theorem execOutputRetry_keeps : ∀ die c still s, ∃ t, execOutputRetry die c still s = .next t ∧ s.Keeps t := by
  intro die c still s
  unfold execOutputRetry
  refine ⟨_, rfl, ?_⟩
  try dsimp only [hubStep]
  repeat' (first | with_reducible exact State.dev_keeps _ _ | with_reducible exact State.Keeps.refl _ | with_reducible exact State.after_keeps _ _ | exact ⟨rfl, id, id⟩ | split)
theorem execOutputOvertemp_keeps : ∀ die c s, ∃ t, execOutputOvertemp die c s = .next t ∧ s.Keeps t := by
  intro die c s
  unfold execOutputOvertemp
  refine ⟨_, rfl, ?_⟩
  try dsimp only [hubStep]
  repeat' (first | with_reducible exact State.dev_keeps _ _ | with_reducible exact State.Keeps.refl _ | with_reducible exact State.after_keeps _ _ | exact ⟨rfl, id, id⟩ | split)
theorem execOpenLoadDetect_keeps : ∀ die c s, ∃ t, execOpenLoadDetect die c s = .next t ∧ s.Keeps t := by
  intro die c s
  unfold execOpenLoadDetect
  refine ⟨_, rfl, ?_⟩
  try dsimp only [hubStep]
  repeat' (first | with_reducible exact State.dev_keeps _ _ | with_reducible exact State.Keeps.refl _ | with_reducible exact State.after_keeps _ _ | exact ⟨rfl, id, id⟩ | split)
theorem execShortToSupplyDetect_keeps : ∀ die c s, ∃ t, execShortToSupplyDetect die c s = .next t ∧ s.Keeps t := by
  intro die c s
  unfold execShortToSupplyDetect
  refine ⟨_, rfl, ?_⟩
  try dsimp only [hubStep]
  repeat' (first | with_reducible exact State.dev_keeps _ _ | with_reducible exact State.Keeps.refl _ | with_reducible exact State.after_keeps _ _ | exact ⟨rfl, id, id⟩ | split)
theorem execShortToSupplyClear_keeps : ∀ die c s, ∃ t, execShortToSupplyClear die c s = .next t ∧ s.Keeps t := by
  intro die c s
  unfold execShortToSupplyClear
  refine ⟨_, rfl, ?_⟩
  try dsimp only [hubStep]
  repeat' (first | with_reducible exact State.dev_keeps _ _ | with_reducible exact State.Keeps.refl _ | with_reducible exact State.after_keeps _ _ | exact ⟨rfl, id, id⟩ | split)
theorem execExternalDriveDetect_keeps : ∀ die c s, ∃ t, execExternalDriveDetect die c s = .next t ∧ s.Keeps t := by
  intro die c s
  unfold execExternalDriveDetect
  refine ⟨_, rfl, ?_⟩
  try dsimp only [hubStep]
  repeat' (first | with_reducible exact State.dev_keeps _ _ | with_reducible exact State.Keeps.refl _ | with_reducible exact State.after_keeps _ _ | exact ⟨rfl, id, id⟩ | split)
theorem execExternalDriveClear_keeps : ∀ die c s, ∃ t, execExternalDriveClear die c s = .next t ∧ s.Keeps t := by
  intro die c s
  unfold execExternalDriveClear
  refine ⟨_, rfl, ?_⟩
  try dsimp only [hubStep]
  repeat' (first | with_reducible exact State.dev_keeps _ _ | with_reducible exact State.Keeps.refl _ | with_reducible exact State.after_keeps _ _ | exact ⟨rfl, id, id⟩ | split)
theorem execPwmPeriodStart_keeps : ∀ die c s, ∃ t, execPwmPeriodStart die c s = .next t ∧ s.Keeps t := by
  intro die c s
  unfold execPwmPeriodStart
  refine ⟨_, rfl, ?_⟩
  try dsimp only [hubStep]
  repeat' (first | with_reducible exact State.dev_keeps _ _ | with_reducible exact State.Keeps.refl _ | with_reducible exact State.after_keeps _ _ | exact ⟨rfl, id, id⟩ | split)
theorem execClampEventStart_keeps : ∀ die c s, ∃ t, execClampEventStart die c s = .next t ∧ s.Keeps t := by
  intro die c s
  unfold execClampEventStart
  refine ⟨_, rfl, ?_⟩
  try dsimp only [hubStep]
  repeat' (first | with_reducible exact State.dev_keeps _ _ | with_reducible exact State.Keeps.refl _ | with_reducible exact State.after_keeps _ _ | exact ⟨rfl, id, id⟩ | split)
theorem execClampEventEnd_keeps : ∀ die c uj s, ∃ t, execClampEventEnd die c uj s = .next t ∧ s.Keeps t := by
  intro die c uj s
  unfold execClampEventEnd
  refine ⟨_, rfl, ?_⟩
  try dsimp only [hubStep]
  repeat' (first | with_reducible exact State.dev_keeps _ _ | with_reducible exact State.Keeps.refl _ | with_reducible exact State.after_keeps _ _ | exact ⟨rfl, id, id⟩ | split)
theorem execCycleHoldRelease_keeps : ∀ die c s, ∃ t, execCycleHoldRelease die c s = .next t ∧ s.Keeps t := by
  intro die c s
  unfold execCycleHoldRelease
  refine ⟨_, rfl, ?_⟩
  try dsimp only [hubStep]
  repeat' (first | with_reducible exact State.dev_keeps _ _ | with_reducible exact State.Keeps.refl _ | with_reducible exact State.after_keeps _ _ | exact ⟨rfl, id, id⟩ | split)
theorem execArmTakeEffect_keeps : ∀ die s, ∃ t, execArmTakeEffect die s = .next t ∧ s.Keeps t := by
  intro die s
  unfold execArmTakeEffect
  refine ⟨_, rfl, ?_⟩
  try dsimp only [hubStep]
  repeat' (first | with_reducible exact State.dev_keeps _ _ | with_reducible exact State.Keeps.refl _ | with_reducible exact State.after_keeps _ _ | exact ⟨rfl, id, id⟩ | split)
theorem execRefreshSend_keeps : ∀ s, ∃ t, execRefreshSend s = .next t ∧ s.Keeps t := by
  intro s
  unfold execRefreshSend
  refine ⟨_, rfl, ?_⟩
  try dsimp only [hubStep]
  repeat' (first | with_reducible exact State.dev_keeps _ _ | with_reducible exact State.Keeps.refl _ | with_reducible exact State.after_keeps _ _ | exact ⟨rfl, id, id⟩ | split)
theorem execRefreshReceive_keeps : ∀ die s, ∃ t, execRefreshReceive die s = .next t ∧ s.Keeps t := by
  intro die s
  unfold execRefreshReceive
  refine ⟨_, rfl, ?_⟩
  try dsimp only [hubStep]
  repeat' (first | with_reducible exact State.dev_keeps _ _ | with_reducible exact State.Keeps.refl _ | with_reducible exact State.after_keeps _ _ | exact ⟨rfl, id, id⟩ | split)
theorem execSnowploughTimeout_keeps : ∀ die s, ∃ t, execSnowploughTimeout die s = .next t ∧ s.Keeps t := by
  intro die s
  unfold execSnowploughTimeout
  refine ⟨_, rfl, ?_⟩
  try dsimp only [hubStep]
  repeat' (first | with_reducible exact State.dev_keeps _ _ | with_reducible exact State.Keeps.refl _ | with_reducible exact State.after_keeps _ _ | exact ⟨rfl, id, id⟩ | split)
theorem execSnowploughResume_keeps : ∀ die s, ∃ t, execSnowploughResume die s = .next t ∧ s.Keeps t := by
  intro die s
  unfold execSnowploughResume
  refine ⟨_, rfl, ?_⟩
  try dsimp only [hubStep]
  repeat' (first | with_reducible exact State.dev_keeps _ _ | with_reducible exact State.Keeps.refl _ | with_reducible exact State.after_keeps _ _ | exact ⟨rfl, id, id⟩ | split)
theorem execFieldResetTakeHold_keeps : ∀ die s, ∃ t, execFieldResetTakeHold die s = .next t ∧ s.Keeps t := by
  intro die s
  unfold execFieldResetTakeHold
  refine ⟨_, rfl, ?_⟩
  try dsimp only [hubStep]
  repeat' (first | with_reducible exact State.dev_keeps _ _ | with_reducible exact State.Keeps.refl _ | with_reducible exact State.after_keeps _ _ | exact ⟨rfl, id, id⟩ | split)
theorem execFieldResetRelease_keeps : ∀ die s, ∃ t, execFieldResetRelease die s = .next t ∧ s.Keeps t := by
  intro die s
  unfold execFieldResetRelease
  refine ⟨_, rfl, ?_⟩
  try dsimp only [hubStep]
  repeat' (first | with_reducible exact State.dev_keeps _ _ | with_reducible exact State.Keeps.refl _ | with_reducible exact State.after_keeps _ _ | exact ⟨rfl, id, id⟩ | split)
theorem execFieldDieConfigured_keeps : ∀ die s, ∃ t, execFieldDieConfigured die s = .next t ∧ s.Keeps t := by
  intro die s
  unfold execFieldDieConfigured
  refine ⟨_, rfl, ?_⟩
  try dsimp only [hubStep]
  repeat' (first | with_reducible exact State.dev_keeps _ _ | with_reducible exact State.Keeps.refl _ | with_reducible exact State.after_keeps _ _ | exact ⟨rfl, id, id⟩ | split)
theorem execHeartbeatSend_keeps : ∀ s, ∃ t, execHeartbeatSend s = .next t ∧ s.Keeps t := by
  intro s
  unfold execHeartbeatSend
  refine ⟨_, rfl, ?_⟩
  try dsimp only [hubStep]
  repeat' (first | with_reducible exact State.dev_keeps _ _ | with_reducible exact State.Keeps.refl _ | with_reducible exact State.after_keeps _ _ | exact ⟨rfl, id, id⟩ | split)
theorem execHeartbeatReceive_keeps : ∀ seq s, ∃ t, execHeartbeatReceive seq s = .next t ∧ s.Keeps t := by
  intro seq s
  unfold execHeartbeatReceive
  refine ⟨_, rfl, ?_⟩
  try dsimp only [hubStep]
  repeat' (first | with_reducible exact State.dev_keeps _ _ | with_reducible exact State.Keeps.refl _ | with_reducible exact State.after_keeps _ _ | exact ⟨rfl, id, id⟩ | split)
theorem execHeartbeatLate_keeps : ∀ s, ∃ t, execHeartbeatLate s = .next t ∧ s.Keeps t := by
  intro s
  unfold execHeartbeatLate
  refine ⟨_, rfl, ?_⟩
  try dsimp only [hubStep]
  repeat' (first | with_reducible exact State.dev_keeps _ _ | with_reducible exact State.Keeps.refl _ | with_reducible exact State.after_keeps _ _ | exact ⟨rfl, id, id⟩ | split)
theorem execHeartbeatTimeout_keeps : ∀ s, ∃ t, execHeartbeatTimeout s = .next t ∧ s.Keeps t := by
  intro s
  unfold execHeartbeatTimeout
  refine ⟨_, rfl, ?_⟩
  try dsimp only [hubStep]
  repeat' (first | with_reducible exact State.dev_keeps _ _ | with_reducible exact State.Keeps.refl _ | with_reducible exact State.after_keeps _ _ | exact ⟨rfl, id, id⟩ | split)
theorem execHardFaultLine_keeps : ∀ die cause s, ∃ t, execHardFaultLine die cause s = .next t ∧ s.Keeps t := by
  intro die cause s
  unfold execHardFaultLine
  refine ⟨_, rfl, ?_⟩
  try dsimp only [hubStep]
  repeat' (first | with_reducible exact State.dev_keeps _ _ | with_reducible exact State.Keeps.refl _ | with_reducible exact State.after_keeps _ _ | exact ⟨rfl, id, id⟩ | split)
theorem execArbiterDisagreement_keeps : ∀ s, ∃ t, execArbiterDisagreement s = .next t ∧ s.Keeps t := by
  intro s
  unfold execArbiterDisagreement
  refine ⟨_, rfl, ?_⟩
  try dsimp only [hubStep]
  repeat' (first | with_reducible exact State.dev_keeps _ _ | with_reducible exact State.Keeps.refl _ | with_reducible exact State.after_keeps _ _ | exact ⟨rfl, id, id⟩ | split)
theorem execStateRestoreDone_keeps : ∀ s, ∃ t, execStateRestoreDone s = .next t ∧ s.Keeps t := by
  intro s
  unfold execStateRestoreDone
  refine ⟨_, rfl, ?_⟩
  try dsimp only [hubStep]
  repeat' (first | with_reducible exact State.dev_keeps _ _ | with_reducible exact State.Keeps.refl _ | with_reducible exact State.after_keeps _ _ | exact ⟨rfl, id, id⟩ | split)
theorem execReleaseInstant_keeps : ∀ s, ∃ t, execReleaseInstant s = .next t ∧ s.Keeps t := by
  intro s
  unfold execReleaseInstant
  refine ⟨_, rfl, ?_⟩
  try dsimp only [hubStep]
  repeat' (first | with_reducible exact State.dev_keeps _ _ | with_reducible exact State.Keeps.refl _ | with_reducible exact State.after_keeps _ _ | exact ⟨rfl, id, id⟩ | split)
theorem execLoopStream_keeps : ∀ s, ∃ t, execLoopStream s = .next t ∧ s.Keeps t := by
  intro s
  unfold execLoopStream
  refine ⟨_, rfl, ?_⟩
  try dsimp only [hubStep]
  repeat' (first | with_reducible exact State.dev_keeps _ _ | with_reducible exact State.Keeps.refl _ | with_reducible exact State.after_keeps _ _ | exact ⟨rfl, id, id⟩ | split)
theorem execStreamLate_keeps : ∀ s, ∃ t, execStreamLate s = .next t ∧ s.Keeps t := by
  intro s
  unfold execStreamLate
  refine ⟨_, rfl, ?_⟩
  try dsimp only [hubStep]
  repeat' (first | with_reducible exact State.dev_keeps _ _ | with_reducible exact State.Keeps.refl _ | with_reducible exact State.after_keeps _ _ | exact ⟨rfl, id, id⟩ | split)
theorem execRecoveryStart_keeps : ∀ die s, ∃ t, execRecoveryStart die s = .next t ∧ s.Keeps t := by
  intro die s
  unfold execRecoveryStart
  refine ⟨_, rfl, ?_⟩
  try dsimp only [hubStep]
  repeat' (first | with_reducible exact State.dev_keeps _ _ | with_reducible exact State.Keeps.refl _ | with_reducible exact State.after_keeps _ _ | exact ⟨rfl, id, id⟩ | split)
theorem execRecoveryBistDone_keeps : ∀ die pass s, ∃ t, execRecoveryBistDone die pass s = .next t ∧ s.Keeps t := by
  intro die pass s
  unfold execRecoveryBistDone
  refine ⟨_, rfl, ?_⟩
  try dsimp only [hubStep]
  repeat' (first | with_reducible exact State.dev_keeps _ _ | with_reducible exact State.Keeps.refl _ | with_reducible exact State.after_keeps _ _ | exact ⟨rfl, id, id⟩ | split)
theorem execStandbySliceEnd_keeps : ∀ sig s, ∃ t, execStandbySliceEnd sig s = .next t ∧ s.Keeps t := by
  intro sig s
  unfold execStandbySliceEnd
  refine ⟨_, rfl, ?_⟩
  try dsimp only [hubStep]
  repeat' (first | with_reducible exact State.dev_keeps _ _ | with_reducible exact State.Keeps.refl _ | with_reducible exact State.after_keeps _ _ | exact ⟨rfl, id, id⟩ | split)
theorem execSwapPrepare_keeps : ∀ s, ∃ t, execSwapPrepare s = .next t ∧ s.Keeps t := by
  intro s
  unfold execSwapPrepare
  refine ⟨_, rfl, ?_⟩
  try dsimp only [hubStep]
  repeat' (first | with_reducible exact State.dev_keeps _ _ | with_reducible exact State.Keeps.refl _ | with_reducible exact State.after_keeps _ _ | exact ⟨rfl, id, id⟩ | split)
theorem execSwapHandover_keeps : ∀ s, ∃ t, execSwapHandover s = .next t ∧ s.Keeps t := by
  intro s
  unfold execSwapHandover
  refine ⟨_, rfl, ?_⟩
  try dsimp only [hubStep]
  repeat' (first | with_reducible exact State.dev_keeps _ _ | with_reducible exact State.Keeps.refl _ | with_reducible exact State.after_keeps _ _ | exact ⟨rfl, id, id⟩ | split)
theorem execPtpMessageReceive_keeps : ∀ port m s, ∃ t, execPtpMessageReceive port m s = .next t ∧ s.Keeps t := by
  intro port m s
  unfold execPtpMessageReceive
  refine ⟨_, rfl, ?_⟩
  try dsimp only [hubStep]
  repeat' (first | with_reducible exact State.dev_keeps _ _ | with_reducible exact State.Keeps.refl _ | with_reducible exact State.after_keeps _ _ | exact ⟨rfl, id, id⟩ | split)
theorem execPtpTransmitTimer_keeps : ∀ port kind s, ∃ t, execPtpTransmitTimer port kind s = .next t ∧ s.Keeps t := by
  intro port kind s
  unfold execPtpTransmitTimer
  refine ⟨_, rfl, ?_⟩
  try dsimp only [hubStep]
  repeat' (first | with_reducible exact State.dev_keeps _ _ | with_reducible exact State.Keeps.refl _ | with_reducible exact State.after_keeps _ _ | exact ⟨rfl, id, id⟩ | split)
theorem execAnnounceReceiptTimeout_keeps : ∀ port s, ∃ t, execAnnounceReceiptTimeout port s = .next t ∧ s.Keeps t := by
  intro port s
  unfold execAnnounceReceiptTimeout
  refine ⟨_, rfl, ?_⟩
  try dsimp only [hubStep]
  repeat' (first | with_reducible exact State.dev_keeps _ _ | with_reducible exact State.Keeps.refl _ | with_reducible exact State.after_keeps _ _ | exact ⟨rfl, id, id⟩ | split)
theorem execFollowupTimeout_keeps : ∀ port s, ∃ t, execFollowupTimeout port s = .next t ∧ s.Keeps t := by
  intro port s
  unfold execFollowupTimeout
  refine ⟨_, rfl, ?_⟩
  try dsimp only [hubStep]
  repeat' (first | with_reducible exact State.dev_keeps _ _ | with_reducible exact State.Keeps.refl _ | with_reducible exact State.after_keeps _ _ | exact ⟨rfl, id, id⟩ | split)
theorem execServoSample_keeps : ∀ theta s, ∃ t, execServoSample theta s = .next t ∧ s.Keeps t := by
  intro theta s
  unfold execServoSample
  refine ⟨_, rfl, ?_⟩
  try dsimp only [hubStep]
  repeat' (first | with_reducible exact State.dev_keeps _ _ | with_reducible exact State.Keeps.refl _ | with_reducible exact State.after_keeps _ _ | exact ⟨rfl, id, id⟩ | split)
theorem execServoHoldover_keeps : ∀ s, ∃ t, execServoHoldover s = .next t ∧ s.Keeps t := by
  intro s
  unfold execServoHoldover
  refine ⟨_, rfl, ?_⟩
  try dsimp only [hubStep]
  repeat' (first | with_reducible exact State.dev_keeps _ _ | with_reducible exact State.Keeps.refl _ | with_reducible exact State.after_keeps _ _ | exact ⟨rfl, id, id⟩ | split)
theorem execTimeChangeApply_keeps : ∀ s, ∃ t, execTimeChangeApply s = .next t ∧ s.Keeps t := by
  intro s
  unfold execTimeChangeApply
  refine ⟨_, rfl, ?_⟩
  try dsimp only [hubStep]
  repeat' (first | with_reducible exact State.dev_keeps _ _ | with_reducible exact State.Keeps.refl _ | with_reducible exact State.after_keeps _ _ | exact ⟨rfl, id, id⟩ | split)
theorem execTimeLoRead_keeps : ∀ s, ∃ t, execTimeLoRead s = .next t ∧ s.Keeps t := by
  intro s
  unfold execTimeLoRead
  refine ⟨_, rfl, ?_⟩
  try dsimp only [hubStep]
  repeat' (first | with_reducible exact State.dev_keeps _ _ | with_reducible exact State.Keeps.refl _ | with_reducible exact State.after_keeps _ _ | exact ⟨rfl, id, id⟩ | split)
theorem execRawLoRead_keeps : ∀ s, ∃ t, execRawLoRead s = .next t ∧ s.Keeps t := by
  intro s
  unfold execRawLoRead
  refine ⟨_, rfl, ?_⟩
  try dsimp only [hubStep]
  repeat' (first | with_reducible exact State.dev_keeps _ _ | with_reducible exact State.Keeps.refl _ | with_reducible exact State.after_keeps _ _ | exact ⟨rfl, id, id⟩ | split)
theorem execRtcSecLoRead_keeps : ∀ s, ∃ t, execRtcSecLoRead s = .next t ∧ s.Keeps t := by
  intro s
  unfold execRtcSecLoRead
  refine ⟨_, rfl, ?_⟩
  try dsimp only [hubStep]
  repeat' (first | with_reducible exact State.dev_keeps _ _ | with_reducible exact State.Keeps.refl _ | with_reducible exact State.after_keeps _ _ | exact ⟨rfl, id, id⟩ | split)
theorem execRtcFlagsWrite_keeps : ∀ v s, ∃ t, execRtcFlagsWrite v s = .next t ∧ s.Keeps t := by
  intro v s
  unfold execRtcFlagsWrite
  refine ⟨_, rfl, ?_⟩
  try dsimp only [hubStep]
  repeat' (first | with_reducible exact State.dev_keeps _ _ | with_reducible exact State.Keeps.refl _ | with_reducible exact State.after_keeps _ _ | exact ⟨rfl, id, id⟩ | split)
theorem execEvinStatusWrite_keeps : ∀ i v s, ∃ t, execEvinStatusWrite i v s = .next t ∧ s.Keeps t := by
  intro i v s
  unfold execEvinStatusWrite
  refine ⟨_, rfl, ?_⟩
  try dsimp only [hubStep]
  repeat' (first | with_reducible exact State.dev_keeps _ _ | with_reducible exact State.Keeps.refl _ | with_reducible exact State.after_keeps _ _ | exact ⟨rfl, id, id⟩ | split)
theorem execRtcLoad_keeps : ∀ s, ∃ t, execRtcLoad s = .next t ∧ s.Keeps t := by
  intro s
  unfold execRtcLoad
  refine ⟨_, rfl, ?_⟩
  try dsimp only [hubStep]
  repeat' (first | with_reducible exact State.dev_keeps _ _ | with_reducible exact State.Keeps.refl _ | with_reducible exact State.after_keeps _ _ | exact ⟨rfl, id, id⟩ | split)
theorem execAlarmMatch_keeps : ∀ s, ∃ t, execAlarmMatch s = .next t ∧ s.Keeps t := by
  intro s
  unfold execAlarmMatch
  refine ⟨_, rfl, ?_⟩
  try dsimp only [hubStep]
  repeat' (first | with_reducible exact State.dev_keeps _ _ | with_reducible exact State.Keeps.refl _ | with_reducible exact State.after_keeps _ _ | exact ⟨rfl, id, id⟩ | split)
theorem execRtcSyncMeasure_keeps : ∀ s, ∃ t, execRtcSyncMeasure s = .next t ∧ s.Keeps t := by
  intro s
  unfold execRtcSyncMeasure
  refine ⟨_, rfl, ?_⟩
  try dsimp only [hubStep]
  repeat' (first | with_reducible exact State.dev_keeps _ _ | with_reducible exact State.Keeps.refl _ | with_reducible exact State.after_keeps _ _ | exact ⟨rfl, id, id⟩ | split)
theorem execBackupSupplySwitch_keeps : ∀ toVbat s, ∃ t, execBackupSupplySwitch toVbat s = .next t ∧ s.Keeps t := by
  intro toVbat s
  unfold execBackupSupplySwitch
  refine ⟨_, rfl, ?_⟩
  try dsimp only [hubStep]
  repeat' (first | with_reducible exact State.dev_keeps _ _ | with_reducible exact State.Keeps.refl _ | with_reducible exact State.after_keeps _ _ | exact ⟨rfl, id, id⟩ | split)
theorem execVbatMeasure_keeps : ∀ mv s, ∃ t, execVbatMeasure mv s = .next t ∧ s.Keeps t := by
  intro mv s
  unfold execVbatMeasure
  refine ⟨_, rfl, ?_⟩
  try dsimp only [hubStep]
  repeat' (first | with_reducible exact State.dev_keeps _ _ | with_reducible exact State.Keeps.refl _ | with_reducible exact State.after_keeps _ _ | exact ⟨rfl, id, id⟩ | split)
theorem execBackupLoss_keeps : ∀ s, ∃ t, execBackupLoss s = .next t ∧ s.Keeps t := by
  intro s
  unfold execBackupLoss
  refine ⟨_, rfl, ?_⟩
  try dsimp only [hubStep]
  repeat' (with_reducible exact State.dev_keeps _ _)
theorem execEvinEdgeAccept_keeps : ∀ i rising s, ∃ t, execEvinEdgeAccept i rising s = .next t ∧ s.Keeps t := by
  intro i rising s
  unfold execEvinEdgeAccept
  refine ⟨_, rfl, ?_⟩
  try dsimp only [hubStep]
  repeat' (first | with_reducible exact State.dev_keeps _ _ | with_reducible exact State.Keeps.refl _ | with_reducible exact State.after_keeps _ _ | exact ⟨rfl, id, id⟩ | split)
theorem execEvinTamperEdge_keeps : ∀ i rising s, ∃ t, execEvinTamperEdge i rising s = .next t ∧ s.Keeps t := by
  intro i rising s
  unfold execEvinTamperEdge
  refine ⟨_, rfl, ?_⟩
  try dsimp only [hubStep]
  repeat' (first | with_reducible exact State.dev_keeps _ _ | with_reducible exact State.Keeps.refl _ | with_reducible exact State.after_keeps _ _ | exact ⟨rfl, id, id⟩ | split)
theorem execCanFrameReceived_keeps : ∀ k f sof s, ∃ t, execCanFrameReceived k f sof s = .next t ∧ s.Keeps t := by
  intro k f sof s
  unfold execCanFrameReceived
  refine ⟨_, rfl, ?_⟩
  try dsimp only [hubStep]
  repeat' (first | with_reducible exact State.dev_keeps _ _ | with_reducible exact State.Keeps.refl _ | with_reducible exact State.after_keeps _ _ | exact ⟨rfl, id, id⟩ | split)
theorem execCanTxComplete_keeps : ∀ k b sof s, ∃ t, execCanTxComplete k b sof s = .next t ∧ s.Keeps t := by
  intro k b sof s
  unfold execCanTxComplete
  refine ⟨_, rfl, ?_⟩
  try dsimp only [hubStep]
  repeat' (first | with_reducible exact State.dev_keeps _ _ | with_reducible exact State.Keeps.refl _ | with_reducible exact State.after_keeps _ _ | exact ⟨rfl, id, id⟩ | split)
theorem execCanBusError_keeps : ∀ k lec tx post s, ∃ t, execCanBusError k lec tx post s = .next t ∧ s.Keeps t := by
  intro k lec tx post s
  unfold execCanBusError
  refine ⟨_, rfl, ?_⟩
  try dsimp only [hubStep]
  repeat' (first | with_reducible exact State.dev_keeps _ _ | with_reducible exact State.Keeps.refl _ | with_reducible exact State.after_keeps _ _ | exact ⟨rfl, id, id⟩ | split)
theorem execCanClashLimit_keeps : ∀ k b s, ∃ t, execCanClashLimit k b s = .next t ∧ s.Keeps t := by
  intro k b s
  unfold execCanClashLimit
  refine ⟨_, rfl, ?_⟩
  try dsimp only [hubStep]
  repeat' (first | with_reducible exact State.dev_keeps _ _ | with_reducible exact State.Keeps.refl _ | with_reducible exact State.after_keeps _ _ | exact ⟨rfl, id, id⟩ | split)
theorem execCanBusoffRecovered_keeps : ∀ k s, ∃ t, execCanBusoffRecovered k s = .next t ∧ s.Keeps t := by
  intro k s
  unfold execCanBusoffRecovered
  refine ⟨_, rfl, ?_⟩
  try dsimp only [hubStep]
  repeat' (first | with_reducible exact State.dev_keeps _ _ | with_reducible exact State.Keeps.refl _ | with_reducible exact State.after_keeps _ _ | exact ⟨rfl, id, id⟩ | split)
theorem execCanRefCycle_keeps : ∀ k s, ∃ t, execCanRefCycle k s = .next t ∧ s.Keeps t := by
  intro k s
  unfold execCanRefCycle
  refine ⟨_, rfl, ?_⟩
  try dsimp only [hubStep]
  repeat' (first | with_reducible exact State.dev_keeps _ _ | with_reducible exact State.Keeps.refl _ | with_reducible exact State.after_keeps _ _ | exact ⟨rfl, id, id⟩ | split)
theorem execCanRefLateTimeout_keeps : ∀ k s, ∃ t, execCanRefLateTimeout k s = .next t ∧ s.Keeps t := by
  intro k s
  unfold execCanRefLateTimeout
  refine ⟨_, rfl, ?_⟩
  try dsimp only [hubStep]
  repeat' (first | with_reducible exact State.dev_keeps _ _ | with_reducible exact State.Keeps.refl _ | with_reducible exact State.after_keeps _ _ | exact ⟨rfl, id, id⟩ | split)
theorem execCanSilenceTimeout_keeps : ∀ k s, ∃ t, execCanSilenceTimeout k s = .next t ∧ s.Keeps t := by
  intro k s
  unfold execCanSilenceTimeout
  refine ⟨_, rfl, ?_⟩
  try dsimp only [hubStep]
  repeat' (first | with_reducible exact State.dev_keeps _ _ | with_reducible exact State.Keeps.refl _ | with_reducible exact State.after_keeps _ _ | exact ⟨rfl, id, id⟩ | split)
theorem execCanMapTimeoutCheck_keeps : ∀ s, ∃ t, execCanMapTimeoutCheck s = .next t ∧ s.Keeps t := by
  intro s
  unfold execCanMapTimeoutCheck
  refine ⟨_, rfl, ?_⟩
  try dsimp only [hubStep]
  repeat' (first | with_reducible exact State.dev_keeps _ _ | with_reducible exact State.Keeps.refl _ | with_reducible exact State.after_keeps _ _ | exact ⟨rfl, id, id⟩ | split)
theorem execRepeatFlush_keeps : ∀ s, ∃ t, execRepeatFlush s = .next t ∧ s.Keeps t := by
  intro s
  unfold execRepeatFlush
  refine ⟨_, rfl, ?_⟩
  try dsimp only [hubStep]
  repeat' (first | with_reducible exact State.dev_keeps _ _ | with_reducible exact State.Keeps.refl _ | with_reducible exact State.after_keeps _ _ | exact ⟨rfl, id, id⟩ | split)
theorem execOpTimeSave_keeps : ∀ s, ∃ t, execOpTimeSave s = .next t ∧ s.Keeps t := by
  intro s
  unfold execOpTimeSave
  refine ⟨_, rfl, ?_⟩
  try dsimp only [hubStep]
  repeat' (first | with_reducible exact State.dev_keeps _ _ | with_reducible exact State.Keeps.refl _ | with_reducible exact State.after_keeps _ _ | exact ⟨rfl, id, id⟩ | split)
theorem execRecSaturatedWrite_keeps : ∀ v s, ∃ t, execRecSaturatedWrite v s = .next t ∧ s.Keeps t := by
  intro v s
  unfold execRecSaturatedWrite
  refine ⟨_, rfl, ?_⟩
  try dsimp only [hubStep]
  repeat' (first | with_reducible exact State.dev_keeps _ _ | with_reducible exact State.Keeps.refl _ | with_reducible exact State.after_keeps _ _ | exact ⟨rfl, id, id⟩ | split)
theorem execTamperZeroise_keeps : ∀ source s, ∃ t, execTamperZeroise source s = .next t ∧ s.Keeps t := by
  intro source s
  unfold execTamperZeroise
  refine ⟨_, rfl, ?_⟩
  try dsimp only [hubStep]
  repeat' (with_reducible exact State.dev_keeps _ _)
theorem execFeedLowWarn_keeps : ∀ die b low mv s, ∃ t, execFeedLowWarn die b low mv s = .next t ∧ s.Keeps t := by
  intro die b low mv s
  unfold execFeedLowWarn
  refine ⟨_, rfl, ?_⟩
  try dsimp only [hubStep]
  repeat' (first | with_reducible exact State.dev_keeps _ _ | with_reducible exact State.Keeps.refl _ | with_reducible exact State.after_keeps _ _ | exact ⟨rfl, id, id⟩ | split)
theorem execFeedOvervoltage_keeps : ∀ die b opened mv s, ∃ t, execFeedOvervoltage die b opened mv s = .next t ∧ s.Keeps t := by
  intro die b opened mv s
  unfold execFeedOvervoltage
  refine ⟨_, rfl, ?_⟩
  try dsimp only [hubStep]
  repeat' (first | with_reducible exact State.dev_keeps _ _ | with_reducible exact State.Keeps.refl _ | with_reducible exact State.after_keeps _ _ | exact ⟨rfl, id, id⟩ | split)
theorem execFeedLoss_keeps : ∀ die aMv bMv s, ∃ t, execFeedLoss die aMv bMv s = .next t ∧ s.Keeps t := by
  intro die aMv bMv s
  unfold execFeedLoss
  refine ⟨_, rfl, ?_⟩
  try dsimp only [hubStep]
  repeat' (first | with_reducible exact State.dev_keeps _ _ | with_reducible exact State.Keeps.refl _ | with_reducible exact State.after_keeps _ _ | exact ⟨rfl, id, id⟩ | split)
theorem execFeedReturn_keeps : ∀ die b mv s, ∃ t, execFeedReturn die b mv s = .next t ∧ s.Keeps t := by
  intro die b mv s
  unfold execFeedReturn
  refine ⟨_, rfl, ?_⟩
  try dsimp only [hubStep]
  repeat' (first | with_reducible exact State.dev_keeps _ _ | with_reducible exact State.Keeps.refl _ | with_reducible exact State.after_keeps _ _ | exact ⟨rfl, id, id⟩ | split)
theorem execFeedReset_keeps : ∀ die s, ∃ t, execFeedReset die s = .next t ∧ s.Keeps t := by
  intro die s
  unfold execFeedReset
  refine ⟨_, rfl, ?_⟩
  try dsimp only [hubStep]
  repeat' (first | with_reducible exact State.dev_keeps _ _ | with_reducible exact State.Keeps.refl _ | with_reducible exact State.after_keeps _ _ | exact ⟨rfl, id, id⟩ | split)
theorem execHubMuxSwitch_keeps : ∀ vhaMv vhbMv s, ∃ t, execHubMuxSwitch vhaMv vhbMv s = .next t ∧ s.Keeps t := by
  intro vhaMv vhbMv s
  unfold execHubMuxSwitch
  refine ⟨_, rfl, ?_⟩
  try dsimp only [hubStep]
  repeat' (first | with_reducible exact State.dev_keeps _ _ | with_reducible exact State.Keeps.refl _ | with_reducible exact State.after_keeps _ _ | exact ⟨rfl, id, id⟩ | split)
theorem execSaveSupplyStart_keeps : ∀ s, ∃ t, execSaveSupplyStart s = .next t ∧ s.Keeps t := by
  intro s
  unfold execSaveSupplyStart
  refine ⟨_, rfl, ?_⟩
  try dsimp only [hubStep]
  repeat' (first | with_reducible exact State.dev_keeps _ _ | with_reducible exact State.Keeps.refl _ | with_reducible exact State.after_keeps _ _ | exact ⟨rfl, id, id⟩ | split)
theorem execRailStep_keeps : ∀ pg s, ∃ t, execRailStep pg s = .next t ∧ s.Keeps t := by
  intro pg s
  unfold execRailStep
  refine ⟨_, rfl, ?_⟩
  try dsimp only [hubStep]
  repeat' (first | with_reducible exact State.dev_keeps _ _ | with_reducible exact State.Keeps.refl _ | with_reducible exact State.after_keeps _ _ | exact ⟨rfl, id, id⟩ | split)
theorem execRailPgTimeout_keeps : ∀ r s, ∃ t, execRailPgTimeout r s = .next t ∧ s.Keeps t := by
  intro r s
  unfold execRailPgTimeout
  refine ⟨_, rfl, ?_⟩
  try dsimp only [hubStep]
  repeat' (first | with_reducible exact State.dev_keeps _ _ | with_reducible exact State.Keeps.refl _ | with_reducible exact State.after_keeps _ _ | exact ⟨rfl, id, id⟩ | split)
theorem execRailSequenceRetry_keeps : ∀ s, ∃ t, execRailSequenceRetry s = .next t ∧ s.Keeps t := by
  intro s
  unfold execRailSequenceRetry
  refine ⟨_, rfl, ?_⟩
  try dsimp only [hubStep]
  repeat' (first | with_reducible exact State.dev_keeps _ _ | with_reducible exact State.Keeps.refl _ | with_reducible exact State.after_keeps _ _ | exact ⟨rfl, id, id⟩ | split)
theorem execRailPgLoss_keeps : ∀ r s, ∃ t, execRailPgLoss r s = .next t ∧ s.Keeps t := by
  intro r s
  unfold execRailPgLoss
  refine ⟨_, rfl, ?_⟩
  try dsimp only [hubStep]
  repeat' (first | with_reducible exact State.dev_keeps _ _ | with_reducible exact State.Keeps.refl _ | with_reducible exact State.after_keeps _ _ | exact ⟨rfl, id, id⟩ | split)
theorem execRailPgReturn_keeps : ∀ r s, ∃ t, execRailPgReturn r s = .next t ∧ s.Keeps t := by
  intro r s
  unfold execRailPgReturn
  refine ⟨_, rfl, ?_⟩
  try dsimp only [hubStep]
  repeat' (first | with_reducible exact State.dev_keeps _ _ | with_reducible exact State.Keeps.refl _ | with_reducible exact State.after_keeps _ _ | exact ⟨rfl, id, id⟩ | split)
theorem execPmbusTelemetry_keeps : ∀ reads s, ∃ t, execPmbusTelemetry reads s = .next t ∧ s.Keeps t := by
  intro reads s
  unfold execPmbusTelemetry
  refine ⟨_, rfl, ?_⟩
  try dsimp only [hubStep]
  repeat' (first | with_reducible exact State.dev_keeps _ _ | with_reducible exact State.Keeps.refl _ | with_reducible exact State.after_keeps _ _ | exact ⟨rfl, id, id⟩ | split)
theorem execPmbusGainAdjust_keeps : ∀ target s, ∃ t, execPmbusGainAdjust target s = .next t ∧ s.Keeps t := by
  intro target s
  unfold execPmbusGainAdjust
  refine ⟨_, rfl, ?_⟩
  try dsimp only [hubStep]
  repeat' (first | with_reducible exact State.dev_keeps _ _ | with_reducible exact State.Keeps.refl _ | with_reducible exact State.after_keeps _ _ | exact ⟨rfl, id, id⟩ | split)
theorem execPmbusAlert_keeps : ∀ status s, ∃ t, execPmbusAlert status s = .next t ∧ s.Keeps t := by
  intro status s
  unfold execPmbusAlert
  refine ⟨_, rfl, ?_⟩
  try dsimp only [hubStep]
  repeat' (first | with_reducible exact State.dev_keeps _ _ | with_reducible exact State.Keeps.refl _ | with_reducible exact State.after_keeps _ _ | exact ⟨rfl, id, id⟩ | split)
theorem execPowerOnReset_keeps : ∀ cause s, ∃ t, execPowerOnReset cause s = .next t ∧ s.Keeps t := by
  intro cause s
  unfold execPowerOnReset
  refine ⟨_, rfl, ?_⟩
  try dsimp only [hubStep]
  repeat' (first | with_reducible exact State.dev_keeps _ _ | with_reducible exact State.Keeps.refl _ | with_reducible exact State.after_keeps _ _ | exact ⟨rfl, id, id⟩ | split)
theorem execHubResetRelease_keeps : ∀ s, ∃ t, execHubResetRelease s = .next t ∧ s.Keeps t := by
  intro s
  unfold execHubResetRelease
  refine ⟨_, rfl, ?_⟩
  try dsimp only [hubStep]
  repeat' (first | with_reducible exact State.dev_keeps _ _ | with_reducible exact State.Keeps.refl _ | with_reducible exact State.after_keeps _ _ | exact ⟨rfl, id, id⟩ | split)
theorem execActiveDieBistDone_keeps : ∀ die pass s, ∃ t, execActiveDieBistDone die pass s = .next t ∧ s.Keeps t := by
  intro die pass s
  unfold execActiveDieBistDone
  refine ⟨_, rfl, ?_⟩
  try dsimp only [hubStep]
  repeat' (first | with_reducible exact State.dev_keeps _ _ | with_reducible exact State.Keeps.refl _ | with_reducible exact State.after_keeps _ _ | exact ⟨rfl, id, id⟩ | split)
theorem execNoActiveWaitExpiry_keeps : ∀ s, ∃ t, execNoActiveWaitExpiry s = .next t ∧ s.Keeps t := by
  intro s
  unfold execNoActiveWaitExpiry
  refine ⟨_, rfl, ?_⟩
  try dsimp only [hubStep]
  repeat' (first | with_reducible exact State.dev_keeps _ _ | with_reducible exact State.Keeps.refl _ | with_reducible exact State.after_keeps _ _ | exact ⟨rfl, id, id⟩ | split)
theorem execResetNLow_keeps : ∀ s, ∃ t, execResetNLow s = .next t ∧ s.Keeps t := by
  intro s
  unfold execResetNLow
  refine ⟨_, rfl, ?_⟩
  try dsimp only [hubStep]
  repeat' (first | with_reducible exact State.dev_keeps _ _ | with_reducible exact State.Keeps.refl _ | with_reducible exact State.after_keeps _ _ | exact ⟨rfl, id, id⟩ | split)
theorem execResetNRise_keeps : ∀ bootMode s, ∃ t, execResetNRise bootMode s = .next t ∧ s.Keeps t := by
  intro bootMode s
  unfold execResetNRise
  refine ⟨_, rfl, ?_⟩
  try dsimp only [hubStep]
  repeat' (first | with_reducible exact State.dev_keeps _ _ | with_reducible exact State.Keeps.refl _ | with_reducible exact State.after_keeps _ _ | exact ⟨rfl, id, id⟩ | split)
theorem execHubWatchdogExpiry_keeps : ∀ lockstep s, ∃ t, execHubWatchdogExpiry lockstep s = .next t ∧ s.Keeps t := by
  intro lockstep s
  unfold execHubWatchdogExpiry
  refine ⟨_, rfl, ?_⟩
  try dsimp only [hubStep]
  repeat' (first | with_reducible exact State.dev_keeps _ _ | with_reducible exact State.Keeps.refl _ | with_reducible exact State.after_keeps _ _ | exact ⟨rfl, id, id⟩ | split)
theorem execDieThermalTrip_keeps : ∀ d s, ∃ t, execDieThermalTrip d s = .next t ∧ s.Keeps t := by
  intro d s
  unfold execDieThermalTrip
  refine ⟨_, rfl, ?_⟩
  try dsimp only [hubStep]
  repeat' (first | with_reducible exact State.dev_keeps _ _ | with_reducible exact State.Keeps.refl _ | with_reducible exact State.after_keeps _ _ | exact ⟨rfl, id, id⟩ | split)
theorem execThermalRecover_keeps : ∀ d s, ∃ t, execThermalRecover d s = .next t ∧ s.Keeps t := by
  intro d s
  unfold execThermalRecover
  refine ⟨_, rfl, ?_⟩
  try dsimp only [hubStep]
  repeat' (first | with_reducible exact State.dev_keeps _ _ | with_reducible exact State.Keeps.refl _ | with_reducible exact State.after_keeps _ _ | exact ⟨rfl, id, id⟩ | split)
theorem execLastBreathConfirm_keeps : ∀ s, ∃ t, execLastBreathConfirm s = .next t ∧ s.Keeps t := by
  intro s
  unfold execLastBreathConfirm
  refine ⟨_, rfl, ?_⟩
  try dsimp only [hubStep]
  repeat' (first | with_reducible exact State.dev_keeps _ _ | with_reducible exact State.Keeps.refl _ | with_reducible exact State.after_keeps _ _ | exact ⟨rfl, id, id⟩ | split)
theorem execLastBreathDone_keeps : ∀ s, ∃ t, execLastBreathDone s = .next t ∧ s.Keeps t := by
  intro s
  unfold execLastBreathDone
  refine ⟨_, rfl, ?_⟩
  try dsimp only [hubStep]
  repeat' (first | with_reducible exact State.dev_keeps _ _ | with_reducible exact State.Keeps.refl _ | with_reducible exact State.after_keeps _ _ | exact ⟨rfl, id, id⟩ | split)
theorem execKeepWake_keeps : ∀ source s, ∃ t, execKeepWake source s = .next t ∧ s.Keeps t := by
  intro source s
  unfold execKeepWake
  refine ⟨_, rfl, ?_⟩
  try dsimp only [hubStep]
  repeat' (first | with_reducible exact State.dev_keeps _ _ | with_reducible exact State.Keeps.refl _ | with_reducible exact State.after_keeps _ _ | exact ⟨rfl, id, id⟩ | split)
theorem execSelftestSliceEnd_keeps : ∀ sig s, ∃ t, execSelftestSliceEnd sig s = .next t ∧ s.Keeps t := by
  intro sig s
  unfold execSelftestSliceEnd
  refine ⟨_, rfl, ?_⟩
  try dsimp only [hubStep]
  repeat' (first | with_reducible exact State.dev_keeps _ _ | with_reducible exact State.Keeps.refl _ | with_reducible exact State.after_keeps _ _ | exact ⟨rfl, id, id⟩ | split)
theorem execQmonLevelRead_keeps : ∀ ctl s, ∃ t, execQmonLevelRead ctl s = .next t ∧ s.Keeps t := by
  intro ctl s
  unfold execQmonLevelRead
  refine ⟨_, rfl, ?_⟩
  try dsimp only [hubStep]
  repeat' (first | with_reducible exact State.dev_keeps _ _ | with_reducible exact State.Keeps.refl _ | with_reducible exact State.after_keeps _ _ | exact ⟨rfl, id, id⟩ | split)
theorem execFreeLowRead_keeps : ∀ s, ∃ t, execFreeLowRead s = .next t ∧ s.Keeps t := by
  intro s
  unfold execFreeLowRead
  refine ⟨_, rfl, ?_⟩
  try dsimp only [hubStep]
  repeat' (first | with_reducible exact State.dev_keeps _ _ | with_reducible exact State.Keeps.refl _ | with_reducible exact State.after_keeps _ _ | exact ⟨rfl, id, id⟩ | split)
theorem execMinSlackRead_keeps : ∀ s, ∃ t, execMinSlackRead s = .next t ∧ s.Keeps t := by
  intro s
  unfold execMinSlackRead
  refine ⟨_, rfl, ?_⟩
  try dsimp only [hubStep]
  repeat' (first | with_reducible exact State.dev_keeps _ _ | with_reducible exact State.Keeps.refl _ | with_reducible exact State.after_keeps _ _ | exact ⟨rfl, id, id⟩ | split)
theorem execMaxGlideUsRead_keeps : ∀ s, ∃ t, execMaxGlideUsRead s = .next t ∧ s.Keeps t := by
  intro s
  unfold execMaxGlideUsRead
  refine ⟨_, rfl, ?_⟩
  try dsimp only [hubStep]
  repeat' (first | with_reducible exact State.dev_keeps _ _ | with_reducible exact State.Keeps.refl _ | with_reducible exact State.after_keeps _ _ | exact ⟨rfl, id, id⟩ | split)
theorem execResidMaxNsRead_keeps : ∀ port s, ∃ t, execResidMaxNsRead port s = .next t ∧ s.Keeps t := by
  intro port s
  unfold execResidMaxNsRead
  refine ⟨_, rfl, ?_⟩
  try dsimp only [hubStep]
  repeat' (first | with_reducible exact State.dev_keeps _ _ | with_reducible exact State.Keeps.refl _ | with_reducible exact State.after_keeps _ _ | exact ⟨rfl, id, id⟩ | split)
theorem execRegisterWrite_keeps : ∀ addr v s, ∃ t, execRegisterWrite addr v s = .next t ∧ s.Keeps t := by
  intro addr v s
  unfold execRegisterWrite
  refine ⟨_, rfl, ?_⟩
  try dsimp only [hubStep]
  repeat' (first | with_reducible exact State.dev_keeps _ _ | with_reducible exact State.Keeps.refl _ | with_reducible exact State.after_keeps _ _ | exact ⟨rfl, id, id⟩ | split)
theorem execOpenLoadClear_keeps : ∀ die c s, ∃ t, execOpenLoadClear die c s = .next t ∧ s.Keeps t := by
  intro die c s
  unfold execOpenLoadClear
  refine ⟨_, rfl, ?_⟩
  try dsimp only [hubStep]
  repeat' (first | with_reducible exact State.dev_keeps _ _ | with_reducible exact State.Keeps.refl _ | with_reducible exact State.after_keeps _ _ | exact ⟨rfl, id, id⟩ | split)
theorem execFeedOvervoltageClear_keeps : ∀ die b mv s, ∃ t, execFeedOvervoltageClear die b mv s = .next t ∧ s.Keeps t := by
  intro die b mv s
  unfold execFeedOvervoltageClear
  refine ⟨_, rfl, ?_⟩
  try dsimp only [hubStep]
  repeat' (first | with_reducible exact State.dev_keeps _ _ | with_reducible exact State.Keeps.refl _ | with_reducible exact State.after_keeps _ _ | exact ⟨rfl, id, id⟩ | split)
theorem execSaveSupplyRelease_keeps : ∀ s, ∃ t, execSaveSupplyRelease s = .next t ∧ s.Keeps t := by
  intro s
  unfold execSaveSupplyRelease
  refine ⟨_, rfl, ?_⟩
  try dsimp only [hubStep]
  repeat' (first | with_reducible exact State.dev_keeps _ _ | with_reducible exact State.Keeps.refl _ | with_reducible exact State.after_keeps _ _ | exact ⟨rfl, id, id⟩ | split)
theorem execBitAndWordLock_keeps : ∀ port s, ∃ t, execBitAndWordLock port s = .next t ∧ s.Keeps t := by
  intro port s
  unfold execBitAndWordLock
  refine ⟨_, rfl, ?_⟩
  try dsimp only [hubStep]
  repeat' (first | with_reducible exact State.dev_keeps _ _ | with_reducible exact State.Keeps.refl _ | with_reducible exact State.after_keeps _ _ | exact ⟨rfl, id, id⟩ | split)
theorem execColdSyncComplete_keeps : ∀ die s, ∃ t, execColdSyncComplete die s = .next t ∧ s.Keeps t := by
  intro die s
  unfold execColdSyncComplete
  refine ⟨_, rfl, ?_⟩
  try dsimp only [hubStep]
  repeat' (first | with_reducible exact State.dev_keeps _ _ | with_reducible exact State.Keeps.refl _ | with_reducible exact State.after_keeps _ _ | exact ⟨rfl, id, id⟩ | split)
theorem execOutputDiscardReport_keeps : ∀ die s, ∃ t, execOutputDiscardReport die s = .next t ∧ s.Keeps t := by
  intro die s
  unfold execOutputDiscardReport
  refine ⟨_, rfl, ?_⟩
  try dsimp only [hubStep]
  repeat' (first | with_reducible exact State.dev_keeps _ _ | with_reducible exact State.Keeps.refl _ | with_reducible exact State.after_keeps _ _ | exact ⟨rfl, id, id⟩ | split)
theorem execArpRequest_keeps : ∀ port target sender senderMac s, ∃ t, execArpRequest port target sender senderMac s = .next t ∧ s.Keeps t := by
  intro port target sender senderMac s
  unfold execArpRequest
  refine ⟨_, rfl, ?_⟩
  try dsimp only [hubStep]
  repeat' (first | with_reducible exact State.dev_keeps _ _ | with_reducible exact State.Keeps.refl _ | with_reducible exact State.after_keeps _ _ | exact ⟨rfl, id, id⟩ | split)
theorem execIcmpEchoRequest_keeps : ∀ port target sender payload s, ∃ t, execIcmpEchoRequest port target sender payload s = .next t ∧ s.Keeps t := by
  intro port target sender payload s
  unfold execIcmpEchoRequest
  refine ⟨_, rfl, ?_⟩
  try dsimp only [hubStep]
  repeat' (first | with_reducible exact State.dev_keeps _ _ | with_reducible exact State.Keeps.refl _ | with_reducible exact State.after_keeps _ _ | exact ⟨rfl, id, id⟩ | split)
theorem execTckEdge_keeps : ∀ rising tms tdi trstN s, ∃ t, execTckEdge rising tms tdi trstN s = .next t ∧ s.Keeps t := by
  intro rising tms tdi trstN s
  unfold execTckEdge
  refine ⟨_, rfl, ?_⟩
  try dsimp only [hubStep]
  repeat' (with_reducible exact State.dev_keeps _ _)
theorem execNop_keeps (p s) : ∃ t, execNop p s = .next t ∧ s.Keeps t := ⟨_, rfl, (packetRow_moves (fun s q => (opNop_plain s q).1) (fun _ s => State.dev_moves s s.dev) p s).keeps⟩
theorem execDevIdent_keeps (p s) : ∃ t, execDevIdent p s = .next t ∧ s.Keeps t := ⟨_, rfl, (packetRow_moves (fun s q => (opDevIdent_plain s q).1) (fun _ s => State.dev_moves s s.dev) p s).keeps⟩
theorem opDeviceReset_after (q : QPacket) (s : State) : State.Moves s (opDeviceReset.after q s) := by
  dsimp only [opDeviceReset]
  repeat' (with_reducible exact State.after_moves _ _)
theorem execDeviceReset_keeps (p s) : ∃ t, execDeviceReset p s = .next t ∧ s.Keeps t := ⟨_, rfl, (packetRow_moves (fun s q => (opDeviceReset_plain s q).1) opDeviceReset_after p s).keeps⟩
theorem execDieReset_keeps (p s) : ∃ t, execDieReset p s = .next t ∧ s.Keeps t := ⟨_, rfl, (packetRow_moves (fun s q => (opDieReset_plain s q).1) (fun _ s => State.dev_moves s s.dev) p s).keeps⟩
theorem execFieldReset_keeps (p s) : ∃ t, execFieldReset p s = .next t ∧ s.Keeps t := ⟨_, rfl, (packetRow_moves (fun s q => (opFieldReset_plain s q).1) (fun _ s => State.dev_moves s s.dev) p s).keeps⟩
theorem execResetCause_keeps (p s) : ∃ t, execResetCause p s = .next t ∧ s.Keeps t := ⟨_, rfl, (packetRow_moves (fun s q => (opResetCause_plain s q).1) (fun _ s => State.dev_moves s s.dev) p s).keeps⟩
theorem execFwStage_keeps (p s) : ∃ t, execFwStage p s = .next t ∧ s.Keeps t := ⟨_, rfl, (packetRow_moves (fun s q => (opFwStage_plain s q).1) (fun _ s => State.dev_moves s s.dev) p s).keeps⟩
theorem opFwActivate_after (q : QPacket) (s : State) : State.Moves s (opFwActivate.after q s) := by
  dsimp only [opFwActivate]
  repeat' (first | with_reducible exact State.after_moves _ _ | exact ⟨rfl, .inl rfl, .inl rfl⟩ | split)
theorem execFwActivate_keeps (p s) : ∃ t, execFwActivate p s = .next t ∧ s.Keeps t := ⟨_, rfl, (packetRow_moves (fun s q => (opFwActivate_plain s q).1) opFwActivate_after p s).keeps⟩
theorem execFrameSet_keeps (p s) : ∃ t, execFrameSet p s = .next t ∧ s.Keeps t := ⟨_, rfl, (packetRow_moves (fun s q => (opFrameSet_plain s q).1) (fun _ s => State.dev_moves s s.dev) p s).keeps⟩
theorem execFrameStop_keeps (p s) : ∃ t, execFrameStop p s = .next t ∧ s.Keeps t := ⟨_, rfl, (packetRow_moves (fun s q => (opFrameStop_plain s q).1) (fun _ s => State.dev_moves s s.dev) p s).keeps⟩
theorem execFrameStatus_keeps (p s) : ∃ t, execFrameStatus p s = .next t ∧ s.Keeps t := ⟨_, rfl, (packetRow_moves (fun s q => (opFrameStatus_plain s q).1) (fun _ s => State.dev_moves s s.dev) p s).keeps⟩
theorem opHostConfig_after (q : QPacket) (s : State) : State.Moves s (opHostConfig.after q s) := by
  dsimp only [opHostConfig]
  repeat' (first | with_reducible exact State.after_moves _ _ | exact ⟨rfl, .inl rfl, .inl rfl⟩)
theorem execHostConfig_keeps (p s) : ∃ t, execHostConfig p s = .next t ∧ s.Keeps t := ⟨_, rfl, (packetRow_moves (fun s q => (opHostConfig_plain s q).1) opHostConfig_after p s).keeps⟩
theorem execHostStatus_keeps (p s) : ∃ t, execHostStatus p s = .next t ∧ s.Keeps t := ⟨_, rfl, (packetRow_moves (fun s q => (opHostStatus_plain s q).1) (fun _ s => State.dev_moves s s.dev) p s).keeps⟩
theorem execEthIfConfig_keeps (p s) : ∃ t, execEthIfConfig p s = .next t ∧ s.Keeps t := ⟨_, rfl, (packetRow_moves (fun s q => (opEthIfConfig_plain s q).1) (fun _ s => State.dev_moves s s.dev) p s).keeps⟩
theorem execPointRead_keeps (p s) : ∃ t, execPointRead p s = .next t ∧ s.Keeps t := ⟨_, rfl, (packetRow_moves (fun s q => (opPointRead_plain s q).1) (fun _ s => State.dev_moves s s.dev) p s).keeps⟩
theorem execPointWrite_keeps (p s) : ∃ t, execPointWrite p s = .next t ∧ s.Keeps t := ⟨_, rfl, (packetRow_moves (fun s q => (opPointWrite_plain s q).1) (fun _ s => State.dev_moves s s.dev) p s).keeps⟩
theorem execPointBlockWrite_keeps (p s) : ∃ t, execPointBlockWrite p s = .next t ∧ s.Keeps t := ⟨_, rfl, (packetRow_moves opPointBlockWrite_held (fun _ s => State.dev_moves s s.dev) p s).keeps⟩
theorem execPointBlockRead_keeps (p s) : ∃ t, execPointBlockRead p s = .next t ∧ s.Keeps t := ⟨_, rfl, (packetRow_moves opPointBlockRead_held (fun _ s => State.dev_moves s s.dev) p s).keeps⟩
theorem execSnapshotAt_keeps (p s) : ∃ t, execSnapshotAt p s = .next t ∧ s.Keeps t := ⟨_, rfl, (packetRow_moves (fun s q => (opSnapshotAt_plain s q).1) (fun _ s => State.dev_moves s s.dev) p s).keeps⟩
theorem execSnapshotRead_keeps (p s) : ∃ t, execSnapshotRead p s = .next t ∧ s.Keeps t := ⟨_, rfl, (packetRow_moves (fun s q => (opSnapshotRead_plain s q).1) (fun _ s => State.dev_moves s s.dev) p s).keeps⟩
theorem execSnapshotStatus_keeps (p s) : ∃ t, execSnapshotStatus p s = .next t ∧ s.Keeps t := ⟨_, rfl, (packetRow_moves (fun s q => (opSnapshotStatus_plain s q).1) (fun _ s => State.dev_moves s s.dev) p s).keeps⟩
theorem opPframeConfig_after (q : QPacket) (s : State) : State.Moves s (opPframeConfig.after q s) := by
  dsimp only [opPframeConfig]
  repeat' (first | with_reducible exact State.after_moves _ _ | exact ⟨rfl, .inl rfl, .inl rfl⟩)
theorem execPframeConfig_keeps (p s) : ∃ t, execPframeConfig p s = .next t ∧ s.Keeps t := ⟨_, rfl, (packetRow_moves (fun s q => (opPframeConfig_plain s q).1) opPframeConfig_after p s).keeps⟩
theorem execModelLoad_keeps (p s) : ∃ t, execModelLoad p s = .next t ∧ s.Keeps t := ⟨_, rfl, (packetRow_moves (fun s q => (opModelLoad_plain s q).1) (fun _ s => State.dev_moves s s.dev) p s).keeps⟩
theorem execModelCommit_keeps (p s) : ∃ t, execModelCommit p s = .next t ∧ s.Keeps t := ⟨_, rfl, (packetRow_moves opModelCommit_held (fun _ s => State.dev_moves s s.dev) p s).keeps⟩
theorem execModelStatus_keeps (p s) : ∃ t, execModelStatus p s = .next t ∧ s.Keeps t := ⟨_, rfl, (packetRow_moves (fun s q => (opModelStatus_plain s q).1) (fun _ s => State.dev_moves s s.dev) p s).keeps⟩
theorem execPartitionSet_keeps (p s) : ∃ t, execPartitionSet p s = .next t ∧ s.Keeps t := ⟨_, rfl, (packetRow_moves (fun s q => (opPartitionSet_plain s q).1) (fun _ s => State.dev_moves s s.dev) p s).keeps⟩
theorem execSubstSet_keeps (p s) : ∃ t, execSubstSet p s = .next t ∧ s.Keeps t := ⟨_, rfl, (packetRow_moves (fun s q => (opSubstSet_plain s q).1) (fun _ s => State.dev_moves s s.dev) p s).keeps⟩
theorem execJobSubmit_keeps (p s) : ∃ t, execJobSubmit p s = .next t ∧ s.Keeps t := ⟨_, rfl, (packetRow_moves (fun s q => (opJobSubmit_plain s q).1) (fun _ s => State.dev_moves s s.dev) p s).keeps⟩
theorem execJobResult_keeps (p s) : ∃ t, execJobResult p s = .next t ∧ s.Keeps t := ⟨_, rfl, (packetRow_moves (fun s q => (opJobResult_plain s q).1) (fun _ s => State.dev_moves s s.dev) p s).keeps⟩
theorem execJobCancel_keeps (p s) : ∃ t, execJobCancel p s = .next t ∧ s.Keeps t := ⟨_, rfl, (packetRow_moves (fun s q => (opJobCancel_plain s q).1) (fun _ s => State.dev_moves s s.dev) p s).keeps⟩
theorem execMemAlloc_keeps (p s) : ∃ t, execMemAlloc p s = .next t ∧ s.Keeps t := ⟨_, rfl, (packetRow_moves (fun s q => (opMemAlloc_plain s q).1) (fun _ s => State.dev_moves s s.dev) p s).keeps⟩
theorem execMemFree_keeps (p s) : ∃ t, execMemFree p s = .next t ∧ s.Keeps t := ⟨_, rfl, (packetRow_moves (fun s q => (opMemFree_plain s q).1) (fun _ s => State.dev_moves s s.dev) p s).keeps⟩
theorem execMemWrite_keeps (p s) : ∃ t, execMemWrite p s = .next t ∧ s.Keeps t := ⟨_, rfl, (packetRow_moves (fun s q => (opMemWrite_plain s q).1) (fun _ s => State.dev_moves s s.dev) p s).keeps⟩
theorem execMemRead_keeps (p s) : ∃ t, execMemRead p s = .next t ∧ s.Keeps t := ⟨_, rfl, (packetRow_moves (fun s q => (opMemRead_plain s q).1) (fun _ s => State.dev_moves s s.dev) p s).keeps⟩
theorem execSolverConfig_keeps (p s) : ∃ t, execSolverConfig p s = .next t ∧ s.Keeps t := ⟨_, rfl, (packetRow_moves (fun s q => (opSolverConfig_plain s q).1) (fun _ s => State.dev_moves s s.dev) p s).keeps⟩
theorem execSolverStatus_keeps (p s) : ∃ t, execSolverStatus p s = .next t ∧ s.Keeps t := ⟨_, rfl, (packetRow_moves (fun s q => (opSolverStatus_plain s q).1) (fun _ s => State.dev_moves s s.dev) p s).keeps⟩
theorem execCoordConfigSettings_keeps (p s) : ∃ t, execCoordConfigSettings p s = .next t ∧ s.Keeps t := ⟨_, rfl, (packetRow_moves (fun s q => (opCoordConfigSettings_plain s q).1) (fun _ s => State.dev_moves s s.dev) p s).keeps⟩
theorem execCoordConfigScope_keeps (p s) : ∃ t, execCoordConfigScope p s = .next t ∧ s.Keeps t := ⟨_, rfl, (packetRow_moves (fun s q => (opCoordConfigScope_plain s q).1) (fun _ s => State.dev_moves s s.dev) p s).keeps⟩
theorem execCoordStatus_keeps (p s) : ∃ t, execCoordStatus p s = .next t ∧ s.Keeps t := ⟨_, rfl, (packetRow_moves (fun s q => (opCoordStatus_plain s q).1) (fun _ s => State.dev_moves s s.dev) p s).keeps⟩
theorem opJlPortConfig_after (q : QPacket) (s : State) : State.Moves s (opJlPortConfig.after q s) := by
  dsimp only [opJlPortConfig]
  repeat' (first | with_reducible exact State.after_moves _ _ | exact ⟨rfl, .inl rfl, .inl rfl⟩)
theorem execJlPortConfig_keeps (p s) : ∃ t, execJlPortConfig p s = .next t ∧ s.Keeps t := ⟨_, rfl, (packetRow_moves (fun s q => (opJlPortConfig_plain s q).1) opJlPortConfig_after p s).keeps⟩
theorem execJlStatus_keeps (p s) : ∃ t, execJlStatus p s = .next t ∧ s.Keeps t := ⟨_, rfl, (packetRow_moves (fun s q => (opJlStatus_plain s q).1) (fun _ s => State.dev_moves s s.dev) p s).keeps⟩
theorem execRelay_keeps (p s) : ∃ t, execRelay p s = .next t ∧ s.Keeps t := ⟨_, rfl, (packetRow_moves (fun s q => (opRelay_plain s q).1) (fun _ s => State.dev_moves s s.dev) p s).keeps⟩
theorem execLoopConfig_keeps (p s) : ∃ t, execLoopConfig p s = .next t ∧ s.Keeps t := ⟨_, rfl, (packetRow_moves (fun s q => (opLoopConfig_plain s q).1) (fun _ s => State.dev_moves s s.dev) p s).keeps⟩
theorem execLoopSectionSet_keeps (p s) : ∃ t, execLoopSectionSet p s = .next t ∧ s.Keeps t := ⟨_, rfl, (packetRow_moves (fun s q => (opLoopSectionSet_plain s q).1) (fun _ s => State.dev_moves s s.dev) p s).keeps⟩
theorem execLoopMode_keeps (p s) : ∃ t, execLoopMode p s = .next t ∧ s.Keeps t := ⟨_, rfl, (packetRow_moves (fun s q => (opLoopMode_plain s q).1) (fun _ s => State.dev_moves s s.dev) p s).keeps⟩
theorem execLoopStatus_keeps (p s) : ∃ t, execLoopStatus p s = .next t ∧ s.Keeps t := ⟨_, rfl, (packetRow_moves (fun s q => (opLoopStatus_plain s q).1) (fun _ s => State.dev_moves s s.dev) p s).keeps⟩
theorem execOverrideConfig_keeps (p s) : ∃ t, execOverrideConfig p s = .next t ∧ s.Keeps t := ⟨_, rfl, (packetRow_moves (fun s q => (opOverrideConfig_plain s q).1) (fun _ s => State.dev_moves s s.dev) p s).keeps⟩
theorem execSupervConfig_keeps (p s) : ∃ t, execSupervConfig p s = .next t ∧ s.Keeps t := ⟨_, rfl, (packetRow_moves (fun s q => (opSupervConfig_plain s q).1) (fun _ s => State.dev_moves s s.dev) p s).keeps⟩
theorem execSupervAck_keeps (p s) : ∃ t, execSupervAck p s = .next t ∧ s.Keeps t := ⟨_, rfl, (packetRow_moves (fun s q => (opSupervAck_plain s q).1) (fun _ s => State.dev_moves s s.dev) p s).keeps⟩
theorem execSupervRestartModel_keeps (p s) : ∃ t, execSupervRestartModel p s = .next t ∧ s.Keeps t := ⟨_, rfl, (packetRow_moves (fun s q => (opSupervRestartModel_plain s q).1) (fun _ s => State.dev_moves s s.dev) p s).keeps⟩
theorem execSupervStatus_keeps (p s) : ∃ t, execSupervStatus p s = .next t ∧ s.Keeps t := ⟨_, rfl, (packetRow_moves (fun s q => (opSupervStatus_plain s q).1) (fun _ s => State.dev_moves s s.dev) p s).keeps⟩
theorem execMogulConfig_keeps (p s) : ∃ t, execMogulConfig p s = .next t ∧ s.Keeps t := ⟨_, rfl, (packetRow_moves (fun s q => (opMogulConfig_plain s q).1) (fun _ s => State.dev_moves s s.dev) p s).keeps⟩
theorem execMogulPageRead_keeps (p s) : ∃ t, execMogulPageRead p s = .next t ∧ s.Keeps t := ⟨_, rfl, (packetRow_moves (fun s q => (opMogulPageRead_plain s q).1) (fun _ s => State.dev_moves s s.dev) p s).keeps⟩
theorem execTraceConfig_keeps (p s) : ∃ t, execTraceConfig p s = .next t ∧ s.Keeps t := ⟨_, rfl, (packetRow_moves (fun s q => (opTraceConfig_plain s q).1) (fun _ s => State.dev_moves s s.dev) p s).keeps⟩
theorem execTraceArm_keeps (p s) : ∃ t, execTraceArm p s = .next t ∧ s.Keeps t := ⟨_, rfl, (packetRow_moves (fun s q => (opTraceArm_plain s q).1) (fun _ s => State.dev_moves s s.dev) p s).keeps⟩
theorem execTraceDisarm_keeps (p s) : ∃ t, execTraceDisarm p s = .next t ∧ s.Keeps t := ⟨_, rfl, (packetRow_moves (fun s q => (opTraceDisarm_plain s q).1) (fun _ s => State.dev_moves s s.dev) p s).keeps⟩
theorem execTraceRead_keeps (p s) : ∃ t, execTraceRead p s = .next t ∧ s.Keeps t := ⟨_, rfl, (packetRow_moves (fun s q => (opTraceRead_plain s q).1) (fun _ s => State.dev_moves s s.dev) p s).keeps⟩
theorem execPwrCapSet_keeps (p s) : ∃ t, execPwrCapSet p s = .next t ∧ s.Keeps t := ⟨_, rfl, (packetRow_moves (fun s q => (opPwrCapSet_plain s q).1) (fun _ s => State.dev_moves s s.dev) p s).keeps⟩
theorem execBudgetConfig_keeps (p s) : ∃ t, execBudgetConfig p s = .next t ∧ s.Keeps t := ⟨_, rfl, (packetRow_moves (fun s q => (opBudgetConfig_plain s q).1) (fun _ s => State.dev_moves s s.dev) p s).keeps⟩
theorem execBudgetStatus_keeps (p s) : ∃ t, execBudgetStatus p s = .next t ∧ s.Keeps t := ⟨_, rfl, (packetRow_moves (fun s q => (opBudgetStatus_plain s q).1) (fun _ s => State.dev_moves s s.dev) p s).keeps⟩
theorem execAchConfig_keeps (p s) : ∃ t, execAchConfig p s = .next t ∧ s.Keeps t := ⟨_, rfl, (packetRow_moves (fun s q => (opAchConfig_plain s q).1) (fun _ s => State.dev_moves s s.dev) p s).keeps⟩
theorem execSeqWrite_keeps (p s) : ∃ t, execSeqWrite p s = .next t ∧ s.Keeps t := ⟨_, rfl, (packetRow_moves (fun s q => (opSeqWrite_plain s q).1) (fun _ s => State.dev_moves s s.dev) p s).keeps⟩
theorem execSeqStart_keeps (p s) : ∃ t, execSeqStart p s = .next t ∧ s.Keeps t := ⟨_, rfl, (packetRow_moves (fun s q => (opSeqStart_plain s q).1) (fun _ s => State.dev_moves s s.dev) p s).keeps⟩
theorem execSeqStop_keeps (p s) : ∃ t, execSeqStop p s = .next t ∧ s.Keeps t := ⟨_, rfl, (packetRow_moves (fun s q => (opSeqStop_plain s q).1) (fun _ s => State.dev_moves s s.dev) p s).keeps⟩
theorem execSeqResult_keeps (p s) : ∃ t, execSeqResult p s = .next t ∧ s.Keeps t := ⟨_, rfl, (packetRow_moves (fun s q => (opSeqResult_plain s q).1) (fun _ s => State.dev_moves s s.dev) p s).keeps⟩
theorem execCalChannelTrim_keeps (p s) : ∃ t, execCalChannelTrim p s = .next t ∧ s.Keeps t := ⟨_, rfl, (packetRow_moves (fun s q => (opCalChannelTrim_plain s q).1) (fun _ s => State.dev_moves s s.dev) p s).keeps⟩
theorem execCalNtc_keeps (p s) : ∃ t, execCalNtc p s = .next t ∧ s.Keeps t := ⟨_, rfl, (packetRow_moves (fun s q => (opCalNtc_plain s q).1) (fun _ s => State.dev_moves s s.dev) p s).keeps⟩
theorem execCalAoTrim_keeps (p s) : ∃ t, execCalAoTrim p s = .next t ∧ s.Keeps t := ⟨_, rfl, (packetRow_moves (fun s q => (opCalAoTrim_plain s q).1) (fun _ s => State.dev_moves s s.dev) p s).keeps⟩
theorem execCalHbManual_keeps (p s) : ∃ t, execCalHbManual p s = .next t ∧ s.Keeps t := ⟨_, rfl, (packetRow_moves (fun s q => (opCalHbManual_plain s q).1) (fun _ s => State.dev_moves s s.dev) p s).keeps⟩
theorem execCalHbAuto_keeps (p s) : ∃ t, execCalHbAuto p s = .next t ∧ s.Keeps t := ⟨_, rfl, (packetRow_moves (fun s q => (opCalHbAuto_plain s q).1) (fun _ s => State.dev_moves s s.dev) p s).keeps⟩
theorem execCalUserDefaults_keeps (p s) : ∃ t, execCalUserDefaults p s = .next t ∧ s.Keeps t := ⟨_, rfl, (packetRow_moves (fun s q => (opCalUserDefaults_plain s q).1) (fun _ s => State.dev_moves s s.dev) p s).keeps⟩
theorem execTestdacSet_keeps (p s) : ∃ t, execTestdacSet p s = .next t ∧ s.Keeps t := ⟨_, rfl, (packetRow_moves (fun s q => (opTestdacSet_plain s q).1) (fun _ s => State.dev_moves s s.dev) p s).keeps⟩
theorem execDchConfig_keeps (p s) : ∃ t, execDchConfig p s = .next t ∧ s.Keeps t := ⟨_, rfl, (packetRow_moves (fun s q => (opDchConfig_plain s q).1) (fun _ s => State.dev_moves s s.dev) p s).keeps⟩
theorem execDchStatus_keeps (p s) : ∃ t, execDchStatus p s = .next t ∧ s.Keeps t := ⟨_, rfl, (packetRow_moves (fun s q => (opDchStatus_plain s q).1) (fun _ s => State.dev_moves s s.dev) p s).keeps⟩
theorem execArmOutputs_keeps (p s) : ∃ t, execArmOutputs p s = .next t ∧ s.Keeps t := ⟨_, rfl, (packetRow_moves (fun s q => (opArmOutputs_plain s q).1) (fun _ s => State.dev_moves s s.dev) p s).keeps⟩
theorem execOutputSet_keeps (p s) : ∃ t, execOutputSet p s = .next t ∧ s.Keeps t := ⟨_, rfl, (packetRow_moves (fun s q => (opOutputSet_plain s q).1) (fun _ s => State.dev_moves s s.dev) p s).keeps⟩
theorem execSafeConfig_keeps (p s) : ∃ t, execSafeConfig p s = .next t ∧ s.Keeps t := ⟨_, rfl, (packetRow_moves (fun s q => (opSafeConfig_plain s q).1) (fun _ s => State.dev_moves s s.dev) p s).keeps⟩
theorem execCounterRead_keeps (p s) : ∃ t, execCounterRead p s = .next t ∧ s.Keeps t := ⟨_, rfl, (packetRow_moves (fun s q => (opCounterRead_plain s q).1) (fun _ s => State.dev_moves s s.dev) p s).keeps⟩
theorem execTwinStatus_keeps (p s) : ∃ t, execTwinStatus p s = .next t ∧ s.Keeps t := ⟨_, rfl, (packetRow_moves (fun s q => (opTwinStatus_plain s q).1) (fun _ s => State.dev_moves s s.dev) p s).keeps⟩
theorem execSwap_keeps (p s) : ∃ t, execSwap p s = .next t ∧ s.Keeps t := ⟨_, rfl, (packetRow_moves (fun s q => (opSwap_plain s q).1) (fun _ s => State.dev_moves s s.dev) p s).keeps⟩
theorem execSwapCancel_keeps (p s) : ∃ t, execSwapCancel p s = .next t ∧ s.Keeps t := ⟨_, rfl, (packetRow_moves (fun s q => (opSwapCancel_plain s q).1) (fun _ s => State.dev_moves s s.dev) p s).keeps⟩
theorem execTwinConfig_keeps (p s) : ∃ t, execTwinConfig p s = .next t ∧ s.Keeps t := ⟨_, rfl, (packetRow_moves (fun s q => (opTwinConfig_plain s q).1) (fun _ s => State.dev_moves s s.dev) p s).keeps⟩
theorem execTwinRecover_keeps (p s) : ∃ t, execTwinRecover p s = .next t ∧ s.Keeps t := ⟨_, rfl, (packetRow_moves (fun s q => (opTwinRecover_plain s q).1) (fun _ s => State.dev_moves s s.dev) p s).keeps⟩
theorem execHealthReport_keeps (p s) : ∃ t, execHealthReport p s = .next t ∧ s.Keeps t := ⟨_, rfl, (packetRow_moves (fun s q => (opHealthReport_plain s q).1) (fun _ s => State.dev_moves s s.dev) p s).keeps⟩
theorem execTimeRead_keeps (p s) : ∃ t, execTimeRead p s = .next t ∧ s.Keeps t := ⟨_, rfl, (packetRow_moves (fun s q => (opTimeRead_plain s q).1) (fun _ s => State.dev_moves s s.dev) p s).keeps⟩
theorem execTimeAdjustOffset_keeps (p s) : ∃ t, execTimeAdjustOffset p s = .next t ∧ s.Keeps t := ⟨_, rfl, (packetRow_moves (fun s q => (opTimeAdjustOffset_plain s q).1) (fun _ s => State.dev_moves s s.dev) p s).keeps⟩
theorem execTimeAdjustStep_keeps (p s) : ∃ t, execTimeAdjustStep p s = .next t ∧ s.Keeps t := ⟨_, rfl, (packetRow_moves (fun s q => (opTimeAdjustStep_plain s q).1) (fun _ s => State.dev_moves s s.dev) p s).keeps⟩
theorem execTimeAdjustSet_keeps (p s) : ∃ t, execTimeAdjustSet p s = .next t ∧ s.Keeps t := ⟨_, rfl, (packetRow_moves (fun s q => (opTimeAdjustSet_plain s q).1) (fun _ s => State.dev_moves s s.dev) p s).keeps⟩
theorem execTimeAdjustFreq_keeps (p s) : ∃ t, execTimeAdjustFreq p s = .next t ∧ s.Keeps t := ⟨_, rfl, (packetRow_moves (fun s q => (opTimeAdjustFreq_plain s q).1) (fun _ s => State.dev_moves s s.dev) p s).keeps⟩
theorem opPtpConfig_after (q : QPacket) (s : State) : State.Moves s (opPtpConfig.after q s) := by
  dsimp only [opPtpConfig]
  repeat' (first | with_reducible exact State.after_moves _ _ | exact ⟨rfl, .inl rfl, .inl rfl⟩)
theorem execPtpConfig_keeps (p s) : ∃ t, execPtpConfig p s = .next t ∧ s.Keeps t := ⟨_, rfl, (packetRow_moves (fun s q => (opPtpConfig_plain s q).1) opPtpConfig_after p s).keeps⟩
theorem execPtpStatus_keeps (p s) : ∃ t, execPtpStatus p s = .next t ∧ s.Keeps t := ⟨_, rfl, (packetRow_moves (fun s q => (opPtpStatus_plain s q).1) (fun _ s => State.dev_moves s s.dev) p s).keeps⟩
theorem execServoConfig_keeps (p s) : ∃ t, execServoConfig p s = .next t ∧ s.Keeps t := ⟨_, rfl, (packetRow_moves (fun s q => (opServoConfig_plain s q).1) (fun _ s => State.dev_moves s s.dev) p s).keeps⟩
theorem execReadRtc_keeps (p s) : ∃ t, execReadRtc p s = .next t ∧ s.Keeps t := ⟨_, rfl, (packetRow_moves (fun s q => (opReadRtc_plain s q).1) (fun _ s => State.dev_moves s s.dev) p s).keeps⟩
theorem execWriteRtcNextEdge_keeps (p s) : ∃ t, execWriteRtcNextEdge p s = .next t ∧ s.Keeps t := ⟨_, rfl, (packetRow_moves (fun s q => (opWriteRtcNextEdge_plain s q).1) (fun _ s => State.dev_moves s s.dev) p s).keeps⟩
theorem execWriteRtcAtTime_keeps (p s) : ∃ t, execWriteRtcAtTime p s = .next t ∧ s.Keeps t := ⟨_, rfl, (packetRow_moves (fun s q => (opWriteRtcAtTime_plain s q).1) (fun _ s => State.dev_moves s s.dev) p s).keeps⟩
theorem execRtcTrimSet_keeps (p s) : ∃ t, execRtcTrimSet p s = .next t ∧ s.Keeps t := ⟨_, rfl, (packetRow_moves (fun s q => (opRtcTrimSet_plain s q).1) (fun _ s => State.dev_moves s s.dev) p s).keeps⟩
theorem execRtcSyncConfig_keeps (p s) : ∃ t, execRtcSyncConfig p s = .next t ∧ s.Keeps t := ⟨_, rfl, (packetRow_moves (fun s q => (opRtcSyncConfig_plain s q).1) (fun _ s => State.dev_moves s s.dev) p s).keeps⟩
theorem execRtcAlarmSet_keeps (p s) : ∃ t, execRtcAlarmSet p s = .next t ∧ s.Keeps t := ⟨_, rfl, (packetRow_moves (fun s q => (opRtcAlarmSet_plain s q).1) (fun _ s => State.dev_moves s s.dev) p s).keeps⟩
theorem execRtcAlarmCancel_keeps (p s) : ∃ t, execRtcAlarmCancel p s = .next t ∧ s.Keeps t := ⟨_, rfl, (packetRow_moves (fun s q => (opRtcAlarmCancel_plain s q).1) (fun _ s => State.dev_moves s s.dev) p s).keeps⟩
theorem execEvinConfig_keeps (p s) : ∃ t, execEvinConfig p s = .next t ∧ s.Keeps t := ⟨_, rfl, (packetRow_moves (fun s q => (opEvinConfig_plain s q).1) (fun _ s => State.dev_moves s s.dev) p s).keeps⟩
theorem execEvinRead_keeps (p s) : ∃ t, execEvinRead p s = .next t ∧ s.Keeps t := ⟨_, rfl, (packetRow_moves (fun s q => (opEvinRead_plain s q).1) (fun _ s => State.dev_moves s s.dev) p s).keeps⟩
theorem execCanConfig_keeps (p s) : ∃ t, execCanConfig p s = .next t ∧ s.Keeps t := ⟨_, rfl, (packetRow_moves (fun s q => (opCanConfig_plain s q).1) (fun _ s => State.dev_moves s s.dev) p s).keeps⟩
theorem execCanFilter_keeps (p s) : ∃ t, execCanFilter p s = .next t ∧ s.Keeps t := ⟨_, rfl, (packetRow_moves (fun s q => (opCanFilter_plain s q).1) (fun _ s => State.dev_moves s s.dev) p s).keeps⟩
theorem execCanSend_keeps (p s) : ∃ t, execCanSend p s = .next t ∧ s.Keeps t := ⟨_, rfl, (packetRow_moves (fun s q => (opCanSend_plain s q).1) (fun _ s => State.dev_moves s s.dev) p s).keeps⟩
theorem execCanReceive_keeps (p s) : ∃ t, execCanReceive p s = .next t ∧ s.Keeps t := ⟨_, rfl, (packetRow_moves (fun s q => (opCanReceive_plain s q).1) (fun _ s => State.dev_moves s s.dev) p s).keeps⟩
theorem execCanStatus_keeps (p s) : ∃ t, execCanStatus p s = .next t ∧ s.Keeps t := ⟨_, rfl, (packetRow_moves (fun s q => (opCanStatus_plain s q).1) (fun _ s => State.dev_moves s s.dev) p s).keeps⟩
theorem execCanTimeConfig_keeps (p s) : ∃ t, execCanTimeConfig p s = .next t ∧ s.Keeps t := ⟨_, rfl, (packetRow_moves (fun s q => (opCanTimeConfig_plain s q).1) (fun _ s => State.dev_moves s s.dev) p s).keeps⟩
theorem execCanMap_keeps (p s) : ∃ t, execCanMap p s = .next t ∧ s.Keeps t := ⟨_, rfl, (packetRow_moves (fun s q => (opCanMap_plain s q).1) (fun _ s => State.dev_moves s s.dev) p s).keeps⟩
theorem execCanRecoverBus_keeps (p s) : ∃ t, execCanRecoverBus p s = .next t ∧ s.Keeps t := ⟨_, rfl, (packetRow_moves (fun s q => (opCanRecoverBus_plain s q).1) (fun _ s => State.dev_moves s s.dev) p s).keeps⟩
theorem execCanRecoverBuffer_keeps (p s) : ∃ t, execCanRecoverBuffer p s = .next t ∧ s.Keeps t := ⟨_, rfl, (packetRow_moves (fun s q => (opCanRecoverBuffer_plain s q).1) (fun _ s => State.dev_moves s s.dev) p s).keeps⟩
theorem execRecRead_keeps (p s) : ∃ t, execRecRead p s = .next t ∧ s.Keeps t := ⟨_, rfl, (packetRow_moves (fun s q => (opRecRead_plain s q).1) (fun _ s => State.dev_moves s s.dev) p s).keeps⟩
theorem execRecStatus_keeps (p s) : ∃ t, execRecStatus p s = .next t ∧ s.Keeps t := ⟨_, rfl, (packetRow_moves (fun s q => (opRecStatus_plain s q).1) (fun _ s => State.dev_moves s s.dev) p s).keeps⟩
theorem execRecMark_keeps (p s) : ∃ t, execRecMark p s = .next t ∧ s.Keeps t := ⟨_, rfl, (packetRow_moves (fun s q => (opRecMark_plain s q).1) (fun _ s => State.dev_moves s s.dev) p s).keeps⟩
theorem execKeyProvision_keeps (p s) : ∃ t, execKeyProvision p s = .next t ∧ s.Keeps t := ⟨_, rfl, (packetRow_moves opKeyProvision_held (fun _ s => State.dev_moves s s.dev) p s).keeps⟩
theorem execKeyDerive_keeps (p s) : ∃ t, execKeyDerive p s = .next t ∧ s.Keeps t := ⟨_, rfl, (packetRow_moves (fun s q => (opKeyDerive_plain s q).1) (fun _ s => State.dev_moves s s.dev) p s).keeps⟩
theorem execKeyStatus_keeps (p s) : ∃ t, execKeyStatus p s = .next t ∧ s.Keeps t := ⟨_, rfl, (packetRow_moves (fun s q => (opKeyStatus_plain s q).1) (fun _ s => State.dev_moves s s.dev) p s).keeps⟩
theorem execKeyChallenge_keeps (p s) : ∃ t, execKeyChallenge p s = .next t ∧ s.Keeps t := ⟨_, rfl, (packetRow_moves (fun s q => (opKeyChallenge_plain s q).1) (fun _ s => State.dev_moves s s.dev) p s).keeps⟩
theorem execKeyErase_keeps (p s) : ∃ t, execKeyErase p s = .next t ∧ s.Keeps t := ⟨_, rfl, (packetRow_moves (fun s q => (opKeyErase_plain s q).1) (fun _ s => State.dev_moves s s.dev) p s).keeps⟩
theorem execPwrStatus_keeps (p s) : ∃ t, execPwrStatus p s = .next t ∧ s.Keeps t := ⟨_, rfl, (packetRow_moves (fun s q => (opPwrStatus_plain s q).1) (fun _ s => State.dev_moves s s.dev) p s).keeps⟩
theorem execLowpowerSetRun_keeps (p s) : ∃ t, execLowpowerSetRun p s = .next t ∧ s.Keeps t := ⟨_, rfl, (packetRow_moves (fun s q => (opLowpowerSetRun_plain s q).1) (fun _ s => State.dev_moves s s.dev) p s).keeps⟩
theorem execLowpowerSetQuiesce_keeps (p s) : ∃ t, execLowpowerSetQuiesce p s = .next t ∧ s.Keeps t := ⟨_, rfl, (packetRow_moves (fun s q => (opLowpowerSetQuiesce_plain s q).1) (fun _ s => State.dev_moves s s.dev) p s).keeps⟩
theorem opLowpowerSetKeep_after (q : QPacket) (s : State) : State.Moves s (opLowpowerSetKeep.after q s) := by
  dsimp only [opLowpowerSetKeep]
  repeat' (with_reducible exact State.after_moves _ _)
theorem execLowpowerSetKeep_keeps (p s) : ∃ t, execLowpowerSetKeep p s = .next t ∧ s.Keeps t := ⟨_, rfl, (packetRow_moves (fun s q => (opLowpowerSetKeep_plain s q).1) opLowpowerSetKeep_after p s).keeps⟩
theorem execRailConfig_keeps (p s) : ∃ t, execRailConfig p s = .next t ∧ s.Keeps t := ⟨_, rfl, (packetRow_moves (fun s q => (opRailConfig_plain s q).1) (fun _ s => State.dev_moves s s.dev) p s).keeps⟩
theorem execSelftestRun_keeps (p s) : ∃ t, execSelftestRun p s = .next t ∧ s.Keeps t := ⟨_, rfl, (packetRow_moves (fun s q => (opSelftestRun_plain s q).1) (fun _ s => State.dev_moves s s.dev) p s).keeps⟩
theorem execSelftestResult_keeps (p s) : ∃ t, execSelftestResult p s = .next t ∧ s.Keeps t := ⟨_, rfl, (packetRow_moves (fun s q => (opSelftestResult_plain s q).1) (fun _ s => State.dev_moves s s.dev) p s).keeps⟩
theorem execDiagRead_keeps (p s) : ∃ t, execDiagRead p s = .next t ∧ s.Keeps t := ⟨_, rfl, (packetRow_moves (fun s q => (opDiagRead_plain s q).1) (fun _ s => State.dev_moves s s.dev) p s).keeps⟩
theorem execDiagWrite_keeps (p s) : ∃ t, execDiagWrite p s = .next t ∧ s.Keeps t := ⟨_, rfl, (packetRow_moves (fun s q => (opDiagWrite_plain s q).1) (fun _ s => State.dev_moves s s.dev) p s).keeps⟩
theorem execDiagModify_keeps (p s) : ∃ t, execDiagModify p s = .next t ∧ s.Keeps t := ⟨_, rfl, (packetRow_moves (fun s q => (opDiagModify_plain s q).1) (fun _ s => State.dev_moves s s.dev) p s).keeps⟩

end Sys2Proof.Machine
end

