-- ==== Sys2Proof/Laws/Tables.lean ====
section
/-! SUPPORT. Laws of the sparse table: a read after a write, and that every operation keeps the canonical form. -/

namespace Sys2Proof

variable {α : Type}

/-! Reads after writes. -/

theorem Tbl.rdD_ins_same (d : α) (t : Tbl α) (i : Nat) (v : α) : Tbl.rdD d (Tbl.ins t i v) i = v := by
  induction t with
  | nil => simp [Tbl.ins, Tbl.rdD]
  | cons x t ih =>
    obtain ⟨k, w⟩ := x
    simp only [Tbl.ins]
    split
    · simp [Tbl.rdD]
    · split
      · simp [Tbl.rdD]
      · rename_i h
        simp [Tbl.rdD, ih, Ne.symm h]

theorem Tbl.rdD_ins_other (d : α) (t : Tbl α) (i j : Nat) (v : α) (h : j ≠ i) : Tbl.rdD d (Tbl.ins t i v) j = Tbl.rdD d t j := by
  induction t with
  | nil => simp [Tbl.ins, Tbl.rdD, Ne.symm h]
  | cons x t ih =>
    obtain ⟨k, w⟩ := x
    simp only [Tbl.ins]
    split
    · simp [Tbl.rdD, Ne.symm h]
    · split
      · rename_i e
        subst e
        simp [Tbl.rdD, Ne.symm h]
      · simp [Tbl.rdD, ih]

theorem Tbl.rdD_del_other (d : α) (t : Tbl α) (i j : Nat) (h : j ≠ i) : Tbl.rdD d (Tbl.del t i) j = Tbl.rdD d t j := by
  induction t with
  | nil => rfl
  | cons x t ih =>
    obtain ⟨k, w⟩ := x
    simp only [Tbl.del]
    split
    · rename_i e
      subst e
      simp [Tbl.rdD, Ne.symm h]
    · simp [Tbl.rdD, ih]

/-- No entry below `lo` is listed. -/
theorem Tbl.rdD_below [DecidableEq α] (d : α) (t : Tbl α) (lo i : Nat) (h : Tbl.wfFrom d lo t = true) (hi : i < lo) : Tbl.rdD d t i = d := by
  induction t generalizing lo with
  | nil => rfl
  | cons x t ih =>
    obtain ⟨k, w⟩ := x
    simp only [Tbl.wfFrom, Bool.and_eq_true, decide_eq_true_eq] at h
    have hk : k ≠ i := by omega
    simp [Tbl.rdD, hk, ih (k + 1) h.2 (by omega)]

theorem Tbl.rdD_del_same [DecidableEq α] (d : α) (t : Tbl α) (lo i : Nat) (h : Tbl.wfFrom d lo t = true) : Tbl.rdD d (Tbl.del t i) i = d := by
  induction t generalizing lo with
  | nil => rfl
  | cons x t ih =>
    obtain ⟨k, w⟩ := x
    simp only [Tbl.wfFrom, Bool.and_eq_true, decide_eq_true_eq] at h
    simp only [Tbl.del]
    split
    · rename_i e
      subst e
      exact Tbl.rdD_below d t (k + 1) k h.2 (by omega)
    · rename_i e
      simp [Tbl.rdD, e, ih (k + 1) h.2]

/-- A read of another index is not changed by a write. -/
@[simp] theorem Tbl.rd_wr_other [Inhabited α] [DecidableEq α] (t : Tbl α) (i j : Nat) (v : α) (h : j ≠ i) : (t.wr i v).rd j = t.rd j := by
  simp only [Tbl.wr, Tbl.wrD, Tbl.rd]
  split
  · exact Tbl.rdD_del_other _ _ _ _ h
  · exact Tbl.rdD_ins_other _ _ _ _ _ h

/-- A read returns the value last written to its index. -/
theorem Tbl.rd_wr_same [Inhabited α] [DecidableEq α] (t : Tbl α) (i : Nat) (v : α) (h : t.wf = true) : (t.wr i v).rd i = v := by
  simp only [Tbl.wr, Tbl.wrD, Tbl.rd]
  split
  · rename_i e
    rw [e]
    exact Tbl.rdD_del_same _ _ 0 _ h
  · exact Tbl.rdD_ins_same _ _ _ _

/-- A read returns a value other than the default last written to its index, in whatever form the table is. -/
theorem Tbl.rd_wr_ne [Inhabited α] [DecidableEq α] (t : Tbl α) (i : Nat) (v : α) (h : v ≠ default) : (t.wr i v).rd i = v := by
  simp only [Tbl.wr, Tbl.wrD, Tbl.rd, h, if_false]
  exact Tbl.rdD_ins_same _ _ _ _

@[simp] theorem Tbl.rd_nil [Inhabited α] (i : Nat) : Tbl.rd ([] : Tbl α) i = default := rfl

/-! The canonical form. -/

/-- The form from a higher bound is the form from a lower one. -/
theorem Tbl.wfFrom_mono [DecidableEq α] (d : α) (t : Tbl α) (a b : Nat) (hab : a ≤ b) (h : Tbl.wfFrom d b t = true) : Tbl.wfFrom d a t = true := by
  cases t with
  | nil => rfl
  | cons x t =>
    obtain ⟨k, w⟩ := x
    simp only [Tbl.wfFrom, Bool.and_eq_true, decide_eq_true_eq] at h ⊢
    exact ⟨⟨by omega, h.1.2⟩, h.2⟩

theorem Tbl.wfFrom_ins [DecidableEq α] (d : α) (t : Tbl α) (lo i : Nat) (v : α) (hv : v ≠ d) (hi : lo ≤ i) (h : Tbl.wfFrom d lo t = true) :
    Tbl.wfFrom d lo (Tbl.ins t i v) = true := by
  induction t generalizing lo with
  | nil => simp [Tbl.ins, Tbl.wfFrom, hv, hi]
  | cons x t ih =>
    obtain ⟨k, w⟩ := x
    simp only [Tbl.wfFrom, Bool.and_eq_true, decide_eq_true_eq] at h
    simp only [Tbl.ins]
    split
    · simp [Tbl.wfFrom, hv, hi, h.1.2, h.2]
      omega
    · split
      · rename_i e
        subst e
        simp [Tbl.wfFrom, hv, hi, h.2]
      · simp only [Tbl.wfFrom, Bool.and_eq_true, decide_eq_true_eq]
        exact ⟨h.1, ih (k + 1) (by omega) h.2⟩

theorem Tbl.wfFrom_del [DecidableEq α] (d : α) (t : Tbl α) (lo i : Nat) (h : Tbl.wfFrom d lo t = true) : Tbl.wfFrom d lo (Tbl.del t i) = true := by
  induction t generalizing lo with
  | nil => rfl
  | cons x t ih =>
    obtain ⟨k, w⟩ := x
    simp only [Tbl.wfFrom, Bool.and_eq_true, decide_eq_true_eq] at h
    simp only [Tbl.del]
    split
    · exact Tbl.wfFrom_mono d t lo (k + 1) (by omega) h.2
    · simp only [Tbl.wfFrom, Bool.and_eq_true, decide_eq_true_eq]
      exact ⟨h.1, ih (k + 1) h.2⟩

/-- A write of any default keeps the form. -/
theorem Tbl.wfD_wrD [DecidableEq α] (d : α) (t : Tbl α) (i : Nat) (v : α) (h : t.wfD d = true) : (Tbl.wrD d t i v).wfD d = true := by
  simp only [Tbl.wrD, Tbl.wfD] at *
  split
  · exact Tbl.wfFrom_del d t 0 i h
  · rename_i hv
    exact Tbl.wfFrom_ins d t 0 i v hv (Nat.zero_le i) h

/-- A write keeps the form. -/
theorem Tbl.wf_wr [Inhabited α] [DecidableEq α] (t : Tbl α) (i : Nat) (v : α) (h : t.wf = true) : (t.wr i v).wf = true :=
  Tbl.wfD_wrD default t i v h

/-- A change of one entry keeps the form. -/
theorem Tbl.wf_upd [Inhabited α] [DecidableEq α] (t : Tbl α) (i : Nat) (f : α → α) (h : t.wf = true) : (t.upd i f).wf = true :=
  Tbl.wf_wr t i _ h

/-- A write of several entries keeps the form. -/
theorem Tbl.wf_wrAll [Inhabited α] [DecidableEq α] (t : Tbl α) (i : Nat) (vs : List α) (h : t.wf = true) : (t.wrAll i vs).wf = true := by
  induction vs generalizing t i with
  | nil => exact h
  | cons v vs ih => exact ih (t.wr i v) (i + 1) (Tbl.wf_wr t i v h)

theorem Tbl.wfFrom_mapD [Inhabited α] [DecidableEq α] (f : α → α) (t : Tbl α) (lo : Nat) (h : Tbl.wfFrom default lo t = true) :
    Tbl.wfFrom default lo (Tbl.mapD f t) = true := by
  induction t generalizing lo with
  | nil => rfl
  | cons x t ih =>
    obtain ⟨k, w⟩ := x
    simp only [Tbl.wfFrom, Bool.and_eq_true, decide_eq_true_eq] at h
    simp only [Tbl.mapD]
    split
    · exact Tbl.wfFrom_mono default _ lo (k + 1) (by omega) (ih (k + 1) h.2)
    · rename_i e
      simp only [Tbl.wfFrom, Bool.and_eq_true, decide_eq_true_eq]
      exact ⟨⟨h.1.1, e⟩, ih (k + 1) h.2⟩

/-- A change of every listed entry keeps the form. -/
theorem Tbl.wf_mapD [Inhabited α] [DecidableEq α] (f : α → α) (t : Tbl α) (h : t.wf = true) : (t.mapD f).wf = true :=
  Tbl.wfFrom_mapD f t 0 h

/-- A table with some entries left out keeps the form. -/
theorem Tbl.wfFrom_filter [DecidableEq α] (d : α) (p : Nat × α → Bool) (t : Tbl α) (lo : Nat) (h : Tbl.wfFrom d lo t = true) :
    Tbl.wfFrom d lo (t.filter p) = true := by
  induction t generalizing lo with
  | nil => rfl
  | cons x t ih =>
    obtain ⟨k, w⟩ := x
    simp only [Tbl.wfFrom, Bool.and_eq_true, decide_eq_true_eq] at h
    simp only [List.filter]
    split
    · simp only [Tbl.wfFrom, Bool.and_eq_true, decide_eq_true_eq]
      exact ⟨h.1, ih (k + 1) h.2⟩
    · exact Tbl.wfFrom_mono d _ lo (k + 1) (by omega) (ih (k + 1) h.2)

/-- The empty table has the form. -/
theorem Tbl.wf_nil [Inhabited α] [DecidableEq α] : Tbl.wf ([] : Tbl α) = true := rfl

end Sys2Proof
end

