-- ==== Sys2Proof/Laws/Time.lean ====
section
/-! SUPPORT. What the passing of time leaves as it was: one lemma per unit that counts nothing. -/

namespace Sys2Proof.Machine

@[simp] theorem Dev.pass_evr (d : Dev) (n : Nat) : (d.pass n).evr = d.evr := rfl
@[simp] theorem Dev.pass_frame (d : Dev) (n : Nat) : (d.pass n).frame = d.frame := rfl
@[simp] theorem Dev.pass_host (d : Dev) (n : Nat) : (d.pass n).host = d.host := rfl
@[simp] theorem Dev.pass_jobs (d : Dev) (n : Nat) : (d.pass n).jobs = d.jobs := rfl
@[simp] theorem Dev.pass_coord (d : Dev) (n : Nat) : (d.pass n).coord = d.coord := rfl
@[simp] theorem Dev.pass_jalow (d : Dev) (n : Nat) : (d.pass n).jalow = d.jalow := rfl
@[simp] theorem Dev.pass_loops (d : Dev) (n : Nat) : (d.pass n).loops = d.loops := rfl
@[simp] theorem Dev.pass_aux (d : Dev) (n : Nat) : (d.pass n).aux = d.aux := rfl
@[simp] theorem Dev.pass_slalom (d : Dev) (n : Nat) : (d.pass n).slalom = d.slalom := rfl
@[simp] theorem Dev.pass_field (d : Dev) (n : Nat) : (d.pass n).field = d.field := rfl
@[simp] theorem Dev.pass_twin (d : Dev) (n : Nat) : (d.pass n).twin = d.twin := rfl
@[simp] theorem Dev.pass_can (d : Dev) (n : Nat) : (d.pass n).can = d.can := rfl
@[simp] theorem Dev.pass_power (d : Dev) (n : Nat) : (d.pass n).power = d.power := rfl
@[simp] theorem Dev.pass_test (d : Dev) (n : Nat) : (d.pass n).test = d.test := rfl
@[simp] theorem Dev.pass_tap (d : Dev) (n : Nat) : (d.pass n).tap = d.tap := rfl
@[simp] theorem Dev.pass_sat (d : Dev) (n : Nat) : (d.pass n).sat = d.sat := rfl
@[simp] theorem Dev.pass_free (d : Dev) (n : Nat) : (d.pass n).free = d.free := rfl
@[simp] theorem Dev.pass_out (d : Dev) (n : Nat) : (d.pass n).out = d.out := rfl
@[simp] theorem Dev.pass_raw (d : Dev) (n : Nat) : (d.pass n).time.raw = (d.time.raw + n) % 2 ^ 64 := rfl
@[simp] theorem Dev.pass_ctlLink (d : Dev) (n : Nat) : (d.pass n).fabric.ctlLink = d.fabric.ctlLink := rfl
@[simp] theorem Dev.pass_fldLink (d : Dev) (n : Nat) : (d.pass n).fabric.fldLink = d.fabric.fldLink := rfl
@[simp] theorem Dev.pass_hubPll (d : Dev) (n : Nat) : (d.pass n).fabric.hubPll = d.fabric.hubPll := rfl
@[simp] theorem Dev.pass_ctlPll (d : Dev) (n : Nat) : (d.pass n).fabric.ctlPll = d.fabric.ctlPll := rfl
@[simp] theorem Dev.pass_link (d : Dev) (n : Nat) (l : LinkId) : (d.pass n).link l = d.link l := rfl

@[simp] theorem Dev.toRaw_evr (d : Dev) (r : Nat) : (d.toRaw r).evr = d.evr := by unfold Dev.toRaw; split <;> rfl
@[simp] theorem Dev.toRaw_frame (d : Dev) (r : Nat) : (d.toRaw r).frame = d.frame := by unfold Dev.toRaw; split <;> rfl
@[simp] theorem Dev.toRaw_host (d : Dev) (r : Nat) : (d.toRaw r).host = d.host := by unfold Dev.toRaw; split <;> rfl
@[simp] theorem Dev.toRaw_jobs (d : Dev) (r : Nat) : (d.toRaw r).jobs = d.jobs := by unfold Dev.toRaw; split <;> rfl
@[simp] theorem Dev.toRaw_coord (d : Dev) (r : Nat) : (d.toRaw r).coord = d.coord := by unfold Dev.toRaw; split <;> rfl
@[simp] theorem Dev.toRaw_jalow (d : Dev) (r : Nat) : (d.toRaw r).jalow = d.jalow := by unfold Dev.toRaw; split <;> rfl
@[simp] theorem Dev.toRaw_loops (d : Dev) (r : Nat) : (d.toRaw r).loops = d.loops := by unfold Dev.toRaw; split <;> rfl
@[simp] theorem Dev.toRaw_aux (d : Dev) (r : Nat) : (d.toRaw r).aux = d.aux := by unfold Dev.toRaw; split <;> rfl
@[simp] theorem Dev.toRaw_slalom (d : Dev) (r : Nat) : (d.toRaw r).slalom = d.slalom := by unfold Dev.toRaw; split <;> rfl
@[simp] theorem Dev.toRaw_field (d : Dev) (r : Nat) : (d.toRaw r).field = d.field := by unfold Dev.toRaw; split <;> rfl
@[simp] theorem Dev.toRaw_twin (d : Dev) (r : Nat) : (d.toRaw r).twin = d.twin := by unfold Dev.toRaw; split <;> rfl
@[simp] theorem Dev.toRaw_can (d : Dev) (r : Nat) : (d.toRaw r).can = d.can := by unfold Dev.toRaw; split <;> rfl
@[simp] theorem Dev.toRaw_power (d : Dev) (r : Nat) : (d.toRaw r).power = d.power := by unfold Dev.toRaw; split <;> rfl
@[simp] theorem Dev.toRaw_test (d : Dev) (r : Nat) : (d.toRaw r).test = d.test := by unfold Dev.toRaw; split <;> rfl
@[simp] theorem Dev.toRaw_tap (d : Dev) (r : Nat) : (d.toRaw r).tap = d.tap := by unfold Dev.toRaw; split <;> rfl
@[simp] theorem Dev.toRaw_sat (d : Dev) (r : Nat) : (d.toRaw r).sat = d.sat := by unfold Dev.toRaw; split <;> rfl
@[simp] theorem Dev.toRaw_free (d : Dev) (r : Nat) : (d.toRaw r).free = d.free := by unfold Dev.toRaw; split <;> rfl
@[simp] theorem Dev.toRaw_out (d : Dev) (r : Nat) : (d.toRaw r).out = d.out := by unfold Dev.toRaw; split <;> rfl
@[simp] theorem Dev.toRaw_link (d : Dev) (r : Nat) (l : LinkId) : (d.toRaw r).link l = d.link l := by unfold Dev.toRaw; split <;> rfl
/-- The time base has reached the instant it was brought forward to. -/
theorem Dev.toRaw_le (d : Dev) (r : Nat) (h : r < 2 ^ 64) : r ≤ (d.toRaw r).time.raw := by
  unfold Dev.toRaw
  split
  · rw [Dev.pass_raw, Nat.mod_eq_of_lt] <;> omega
  · omega
theorem Dev.toRaw_past (d : Dev) (r : Nat) (h : r ≤ d.time.raw) : d.toRaw r = d := by unfold Dev.toRaw; rw [if_neg (by omega)]

@[simp] theorem Dev.toCt_evr (d : Dev) (t : Nat) : (d.toCt t).evr = d.evr := d.toRaw_evr _
@[simp] theorem Dev.toCt_frame (d : Dev) (t : Nat) : (d.toCt t).frame = d.frame := d.toRaw_frame _
@[simp] theorem Dev.toCt_host (d : Dev) (t : Nat) : (d.toCt t).host = d.host := d.toRaw_host _
@[simp] theorem Dev.toCt_jobs (d : Dev) (t : Nat) : (d.toCt t).jobs = d.jobs := d.toRaw_jobs _
@[simp] theorem Dev.toCt_coord (d : Dev) (t : Nat) : (d.toCt t).coord = d.coord := d.toRaw_coord _
@[simp] theorem Dev.toCt_jalow (d : Dev) (t : Nat) : (d.toCt t).jalow = d.jalow := d.toRaw_jalow _
@[simp] theorem Dev.toCt_loops (d : Dev) (t : Nat) : (d.toCt t).loops = d.loops := d.toRaw_loops _
@[simp] theorem Dev.toCt_aux (d : Dev) (t : Nat) : (d.toCt t).aux = d.aux := d.toRaw_aux _
@[simp] theorem Dev.toCt_slalom (d : Dev) (t : Nat) : (d.toCt t).slalom = d.slalom := d.toRaw_slalom _
@[simp] theorem Dev.toCt_field (d : Dev) (t : Nat) : (d.toCt t).field = d.field := d.toRaw_field _
@[simp] theorem Dev.toCt_twin (d : Dev) (t : Nat) : (d.toCt t).twin = d.twin := d.toRaw_twin _
@[simp] theorem Dev.toCt_can (d : Dev) (t : Nat) : (d.toCt t).can = d.can := d.toRaw_can _
@[simp] theorem Dev.toCt_power (d : Dev) (t : Nat) : (d.toCt t).power = d.power := d.toRaw_power _
@[simp] theorem Dev.toCt_test (d : Dev) (t : Nat) : (d.toCt t).test = d.test := d.toRaw_test _
@[simp] theorem Dev.toCt_tap (d : Dev) (t : Nat) : (d.toCt t).tap = d.tap := d.toRaw_tap _
@[simp] theorem Dev.toCt_sat (d : Dev) (t : Nat) : (d.toCt t).sat = d.sat := d.toRaw_sat _
@[simp] theorem Dev.toCt_free (d : Dev) (t : Nat) : (d.toCt t).free = d.free := d.toRaw_free _
@[simp] theorem Dev.toCt_out (d : Dev) (t : Nat) : (d.toCt t).out = d.out := d.toRaw_out _

/-! Links. -/

theorem Dev.link_setLink_ne (d : Dev) (l m : LinkId) (x : Link) (h : m ≠ l) : (d.setLink l x).link m = d.link m := by
  cases l <;> cases m <;> first | exact absurd rfl h | rfl | exact Tbl.rd_wr_other _ _ _ _ (by decide)

end Sys2Proof.Machine
end

