-- ==== Sys2Proof/Laws/Field.lean ====
section
/-! SUPPORT. What the operations of the field dies leave alone: the save supply's state and the journal, which decide when a class N command
is entered. -/

namespace Sys2Proof.Machine

@[simp] theorem Dev.seqState_slalom (d : Dev) (k : Nat) (st : SeqState) : (d.seqState k st).slalom = d.slalom := by
  simp only [Dev.seqState]; split <;> simp
@[simp] theorem Dev.newFunction_slalom (d : Dev) (k c : Nat) (b : Bool) : (d.newFunction k c b).slalom = d.slalom := rfl
@[simp] theorem Dev.voidEntries_slalom (d : Dev) (k c : Nat) : (d.voidEntries k c).slalom = d.slalom := by
  unfold Dev.voidEntries; dsimp only; split <;> rfl
@[simp] theorem Dev.hbMeasure_slalom (d : Dev) (k r : Nat) : (d.hbMeasure k r).slalom = d.slalom := rfl
@[simp] theorem Dev.calDefaults_slalom (k : Nat) (d : Dev) (c : Nat) : (d.calDefaults k c).slalom = d.slalom := rfl
theorem Dev.calDefaults_all_slalom (k : Nat) (l : List Nat) (d : Dev) : (l.foldl (Dev.calDefaults k) d).slalom = d.slalom := by
  induction l generalizing d with
  | nil => rfl
  | cons x t ih => rw [List.foldl_cons, ih, Dev.calDefaults_slalom]

@[simp] theorem Dev.clampStart_slalom (d : Dev) (k c : Nat) : (d.clampStart k c).slalom = d.slalom := rfl
@[simp] theorem Dev.clampKick_slalom (d : Dev) (k : Nat) : (d.clampKick k).slalom = d.slalom := by
  unfold Dev.clampKick; dsimp only; repeat' split
  all_goals simp
@[simp] theorem Dev.clampOff_slalom (d : Dev) (k c : Nat) : (d.clampOff k c).slalom = d.slalom := by
  unfold Dev.clampOff; dsimp only; split <;> simp [Dev.freeN]
@[simp] theorem Dev.switchOff_slalom (d : Dev) (k c : Nat) : (d.switchOff k c).slalom = d.slalom := by
  unfold Dev.switchOff; dsimp only; split <;> simp
@[simp] theorem Dev.switchOn_slalom (d : Dev) (k c : Nat) (v : Word) : (d.switchOn k c v).slalom = d.slalom := by
  unfold Dev.switchOn; dsimp only; repeat' split
  all_goals simp
@[simp] theorem Dev.applyOut_slalom (d : Dev) (k c : Nat) (v : Word) (b : Bool) : (d.applyOut k c v b).slalom = d.slalom := by
  unfold Dev.applyOut; dsimp only; repeat' split
  all_goals simp
@[simp] theorem Dev.outOff_slalom (d : Dev) (k c : Nat) : (d.outOff k c).slalom = d.slalom := by
  unfold Dev.outOff; dsimp only; split <;> simp
@[simp] theorem Dev.applySafe_slalom (d : Dev) (k c : Nat) : (d.applySafe k c).slalom = d.slalom := by
  unfold Dev.applySafe; dsimp only; repeat' split
  all_goals simp
@[simp] theorem Dev.applyCmd_slalom (d : Dev) (k c : Nat) : (d.applyCmd k c).slalom = d.slalom := by
  unfold Dev.applyCmd; dsimp only; repeat' split
  all_goals simp
@[simp] theorem Dev.clampDrain_slalom (k n : Nat) (d : Dev) : (Dev.clampDrain k n d).slalom = d.slalom := by
  induction n generalizing d with
  | zero => rfl
  | succ n ih => unfold Dev.clampDrain; split <;> simp [ih]
@[simp] theorem Dev.dchFault_slalom (d : Dev) (k c b : Nat) (v : Bool) : (d.dchFault k c b v).slalom = d.slalom := by
  unfold Dev.dchFault; dsimp only; repeat' split
  all_goals simp
@[simp] theorem Dev.superseded_slalom (d : Dev) (k : Nat) (x : TaggedSample) : (d.superseded k x).slalom = d.slalom := by
  unfold Dev.superseded; simp
@[simp] theorem Dev.sendSample_slalom (d : Dev) (k : Nat) (x : TaggedSample) : (d.sendSample k x).slalom = d.slalom := by
  unfold Dev.sendSample; simp
@[simp] theorem Dev.offerSample_slalom (d : Dev) (k : Nat) (x : TaggedSample) : (d.offerSample k x).slalom = d.slalom := by
  unfold Dev.offerSample; dsimp only; repeat' split
  all_goals simp
@[simp] theorem Dev.diPoint_slalom (d : Dev) (k c : Nat) : (d.diPoint k c).slalom = d.slalom := by
  unfold Dev.diPoint; dsimp only; split <;> simp
@[simp] theorem Dev.diInit_slalom (d : Dev) (k c : Nat) : (d.diInit k c).slalom = d.slalom := by
  unfold Dev.diInit; simp [Dev.freeB]
theorem Dev.members_slalom (k : Nat) (m : Option Nat) (l : List Nat) (d : Dev) :
    (l.foldl (fun acc c => acc.setDig k c { acc.dig k c with memberOf := m }) d).slalom = d.slalom := by
  induction l generalizing d with
  | nil => rfl
  | cons x t ih => rw [List.foldl_cons, ih, Dev.setDig_slalom]
@[simp] theorem Dev.dchApply_slalom (d : Dev) (k c : Nat) (g : DigCfg) : (d.dchApply k c g).slalom = d.slalom := by
  unfold Dev.dchApply; dsimp only; repeat' split
  all_goals simp [Dev.members_slalom]

end Sys2Proof.Machine
end

