-- ==== Sys2Proof/Laws/Loops.lean ====
section
/-! SUPPORT. What the operations of the loop engine leave alone: the save supply's state and the journal. -/

namespace Sys2Proof.Machine

@[simp] theorem Dev.markEvent_slalom (d : Dev) (num : Nat) (ls : List Nat) : (d.markEvent num ls).slalom = d.slalom := rfl
@[simp] theorem Dev.loopEvent_slalom (d : Dev) (num i : Nat) (sev : Severity) (data : Nat) : (d.loopEvent num i sev data).slalom = d.slalom := by
  unfold Dev.loopEvent; simp
@[simp] theorem Dev.traceEnd_slalom (d : Dev) (u : Nat) (b : Bool) : (d.traceEnd u b).slalom = d.slalom := by
  unfold Dev.traceEnd; simp
theorem Dev.traceAbort_fold_slalom (i : Nat) (l : List Nat) (d : Dev) :
    (l.foldl (fun acc u => if (acc.trc u).captures? i && !(acc.trc u).full then acc.traceEnd u true else acc) d).slalom = d.slalom := by
  induction l generalizing d with
  | nil => rfl
  | cons x t ih => rw [List.foldl_cons, ih]; split <;> simp
@[simp] theorem Dev.traceAbort_slalom (d : Dev) (i : Nat) : (d.traceAbort i).slalom = d.slalom := Dev.traceAbort_fold_slalom i _ d
@[simp] theorem Dev.takeCfg_slalom (d : Dev) (i : Nat) (c : LoopCfg) : (d.takeCfg i c).slalom = d.slalom := by
  unfold Dev.takeCfg; dsimp only; split <;> simp
@[simp] theorem Dev.supRelease_slalom (d : Dev) (i c : Nat) : (d.supRelease i c).slalom = d.slalom := by
  unfold Dev.supRelease; dsimp only; repeat' split
  all_goals simp
@[simp] theorem Dev.supApply_slalom (d : Dev) (i : Nat) (c : SupCfg) : (d.supApply i c).slalom = d.slalom := by
  unfold Dev.supApply; dsimp only; split <;> simp
@[simp] theorem Dev.mogApply_slalom (d : Dev) (i : Nat) (c : MogulCfg) (b : Bool) : (d.mogApply i c b).slalom = d.slalom := by
  unfold Dev.mogApply; dsimp only; split <;> rfl

end Sys2Proof.Machine
end

