-- ==== Sys2Proof/Laws/Packets.lean ====
section
/-! SUPPORT. What the packet interpreter does, said once per shared operation: how a ready packet reaches its meaning, and how each way its
meaning can answer ends. -/

namespace Sys2Proof.Machine

open Sys2Proof.Bits

theorem Dev.dieGoes_iff {d : Dev} {u : Nat} : d.dieGoes u = true ↔ d.dieRule u = .go := by
  unfold Dev.dieGoes; split <;> simp_all

/-- The packet of a fresh queue entry is the command's. -/
theorem QPacket.fresh_pkt {q : QPacket} {p : Packet} (h : q.fresh p = true) : q.pkt = p := by
  simp only [QPacket.fresh, Bool.and_eq_true, decide_eq_true_eq] at h; exact h.1.1

theorem Ready.fresh {op : Op} {p : Packet} {s : State} {q : QPacket} (h : Ready op p s q) : q.fresh p = true :=
  List.find?_some (p := fun x : QPacket => x.fresh p) h.2.2.1

theorem Ready.pkt {op : Op} {p : Packet} {s : State} {q : QPacket} (h : Ready op p s q) : q.pkt = p := QPacket.fresh_pkt h.fresh

/-- A packet that stands in the queue reaches its row's meaning. -/
theorem packetRow_stands {op : Op} {p : Packet} {s : State} {q : QPacket} (h : Stands op p s q) : packetRow op p s = runBody op s q := by
  obtain ⟨hc, hs, hf, hm, hb, ht, hd, -⟩ := h
  have hp : q.pkt = p := QPacket.fresh_pkt (List.find?_some (p := fun x : QPacket => x.fresh p) hf)
  unfold packetRow
  rw [if_neg (by simp [hc, hs]), hf]
  simp only [execQ, hm, hp, ht]
  rw [if_neg (by simp), if_neg (by intro hx; have := hb hx.1; simp [this] at hx), if_neg (by simp)]
  cases hdie : op.die with
  | false => simp
  | true => simp [Dev.dieGoes_iff.mp (hd hdie)]

/-- A ready packet reaches its row's meaning. -/
theorem packetRow_ready {op : Op} {p : Packet} {s : State} {q : QPacket} (h : Ready op p s q) : packetRow op p s = runBody op s q := by
  obtain ⟨hc, hs, hf, hm, hb, ht, hd, hn, -, -⟩ := h
  exact packetRow_stands ⟨hc, hs, hf, hm, hb, ht, hd, hn⟩

/-- A ready packet whose meaning accepts, answers at once and changes no class N setting. -/
theorem runBody_done {op : Op} {p : Packet} {s : State} {q : QPacket} (h : Ready op p s q) (hacc : accepted (op.body s q).status = true)
    (hw : (op.body s q).waits = false) (hl : (op.body s q).later = false) (hfit : q.holds (op.body s q).words.length)
    (hn : op.classN = false ∨ (op.body s q).status = stOkNoChange) :
    packetRow op p s = op.after q ((op.body s q).st.finish q (op.body s q).status 0 (op.body s q).words) := by
  rw [packetRow_ready h]
  obtain ⟨-, -, -, -, -, -, -, hpar, hco, hsn⟩ := id h
  rw [← h.pkt] at hco hsn
  unfold runBody
  rw [if_neg (by omega)]
  simp only [hw, hacc, hl, hco]
  rw [if_neg (by simp), if_neg (by simp), if_neg (by simpa [Ans.fits] using hfit),
    if_neg (by intro hx; simp only [Bool.and_eq_true] at hx; simp [hsn hx.1] at hx), if_neg (by simp), if_neg (by rcases hn with hn | hn <;> simp [hn]), if_neg (by simp)]

/-- A ready packet whose meaning accepts a class N change that the journal takes. -/
theorem runBody_classN {op : Op} {p : Packet} {s : State} {q : QPacket} (h : Ready op p s q) (hacc : accepted (op.body s q).status = true)
    (hw : (op.body s q).waits = false) (hfit : q.holds (op.body s q).words.length) (hn : op.classN = true)
    (hst : (op.body s q).status ≠ stOkNoChange) (hj : Journals s q) (hwt : (op.body s q).st.dev.slalom.writeThrough = false) :
    packetRow op p s = op.after q (((op.body s q).st.entered op.code q).finish q (op.body s q).status 0 (op.body s q).words) := by
  rw [packetRow_ready h]
  obtain ⟨-, -, -, -, -, -, -, hpar, hco, hsn⟩ := id h
  rw [← h.pkt] at hco hsn
  unfold runBody
  rw [if_neg (by omega)]
  simp only [hw, hacc, hco]
  rw [if_neg (by simp), if_neg (by simp), if_neg (by simpa [Ans.fits] using hfit),
    if_neg (by intro hx; simp only [Bool.and_eq_true] at hx; simp [hsn hx.1] at hx), if_neg (by simp), if_pos (by simp [hn, hst])]
  simp only [endClassN, hj.1, hwt]
  rfl

/-- A ready packet that has started and is answered later stands in the queue as started. -/
theorem runBody_later {op : Op} {p : Packet} {s : State} {q : QPacket} (h : Ready op p s q) (hacc : accepted (op.body s q).status = true)
    (hw : (op.body s q).waits = false) (hl : (op.body s q).later = true) (hfit : q.holds (op.body s q).words.length) (hn : op.classN = false) :
    packetRow op p s = (op.body s q).st.started q := by
  rw [packetRow_ready h]
  obtain ⟨-, -, -, -, -, -, -, hpar, hco, hsn⟩ := id h
  rw [← h.pkt] at hco hsn
  unfold runBody
  rw [if_neg (by omega)]
  simp only [hw, hacc, hl, hco]
  rw [if_neg (by simp), if_neg (by simp), if_neg (by simpa [Ans.fits] using hfit),
    if_neg (by intro hx; simp only [Bool.and_eq_true] at hx; simp [hsn hx.1] at hx), if_neg (by simp), if_neg (by simp [hn]), if_pos trivial]
  rfl

/-- A ready packet whose meaning rejects it is answered with the status and detail; an authentication status is also booked. -/
theorem runBody_rejected {op : Op} {p : Packet} {s : State} {q : QPacket} (h : Ready op p s q) (hacc : accepted (op.body s q).status = false)
    (hw : (op.body s q).waits = false) :
    packetRow op p s = ({ (op.body s q).st with dev := (op.body s q).st.dev.bookAuthFail p (op.body s q).status }).finish q
      (op.body s q).status (op.body s q).detail [] := by
  rw [packetRow_ready h]
  obtain ⟨-, -, -, -, -, -, -, hpar, -, -⟩ := id h
  have hp := h.pkt
  unfold runBody
  rw [if_neg (by omega)]
  rw [h.pkt]
  simp only [hw, hacc]
  rw [if_neg (by simp), if_pos (by simp)]

/-- Guarded checks that all pass leave the answer. -/
theorem guarded_pass {s : State} {cs : List (Bool × Nat × Nat)} {k : Ans} (h : firstErr cs = none) : guarded s cs k = k := by
  simp [guarded, h]

@[simp] theorem firstErr_nil : firstErr [] = none := rfl
theorem firstErr_cons_none {b : Bool} {e : Nat × Nat} {t : List (Bool × Nat × Nat)} :
    firstErr ((b, e) :: t) = none ↔ b = false ∧ firstErr t = none := by
  cases b <;> simp [firstErr]

/-- Every packet transport carries a reply of up to 360 payload words. -/
theorem QPacket.holds_short (q : QPacket) {n : Nat} (h : n ≤ 360) : q.holds n := by
  unfold QPacket.holds Transport.limit
  split <;> split <;> omega

@[simp] theorem firstErr_false (e : Nat × Nat) (t : List (Bool × Nat × Nat)) : firstErr ((false, e) :: t) = firstErr t := rfl
@[simp] theorem firstErr_true (e : Nat × Nat) (t : List (Bool × Nat × Nat)) : firstErr ((true, e) :: t) = some e := rfl

/-- A list of checks passes as its two halves do. -/
theorem firstErr_append {a b : List (Bool × Nat × Nat)} : firstErr (a ++ b) = none ↔ firstErr a = none ∧ firstErr b = none := by
  induction a with
  | nil => simp
  | cons x t ih => obtain ⟨x, y⟩ := x; cases x <;> simp [ih]

/-- Checks made for each element pass as they do for every one. -/
theorem firstErr_flatMap {α : Type} {l : List α} {f : α → List (Bool × Nat × Nat)} : firstErr (l.flatMap f) = none ↔ ∀ x ∈ l, firstErr (f x) = none := by
  induction l with
  | nil => simp
  | cons x t ih => simp [firstErr_append, ih]

/-- A ready packet whose meaning is a known accepted answer of a row outside class N. -/
theorem row_done {op : Op} {p : Packet} {s s' : State} {q : QPacket} {st : Nat} {ws : List Word} (h : Ready op p s q)
    (hb : op.body s q = { st := s', status := st, words := ws }) (hacc : accepted st = true) (hfit : q.holds ws.length)
    (hn : op.classN = false ∨ st = stOkNoChange) : packetRow op p s = op.after q (s'.finish q st 0 ws) := by
  rw [runBody_done h (by rw [hb]; exact hacc) (by rw [hb]) (by rw [hb]) (by rw [hb]; exact hfit) (by rw [hb]; exact hn), hb]

/-- A ready packet whose meaning is a known accepted answer of a class N row, with room in the journal. -/
theorem row_classN {op : Op} {p : Packet} {s s' : State} {q : QPacket} {st : Nat} {ws : List Word} (h : Ready op p s q)
    (hb : op.body s q = { st := s', status := st, words := ws }) (hacc : accepted st = true) (hfit : q.holds ws.length)
    (hn : op.classN = true) (hst : st ≠ stOkNoChange) (hj : Journals s q) (hw : s'.dev.slalom.writeThrough = false) :
    packetRow op p s = op.after q ((s'.entered op.code q).finish q st 0 ws) := by
  rw [runBody_classN h (by rw [hb]; exact hacc) (by rw [hb]) (by rw [hb]; exact hfit) hn (by rw [hb]; exact hst) hj (by rw [hb]; exact hw), hb]

/-- A ready packet whose meaning has started it, the reply to come later. -/
theorem row_later {op : Op} {p : Packet} {s s' : State} {q : QPacket} {st : Nat} {ws : List Word} (h : Ready op p s q)
    (hb : op.body s q = { st := s', status := st, words := ws, later := true }) (hacc : accepted st = true) (hfit : q.holds ws.length)
    (hn : op.classN = false) : packetRow op p s = s'.started q := by
  rw [runBody_later h (by rw [hb]; exact hacc) (by rw [hb]) (by rw [hb]) (by rw [hb]; exact hfit) hn, hb]

/-- A ready packet whose meaning is a known rejection without authentication status. -/
theorem row_rejected {op : Op} {p : Packet} {s s' : State} {q : QPacket} {st det : Nat} {ws : List Word} (h : Ready op p s q)
    (hb : op.body s q = { st := s', status := st, detail := det, words := ws }) (hacc : accepted st = false) (ha : st / 256 ≠ 2) :
    packetRow op p s = s'.finish q st det [] := by
  rw [runBody_rejected h (by rw [hb]; exact hacc) (by rw [hb]), hb]
  simp [Dev.bookAuthFail, ha]

end Sys2Proof.Machine
end

