-- ==== Sys2Proof/Laws/PerInstr.lean ====
section
/-! SUPPORT. What holds of every command as a term of the table: a command that is a packet is well formed exactly where its packet is, and its
row's opcode is one of Table 02-20. One lemma for each constructor. -/

namespace Sys2Proof.Laws.Rows

open Sys2Proof Sys2Proof.Machine

/-- A packet row is well formed exactly where its packet is, and its opcode is known (Table 02-20). -/
def Statement (i : Instr) : Prop := ∀ op p, packetOf i = some (op, p) → i.wf = p.wf ∧ knownOpcode op.code = true

/-- The lemma of a row without a packet. -/
theorem of_none {i : Instr} (h : packetOf i = none) : Statement i := fun _ _ k => by rw [h] at k; cases k

/-- The lemma of a row with this packet. -/
theorem of_some {i : Instr} {op : Op} {p : Packet} (h : packetOf i = some (op, p)) (hw : i.wf = p.wf) (hk : knownOpcode op.code = true) : Statement i :=
  fun _ _ k => by rw [h] at k; cases k; exact ⟨hw, hk⟩

theorem linkTransferError l : Statement (.linkTransferError l) := of_none rfl
theorem linkReplayExhausted l : Statement (.linkReplayExhausted l) := of_none rfl
theorem linkRetrain l ok : Statement (.linkRetrain l ok) := of_none rfl
theorem hubPllLoss : Statement (.hubPllLoss) := of_none rfl
theorem ctlPllLoss die : Statement (.ctlPllLoss die) := of_none rfl
theorem fldPllLoss die : Statement (.fldPllLoss die) := of_none rfl
theorem fldPllRelock die : Statement (.fldPllRelock die) := of_none rfl
theorem creditReturn kind inst : Statement (.creditReturn kind inst) := of_none rfl
theorem sampleArrival die : Statement (.sampleArrival die) := of_none rfl
theorem eventRoute : Statement (.eventRoute) := of_none rfl
theorem evrQueueDrain : Statement (.evrQueueDrain) := of_none rfl
theorem frameBoundary : Statement (.frameBoundary) := of_none rfl
theorem generationCommit : Statement (.generationCommit) := of_none rfl
theorem pisteResume pipe : Statement (.pisteResume pipe) := of_none rfl
theorem jobIssue k : Statement (.jobIssue k) := of_none rfl
theorem jobEnd k j cycles : Statement (.jobEnd k j cycles) := of_none rfl
theorem seMemoryEcc k uncorrectable : Statement (.seMemoryEcc k uncorrectable) := of_none rfl
theorem engineDrained k : Statement (.engineDrained k) := of_none rfl
theorem coordStep : Statement (.coordStep) := of_none rfl
theorem reportDeadline : Statement (.reportDeadline) := of_none rfl
theorem workerDrop port : Statement (.workerDrop port) := of_none rfl
theorem coordUpReceive port m : Statement (.coordUpReceive port m) := of_none rfl
theorem coordDownReceive m : Statement (.coordDownReceive m) := of_none rfl
theorem frameDeadline : Statement (.frameDeadline) := of_none rfl
theorem frameCheckpoint : Statement (.frameCheckpoint) := of_none rfl
theorem stoppedCheckpoint : Statement (.stoppedCheckpoint) := of_none rfl
theorem hubSqTailWrite v fetched : Statement (.hubSqTailWrite v fetched) := of_none rfl
theorem hubCqHeadWrite v : Statement (.hubCqHeadWrite v) := of_none rfl
theorem hubHostCtlWrite v : Statement (.hubHostCtlWrite v) := of_none rfl
theorem hubHostErrWrite v : Statement (.hubHostErrWrite v) := of_none rfl
theorem cqIrqTimeout : Statement (.cqIrqTimeout) := of_none rfl
theorem pcieLinkReset kind : Statement (.pcieLinkReset kind) := of_none rfl
theorem readStatus : Statement (.readStatus) := of_none rfl
theorem writePacket p crc : Statement (.writePacket p crc) := of_none rfl
theorem writePacketQ p crc : Statement (.writePacketQ p crc) := of_none rfl
theorem readReply : Statement (.readReply) := of_none rfl
theorem readReplyQ : Statement (.readReplyQ) := of_none rfl
theorem ackReply tag crc : Statement (.ackReply tag crc) := of_none rfl
theorem ethCmdDatagram port p : Statement (.ethCmdDatagram port p) := of_none rfl
theorem jalowRelayReceive m : Statement (.jalowRelayReceive m) := of_none rfl
theorem jalowReplyReceive port m : Statement (.jalowReplyReceive port m) := of_none rfl
theorem relayTimeout tag : Statement (.relayTimeout tag) := of_none rfl
theorem nop (p : Packet) : Statement (.nop p) := of_some rfl rfl (by decide)
theorem devIdent (p : Packet) : Statement (.devIdent p) := of_some rfl rfl (by decide)
theorem deviceReset (p : Packet) : Statement (.deviceReset p) := of_some rfl rfl (by decide)
theorem dieReset (p : Packet) : Statement (.dieReset p) := of_some rfl rfl (by decide)
theorem fieldReset (p : Packet) : Statement (.fieldReset p) := of_some rfl rfl (by decide)
theorem resetCause (p : Packet) : Statement (.resetCause p) := of_some rfl rfl (by decide)
theorem fwStage (p : Packet) : Statement (.fwStage p) := of_some rfl rfl (by decide)
theorem fwActivate (p : Packet) : Statement (.fwActivate p) := of_some rfl rfl (by decide)
theorem frameSet (p : Packet) : Statement (.frameSet p) := of_some rfl rfl (by decide)
theorem frameStop (p : Packet) : Statement (.frameStop p) := of_some rfl rfl (by decide)
theorem frameStatus (p : Packet) : Statement (.frameStatus p) := of_some rfl rfl (by decide)
theorem hostConfig (p : Packet) : Statement (.hostConfig p) := of_some rfl rfl (by decide)
theorem hostStatus (p : Packet) : Statement (.hostStatus p) := of_some rfl rfl (by decide)
theorem ethIfConfig (p : Packet) : Statement (.ethIfConfig p) := of_some rfl rfl (by decide)
theorem pointRead (p : Packet) : Statement (.pointRead p) := of_some rfl rfl (by decide)
theorem pointWrite (p : Packet) : Statement (.pointWrite p) := of_some rfl rfl (by decide)
theorem pointBlockWrite (p : Packet) : Statement (.pointBlockWrite p) := of_some rfl rfl (by decide)
theorem pointBlockRead (p : Packet) : Statement (.pointBlockRead p) := of_some rfl rfl (by decide)
theorem snapshotAt (p : Packet) : Statement (.snapshotAt p) := of_some rfl rfl (by decide)
theorem snapshotRead (p : Packet) : Statement (.snapshotRead p) := of_some rfl rfl (by decide)
theorem snapshotStatus (p : Packet) : Statement (.snapshotStatus p) := of_some rfl rfl (by decide)
theorem pframeConfig (p : Packet) : Statement (.pframeConfig p) := of_some rfl rfl (by decide)
theorem pointFrameReceive port src dg : Statement (.pointFrameReceive port src dg) := of_none rfl
theorem pointEccError id : Statement (.pointEccError id) := of_none rfl
theorem waitingWriteLand : Statement (.waitingWriteLand) := of_none rfl
theorem requestedCapture : Statement (.requestedCapture) := of_none rfl
theorem atSnapshotRelease : Statement (.atSnapshotRelease) := of_none rfl
theorem modelLoad (p : Packet) : Statement (.modelLoad p) := of_some rfl rfl (by decide)
theorem modelCommit (p : Packet) : Statement (.modelCommit p) := of_some rfl rfl (by decide)
theorem modelStatus (p : Packet) : Statement (.modelStatus p) := of_some rfl rfl (by decide)
theorem partitionSet (p : Packet) : Statement (.partitionSet p) := of_some rfl rfl (by decide)
theorem substSet (p : Packet) : Statement (.substSet p) := of_some rfl rfl (by decide)
theorem modelImageLoad : Statement (.modelImageLoad) := of_none rfl
theorem jobSubmit (p : Packet) : Statement (.jobSubmit p) := of_some rfl rfl (by decide)
theorem jobResult (p : Packet) : Statement (.jobResult p) := of_some rfl rfl (by decide)
theorem jobCancel (p : Packet) : Statement (.jobCancel p) := of_some rfl rfl (by decide)
theorem memAlloc (p : Packet) : Statement (.memAlloc p) := of_some rfl rfl (by decide)
theorem memFree (p : Packet) : Statement (.memFree p) := of_some rfl rfl (by decide)
theorem memWrite (p : Packet) : Statement (.memWrite p) := of_some rfl rfl (by decide)
theorem memRead (p : Packet) : Statement (.memRead p) := of_some rfl rfl (by decide)
theorem solverConfig (p : Packet) : Statement (.solverConfig p) := of_some rfl rfl (by decide)
theorem solverStatus (p : Packet) : Statement (.solverStatus p) := of_some rfl rfl (by decide)
theorem coordConfigSettings (p : Packet) : Statement (.coordConfigSettings p) := of_some rfl rfl (by decide)
theorem coordConfigScope (p : Packet) : Statement (.coordConfigScope p) := of_some rfl rfl (by decide)
theorem coordStatus (p : Packet) : Statement (.coordStatus p) := of_some rfl rfl (by decide)
theorem jlPortConfig (p : Packet) : Statement (.jlPortConfig p) := of_some rfl rfl (by decide)
theorem jlStatus (p : Packet) : Statement (.jlStatus p) := of_some rfl rfl (by decide)
theorem relay (p : Packet) : Statement (.relay p) := of_some rfl rfl (by decide)
theorem jlHelloTimer port : Statement (.jlHelloTimer port) := of_none rfl
theorem jlHelloReceive port m : Statement (.jlHelloReceive port m) := of_none rfl
theorem jlRetryTimer port : Statement (.jlRetryTimer port) := of_none rfl
theorem jlFrameReceive port f : Statement (.jlFrameReceive port f) := of_none rfl
theorem jlNakReceive port seq : Statement (.jlNakReceive port seq) := of_none rfl
theorem jlAckTimeout port : Statement (.jlAckTimeout port) := of_none rfl
theorem jlIdleTimer port : Statement (.jlIdleTimer port) := of_none rfl
theorem jlLinkLoss port signal : Statement (.jlLinkLoss port signal) := of_none rfl
theorem jlPointsReceive port m : Statement (.jlPointsReceive port m) := of_none rfl
theorem jlEventReceive port m : Statement (.jlEventReceive port m) := of_none rfl
theorem loopConfig (p : Packet) : Statement (.loopConfig p) := of_some rfl rfl (by decide)
theorem loopSectionSet (p : Packet) : Statement (.loopSectionSet p) := of_some rfl rfl (by decide)
theorem loopMode (p : Packet) : Statement (.loopMode p) := of_some rfl rfl (by decide)
theorem loopStatus (p : Packet) : Statement (.loopStatus p) := of_some rfl rfl (by decide)
theorem overrideConfig (p : Packet) : Statement (.overrideConfig p) := of_some rfl rfl (by decide)
theorem loopTick i : Statement (.loopTick i) := of_none rfl
theorem loopComputeDeadline i : Statement (.loopComputeDeadline i) := of_none rfl
theorem loopStaleLimit i : Statement (.loopStaleLimit i) := of_none rfl
theorem numericManual i : Statement (.numericManual i) := of_none rfl
theorem outputApply : Statement (.outputApply) := of_none rfl
theorem supervConfig (p : Packet) : Statement (.supervConfig p) := of_some rfl rfl (by decide)
theorem supervAck (p : Packet) : Statement (.supervAck p) := of_some rfl rfl (by decide)
theorem supervRestartModel (p : Packet) : Statement (.supervRestartModel p) := of_some rfl rfl (by decide)
theorem supervStatus (p : Packet) : Statement (.supervStatus p) := of_some rfl rfl (by decide)
theorem supervEvaluation i : Statement (.supervEvaluation i) := of_none rfl
theorem supervPersistReached i : Statement (.supervPersistReached i) := of_none rfl
theorem supervQuietReached i : Statement (.supervQuietReached i) := of_none rfl
theorem mogulConfig (p : Packet) : Statement (.mogulConfig p) := of_some rfl rfl (by decide)
theorem mogulPageRead (p : Packet) : Statement (.mogulPageRead p) := of_some rfl rfl (by decide)
theorem traceConfig (p : Packet) : Statement (.traceConfig p) := of_some rfl rfl (by decide)
theorem traceArm (p : Packet) : Statement (.traceArm p) := of_some rfl rfl (by decide)
theorem traceDisarm (p : Packet) : Statement (.traceDisarm p) := of_some rfl rfl (by decide)
theorem traceRead (p : Packet) : Statement (.traceRead p) := of_some rfl rfl (by decide)
theorem traceComplete u : Statement (.traceComplete u) := of_none rfl
theorem slalomEvaluation : Statement (.slalomEvaluation) := of_none rfl
theorem capUnmetTimer : Statement (.capUnmetTimer) := of_none rfl
theorem holdupOkTimer : Statement (.holdupOkTimer) := of_none rfl
theorem powerSample mw : Statement (.powerSample mw) := of_none rfl
theorem tempSensorRead temps : Statement (.tempSensorRead temps) := of_none rfl
theorem clampReport die : Statement (.clampReport die) := of_none rfl
theorem holdoutRead n mv : Statement (.holdoutRead n mv) := of_none rfl
theorem holdupCapTest n : Statement (.holdupCapTest n) := of_none rfl
theorem holdupCapTestEnd n mv : Statement (.holdupCapTestEnd n mv) := of_none rfl
theorem pwrCapSet (p : Packet) : Statement (.pwrCapSet p) := of_some rfl rfl (by decide)
theorem budgetConfig (p : Packet) : Statement (.budgetConfig p) := of_some rfl rfl (by decide)
theorem budgetStatus (p : Packet) : Statement (.budgetStatus p) := of_some rfl rfl (by decide)
theorem journalAdmit : Statement (.journalAdmit) := of_none rfl
theorem journalWaitTimeout : Statement (.journalWaitTimeout) := of_none rfl
theorem emramWriteDone : Statement (.emramWriteDone) := of_none rfl
theorem achConfig (p : Packet) : Statement (.achConfig p) := of_some rfl rfl (by decide)
theorem seqWrite (p : Packet) : Statement (.seqWrite p) := of_some rfl rfl (by decide)
theorem seqStart (p : Packet) : Statement (.seqStart p) := of_some rfl rfl (by decide)
theorem seqStop (p : Packet) : Statement (.seqStop p) := of_some rfl rfl (by decide)
theorem seqResult (p : Packet) : Statement (.seqResult p) := of_some rfl rfl (by decide)
theorem calChannelTrim (p : Packet) : Statement (.calChannelTrim p) := of_some rfl rfl (by decide)
theorem calNtc (p : Packet) : Statement (.calNtc p) := of_some rfl rfl (by decide)
theorem calAoTrim (p : Packet) : Statement (.calAoTrim p) := of_some rfl rfl (by decide)
theorem calHbManual (p : Packet) : Statement (.calHbManual p) := of_some rfl rfl (by decide)
theorem calHbAuto (p : Packet) : Statement (.calHbAuto p) := of_some rfl rfl (by decide)
theorem calUserDefaults (p : Packet) : Statement (.calUserDefaults p) := of_some rfl rfl (by decide)
theorem testdacSet (p : Packet) : Statement (.testdacSet p) := of_some rfl rfl (by decide)
theorem seqCycleStart die : Statement (.seqCycleStart die) := of_none rfl
theorem entryResult die e codes : Statement (.entryResult die e codes) := of_none rfl
theorem sampleSend die : Statement (.sampleSend die) := of_none rfl
theorem aoFaultDetect die c short : Statement (.aoFaultDetect die c short) := of_none rfl
theorem aoFaultClear die c short : Statement (.aoFaultClear die c short) := of_none rfl
theorem seqAutostart die : Statement (.seqAutostart die) := of_none rfl
theorem dchConfig (p : Packet) : Statement (.dchConfig p) := of_some rfl rfl (by decide)
theorem dchStatus (p : Packet) : Statement (.dchStatus p) := of_some rfl rfl (by decide)
theorem armOutputs (p : Packet) : Statement (.armOutputs p) := of_some rfl rfl (by decide)
theorem outputSet (p : Packet) : Statement (.outputSet p) := of_some rfl rfl (by decide)
theorem safeConfig (p : Packet) : Statement (.safeConfig p) := of_some rfl rfl (by decide)
theorem counterRead (p : Packet) : Statement (.counterRead p) := of_some rfl rfl (by decide)
theorem diEdgeAccept die c : Statement (.diEdgeAccept die c) := of_none rfl
theorem diPointRefresh die c : Statement (.diPointRefresh die c) := of_none rfl
theorem diLoopSample die c : Statement (.diLoopSample die c) := of_none rfl
theorem wireBreakDeclare die c : Statement (.wireBreakDeclare die c) := of_none rfl
theorem wireBreakClear die c : Statement (.wireBreakClear die c) := of_none rfl
theorem countAccumulate : Statement (.countAccumulate) := of_none rfl
theorem outputFoldback die c : Statement (.outputFoldback die c) := of_none rfl
theorem outputRetry die c still : Statement (.outputRetry die c still) := of_none rfl
theorem outputOvertemp die c : Statement (.outputOvertemp die c) := of_none rfl
theorem openLoadDetect die c : Statement (.openLoadDetect die c) := of_none rfl
theorem shortToSupplyDetect die c : Statement (.shortToSupplyDetect die c) := of_none rfl
theorem shortToSupplyClear die c : Statement (.shortToSupplyClear die c) := of_none rfl
theorem externalDriveDetect die c : Statement (.externalDriveDetect die c) := of_none rfl
theorem externalDriveClear die c : Statement (.externalDriveClear die c) := of_none rfl
theorem pwmPeriodStart die c : Statement (.pwmPeriodStart die c) := of_none rfl
theorem clampEventStart die c : Statement (.clampEventStart die c) := of_none rfl
theorem clampEventEnd die c uj : Statement (.clampEventEnd die c uj) := of_none rfl
theorem cycleHoldRelease die c : Statement (.cycleHoldRelease die c) := of_none rfl
theorem armTakeEffect die : Statement (.armTakeEffect die) := of_none rfl
theorem refreshSend : Statement (.refreshSend) := of_none rfl
theorem refreshReceive die : Statement (.refreshReceive die) := of_none rfl
theorem snowploughTimeout die : Statement (.snowploughTimeout die) := of_none rfl
theorem snowploughResume die : Statement (.snowploughResume die) := of_none rfl
theorem fieldResetTakeHold die : Statement (.fieldResetTakeHold die) := of_none rfl
theorem fieldResetRelease die : Statement (.fieldResetRelease die) := of_none rfl
theorem fieldDieConfigured die : Statement (.fieldDieConfigured die) := of_none rfl
theorem heartbeatSend : Statement (.heartbeatSend) := of_none rfl
theorem heartbeatReceive seq : Statement (.heartbeatReceive seq) := of_none rfl
theorem heartbeatLate : Statement (.heartbeatLate) := of_none rfl
theorem heartbeatTimeout : Statement (.heartbeatTimeout) := of_none rfl
theorem hardFaultLine die cause : Statement (.hardFaultLine die cause) := of_none rfl
theorem arbiterDisagreement : Statement (.arbiterDisagreement) := of_none rfl
theorem stateRestoreDone : Statement (.stateRestoreDone) := of_none rfl
theorem releaseInstant : Statement (.releaseInstant) := of_none rfl
theorem loopStream : Statement (.loopStream) := of_none rfl
theorem streamLate : Statement (.streamLate) := of_none rfl
theorem recoveryStart die : Statement (.recoveryStart die) := of_none rfl
theorem recoveryBistDone die pass : Statement (.recoveryBistDone die pass) := of_none rfl
theorem standbySliceEnd sig : Statement (.standbySliceEnd sig) := of_none rfl
theorem swapPrepare : Statement (.swapPrepare) := of_none rfl
theorem swapHandover : Statement (.swapHandover) := of_none rfl
theorem twinStatus (p : Packet) : Statement (.twinStatus p) := of_some rfl rfl (by decide)
theorem swap (p : Packet) : Statement (.swap p) := of_some rfl rfl (by decide)
theorem swapCancel (p : Packet) : Statement (.swapCancel p) := of_some rfl rfl (by decide)
theorem twinConfig (p : Packet) : Statement (.twinConfig p) := of_some rfl rfl (by decide)
theorem twinRecover (p : Packet) : Statement (.twinRecover p) := of_some rfl rfl (by decide)
theorem healthReport (p : Packet) : Statement (.healthReport p) := of_some rfl rfl (by decide)
theorem timeRead (p : Packet) : Statement (.timeRead p) := of_some rfl rfl (by decide)
theorem timeAdjustOffset (p : Packet) : Statement (.timeAdjustOffset p) := of_some rfl rfl (by decide)
theorem timeAdjustStep (p : Packet) : Statement (.timeAdjustStep p) := of_some rfl rfl (by decide)
theorem timeAdjustSet (p : Packet) : Statement (.timeAdjustSet p) := of_some rfl rfl (by decide)
theorem timeAdjustFreq (p : Packet) : Statement (.timeAdjustFreq p) := of_some rfl rfl (by decide)
theorem ptpConfig (p : Packet) : Statement (.ptpConfig p) := of_some rfl rfl (by decide)
theorem ptpStatus (p : Packet) : Statement (.ptpStatus p) := of_some rfl rfl (by decide)
theorem servoConfig (p : Packet) : Statement (.servoConfig p) := of_some rfl rfl (by decide)
theorem ptpMessageReceive port m : Statement (.ptpMessageReceive port m) := of_none rfl
theorem ptpTransmitTimer port kind : Statement (.ptpTransmitTimer port kind) := of_none rfl
theorem announceReceiptTimeout port : Statement (.announceReceiptTimeout port) := of_none rfl
theorem followupTimeout port : Statement (.followupTimeout port) := of_none rfl
theorem servoSample theta : Statement (.servoSample theta) := of_none rfl
theorem servoHoldover : Statement (.servoHoldover) := of_none rfl
theorem timeChangeApply : Statement (.timeChangeApply) := of_none rfl
theorem timeLoRead : Statement (.timeLoRead) := of_none rfl
theorem rawLoRead : Statement (.rawLoRead) := of_none rfl
theorem readRtc (p : Packet) : Statement (.readRtc p) := of_some rfl rfl (by decide)
theorem writeRtcNextEdge (p : Packet) : Statement (.writeRtcNextEdge p) := of_some rfl rfl (by decide)
theorem writeRtcAtTime (p : Packet) : Statement (.writeRtcAtTime p) := of_some rfl rfl (by decide)
theorem rtcTrimSet (p : Packet) : Statement (.rtcTrimSet p) := of_some rfl rfl (by decide)
theorem rtcSyncConfig (p : Packet) : Statement (.rtcSyncConfig p) := of_some rfl rfl (by decide)
theorem rtcAlarmSet (p : Packet) : Statement (.rtcAlarmSet p) := of_some rfl rfl (by decide)
theorem rtcAlarmCancel (p : Packet) : Statement (.rtcAlarmCancel p) := of_some rfl rfl (by decide)
theorem evinConfig (p : Packet) : Statement (.evinConfig p) := of_some rfl rfl (by decide)
theorem evinRead (p : Packet) : Statement (.evinRead p) := of_some rfl rfl (by decide)
theorem rtcSecLoRead : Statement (.rtcSecLoRead) := of_none rfl
theorem rtcFlagsWrite v : Statement (.rtcFlagsWrite v) := of_none rfl
theorem evinStatusWrite i v : Statement (.evinStatusWrite i v) := of_none rfl
theorem rtcLoad : Statement (.rtcLoad) := of_none rfl
theorem alarmMatch : Statement (.alarmMatch) := of_none rfl
theorem rtcSyncMeasure : Statement (.rtcSyncMeasure) := of_none rfl
theorem backupSupplySwitch toVbat : Statement (.backupSupplySwitch toVbat) := of_none rfl
theorem vbatMeasure mv : Statement (.vbatMeasure mv) := of_none rfl
theorem backupLoss : Statement (.backupLoss) := of_none rfl
theorem evinEdgeAccept i rising : Statement (.evinEdgeAccept i rising) := of_none rfl
theorem evinTamperEdge i rising : Statement (.evinTamperEdge i rising) := of_none rfl
theorem canConfig (p : Packet) : Statement (.canConfig p) := of_some rfl rfl (by decide)
theorem canFilter (p : Packet) : Statement (.canFilter p) := of_some rfl rfl (by decide)
theorem canSend (p : Packet) : Statement (.canSend p) := of_some rfl rfl (by decide)
theorem canReceive (p : Packet) : Statement (.canReceive p) := of_some rfl rfl (by decide)
theorem canStatus (p : Packet) : Statement (.canStatus p) := of_some rfl rfl (by decide)
theorem canTimeConfig (p : Packet) : Statement (.canTimeConfig p) := of_some rfl rfl (by decide)
theorem canMap (p : Packet) : Statement (.canMap p) := of_some rfl rfl (by decide)
theorem canRecoverBus (p : Packet) : Statement (.canRecoverBus p) := of_some rfl rfl (by decide)
theorem canRecoverBuffer (p : Packet) : Statement (.canRecoverBuffer p) := of_some rfl rfl (by decide)
theorem canFrameReceived k f sof : Statement (.canFrameReceived k f sof) := of_none rfl
theorem canTxComplete k b sof : Statement (.canTxComplete k b sof) := of_none rfl
theorem canBusError k lec tx post : Statement (.canBusError k lec tx post) := of_none rfl
theorem canClashLimit k b : Statement (.canClashLimit k b) := of_none rfl
theorem canBusoffRecovered k : Statement (.canBusoffRecovered k) := of_none rfl
theorem canRefCycle k : Statement (.canRefCycle k) := of_none rfl
theorem canRefLateTimeout k : Statement (.canRefLateTimeout k) := of_none rfl
theorem canSilenceTimeout k : Statement (.canSilenceTimeout k) := of_none rfl
theorem canMapTimeoutCheck : Statement (.canMapTimeoutCheck) := of_none rfl
theorem recRead (p : Packet) : Statement (.recRead p) := of_some rfl rfl (by decide)
theorem recStatus (p : Packet) : Statement (.recStatus p) := of_some rfl rfl (by decide)
theorem recMark (p : Packet) : Statement (.recMark p) := of_some rfl rfl (by decide)
theorem repeatFlush : Statement (.repeatFlush) := of_none rfl
theorem opTimeSave : Statement (.opTimeSave) := of_none rfl
theorem recSaturatedWrite v : Statement (.recSaturatedWrite v) := of_none rfl
theorem keyProvision (p : Packet) : Statement (.keyProvision p) := of_some rfl rfl (by decide)
theorem keyDerive (p : Packet) : Statement (.keyDerive p) := of_some rfl rfl (by decide)
theorem keyStatus (p : Packet) : Statement (.keyStatus p) := of_some rfl rfl (by decide)
theorem keyChallenge (p : Packet) : Statement (.keyChallenge p) := of_some rfl rfl (by decide)
theorem keyErase (p : Packet) : Statement (.keyErase p) := of_some rfl rfl (by decide)
theorem tamperZeroise source : Statement (.tamperZeroise source) := of_none rfl
theorem pwrStatus (p : Packet) : Statement (.pwrStatus p) := of_some rfl rfl (by decide)
theorem lowpowerSetRun (p : Packet) : Statement (.lowpowerSetRun p) := of_some rfl rfl (by decide)
theorem lowpowerSetQuiesce (p : Packet) : Statement (.lowpowerSetQuiesce p) := of_some rfl rfl (by decide)
theorem lowpowerSetKeep (p : Packet) : Statement (.lowpowerSetKeep p) := of_some rfl rfl (by decide)
theorem railConfig (p : Packet) : Statement (.railConfig p) := of_some rfl rfl (by decide)
theorem feedLowWarn die b low mv : Statement (.feedLowWarn die b low mv) := of_none rfl
theorem feedOvervoltage die b opened mv : Statement (.feedOvervoltage die b opened mv) := of_none rfl
theorem feedLoss die aMv bMv : Statement (.feedLoss die aMv bMv) := of_none rfl
theorem feedReturn die b mv : Statement (.feedReturn die b mv) := of_none rfl
theorem feedReset die : Statement (.feedReset die) := of_none rfl
theorem hubMuxSwitch vhaMv vhbMv : Statement (.hubMuxSwitch vhaMv vhbMv) := of_none rfl
theorem saveSupplyStart : Statement (.saveSupplyStart) := of_none rfl
theorem railStep pg : Statement (.railStep pg) := of_none rfl
theorem railPgTimeout r : Statement (.railPgTimeout r) := of_none rfl
theorem railSequenceRetry : Statement (.railSequenceRetry) := of_none rfl
theorem railPgLoss r : Statement (.railPgLoss r) := of_none rfl
theorem railPgReturn r : Statement (.railPgReturn r) := of_none rfl
theorem pmbusTelemetry reads : Statement (.pmbusTelemetry reads) := of_none rfl
theorem pmbusGainAdjust target : Statement (.pmbusGainAdjust target) := of_none rfl
theorem pmbusAlert status : Statement (.pmbusAlert status) := of_none rfl
theorem powerOnReset cause : Statement (.powerOnReset cause) := of_none rfl
theorem hubResetRelease : Statement (.hubResetRelease) := of_none rfl
theorem activeDieBistDone die pass : Statement (.activeDieBistDone die pass) := of_none rfl
theorem noActiveWaitExpiry : Statement (.noActiveWaitExpiry) := of_none rfl
theorem resetNLow : Statement (.resetNLow) := of_none rfl
theorem resetNRise bootMode : Statement (.resetNRise bootMode) := of_none rfl
theorem hubWatchdogExpiry lockstep : Statement (.hubWatchdogExpiry lockstep) := of_none rfl
theorem dieThermalTrip d : Statement (.dieThermalTrip d) := of_none rfl
theorem thermalRecover d : Statement (.thermalRecover d) := of_none rfl
theorem lastBreathConfirm : Statement (.lastBreathConfirm) := of_none rfl
theorem lastBreathDone : Statement (.lastBreathDone) := of_none rfl
theorem keepWake source : Statement (.keepWake source) := of_none rfl
theorem selftestRun (p : Packet) : Statement (.selftestRun p) := of_some rfl rfl (by decide)
theorem selftestResult (p : Packet) : Statement (.selftestResult p) := of_some rfl rfl (by decide)
theorem selftestSliceEnd sig : Statement (.selftestSliceEnd sig) := of_none rfl
theorem qmonLevelRead ctl : Statement (.qmonLevelRead ctl) := of_none rfl
theorem freeLowRead : Statement (.freeLowRead) := of_none rfl
theorem minSlackRead : Statement (.minSlackRead) := of_none rfl
theorem maxGlideUsRead : Statement (.maxGlideUsRead) := of_none rfl
theorem residMaxNsRead port : Statement (.residMaxNsRead port) := of_none rfl
theorem registerWrite addr v : Statement (.registerWrite addr v) := of_none rfl
theorem diagRead (p : Packet) : Statement (.diagRead p) := of_some rfl rfl (by decide)
theorem diagWrite (p : Packet) : Statement (.diagWrite p) := of_some rfl rfl (by decide)
theorem diagModify (p : Packet) : Statement (.diagModify p) := of_some rfl rfl (by decide)
theorem openLoadClear die c : Statement (.openLoadClear die c) := of_none rfl
theorem feedOvervoltageClear die b mv : Statement (.feedOvervoltageClear die b mv) := of_none rfl
theorem saveSupplyRelease : Statement (.saveSupplyRelease) := of_none rfl
theorem bitAndWordLock port : Statement (.bitAndWordLock port) := of_none rfl
theorem coldSyncComplete die : Statement (.coldSyncComplete die) := of_none rfl
theorem outputDiscardReport die : Statement (.outputDiscardReport die) := of_none rfl
theorem arpRequest port target sender senderMac : Statement (.arpRequest port target sender senderMac) := of_none rfl
theorem icmpEchoRequest port target sender payload : Statement (.icmpEchoRequest port target sender payload) := of_none rfl
theorem tckEdge rising tms tdi trstN : Statement (.tckEdge rising tms tdi trstN) := of_none rfl

end Sys2Proof.Laws.Rows
end

