-- ==== Sys2Proof/Laws/Points.lean ====
section
/-! SUPPORT. The point store as an addressed memory: what one write does to the live entries, wherever it comes from. -/

namespace Sys2Proof.Machine

theorem Dev.collide_live (d : Dev) (id : Nat) (a b : BitVec 8) : (d.collide id a b).points.live = d.points.live := by unfold Dev.collide; simp
theorem PointStore.shadow_live (p : PointStore) (id : Nat) (src : BitVec 8) : (p.shadow id src).live = p.live := by
  unfold PointStore.shadow; split
  · rfl
  · split <;> rfl
theorem Dev.releaseGen_live (d : Dev) (i : Nat) : (d.releaseGen i).points.live = d.points.live := by
  unfold Dev.releaseGen PointStore.release; dsimp only; split <;> simp
theorem Dev.makeRoom_live (d : Dev) (src : BitVec 8) : (d.makeRoom src).points.live = d.points.live := by
  unfold Dev.makeRoom; dsimp only
  repeat' split
  all_goals simp only [Dev.releaseGen_live]

/-- A write that lands changes no live entry (it loses) or the one it names. -/
theorem Dev.land_live (d : Dev) (w : PointWrite) :
    (d.land w).points.live = d.points.live ∨ ∃ e, (d.land w).points.live = d.points.live.wr w.id e := by
  unfold Dev.land; dsimp only
  by_cases h : d.loses w = true
  · left; rw [if_pos h, Dev.collide_live]; split <;> rfl
  · right; rw [if_neg h]; dsimp only; rw [PointStore.shadow_live]; refine ⟨_, congrArg (fun x => Tbl.wr x w.id _) ?_⟩
    split
    · rw [Dev.collide_live]; split <;> rfl
    · split <;> rfl

/-- A write handed to the store changes no live entry (it loses or waits) or the one it names. -/
theorem Dev.writePoint_live (d : Dev) (w : PointWrite) :
    (d.writePoint w).points.live = d.points.live ∨ ∃ e, (d.writePoint w).points.live = d.points.live.wr w.id e := by
  unfold Dev.writePoint; dsimp only
  by_cases h1 : (d.points.waiting.any fun x => decide (x.source = w.source)) = true
  · rw [if_pos h1]; exact .inl rfl
  · rw [if_neg h1]
    have k : (if d.canLand w then d else d.makeRoom w.source).points.live = d.points.live := by
      split
      · rfl
      · exact Dev.makeRoom_live d w.source
    generalize (if d.canLand w then d else d.makeRoom w.source) = d1 at k ⊢
    split
    · rw [← k]; exact Dev.land_live d1 w
    · exact .inl k

end Sys2Proof.Machine
end

