-- ==== Sys2Proof/Laws/Replies.lean ====
section
/-! SUPPORT. What sending a reply leaves as it was: only the host port, the Jalow ports, the queue monitors, the outward actions and the saturated flags
move. -/

namespace Sys2Proof.Machine

/-! evr -/

@[simp] theorem Dev.jlPump_evr (p n : Nat) (d : Dev) : (Dev.jlPump p n d).evr = d.evr := by
  induction n generalizing d with
  | zero => rfl
  | succ n ih =>
    unfold Dev.jlPump
    dsimp only
    split
    · rfl
    · repeat' split
      all_goals first | (simp; done) | (rw [ih]; simp)
@[simp] theorem Dev.jlSend_evr (d : Dev) (p t : Nat) (ws : List Word) : (d.jlSend p t ws).evr = d.evr := by
  unfold Dev.jlSend
  dsimp only
  split <;> simp
@[simp] theorem Dev.giveCredit_evr (d : Dev) (t : Transport) : (d.giveCredit t).evr = d.evr := by
  unfold Dev.giveCredit; simp
@[simp] theorem Dev.signalCq_evr (d : Dev) : d.signalCq.evr = d.evr := by
  unfold Dev.signalCq; dsimp only; split <;> simp
@[simp] theorem Dev.complete_evr (d : Dev) (p : Packet) (tag st n : Nat) : (d.complete p tag st n).evr = d.evr := by
  unfold Dev.complete; dsimp only; split <;> simp
@[simp] theorem Dev.gatherEnd_evr (d : Dev) (i : Nat) : (d.gatherEnd i).evr = d.evr := by
  unfold Dev.gatherEnd; dsimp only; split
  · rfl
  · split <;> simp
@[simp] theorem Dev.gather_evr (d : Dev) (i : Nat) (port : Option Nat) (st : Nat) : (d.gather i port st).evr = d.evr := by
  unfold Dev.gather; dsimp only; split <;> simp
@[simp] theorem Dev.reply_evr (d : Dev) (q : QPacket) (st det : Nat) (ws : List Word) : (d.reply q st det ws).evr = d.evr := by
  unfold Dev.reply
  dsimp only
  split
  · simp; split <;> simp
  · split <;> simp
  · simp; split <;> simp
  · simp; split
    · simp
    · split
      · simp
      · split <;> simp
@[simp] theorem Dev.finish_evr (d : Dev) (q : QPacket) (st det : Nat) (ws : List Word) : (d.finish q st det ws).evr = d.evr := by
  unfold Dev.finish; simp

/-! frame -/

@[simp] theorem Dev.jlPump_frame (p n : Nat) (d : Dev) : (Dev.jlPump p n d).frame = d.frame := by
  induction n generalizing d with
  | zero => rfl
  | succ n ih =>
    unfold Dev.jlPump
    dsimp only
    split
    · rfl
    · repeat' split
      all_goals first | (simp; done) | (rw [ih]; simp)
@[simp] theorem Dev.jlSend_frame (d : Dev) (p t : Nat) (ws : List Word) : (d.jlSend p t ws).frame = d.frame := by
  unfold Dev.jlSend
  dsimp only
  split <;> simp
@[simp] theorem Dev.giveCredit_frame (d : Dev) (t : Transport) : (d.giveCredit t).frame = d.frame := by
  unfold Dev.giveCredit; simp
@[simp] theorem Dev.signalCq_frame (d : Dev) : d.signalCq.frame = d.frame := by
  unfold Dev.signalCq; dsimp only; split <;> simp
@[simp] theorem Dev.complete_frame (d : Dev) (p : Packet) (tag st n : Nat) : (d.complete p tag st n).frame = d.frame := by
  unfold Dev.complete; dsimp only; split <;> simp
@[simp] theorem Dev.gatherEnd_frame (d : Dev) (i : Nat) : (d.gatherEnd i).frame = d.frame := by
  unfold Dev.gatherEnd; dsimp only; split
  · rfl
  · split <;> simp
@[simp] theorem Dev.gather_frame (d : Dev) (i : Nat) (port : Option Nat) (st : Nat) : (d.gather i port st).frame = d.frame := by
  unfold Dev.gather; dsimp only; split <;> simp
@[simp] theorem Dev.reply_frame (d : Dev) (q : QPacket) (st det : Nat) (ws : List Word) : (d.reply q st det ws).frame = d.frame := by
  unfold Dev.reply
  dsimp only
  split
  · simp; split <;> simp
  · split <;> simp
  · simp; split <;> simp
  · simp; split
    · simp
    · split
      · simp
      · split <;> simp
@[simp] theorem Dev.finish_frame (d : Dev) (q : QPacket) (st det : Nat) (ws : List Word) : (d.finish q st det ws).frame = d.frame := by
  unfold Dev.finish; simp

/-! points -/

@[simp] theorem Dev.jlPump_points (p n : Nat) (d : Dev) : (Dev.jlPump p n d).points = d.points := by
  induction n generalizing d with
  | zero => rfl
  | succ n ih =>
    unfold Dev.jlPump
    dsimp only
    split
    · rfl
    · repeat' split
      all_goals first | (simp; done) | (rw [ih]; simp)
@[simp] theorem Dev.jlSend_points (d : Dev) (p t : Nat) (ws : List Word) : (d.jlSend p t ws).points = d.points := by
  unfold Dev.jlSend
  dsimp only
  split <;> simp
@[simp] theorem Dev.giveCredit_points (d : Dev) (t : Transport) : (d.giveCredit t).points = d.points := by
  unfold Dev.giveCredit; simp
@[simp] theorem Dev.signalCq_points (d : Dev) : d.signalCq.points = d.points := by
  unfold Dev.signalCq; dsimp only; split <;> simp
@[simp] theorem Dev.complete_points (d : Dev) (p : Packet) (tag st n : Nat) : (d.complete p tag st n).points = d.points := by
  unfold Dev.complete; dsimp only; split <;> simp
@[simp] theorem Dev.gatherEnd_points (d : Dev) (i : Nat) : (d.gatherEnd i).points = d.points := by
  unfold Dev.gatherEnd; dsimp only; split
  · rfl
  · split <;> simp
@[simp] theorem Dev.gather_points (d : Dev) (i : Nat) (port : Option Nat) (st : Nat) : (d.gather i port st).points = d.points := by
  unfold Dev.gather; dsimp only; split <;> simp
@[simp] theorem Dev.reply_points (d : Dev) (q : QPacket) (st det : Nat) (ws : List Word) : (d.reply q st det ws).points = d.points := by
  unfold Dev.reply
  dsimp only
  split
  · simp; split <;> simp
  · split <;> simp
  · simp; split <;> simp
  · simp; split
    · simp
    · split
      · simp
      · split <;> simp
@[simp] theorem Dev.finish_points (d : Dev) (q : QPacket) (st det : Nat) (ws : List Word) : (d.finish q st det ws).points = d.points := by
  unfold Dev.finish; simp

/-! piste -/

@[simp] theorem Dev.jlPump_piste (p n : Nat) (d : Dev) : (Dev.jlPump p n d).piste = d.piste := by
  induction n generalizing d with
  | zero => rfl
  | succ n ih =>
    unfold Dev.jlPump
    dsimp only
    split
    · rfl
    · repeat' split
      all_goals first | (simp; done) | (rw [ih]; simp)
@[simp] theorem Dev.jlSend_piste (d : Dev) (p t : Nat) (ws : List Word) : (d.jlSend p t ws).piste = d.piste := by
  unfold Dev.jlSend
  dsimp only
  split <;> simp
@[simp] theorem Dev.giveCredit_piste (d : Dev) (t : Transport) : (d.giveCredit t).piste = d.piste := by
  unfold Dev.giveCredit; simp
@[simp] theorem Dev.signalCq_piste (d : Dev) : d.signalCq.piste = d.piste := by
  unfold Dev.signalCq; dsimp only; split <;> simp
@[simp] theorem Dev.complete_piste (d : Dev) (p : Packet) (tag st n : Nat) : (d.complete p tag st n).piste = d.piste := by
  unfold Dev.complete; dsimp only; split <;> simp
@[simp] theorem Dev.gatherEnd_piste (d : Dev) (i : Nat) : (d.gatherEnd i).piste = d.piste := by
  unfold Dev.gatherEnd; dsimp only; split
  · rfl
  · split <;> simp
@[simp] theorem Dev.gather_piste (d : Dev) (i : Nat) (port : Option Nat) (st : Nat) : (d.gather i port st).piste = d.piste := by
  unfold Dev.gather; dsimp only; split <;> simp
@[simp] theorem Dev.reply_piste (d : Dev) (q : QPacket) (st det : Nat) (ws : List Word) : (d.reply q st det ws).piste = d.piste := by
  unfold Dev.reply
  dsimp only
  split
  · simp; split <;> simp
  · split <;> simp
  · simp; split <;> simp
  · simp; split
    · simp
    · split
      · simp
      · split <;> simp
@[simp] theorem Dev.finish_piste (d : Dev) (q : QPacket) (st det : Nat) (ws : List Word) : (d.finish q st det ws).piste = d.piste := by
  unfold Dev.finish; simp

/-! solver -/

@[simp] theorem Dev.jlPump_solver (p n : Nat) (d : Dev) : (Dev.jlPump p n d).solver = d.solver := by
  induction n generalizing d with
  | zero => rfl
  | succ n ih =>
    unfold Dev.jlPump
    dsimp only
    split
    · rfl
    · repeat' split
      all_goals first | (simp; done) | (rw [ih]; simp)
@[simp] theorem Dev.jlSend_solver (d : Dev) (p t : Nat) (ws : List Word) : (d.jlSend p t ws).solver = d.solver := by
  unfold Dev.jlSend
  dsimp only
  split <;> simp
@[simp] theorem Dev.giveCredit_solver (d : Dev) (t : Transport) : (d.giveCredit t).solver = d.solver := by
  unfold Dev.giveCredit; simp
@[simp] theorem Dev.signalCq_solver (d : Dev) : d.signalCq.solver = d.solver := by
  unfold Dev.signalCq; dsimp only; split <;> simp
@[simp] theorem Dev.complete_solver (d : Dev) (p : Packet) (tag st n : Nat) : (d.complete p tag st n).solver = d.solver := by
  unfold Dev.complete; dsimp only; split <;> simp
@[simp] theorem Dev.gatherEnd_solver (d : Dev) (i : Nat) : (d.gatherEnd i).solver = d.solver := by
  unfold Dev.gatherEnd; dsimp only; split
  · rfl
  · split <;> simp
@[simp] theorem Dev.gather_solver (d : Dev) (i : Nat) (port : Option Nat) (st : Nat) : (d.gather i port st).solver = d.solver := by
  unfold Dev.gather; dsimp only; split <;> simp
@[simp] theorem Dev.reply_solver (d : Dev) (q : QPacket) (st det : Nat) (ws : List Word) : (d.reply q st det ws).solver = d.solver := by
  unfold Dev.reply
  dsimp only
  split
  · simp; split <;> simp
  · split <;> simp
  · simp; split <;> simp
  · simp; split
    · simp
    · split
      · simp
      · split <;> simp
@[simp] theorem Dev.finish_solver (d : Dev) (q : QPacket) (st det : Nat) (ws : List Word) : (d.finish q st det ws).solver = d.solver := by
  unfold Dev.finish; simp

/-! jobs -/

@[simp] theorem Dev.jlPump_jobs (p n : Nat) (d : Dev) : (Dev.jlPump p n d).jobs = d.jobs := by
  induction n generalizing d with
  | zero => rfl
  | succ n ih =>
    unfold Dev.jlPump
    dsimp only
    split
    · rfl
    · repeat' split
      all_goals first | (simp; done) | (rw [ih]; simp)
@[simp] theorem Dev.jlSend_jobs (d : Dev) (p t : Nat) (ws : List Word) : (d.jlSend p t ws).jobs = d.jobs := by
  unfold Dev.jlSend
  dsimp only
  split <;> simp
@[simp] theorem Dev.giveCredit_jobs (d : Dev) (t : Transport) : (d.giveCredit t).jobs = d.jobs := by
  unfold Dev.giveCredit; simp
@[simp] theorem Dev.signalCq_jobs (d : Dev) : d.signalCq.jobs = d.jobs := by
  unfold Dev.signalCq; dsimp only; split <;> simp
@[simp] theorem Dev.complete_jobs (d : Dev) (p : Packet) (tag st n : Nat) : (d.complete p tag st n).jobs = d.jobs := by
  unfold Dev.complete; dsimp only; split <;> simp
@[simp] theorem Dev.gatherEnd_jobs (d : Dev) (i : Nat) : (d.gatherEnd i).jobs = d.jobs := by
  unfold Dev.gatherEnd; dsimp only; split
  · rfl
  · split <;> simp
@[simp] theorem Dev.gather_jobs (d : Dev) (i : Nat) (port : Option Nat) (st : Nat) : (d.gather i port st).jobs = d.jobs := by
  unfold Dev.gather; dsimp only; split <;> simp
@[simp] theorem Dev.reply_jobs (d : Dev) (q : QPacket) (st det : Nat) (ws : List Word) : (d.reply q st det ws).jobs = d.jobs := by
  unfold Dev.reply
  dsimp only
  split
  · simp; split <;> simp
  · split <;> simp
  · simp; split <;> simp
  · simp; split
    · simp
    · split
      · simp
      · split <;> simp
@[simp] theorem Dev.finish_jobs (d : Dev) (q : QPacket) (st det : Nat) (ws : List Word) : (d.finish q st det ws).jobs = d.jobs := by
  unfold Dev.finish; simp

/-! coord -/

@[simp] theorem Dev.jlPump_coord (p n : Nat) (d : Dev) : (Dev.jlPump p n d).coord = d.coord := by
  induction n generalizing d with
  | zero => rfl
  | succ n ih =>
    unfold Dev.jlPump
    dsimp only
    split
    · rfl
    · repeat' split
      all_goals first | (simp; done) | (rw [ih]; simp)
@[simp] theorem Dev.jlSend_coord (d : Dev) (p t : Nat) (ws : List Word) : (d.jlSend p t ws).coord = d.coord := by
  unfold Dev.jlSend
  dsimp only
  split <;> simp
@[simp] theorem Dev.giveCredit_coord (d : Dev) (t : Transport) : (d.giveCredit t).coord = d.coord := by
  unfold Dev.giveCredit; simp
@[simp] theorem Dev.signalCq_coord (d : Dev) : d.signalCq.coord = d.coord := by
  unfold Dev.signalCq; dsimp only; split <;> simp
@[simp] theorem Dev.complete_coord (d : Dev) (p : Packet) (tag st n : Nat) : (d.complete p tag st n).coord = d.coord := by
  unfold Dev.complete; dsimp only; split <;> simp
@[simp] theorem Dev.gatherEnd_coord (d : Dev) (i : Nat) : (d.gatherEnd i).coord = d.coord := by
  unfold Dev.gatherEnd; dsimp only; split
  · rfl
  · split <;> simp
@[simp] theorem Dev.gather_coord (d : Dev) (i : Nat) (port : Option Nat) (st : Nat) : (d.gather i port st).coord = d.coord := by
  unfold Dev.gather; dsimp only; split <;> simp
@[simp] theorem Dev.reply_coord (d : Dev) (q : QPacket) (st det : Nat) (ws : List Word) : (d.reply q st det ws).coord = d.coord := by
  unfold Dev.reply
  dsimp only
  split
  · simp; split <;> simp
  · split <;> simp
  · simp; split <;> simp
  · simp; split
    · simp
    · split
      · simp
      · split <;> simp
@[simp] theorem Dev.finish_coord (d : Dev) (q : QPacket) (st det : Nat) (ws : List Word) : (d.finish q st det ws).coord = d.coord := by
  unfold Dev.finish; simp

/-! loops -/

@[simp] theorem Dev.jlPump_loops (p n : Nat) (d : Dev) : (Dev.jlPump p n d).loops = d.loops := by
  induction n generalizing d with
  | zero => rfl
  | succ n ih =>
    unfold Dev.jlPump
    dsimp only
    split
    · rfl
    · repeat' split
      all_goals first | (simp; done) | (rw [ih]; simp)
@[simp] theorem Dev.jlSend_loops (d : Dev) (p t : Nat) (ws : List Word) : (d.jlSend p t ws).loops = d.loops := by
  unfold Dev.jlSend
  dsimp only
  split <;> simp
@[simp] theorem Dev.giveCredit_loops (d : Dev) (t : Transport) : (d.giveCredit t).loops = d.loops := by
  unfold Dev.giveCredit; simp
@[simp] theorem Dev.signalCq_loops (d : Dev) : d.signalCq.loops = d.loops := by
  unfold Dev.signalCq; dsimp only; split <;> simp
@[simp] theorem Dev.complete_loops (d : Dev) (p : Packet) (tag st n : Nat) : (d.complete p tag st n).loops = d.loops := by
  unfold Dev.complete; dsimp only; split <;> simp
@[simp] theorem Dev.gatherEnd_loops (d : Dev) (i : Nat) : (d.gatherEnd i).loops = d.loops := by
  unfold Dev.gatherEnd; dsimp only; split
  · rfl
  · split <;> simp
@[simp] theorem Dev.gather_loops (d : Dev) (i : Nat) (port : Option Nat) (st : Nat) : (d.gather i port st).loops = d.loops := by
  unfold Dev.gather; dsimp only; split <;> simp
@[simp] theorem Dev.reply_loops (d : Dev) (q : QPacket) (st det : Nat) (ws : List Word) : (d.reply q st det ws).loops = d.loops := by
  unfold Dev.reply
  dsimp only
  split
  · simp; split <;> simp
  · split <;> simp
  · simp; split <;> simp
  · simp; split
    · simp
    · split
      · simp
      · split <;> simp
@[simp] theorem Dev.finish_loops (d : Dev) (q : QPacket) (st det : Nat) (ws : List Word) : (d.finish q st det ws).loops = d.loops := by
  unfold Dev.finish; simp

/-! aux -/

@[simp] theorem Dev.jlPump_aux (p n : Nat) (d : Dev) : (Dev.jlPump p n d).aux = d.aux := by
  induction n generalizing d with
  | zero => rfl
  | succ n ih =>
    unfold Dev.jlPump
    dsimp only
    split
    · rfl
    · repeat' split
      all_goals first | (simp; done) | (rw [ih]; simp)
@[simp] theorem Dev.jlSend_aux (d : Dev) (p t : Nat) (ws : List Word) : (d.jlSend p t ws).aux = d.aux := by
  unfold Dev.jlSend
  dsimp only
  split <;> simp
@[simp] theorem Dev.giveCredit_aux (d : Dev) (t : Transport) : (d.giveCredit t).aux = d.aux := by
  unfold Dev.giveCredit; simp
@[simp] theorem Dev.signalCq_aux (d : Dev) : d.signalCq.aux = d.aux := by
  unfold Dev.signalCq; dsimp only; split <;> simp
@[simp] theorem Dev.complete_aux (d : Dev) (p : Packet) (tag st n : Nat) : (d.complete p tag st n).aux = d.aux := by
  unfold Dev.complete; dsimp only; split <;> simp
@[simp] theorem Dev.gatherEnd_aux (d : Dev) (i : Nat) : (d.gatherEnd i).aux = d.aux := by
  unfold Dev.gatherEnd; dsimp only; split
  · rfl
  · split <;> simp
@[simp] theorem Dev.gather_aux (d : Dev) (i : Nat) (port : Option Nat) (st : Nat) : (d.gather i port st).aux = d.aux := by
  unfold Dev.gather; dsimp only; split <;> simp
@[simp] theorem Dev.reply_aux (d : Dev) (q : QPacket) (st det : Nat) (ws : List Word) : (d.reply q st det ws).aux = d.aux := by
  unfold Dev.reply
  dsimp only
  split
  · simp; split <;> simp
  · split <;> simp
  · simp; split <;> simp
  · simp; split
    · simp
    · split
      · simp
      · split <;> simp
@[simp] theorem Dev.finish_aux (d : Dev) (q : QPacket) (st det : Nat) (ws : List Word) : (d.finish q st det ws).aux = d.aux := by
  unfold Dev.finish; simp

/-! slalom -/

@[simp] theorem Dev.jlPump_slalom (p n : Nat) (d : Dev) : (Dev.jlPump p n d).slalom = d.slalom := by
  induction n generalizing d with
  | zero => rfl
  | succ n ih =>
    unfold Dev.jlPump
    dsimp only
    split
    · rfl
    · repeat' split
      all_goals first | (simp; done) | (rw [ih]; simp)
@[simp] theorem Dev.jlSend_slalom (d : Dev) (p t : Nat) (ws : List Word) : (d.jlSend p t ws).slalom = d.slalom := by
  unfold Dev.jlSend
  dsimp only
  split <;> simp
@[simp] theorem Dev.giveCredit_slalom (d : Dev) (t : Transport) : (d.giveCredit t).slalom = d.slalom := by
  unfold Dev.giveCredit; simp
@[simp] theorem Dev.signalCq_slalom (d : Dev) : d.signalCq.slalom = d.slalom := by
  unfold Dev.signalCq; dsimp only; split <;> simp
@[simp] theorem Dev.complete_slalom (d : Dev) (p : Packet) (tag st n : Nat) : (d.complete p tag st n).slalom = d.slalom := by
  unfold Dev.complete; dsimp only; split <;> simp
@[simp] theorem Dev.gatherEnd_slalom (d : Dev) (i : Nat) : (d.gatherEnd i).slalom = d.slalom := by
  unfold Dev.gatherEnd; dsimp only; split
  · rfl
  · split <;> simp
@[simp] theorem Dev.gather_slalom (d : Dev) (i : Nat) (port : Option Nat) (st : Nat) : (d.gather i port st).slalom = d.slalom := by
  unfold Dev.gather; dsimp only; split <;> simp
@[simp] theorem Dev.reply_slalom (d : Dev) (q : QPacket) (st det : Nat) (ws : List Word) : (d.reply q st det ws).slalom = d.slalom := by
  unfold Dev.reply
  dsimp only
  split
  · simp; split <;> simp
  · split <;> simp
  · simp; split <;> simp
  · simp; split
    · simp
    · split
      · simp
      · split <;> simp
@[simp] theorem Dev.finish_slalom (d : Dev) (q : QPacket) (st det : Nat) (ws : List Word) : (d.finish q st det ws).slalom = d.slalom := by
  unfold Dev.finish; simp

/-! field -/

@[simp] theorem Dev.jlPump_field (p n : Nat) (d : Dev) : (Dev.jlPump p n d).field = d.field := by
  induction n generalizing d with
  | zero => rfl
  | succ n ih =>
    unfold Dev.jlPump
    dsimp only
    split
    · rfl
    · repeat' split
      all_goals first | (simp; done) | (rw [ih]; simp)
@[simp] theorem Dev.jlSend_field (d : Dev) (p t : Nat) (ws : List Word) : (d.jlSend p t ws).field = d.field := by
  unfold Dev.jlSend
  dsimp only
  split <;> simp
@[simp] theorem Dev.giveCredit_field (d : Dev) (t : Transport) : (d.giveCredit t).field = d.field := by
  unfold Dev.giveCredit; simp
@[simp] theorem Dev.signalCq_field (d : Dev) : d.signalCq.field = d.field := by
  unfold Dev.signalCq; dsimp only; split <;> simp
@[simp] theorem Dev.complete_field (d : Dev) (p : Packet) (tag st n : Nat) : (d.complete p tag st n).field = d.field := by
  unfold Dev.complete; dsimp only; split <;> simp
@[simp] theorem Dev.gatherEnd_field (d : Dev) (i : Nat) : (d.gatherEnd i).field = d.field := by
  unfold Dev.gatherEnd; dsimp only; split
  · rfl
  · split <;> simp
@[simp] theorem Dev.gather_field (d : Dev) (i : Nat) (port : Option Nat) (st : Nat) : (d.gather i port st).field = d.field := by
  unfold Dev.gather; dsimp only; split <;> simp
@[simp] theorem Dev.reply_field (d : Dev) (q : QPacket) (st det : Nat) (ws : List Word) : (d.reply q st det ws).field = d.field := by
  unfold Dev.reply
  dsimp only
  split
  · simp; split <;> simp
  · split <;> simp
  · simp; split <;> simp
  · simp; split
    · simp
    · split
      · simp
      · split <;> simp
@[simp] theorem Dev.finish_field (d : Dev) (q : QPacket) (st det : Nat) (ws : List Word) : (d.finish q st det ws).field = d.field := by
  unfold Dev.finish; simp

/-! twin -/

@[simp] theorem Dev.jlPump_twin (p n : Nat) (d : Dev) : (Dev.jlPump p n d).twin = d.twin := by
  induction n generalizing d with
  | zero => rfl
  | succ n ih =>
    unfold Dev.jlPump
    dsimp only
    split
    · rfl
    · repeat' split
      all_goals first | (simp; done) | (rw [ih]; simp)
@[simp] theorem Dev.jlSend_twin (d : Dev) (p t : Nat) (ws : List Word) : (d.jlSend p t ws).twin = d.twin := by
  unfold Dev.jlSend
  dsimp only
  split <;> simp
@[simp] theorem Dev.giveCredit_twin (d : Dev) (t : Transport) : (d.giveCredit t).twin = d.twin := by
  unfold Dev.giveCredit; simp
@[simp] theorem Dev.signalCq_twin (d : Dev) : d.signalCq.twin = d.twin := by
  unfold Dev.signalCq; dsimp only; split <;> simp
@[simp] theorem Dev.complete_twin (d : Dev) (p : Packet) (tag st n : Nat) : (d.complete p tag st n).twin = d.twin := by
  unfold Dev.complete; dsimp only; split <;> simp
@[simp] theorem Dev.gatherEnd_twin (d : Dev) (i : Nat) : (d.gatherEnd i).twin = d.twin := by
  unfold Dev.gatherEnd; dsimp only; split
  · rfl
  · split <;> simp
@[simp] theorem Dev.gather_twin (d : Dev) (i : Nat) (port : Option Nat) (st : Nat) : (d.gather i port st).twin = d.twin := by
  unfold Dev.gather; dsimp only; split <;> simp
@[simp] theorem Dev.reply_twin (d : Dev) (q : QPacket) (st det : Nat) (ws : List Word) : (d.reply q st det ws).twin = d.twin := by
  unfold Dev.reply
  dsimp only
  split
  · simp; split <;> simp
  · split <;> simp
  · simp; split <;> simp
  · simp; split
    · simp
    · split
      · simp
      · split <;> simp
@[simp] theorem Dev.finish_twin (d : Dev) (q : QPacket) (st det : Nat) (ws : List Word) : (d.finish q st det ws).twin = d.twin := by
  unfold Dev.finish; simp

/-! time -/

@[simp] theorem Dev.jlPump_time (p n : Nat) (d : Dev) : (Dev.jlPump p n d).time = d.time := by
  induction n generalizing d with
  | zero => rfl
  | succ n ih =>
    unfold Dev.jlPump
    dsimp only
    split
    · rfl
    · repeat' split
      all_goals first | (simp; done) | (rw [ih]; simp)
@[simp] theorem Dev.jlSend_time (d : Dev) (p t : Nat) (ws : List Word) : (d.jlSend p t ws).time = d.time := by
  unfold Dev.jlSend
  dsimp only
  split <;> simp
@[simp] theorem Dev.giveCredit_time (d : Dev) (t : Transport) : (d.giveCredit t).time = d.time := by
  unfold Dev.giveCredit; simp
@[simp] theorem Dev.signalCq_time (d : Dev) : d.signalCq.time = d.time := by
  unfold Dev.signalCq; dsimp only; split <;> simp
@[simp] theorem Dev.complete_time (d : Dev) (p : Packet) (tag st n : Nat) : (d.complete p tag st n).time = d.time := by
  unfold Dev.complete; dsimp only; split <;> simp
@[simp] theorem Dev.gatherEnd_time (d : Dev) (i : Nat) : (d.gatherEnd i).time = d.time := by
  unfold Dev.gatherEnd; dsimp only; split
  · rfl
  · split <;> simp
@[simp] theorem Dev.gather_time (d : Dev) (i : Nat) (port : Option Nat) (st : Nat) : (d.gather i port st).time = d.time := by
  unfold Dev.gather; dsimp only; split <;> simp
@[simp] theorem Dev.reply_time (d : Dev) (q : QPacket) (st det : Nat) (ws : List Word) : (d.reply q st det ws).time = d.time := by
  unfold Dev.reply
  dsimp only
  split
  · simp; split <;> simp
  · split <;> simp
  · simp; split <;> simp
  · simp; split
    · simp
    · split
      · simp
      · split <;> simp
@[simp] theorem Dev.finish_time (d : Dev) (q : QPacket) (st det : Nat) (ws : List Word) : (d.finish q st det ws).time = d.time := by
  unfold Dev.finish; simp

/-! backup -/

@[simp] theorem Dev.jlPump_backup (p n : Nat) (d : Dev) : (Dev.jlPump p n d).backup = d.backup := by
  induction n generalizing d with
  | zero => rfl
  | succ n ih =>
    unfold Dev.jlPump
    dsimp only
    split
    · rfl
    · repeat' split
      all_goals first | (simp; done) | (rw [ih]; simp)
@[simp] theorem Dev.jlSend_backup (d : Dev) (p t : Nat) (ws : List Word) : (d.jlSend p t ws).backup = d.backup := by
  unfold Dev.jlSend
  dsimp only
  split <;> simp
@[simp] theorem Dev.giveCredit_backup (d : Dev) (t : Transport) : (d.giveCredit t).backup = d.backup := by
  unfold Dev.giveCredit; simp
@[simp] theorem Dev.signalCq_backup (d : Dev) : d.signalCq.backup = d.backup := by
  unfold Dev.signalCq; dsimp only; split <;> simp
@[simp] theorem Dev.complete_backup (d : Dev) (p : Packet) (tag st n : Nat) : (d.complete p tag st n).backup = d.backup := by
  unfold Dev.complete; dsimp only; split <;> simp
@[simp] theorem Dev.gatherEnd_backup (d : Dev) (i : Nat) : (d.gatherEnd i).backup = d.backup := by
  unfold Dev.gatherEnd; dsimp only; split
  · rfl
  · split <;> simp
@[simp] theorem Dev.gather_backup (d : Dev) (i : Nat) (port : Option Nat) (st : Nat) : (d.gather i port st).backup = d.backup := by
  unfold Dev.gather; dsimp only; split <;> simp
@[simp] theorem Dev.reply_backup (d : Dev) (q : QPacket) (st det : Nat) (ws : List Word) : (d.reply q st det ws).backup = d.backup := by
  unfold Dev.reply
  dsimp only
  split
  · simp; split <;> simp
  · split <;> simp
  · simp; split <;> simp
  · simp; split
    · simp
    · split
      · simp
      · split <;> simp
@[simp] theorem Dev.finish_backup (d : Dev) (q : QPacket) (st det : Nat) (ws : List Word) : (d.finish q st det ws).backup = d.backup := by
  unfold Dev.finish; simp

/-! can -/

@[simp] theorem Dev.jlPump_can (p n : Nat) (d : Dev) : (Dev.jlPump p n d).can = d.can := by
  induction n generalizing d with
  | zero => rfl
  | succ n ih =>
    unfold Dev.jlPump
    dsimp only
    split
    · rfl
    · repeat' split
      all_goals first | (simp; done) | (rw [ih]; simp)
@[simp] theorem Dev.jlSend_can (d : Dev) (p t : Nat) (ws : List Word) : (d.jlSend p t ws).can = d.can := by
  unfold Dev.jlSend
  dsimp only
  split <;> simp
@[simp] theorem Dev.giveCredit_can (d : Dev) (t : Transport) : (d.giveCredit t).can = d.can := by
  unfold Dev.giveCredit; simp
@[simp] theorem Dev.signalCq_can (d : Dev) : d.signalCq.can = d.can := by
  unfold Dev.signalCq; dsimp only; split <;> simp
@[simp] theorem Dev.complete_can (d : Dev) (p : Packet) (tag st n : Nat) : (d.complete p tag st n).can = d.can := by
  unfold Dev.complete; dsimp only; split <;> simp
@[simp] theorem Dev.gatherEnd_can (d : Dev) (i : Nat) : (d.gatherEnd i).can = d.can := by
  unfold Dev.gatherEnd; dsimp only; split
  · rfl
  · split <;> simp
@[simp] theorem Dev.gather_can (d : Dev) (i : Nat) (port : Option Nat) (st : Nat) : (d.gather i port st).can = d.can := by
  unfold Dev.gather; dsimp only; split <;> simp
@[simp] theorem Dev.reply_can (d : Dev) (q : QPacket) (st det : Nat) (ws : List Word) : (d.reply q st det ws).can = d.can := by
  unfold Dev.reply
  dsimp only
  split
  · simp; split <;> simp
  · split <;> simp
  · simp; split <;> simp
  · simp; split
    · simp
    · split
      · simp
      · split <;> simp
@[simp] theorem Dev.finish_can (d : Dev) (q : QPacket) (st det : Nat) (ws : List Word) : (d.finish q st det ws).can = d.can := by
  unfold Dev.finish; simp

/-! recorder -/

@[simp] theorem Dev.jlPump_recorder (p n : Nat) (d : Dev) : (Dev.jlPump p n d).recorder = d.recorder := by
  induction n generalizing d with
  | zero => rfl
  | succ n ih =>
    unfold Dev.jlPump
    dsimp only
    split
    · rfl
    · repeat' split
      all_goals first | (simp; done) | (rw [ih]; simp)
@[simp] theorem Dev.jlSend_recorder (d : Dev) (p t : Nat) (ws : List Word) : (d.jlSend p t ws).recorder = d.recorder := by
  unfold Dev.jlSend
  dsimp only
  split <;> simp
@[simp] theorem Dev.giveCredit_recorder (d : Dev) (t : Transport) : (d.giveCredit t).recorder = d.recorder := by
  unfold Dev.giveCredit; simp
@[simp] theorem Dev.signalCq_recorder (d : Dev) : d.signalCq.recorder = d.recorder := by
  unfold Dev.signalCq; dsimp only; split <;> simp
@[simp] theorem Dev.complete_recorder (d : Dev) (p : Packet) (tag st n : Nat) : (d.complete p tag st n).recorder = d.recorder := by
  unfold Dev.complete; dsimp only; split <;> simp
@[simp] theorem Dev.gatherEnd_recorder (d : Dev) (i : Nat) : (d.gatherEnd i).recorder = d.recorder := by
  unfold Dev.gatherEnd; dsimp only; split
  · rfl
  · split <;> simp
@[simp] theorem Dev.gather_recorder (d : Dev) (i : Nat) (port : Option Nat) (st : Nat) : (d.gather i port st).recorder = d.recorder := by
  unfold Dev.gather; dsimp only; split <;> simp
@[simp] theorem Dev.reply_recorder (d : Dev) (q : QPacket) (st det : Nat) (ws : List Word) : (d.reply q st det ws).recorder = d.recorder := by
  unfold Dev.reply
  dsimp only
  split
  · simp; split <;> simp
  · split <;> simp
  · simp; split <;> simp
  · simp; split
    · simp
    · split
      · simp
      · split <;> simp
@[simp] theorem Dev.finish_recorder (d : Dev) (q : QPacket) (st det : Nat) (ws : List Word) : (d.finish q st det ws).recorder = d.recorder := by
  unfold Dev.finish; simp

/-! keys -/

@[simp] theorem Dev.jlPump_keys (p n : Nat) (d : Dev) : (Dev.jlPump p n d).keys = d.keys := by
  induction n generalizing d with
  | zero => rfl
  | succ n ih =>
    unfold Dev.jlPump
    dsimp only
    split
    · rfl
    · repeat' split
      all_goals first | (simp; done) | (rw [ih]; simp)
@[simp] theorem Dev.jlSend_keys (d : Dev) (p t : Nat) (ws : List Word) : (d.jlSend p t ws).keys = d.keys := by
  unfold Dev.jlSend
  dsimp only
  split <;> simp
@[simp] theorem Dev.giveCredit_keys (d : Dev) (t : Transport) : (d.giveCredit t).keys = d.keys := by
  unfold Dev.giveCredit; simp
@[simp] theorem Dev.signalCq_keys (d : Dev) : d.signalCq.keys = d.keys := by
  unfold Dev.signalCq; dsimp only; split <;> simp
@[simp] theorem Dev.complete_keys (d : Dev) (p : Packet) (tag st n : Nat) : (d.complete p tag st n).keys = d.keys := by
  unfold Dev.complete; dsimp only; split <;> simp
@[simp] theorem Dev.gatherEnd_keys (d : Dev) (i : Nat) : (d.gatherEnd i).keys = d.keys := by
  unfold Dev.gatherEnd; dsimp only; split
  · rfl
  · split <;> simp
@[simp] theorem Dev.gather_keys (d : Dev) (i : Nat) (port : Option Nat) (st : Nat) : (d.gather i port st).keys = d.keys := by
  unfold Dev.gather; dsimp only; split <;> simp
@[simp] theorem Dev.reply_keys (d : Dev) (q : QPacket) (st det : Nat) (ws : List Word) : (d.reply q st det ws).keys = d.keys := by
  unfold Dev.reply
  dsimp only
  split
  · simp; split <;> simp
  · split <;> simp
  · simp; split <;> simp
  · simp; split
    · simp
    · split
      · simp
      · split <;> simp
@[simp] theorem Dev.finish_keys (d : Dev) (q : QPacket) (st det : Nat) (ws : List Word) : (d.finish q st det ws).keys = d.keys := by
  unfold Dev.finish; simp

/-! power -/

@[simp] theorem Dev.jlPump_power (p n : Nat) (d : Dev) : (Dev.jlPump p n d).power = d.power := by
  induction n generalizing d with
  | zero => rfl
  | succ n ih =>
    unfold Dev.jlPump
    dsimp only
    split
    · rfl
    · repeat' split
      all_goals first | (simp; done) | (rw [ih]; simp)
@[simp] theorem Dev.jlSend_power (d : Dev) (p t : Nat) (ws : List Word) : (d.jlSend p t ws).power = d.power := by
  unfold Dev.jlSend
  dsimp only
  split <;> simp
@[simp] theorem Dev.giveCredit_power (d : Dev) (t : Transport) : (d.giveCredit t).power = d.power := by
  unfold Dev.giveCredit; simp
@[simp] theorem Dev.signalCq_power (d : Dev) : d.signalCq.power = d.power := by
  unfold Dev.signalCq; dsimp only; split <;> simp
@[simp] theorem Dev.complete_power (d : Dev) (p : Packet) (tag st n : Nat) : (d.complete p tag st n).power = d.power := by
  unfold Dev.complete; dsimp only; split <;> simp
@[simp] theorem Dev.gatherEnd_power (d : Dev) (i : Nat) : (d.gatherEnd i).power = d.power := by
  unfold Dev.gatherEnd; dsimp only; split
  · rfl
  · split <;> simp
@[simp] theorem Dev.gather_power (d : Dev) (i : Nat) (port : Option Nat) (st : Nat) : (d.gather i port st).power = d.power := by
  unfold Dev.gather; dsimp only; split <;> simp
@[simp] theorem Dev.reply_power (d : Dev) (q : QPacket) (st det : Nat) (ws : List Word) : (d.reply q st det ws).power = d.power := by
  unfold Dev.reply
  dsimp only
  split
  · simp; split <;> simp
  · split <;> simp
  · simp; split <;> simp
  · simp; split
    · simp
    · split
      · simp
      · split <;> simp
@[simp] theorem Dev.finish_power (d : Dev) (q : QPacket) (st det : Nat) (ws : List Word) : (d.finish q st det ws).power = d.power := by
  unfold Dev.finish; simp

/-! test -/

@[simp] theorem Dev.jlPump_test (p n : Nat) (d : Dev) : (Dev.jlPump p n d).test = d.test := by
  induction n generalizing d with
  | zero => rfl
  | succ n ih =>
    unfold Dev.jlPump
    dsimp only
    split
    · rfl
    · repeat' split
      all_goals first | (simp; done) | (rw [ih]; simp)
@[simp] theorem Dev.jlSend_test (d : Dev) (p t : Nat) (ws : List Word) : (d.jlSend p t ws).test = d.test := by
  unfold Dev.jlSend
  dsimp only
  split <;> simp
@[simp] theorem Dev.giveCredit_test (d : Dev) (t : Transport) : (d.giveCredit t).test = d.test := by
  unfold Dev.giveCredit; simp
@[simp] theorem Dev.signalCq_test (d : Dev) : d.signalCq.test = d.test := by
  unfold Dev.signalCq; dsimp only; split <;> simp
@[simp] theorem Dev.complete_test (d : Dev) (p : Packet) (tag st n : Nat) : (d.complete p tag st n).test = d.test := by
  unfold Dev.complete; dsimp only; split <;> simp
@[simp] theorem Dev.gatherEnd_test (d : Dev) (i : Nat) : (d.gatherEnd i).test = d.test := by
  unfold Dev.gatherEnd; dsimp only; split
  · rfl
  · split <;> simp
@[simp] theorem Dev.gather_test (d : Dev) (i : Nat) (port : Option Nat) (st : Nat) : (d.gather i port st).test = d.test := by
  unfold Dev.gather; dsimp only; split <;> simp
@[simp] theorem Dev.reply_test (d : Dev) (q : QPacket) (st det : Nat) (ws : List Word) : (d.reply q st det ws).test = d.test := by
  unfold Dev.reply
  dsimp only
  split
  · simp; split <;> simp
  · split <;> simp
  · simp; split <;> simp
  · simp; split
    · simp
    · split
      · simp
      · split <;> simp
@[simp] theorem Dev.finish_test (d : Dev) (q : QPacket) (st det : Nat) (ws : List Word) : (d.finish q st det ws).test = d.test := by
  unfold Dev.finish; simp

/-! tap -/

@[simp] theorem Dev.jlPump_tap (p n : Nat) (d : Dev) : (Dev.jlPump p n d).tap = d.tap := by
  induction n generalizing d with
  | zero => rfl
  | succ n ih =>
    unfold Dev.jlPump
    dsimp only
    split
    · rfl
    · repeat' split
      all_goals first | (simp; done) | (rw [ih]; simp)
@[simp] theorem Dev.jlSend_tap (d : Dev) (p t : Nat) (ws : List Word) : (d.jlSend p t ws).tap = d.tap := by
  unfold Dev.jlSend
  dsimp only
  split <;> simp
@[simp] theorem Dev.giveCredit_tap (d : Dev) (t : Transport) : (d.giveCredit t).tap = d.tap := by
  unfold Dev.giveCredit; simp
@[simp] theorem Dev.signalCq_tap (d : Dev) : d.signalCq.tap = d.tap := by
  unfold Dev.signalCq; dsimp only; split <;> simp
@[simp] theorem Dev.complete_tap (d : Dev) (p : Packet) (tag st n : Nat) : (d.complete p tag st n).tap = d.tap := by
  unfold Dev.complete; dsimp only; split <;> simp
@[simp] theorem Dev.gatherEnd_tap (d : Dev) (i : Nat) : (d.gatherEnd i).tap = d.tap := by
  unfold Dev.gatherEnd; dsimp only; split
  · rfl
  · split <;> simp
@[simp] theorem Dev.gather_tap (d : Dev) (i : Nat) (port : Option Nat) (st : Nat) : (d.gather i port st).tap = d.tap := by
  unfold Dev.gather; dsimp only; split <;> simp
@[simp] theorem Dev.reply_tap (d : Dev) (q : QPacket) (st det : Nat) (ws : List Word) : (d.reply q st det ws).tap = d.tap := by
  unfold Dev.reply
  dsimp only
  split
  · simp; split <;> simp
  · split <;> simp
  · simp; split <;> simp
  · simp; split
    · simp
    · split
      · simp
      · split <;> simp
@[simp] theorem Dev.finish_tap (d : Dev) (q : QPacket) (st det : Nat) (ws : List Word) : (d.finish q st det ws).tap = d.tap := by
  unfold Dev.finish; simp

/-! free -/

@[simp] theorem Dev.jlPump_free (p n : Nat) (d : Dev) : (Dev.jlPump p n d).free = d.free := by
  induction n generalizing d with
  | zero => rfl
  | succ n ih =>
    unfold Dev.jlPump
    dsimp only
    split
    · rfl
    · repeat' split
      all_goals first | (simp; done) | (rw [ih]; simp)
@[simp] theorem Dev.jlSend_free (d : Dev) (p t : Nat) (ws : List Word) : (d.jlSend p t ws).free = d.free := by
  unfold Dev.jlSend
  dsimp only
  split <;> simp
@[simp] theorem Dev.giveCredit_free (d : Dev) (t : Transport) : (d.giveCredit t).free = d.free := by
  unfold Dev.giveCredit; simp
@[simp] theorem Dev.signalCq_free (d : Dev) : d.signalCq.free = d.free := by
  unfold Dev.signalCq; dsimp only; split <;> simp
@[simp] theorem Dev.complete_free (d : Dev) (p : Packet) (tag st n : Nat) : (d.complete p tag st n).free = d.free := by
  unfold Dev.complete; dsimp only; split <;> simp
@[simp] theorem Dev.gatherEnd_free (d : Dev) (i : Nat) : (d.gatherEnd i).free = d.free := by
  unfold Dev.gatherEnd; dsimp only; split
  · rfl
  · split <;> simp
@[simp] theorem Dev.gather_free (d : Dev) (i : Nat) (port : Option Nat) (st : Nat) : (d.gather i port st).free = d.free := by
  unfold Dev.gather; dsimp only; split <;> simp
@[simp] theorem Dev.reply_free (d : Dev) (q : QPacket) (st det : Nat) (ws : List Word) : (d.reply q st det ws).free = d.free := by
  unfold Dev.reply
  dsimp only
  split
  · simp; split <;> simp
  · split <;> simp
  · simp; split <;> simp
  · simp; split
    · simp
    · split
      · simp
      · split <;> simp
@[simp] theorem Dev.finish_free (d : Dev) (q : QPacket) (st det : Nat) (ws : List Word) : (d.finish q st det ws).free = d.free := by
  unfold Dev.finish; simp

/-! host: what of the port itself stays -/

@[simp] theorem Dev.jlPump_host (p n : Nat) (d : Dev) : (Dev.jlPump p n d).host = d.host := by
  induction n generalizing d with
  | zero => rfl
  | succ n ih =>
    unfold Dev.jlPump
    dsimp only
    split
    · rfl
    · repeat' split
      all_goals first | (simp; done) | (rw [ih]; simp)
@[simp] theorem Dev.jlSend_host (d : Dev) (p t : Nat) (ws : List Word) : (d.jlSend p t ws).host = d.host := by
  unfold Dev.jlSend
  dsimp only
  split <;> simp

@[simp] theorem Dev.giveCredit_host_queue (d : Dev) (t : Transport) : (d.giveCredit t).host.queue = d.host.queue := by
  unfold Dev.giveCredit; simp
@[simp] theorem Dev.signalCq_host_queue (d : Dev) : d.signalCq.host.queue = d.host.queue := by
  unfold Dev.signalCq; dsimp only; split <;> simp
@[simp] theorem Dev.complete_host_queue (d : Dev) (p : Packet) (tag st n : Nat) : (d.complete p tag st n).host.queue = d.host.queue := by
  unfold Dev.complete; dsimp only; split <;> simp
@[simp] theorem Dev.setRelay_host_queue (d : Dev) (i : Nat) (w : RelayWait) : (d.setRelay i w).host.queue = d.host.queue := rfl
@[simp] theorem Dev.gatherEnd_host_queue (d : Dev) (i : Nat) : (d.gatherEnd i).host.queue = d.host.queue := by
  unfold Dev.gatherEnd; dsimp only; split
  · rfl
  · split <;> simp
@[simp] theorem Dev.gather_host_queue (d : Dev) (i : Nat) (port : Option Nat) (st : Nat) : (d.gather i port st).host.queue = d.host.queue := by
  unfold Dev.gather; dsimp only; split <;> simp
@[simp] theorem Dev.reply_host_queue (d : Dev) (q : QPacket) (st det : Nat) (ws : List Word) : (d.reply q st det ws).host.queue = d.host.queue := by
  unfold Dev.reply
  dsimp only
  split
  · simp; split <;> simp
  · split <;> simp
  · simp; split <;> simp
  · simp; split
    · simp
    · split
      · simp
      · split <;> simp

@[simp] theorem Dev.giveCredit_host_lastSeq (d : Dev) (t : Transport) : (d.giveCredit t).host.lastSeq = d.host.lastSeq := by
  unfold Dev.giveCredit; simp
@[simp] theorem Dev.signalCq_host_lastSeq (d : Dev) : d.signalCq.host.lastSeq = d.host.lastSeq := by
  unfold Dev.signalCq; dsimp only; split <;> simp
@[simp] theorem Dev.complete_host_lastSeq (d : Dev) (p : Packet) (tag st n : Nat) : (d.complete p tag st n).host.lastSeq = d.host.lastSeq := by
  unfold Dev.complete; dsimp only; split <;> simp
@[simp] theorem Dev.setRelay_host_lastSeq (d : Dev) (i : Nat) (w : RelayWait) : (d.setRelay i w).host.lastSeq = d.host.lastSeq := rfl
@[simp] theorem Dev.gatherEnd_host_lastSeq (d : Dev) (i : Nat) : (d.gatherEnd i).host.lastSeq = d.host.lastSeq := by
  unfold Dev.gatherEnd; dsimp only; split
  · rfl
  · split <;> simp
@[simp] theorem Dev.gather_host_lastSeq (d : Dev) (i : Nat) (port : Option Nat) (st : Nat) : (d.gather i port st).host.lastSeq = d.host.lastSeq := by
  unfold Dev.gather; dsimp only; split <;> simp
@[simp] theorem Dev.reply_host_lastSeq (d : Dev) (q : QPacket) (st det : Nat) (ws : List Word) : (d.reply q st det ws).host.lastSeq = d.host.lastSeq := by
  unfold Dev.reply
  dsimp only
  split
  · simp; split <;> simp
  · split <;> simp
  · simp; split <;> simp
  · simp; split
    · simp
    · split
      · simp
      · split <;> simp

@[simp] theorem Dev.giveCredit_host_cfg (d : Dev) (t : Transport) : (d.giveCredit t).host.cfg = d.host.cfg := by
  unfold Dev.giveCredit; simp
@[simp] theorem Dev.signalCq_host_cfg (d : Dev) : d.signalCq.host.cfg = d.host.cfg := by
  unfold Dev.signalCq; dsimp only; split <;> simp
@[simp] theorem Dev.complete_host_cfg (d : Dev) (p : Packet) (tag st n : Nat) : (d.complete p tag st n).host.cfg = d.host.cfg := by
  unfold Dev.complete; dsimp only; split <;> simp
@[simp] theorem Dev.setRelay_host_cfg (d : Dev) (i : Nat) (w : RelayWait) : (d.setRelay i w).host.cfg = d.host.cfg := rfl
@[simp] theorem Dev.gatherEnd_host_cfg (d : Dev) (i : Nat) : (d.gatherEnd i).host.cfg = d.host.cfg := by
  unfold Dev.gatherEnd; dsimp only; split
  · rfl
  · split <;> simp
@[simp] theorem Dev.gather_host_cfg (d : Dev) (i : Nat) (port : Option Nat) (st : Nat) : (d.gather i port st).host.cfg = d.host.cfg := by
  unfold Dev.gather; dsimp only; split <;> simp
@[simp] theorem Dev.reply_host_cfg (d : Dev) (q : QPacket) (st det : Nat) (ws : List Word) : (d.reply q st det ws).host.cfg = d.host.cfg := by
  unfold Dev.reply
  dsimp only
  split
  · simp; split <;> simp
  · split <;> simp
  · simp; split <;> simp
  · simp; split
    · simp
    · split
      · simp
      · split <;> simp

@[simp] theorem Dev.giveCredit_host_authFailCnt (d : Dev) (t : Transport) : (d.giveCredit t).host.authFailCnt = d.host.authFailCnt := by
  unfold Dev.giveCredit; simp
@[simp] theorem Dev.signalCq_host_authFailCnt (d : Dev) : d.signalCq.host.authFailCnt = d.host.authFailCnt := by
  unfold Dev.signalCq; dsimp only; split <;> simp
@[simp] theorem Dev.complete_host_authFailCnt (d : Dev) (p : Packet) (tag st n : Nat) : (d.complete p tag st n).host.authFailCnt = d.host.authFailCnt := by
  unfold Dev.complete; dsimp only; split <;> simp
@[simp] theorem Dev.setRelay_host_authFailCnt (d : Dev) (i : Nat) (w : RelayWait) : (d.setRelay i w).host.authFailCnt = d.host.authFailCnt := rfl
@[simp] theorem Dev.gatherEnd_host_authFailCnt (d : Dev) (i : Nat) : (d.gatherEnd i).host.authFailCnt = d.host.authFailCnt := by
  unfold Dev.gatherEnd; dsimp only; split
  · rfl
  · split <;> simp
@[simp] theorem Dev.gather_host_authFailCnt (d : Dev) (i : Nat) (port : Option Nat) (st : Nat) : (d.gather i port st).host.authFailCnt = d.host.authFailCnt := by
  unfold Dev.gather; dsimp only; split <;> simp
@[simp] theorem Dev.reply_host_authFailCnt (d : Dev) (q : QPacket) (st det : Nat) (ws : List Word) : (d.reply q st det ws).host.authFailCnt = d.host.authFailCnt := by
  unfold Dev.reply
  dsimp only
  split
  · simp; split <;> simp
  · split <;> simp
  · simp; split <;> simp
  · simp; split
    · simp
    · split
      · simp
      · split <;> simp

end Sys2Proof.Machine
end

