-- ==== Sys2Proof/Laws/Twin.lean ====
section
/-! SUPPORT. What a change of state of a control die and the end of a standby slice leave as they were. -/

namespace Sys2Proof.Machine

@[simp] theorem Dev.coldPage_slalom (d : Dev) (n : CtlDieState) : (d.coldPage n).slalom = d.slalom := by
  unfold Dev.coldPage; split <;> simp
@[simp] theorem Dev.coldPage_power (d : Dev) (n : CtlDieState) : (d.coldPage n).power = d.power := by
  unfold Dev.coldPage; split <;> simp
@[simp] theorem Dev.coldPage_time (d : Dev) (n : CtlDieState) : (d.coldPage n).time = d.time := by
  unfold Dev.coldPage; split <;> simp
@[simp] theorem Dev.coldPage_host (d : Dev) (n : CtlDieState) : (d.coldPage n).host = d.host := by
  unfold Dev.coldPage; split <;> simp
@[simp] theorem Dev.dieTo_slalom (d : Dev) (k : Nat) (n : CtlDieState) : (d.dieTo k n).slalom = d.slalom := by
  unfold Dev.dieTo; dsimp only; split <;> simp
@[simp] theorem Dev.dieTo_power (d : Dev) (k : Nat) (n : CtlDieState) : (d.dieTo k n).power = d.power := by
  unfold Dev.dieTo; dsimp only; split <;> simp
@[simp] theorem Dev.dieTo_time (d : Dev) (k : Nat) (n : CtlDieState) : (d.dieTo k n).time = d.time := by
  unfold Dev.dieTo; dsimp only; split <;> simp
@[simp] theorem Dev.dieTo_host (d : Dev) (k : Nat) (n : CtlDieState) : (d.dieTo k n).host = d.host := by
  unfold Dev.dieTo; dsimp only; split <;> simp
@[simp] theorem Dev.abortSlice_slalom (d : Dev) : d.abortSlice.slalom = d.slalom := by
  unfold Dev.abortSlice; split <;> simp

end Sys2Proof.Machine
end

