-- ==== Sys2Proof/Tests/Slice0.lean ====
section
/-! SUPPORT. Tests: for each statement with hypotheses a state and operands that meet them, an ill-formed term for each check of WellFormed, and
values of the spec's tables and worked examples. -/

namespace Sys2Proof.Tests

open Sys2Proof Sys2Proof.Machine Sys2Proof.Bits Sys2Proof.Crypto

set_option maxRecDepth 8000

/-! What the witnesses are built from. -/

/-- A device that runs: the hub is up and control die 0 is ACTIVE. -/
def wUp : State := { dev := { power := { phase := .running }, twin := { die := Tbl.wr [] 0 { state := .active } } } }
/-- A packet of version 2 on PCIe with this opcode, word 2 (the target), FLAGS word and parameters. -/
def wPkt (op tgt flags : Nat) (ps : List Word) : Packet :=
  { words := [w32 (0xD6 + 2 * 256 + op * 65536), w32 ((4 + ps.length) * 65536), w32 tgt, w32 flags] ++ ps, framedWords := 4 + ps.length, rplCap := 64 }
/-- The packet as it stands in the interpreter's queue. -/
def wEnt (p : Packet) : QPacket := { pkt := p, die := some 0 }
/-- The state with the packet alone in the interpreter's queue. -/
def wQ (s : State) (p : Packet) : State := { s with dev := { s.dev with host := { s.dev.host with queue := [wEnt p] } } }
/-- A state whose holdup nodes have been tested at 24 V and 8,000 µF, so that the journal has room. -/
def wRoom (s : State) : State :=
  { s with dev := { s.dev with slalom := { s.dev.slalom with hold := Tbl.wr (Tbl.wr [] 0 { tested := true, capUf := 8000, readings := [24000] }) 1 { tested := true, capUf := 8000, readings := [24000] }, writeThrough := false } } }
/-- A device whose field die 1 runs. -/
def wFld (f : FieldDie) : State := { wRoom wUp with dev := (wRoom wUp).dev.setFld 1 { f with run := .run } }
/-- A device whose field die 1 runs with this channel 23. -/
def wDig (x : DigChan) : State := { wFld {} with dev := (wFld {}).dev.setDig 1 23 x }
/-- A device that runs with this backup domain. -/
def wBak (b : Backup) : State := { wRoom wUp with dev := { (wRoom wUp).dev with backup := b } }
/-- A device that runs with this CAN controller 1. -/
def wCan (x : CanCtl) : State := { wRoom wUp with dev := { (wRoom wUp).dev with can := { (wRoom wUp).dev.can with ctl := Tbl.wr [] 1 x } } }
/-- A device in this state of its power unit. -/
def wPow (p : Power) : State := { wRoom wUp with dev := { (wRoom wUp).dev with power := p } }

/-! LinkAndClockCommandsComplete -/

theorem test_LinkAndClockCommandsComplete_met :
    (wUp.dev.hubUp = true ∧ (wUp.dev.link .fld3).up = true) ∧
    ((wUp.withDev (wUp.dev.setLink .ctlA { up := false, downAt := 5, tries := 1 })).dev.hubUp = true ∧
      (wUp.dev.setLink .ctlA { up := false, downAt := 5, tries := 1 }).link .ctlA = { up := false, downAt := 5, tries := 1 }) ∧
    wUp.dev.power.lbAt = none ∧
    (((wUp.dev.setFld 3 { run := .run }).fld 3).run = .run ∧ ((wUp.dev.setFld 3 { run := .run }).fld 3).pllLost = false) ∧
    ((wUp.dev.setFld 3 { run := .run, pllLost := true }).fld 3).pllLost = true := by and_intros <;> decide

/-! EventRecorderCommandsComplete -/

/-- A device that runs with this event router. -/
def wEvr (x : EvRouter) : State := { wUp with dev := { wUp.dev with evr := x } }
/-- A device that runs with this recorder. -/
def wRec (x : Recorder) : State := { wUp with dev := { wUp.dev with recorder := x } }
theorem test_EventRecorderCommandsComplete_met :
    (let s := wEvr { queue := [{ code := 0x0101, source := 0x0100, sev := .info, data := 0 }], routes := Tbl.wr [] 1 { minSev := 1 } };
      s.dev.hubUp = true ∧ s.dev.evr.queue = [{ code := 0x0101, source := 0x0100, sev := .info, data := 0 }] ∧
      ({ code := 0x0101, source := 0x0100, sev := .info, data := 0 } : EventRec).reps = 0 ∧ Severity.num .info < (s.dev.evr.routes.rd (0x0101 / 256)).minSev.toNat) ∧
    (let s := wEvr { lost := 1 }; s.dev.hubUp = true ∧ 0 < s.dev.evr.lost ∧ s.dev.evr.held = [] ∧ s.dev.evr.queue.length < 512) ∧
    (Ready opRecRead (wPkt 0x0A01 0x41 0 [0, 1]) (wQ wUp (wPkt 0x0A01 0x41 0 [0, 1])) (wEnt (wPkt 0x0A01 0x41 0 [0, 1])) ∧
      (wEnt (wPkt 0x0A01 0x41 0 [0, 1])).resv 1 0x703FF = false ∧ (wEnt (wPkt 0x0A01 0x41 0 [0, 1])).f 1 18 17 ≠ 3 ∧
      1 ≤ (wEnt (wPkt 0x0A01 0x41 0 [0, 1])).f 1 9 0 ∧ (wEnt (wPkt 0x0A01 0x41 0 [0, 1])).f 1 9 0 ≤ recCountMax .pcie ∧
      (wEnt (wPkt 0x0A01 0x41 0 [0, 1])).b 1 16 = false ∧ ((wEnt (wPkt 0x0A01 0x41 0 [0, 1])).par 0 - wUp.dev.recorder.headSeq).toNat = 0 ∧
      wUp.dev.recorder.held 0 = [] ∧ (wEnt (wPkt 0x0A01 0x41 0 [0, 1])).holds 4) ∧
    Ready opRecStatus (wPkt 0x0A02 0x41 0 []) (wQ wUp (wPkt 0x0A02 0x41 0 [])) (wEnt (wPkt 0x0A02 0x41 0 [])) ∧
    (Ready opRecMark (wPkt 0x0A03 0x41 0 [7, 1, 2]) (wQ wUp (wPkt 0x0A03 0x41 0 [7, 1, 2])) (wEnt (wPkt 0x0A03 0x41 0 [7, 1, 2])) ∧
      (wEnt (wPkt 0x0A03 0x41 0 [7, 1, 2])).resv 0 0xFFFF = false) ∧
    (let s := wRec { head := some { rep := 1 } }; s.dev.recorder.head = some { rep := 1 } ∧ s.dev.power.on = true ∧ 1 ≠ s.dev.recorder.headSaved) := by
  and_intros <;> decide

/-! ControlFrameCommandsComplete -/

/-- A device that runs with this frame controller and this coordinator. -/
def wFrm (f : FrameCtl) (c : Coord) : State := { wUp with dev := { wUp.dev with frame := f, coord := c } }
theorem test_ControlFrameCommandsComplete_met :
    (let s := wFrm { state := .running, sched := { len := 10, anchor := 0, anchorFrame := 0 } } {}; s.dev.ctlUp = true ∧ s.dev.frame.nextFrame.isSome = true) ∧
    (let s := wFrm { state := .running, everRun := true, frameNum := 1 } {}; s.dev.ctlUp = true ∧ s.dev.frame.everRun = true ∧
      s.dev.frame.genCommitted < s.dev.frame.frameNum ∧ s.dev.piste.cursor = none ∧ s.dev.piste.held0 = none ∧ s.dev.piste.held1 = none ∧
      s.dev.coord.committed = true ∧ s.dev.swapAt s.dev.frame.frameNum = false) ∧
    (let s := wFrm {} { committed := false, asTop := false }; s.dev.ctlUp = true ∧ s.dev.coord.committed = false ∧ s.dev.coord.asTop = false) ∧
    (let s : State := { wUp with dev := { wUp.dev with jobs := { wUp.dev.jobs with toCkpt := [(3, [])] } } }; s.dev.ctlUp = true ∧ s.dev.jobs.toCkpt = [(3, [])]) ∧
    (wUp.dev.ctlUp = true ∧ wUp.dev.frame.state = .stopped) ∧
    (Ready opFrameSet (wPkt 0x0110 2 0 [10, 10000000, 0, 1]) (wQ wUp (wPkt 0x0110 2 0 [10, 10000000, 0, 1])) (wEnt (wPkt 0x0110 2 0 [10, 10000000, 0, 1])) ∧
      nearEra wUp.dev.now 10000000 0 = ((10000000 : Nat) : Int) ∧ wUp.dev.now + 10000000 ≤ 10000000 ∧
      wUp.dev.fromManager (wEnt (wPkt 0x0110 2 0 [10, 10000000, 0, 1])) = true ∧ wUp.dev.power.lp ≠ .quiesce) ∧
    (Ready opFrameStop (wPkt 0x0111 2 0 [5]) (wQ wUp (wPkt 0x0111 2 0 [5])) (wEnt (wPkt 0x0111 2 0 [5])) ∧ wUp.dev.fromManager (wEnt (wPkt 0x0111 2 0 [5])) = true ∧ wUp.dev.frame.state = .stopped) ∧
    (let p := wPkt 0x0111 2 0 [5]; let s := wFrm { state := .running, frameNum := 2 } {}; Ready opFrameStop p (wQ s p) (wEnt p) ∧
      s.dev.fromManager (wEnt p) = true ∧ s.dev.frame.state ≠ .stopped ∧ s.dev.frame.frameNum < ((wEnt p).par 0).toNat) ∧
    Ready opFrameStatus (wPkt 0x0112 2 0 []) (wQ wUp (wPkt 0x0112 2 0 [])) (wEnt (wPkt 0x0112 2 0 [])) := by and_intros <;> decide

/-! HostRingCommandsComplete -/

/-- A hub whose completion timer runs for one completion. -/
def wRing : State :=
  { wUp with dev := wUp.dev.setRing { irqTimeUs := 5, unsignalled := 1, irqMsixEn := true } }
theorem test_HostRingCommandsComplete_met :
    (wUp.dev.hubUp = true ∧ 256 < ((257 : Word).toNat % 512 + 512 - wUp.dev.host.ring.cqHead.toNat) % 512 ∧
      ((256 : Word).toNat % 512 + 512 - wUp.dev.host.ring.cqHead.toNat) % 512 ≤ 256 ∧ wUp.dev.host.ring.ringEn = false) ∧
    (bit 1 0 = true ∧ wUp.dev.host.ring.ringEn = false ∧ ¬(bit 0 0 = true ∧ wUp.dev.host.ring.ringEn = false)) ∧
    (wRing.dev.hubUp = true ∧ wRing.dev.host.ring.irqTimeUs ≠ 0 ∧ wRing.dev.host.ring.unsignalled ≠ 0 ∧ wRing.dev.host.ring.irqMsixEn = true) := by
  and_intros <;> decide

/-! HostTransportCommandsComplete -/

/-- A hub whose quad-SPI port is on and holds a reply with TAG 7, with Ethernet port 2 configured. -/
def wSpi (rs : List (List Word)) : State :=
  { wUp with dev := { wUp.dev with host := { wUp.dev.host with cfg := { spiEn := true, ethCmdMask := 7 }, spi := { replies := rs },
                                                               eth := Tbl.wr [] 2 { enable := true, ipv4 := 0x0A000001 } } } }
theorem test_HostTransportCommandsComplete_met :
    ((wSpi [[0xD6, 7, 0, 0]]).dev.hubUp = true ∧ (wSpi [[0xD6, 7, 0, 0]]).dev.host.cfg.spiEn = true ∧ (wSpi [[0xD6, 7, 0, 0]]).dev.host.spi.replies = [[0xD6, 7, 0, 0]] ∧
      fld (nth [0xD6, 7, 0, 0] 1) 15 0 = (7 : BitVec 16).toNat ∧ (wSpi []).dev.host.spi.replies = []) ∧
    ((wPkt 0x0100 1 0 [0]).framedWords = (wPkt 0x0100 1 0 [0]).words.length ∧ (wPkt 0x0100 1 0 [0]).words.length ≤ 1024 ∧ (wSpi []).dev.creditFree .spi = true) ∧
    (((wSpi []).dev.host.eth.rd 2).enable = true ∧ ((wSpi []).dev.host.eth.rd 2).ipv4 ≠ 0 ∧ bit (w32 (wSpi []).dev.host.cfg.ethCmdMask.toNat) 2 = true ∧
      (wPkt 0x0100 1 0 [0]).magic = 0xD6 ∧ (wSpi []).dev.host.cfg.admits 5 = true ∧ (wSpi []).dev.creditFree .eth = true) := by and_intros <;> decide
theorem test_HostTransportCommandsComplete_met2 :
    ((wSpi []).dev.hubUp = true ∧ (wSpi []).dev.host.cfg.spiEn = true ∧ (0 : Word) ≠ crcWords (wPkt 0x0100 1 0 [0]).words) ∧
    (let d : Dev := { (wSpi []).dev with host := { (wSpi []).dev.host with creditsUsed := Tbl.wr [] 2 256 } };
      d.hubUp = true ∧ (d.host.eth.rd 2).enable = true ∧ (d.host.eth.rd 2).ipv4 ≠ 0 ∧ bit (w32 d.host.cfg.ethCmdMask.toNat) 2 = true ∧
        d.host.cfg.admits 5 = true ∧ d.creditFree .eth = false) := by and_intros <;> decide

/-! RelayAndJournalCommandsComplete -/

/-- A device whose port 1 is a DOWN port with an up link and a partner that can take a relay, with these relay records. -/
def wJl (rs : List RelayWait) : State :=
  { wUp with dev := { wUp.dev with host := { wUp.dev.host with relays := rs },
                                   jalow := { wUp.dev.jalow with port := Tbl.wr [] 1 { cfg := { role := .down }, link := .up, partnerRelayFree := 4, txCredits := 32 } } } }
/-- A relay of one hop over port 1 with a NOP inside. -/
def wRelay : Packet := wPkt 0x0510 0x32 0 ([w32 5, w32 100] ++ (wPkt 0x0100 1 0 [0]).words)
theorem test_RelayAndJournalCommandsComplete_met :
    (Ready opRelay wRelay (wQ (wJl []) wRelay) (wEnt wRelay) ∧ (wEnt wRelay).resv 0 0x1FF = false ∧ (wEnt wRelay).f 0 1 0 ≠ 0 ∧ (wEnt wRelay).b 0 8 = false ∧
      (wEnt wRelay).resv 1 0xFFFF = false ∧ (wEnt wRelay).f 1 15 0 ≠ 0 ∧ ((wEnt wRelay).from' 2).length ≤ 1024 ∧
      fld (nth ((wEnt wRelay).from' 2) 1) 31 16 = ((wEnt wRelay).from' 2).length ∧ (wJl []).dev.relayBar ((wEnt wRelay).f 0 3 2) = none) ∧
    (1 < fld (nth [w32 18, w32 100] 0) 1 0 ∧ (wJl []).dev.relayBar (fld (nth [w32 18, w32 100] 0) 5 4) = none ∧ fld (nth [w32 1] 0) 1 0 ≤ 1 ∧
      bit (nth [w32 1] 0) 8 = false ∧ (wJl []).dev.creditFree .relay = true) ∧
    ((wJl [{ ports := [1], innerTag := 7 }]).dev.host.relays.findIdx? (fun w => w.awaited && decide (1 ∈ w.ports ∧ w.innerTag.toNat = 7)) = some 0 ∧
      (wJl [{ awaited := false, innerTag := 7 }]).dev.host.relays.find? (fun w => !w.awaited && decide (w.innerTag.toNat = 7)) = some { awaited := false, innerTag := 7 }) ∧
    ((wJl [{ ports := [1], innerTag := 7 }]).dev.host.relays.findIdx? (fun w => w.awaited && decide ((if w.origin then w.pkt.pkt.tag else w.innerTag.toNat) = (0 : BitVec 16).toNat)) = some 0) := by and_intros <;> decide
/-- A command waits for journal room in a device that has it, and an eMRAM write ends. -/
def wJrn : State :=
  { wRoom wUp with dev := { (wRoom wUp).dev with slalom := { (wRoom wUp).dev.slalom with jrnWait := [{ pkt := wEnt (wPkt 0x0120 1 0 [0x72, 5000, 0, 0]), deadline := 5 }] } } }
theorem test_RelayAndJournalCommandsComplete_met2 :
    (let w : RelayWait := { ports := [1], innerTag := 7 };
      (wJl [w]).dev.host.relays.findIdx? (fun w => w.awaited && decide ((if w.origin then w.pkt.pkt.tag else w.innerTag.toNat) = (0 : BitVec 16).toNat)) = some 0 ∧
        (wJl [w]).dev.host.relays.getD 0 {} = w ∧ w.origin = true ∧ w.subtree = false ∧ w.own = false) ∧
    (let w : JrnWait := { pkt := wEnt (wPkt 0x0120 1 0 [0x72, 5000, 0, 0]), deadline := 5 };
      wJrn.dev.slalom.jrnWait.find? (fun w => wJrn.dev.slalom.room w.need) = some w ∧ w.auth = false ∧ wJrn.dev.slalom.jrnWait = [w] ∧
        (opOf w.pkt.pkt).isSome = true) ∧
    (let s : State := { State.reset with dev := State.reset.dev.setSlm { State.reset.dev.slalom with emramBusy := some .save } };
      s.dev.slalom.emramBusy = some .save ∧ (s.written .save).dev.ctlUp = false) := by and_intros <;> decide

/-! JalowLinkCommandsComplete -/

/-- A device whose port 3 has this state. -/
def wPort (q : JlPort) : State := { wUp with dev := { wUp.dev with jalow := { wUp.dev.jalow with ownAddr := 0, port := Tbl.wr [] 3 q } } }
theorem test_JalowLinkCommandsComplete_met :
    ((wPort { link := .training }).dev.hubUp = true ∧ ((wPort { link := .training }).dev.jl 3).link = .training) ∧
    (((wPort { link := .hello }).dev.jl 3).link = .hello ∧ ((wPort { link := .hello }).dev.jl 3).gotHello = false) ∧
    ((wPort { link := .hello, cfg := { role := .down, enc := false } }).dev.helloRefusal 3 [1, 0, 0xFF01, 0] = none ∧
      (wPort { link := .hello, cfg := { role := .down, enc := false } }).dev.helloRefusal 3 [1, 0, 2, 0] = some 1) ∧
    ((wPort { link := .refused }).dev.jl 3).link = .refused ∧
    (((wPort { link := .up, unacked := [{}] }).dev.jl 3).link = .up ∧ ((wPort { link := .up, unacked := [{}] }).dev.jl 3).unacked ≠ []) := by and_intros <;> decide

/-! JalowMessageCommandsComplete -/

/-- A device whose port 2 has this state. -/
def wPort2 (q : JlPort) : State := { wUp with dev := { wUp.dev with jalow := { wUp.dev.jalow with port := Tbl.wr [] 2 q } } }
/-- A JL_PORT_CONFIG of port 2 as a DOWN port without windows. -/
def wJlCfg : Packet := wPkt 0x0503 (0x32 + 2 * 256) 0 [2, 0, 0, 0, 0]
theorem test_JalowMessageCommandsComplete_met :
    (((wPort2 { link := .up }).dev.jl 2).link = .up ∧ ({ ftype := 4 } : JlFrame).crc ≠ ({ ftype := 4 } : JlFrame).crcOf ∧
      ({ ftype := 9, crc := ({ ftype := 9 } : JlFrame).crcOf } : JlFrame).crc = ({ ftype := 9, crc := ({ ftype := 9 } : JlFrame).crcOf } : JlFrame).crcOf) ∧
    (Ready opJlPortConfig wJlCfg (wQ (wRoom wUp) wJlCfg) (wEnt wJlCfg) ∧ Journals (wQ (wRoom wUp) wJlCfg) (wEnt wJlCfg) ∧ (wEnt wJlCfg).resv 0 0x3F3F = false ∧
      (wEnt wJlCfg).f 0 1 0 ≠ 3 ∧ (wEnt wJlCfg).resv 1 0xFFFFF = false ∧ (wEnt wJlCfg).resv 2 0x7FFF = false ∧ (jlCfgOf (wEnt wJlCfg)).expCount ≤ 16384 ∧
      (jlCfgOf (wEnt wJlCfg)).role = .down ∧ (jlCfgOf (wEnt wJlCfg)).enc = false ∧ wUp.dev.frame.state = .stopped) ∧
    Ready opJlStatus (wPkt 0x0504 (0x32 + 3 * 256) 0 []) (wQ wUp (wPkt 0x0504 (0x32 + 3 * 256) 0 [])) (wEnt (wPkt 0x0504 (0x32 + 3 * 256) 0 [])) := by and_intros <;> decide
theorem test_JalowMessageCommandsComplete_met2 :
    (wEnt wJlCfg).resv 3 0xFFFFF = false ∧ (wEnt wJlCfg).resv 4 0x7FFF = false ∧ (jlCfgOf (wEnt wJlCfg)).expFirst + (jlCfgOf (wEnt wJlCfg)).expCount ≤ 2 ^ 20 ∧
      (jlCfgOf (wEnt wJlCfg)).impCount ≤ 16384 ∧ (jlCfgOf (wEnt wJlCfg)).impBase + (jlCfgOf (wEnt wJlCfg)).impCount ≤ 2 ^ 20 := by and_intros <;> decide

/-! PointStoreCommandsComplete -/

/-- A device that holds nothing but point frames of Ethernet port 2 enabled, with this PFRAME state. -/
def wPf (f : PFrameState) : State :=
  { wUp with dev := { wUp.dev with host := { wUp.dev.host with eth := Tbl.wr [] 2 { enable := true, ipv4 := 1 } }, points := { wUp.dev.points with pframe := Tbl.wr [] 2 f } } }
/-- Packets of the point opcodes. -/
def wPts (op : Nat) (ps : List Word) : Packet := { wPkt op 1 0 ps with dma := some [0x3F800000, 0] }
theorem test_PointStoreCommandsComplete_met :
    (Ready opPointRead (wPts 0x0201 [0xFFC02, 1022]) (wQ wUp (wPts 0x0201 [0xFFC02, 1022])) (wEnt (wPts 0x0201 [0xFFC02, 1022])) ∧
      (wEnt (wPts 0x0201 [0xFFC02, 1022])).f 0 19 0 + (wEnt (wPts 0x0201 [0xFFC02, 1022])).f 1 10 0 ≤ 2 ^ 20 ∧ (wEnt (wPts 0x0201 [0xFFC02, 1022])).holds (4 * 1022)) ∧
    (Ready opPointWrite (wPts 0x0202 [0xFFFFF, 7, 0]) (wQ wUp (wPts 0x0202 [0xFFFFF, 7, 0])) (wEnt (wPts 0x0202 [0xFFFFF, 7, 0])) ∧
      (wEnt (wPts 0x0202 [0xFFFFF, 7, 0])).resv 0 0xFFFFF = false ∧ (wEnt (wPts 0x0202 [0xFFFFF, 7, 0])).resv 2 0xFF = false ∧ qualityOk 0 = true ∧
      wUp.dev.points.waiting = [] ∧ wUp.dev.points.needsCopy 0xFFFFF = false ∧ wUp.dev.loses { id := 0xFFFFF, source := 0x10 } = false) ∧
    (Ready opPointBlockWrite (wPts 0x0203 [0, 0, 5, 1, 9]) (wQ wUp (wPts 0x0203 [0, 0, 5, 1, 9])) (wEnt (wPts 0x0203 [0, 0, 5, 1, 9])) ∧
      firstErr (blockChecks (wEnt (wPts 0x0203 [0, 0, 5, 1, 9]))) = none ∧ fld (nth [0x3F800000, 0] 1) 11 8 = 0 ∧ fld (nth [0x3F800000, 0] 1) 31 12 = 0) ∧
    (Ready opPointBlockRead (wPts 0x0204 [0, 0, 5, 1, 9]) (wQ wUp (wPts 0x0204 [0, 0, 5, 1, 9])) (wEnt (wPts 0x0204 [0, 0, 5, 1, 9])) ∧
      firstErr (blockChecks (wEnt (wPts 0x0204 [0, 0, 5, 1, 9]))) = none ∧ (wEnt (wPts 0x0204 [0, 0, 5, 1, 9])).b 2 20 = false ∧
      (wPts 0x0204 [0, 0, 5, 1, 9]).dma.isSome = true) ∧
    ((wPf { cfg := { enable := true } }).dev.hubUp = true ∧ ((wPf { cfg := { enable := true } }).dev.host.eth.rd 2).enable = true ∧
      ((wPf { cfg := { enable := true } }).dev.points.pframe.rd 2).ingest < 64) ∧
    ({ wUp.dev with points := { wUp.dev.points with waiting := [{ id := 1, source := 0x10 }] } }.landable [{ id := 1, source := 0x10 }] [] = some { id := 1, source := 0x10 }) ∧
    (Ready opPframeConfig (wPkt 0x0220 0x30 0 [0x27100000, 0, 0, 1, 1]) (wQ (wRoom wUp) (wPkt 0x0220 0x30 0 [0x27100000, 0, 0, 1, 1])) (wEnt (wPkt 0x0220 0x30 0 [0x27100000, 0, 0, 1, 1])) ∧
      Journals (wQ (wRoom wUp) (wPkt 0x0220 0x30 0 [0x27100000, 0, 0, 1, 1])) (wEnt (wPkt 0x0220 0x30 0 [0x27100000, 0, 0, 1, 1])) ∧
      (wEnt (wPkt 0x0220 0x30 0 [0x27100000, 0, 0, 1, 1])).resv 0 0xFFFF3F03 = false ∧
      (pframeCfgOf (wEnt (wPkt 0x0220 0x30 0 [0x27100000, 0, 0, 1, 1]))).udpPort ∉ [0, 319, 320, wUp.dev.host.cfg.cmdUdpPort] ∧
      (pframeCfgOf (wEnt (wPkt 0x0220 0x30 0 [0x27100000, 0, 0, 1, 1]))).enable = false) := by and_intros <;> decide
theorem test_PointStoreCommandsComplete_met2 :
    (let s : State := { wUp with dev := { wUp.dev with points := { wUp.dev.points with gens := [{ gen := 9 }] } } };
      let p := wPts 0x0204 [0, 0, 0x200005, 1, 9];
      Ready opPointBlockRead p (wQ s p) (wEnt p) ∧ firstErr (blockChecks (wEnt p)) = none ∧ (wEnt p).b 2 20 = false ∧ (wEnt p).b 2 21 = true ∧
        (wEnt p).resv 4 0xFFFF = false ∧ s.dev.points.heldAt ((wEnt p).f 4 15 0) = some 0 ∧ s.dev.points.viewBad 0 5 1 = false) ∧
    (let p := wPts 0x0203 [0, 0, 5, 1, 9];
      ∀ i, i < (wEnt p).f 3 16 0 → fld (nth [0x3F800000, 0] (2 * i + 1)) 11 8 = 0 ∧
        ((wEnt p).b 2 20 = false → fld (nth [0x3F800000, 0] (2 * i + 1)) 31 12 = 0) ∧ qualityOk (fld (nth [0x3F800000, 0] (2 * i + 1)) 7 0) = true) := by
  and_intros <;> decide
/-- A device whose key slot 5 holds a MAC key and which admits point frames of it at Ethernet port 2. -/
def wPfMac : State :=
  { wUp with dev := { (wPf { cfg := { enable := true, keySlot := 5, idHigh := 99 } }).dev with
      keys := { wUp.dev.keys with root := some (List.replicate 32 1), slots := Tbl.wr [] 5 { state := .valid, purpose := 1, key := List.replicate 32 7 } } } }
/-- One record of point 9 with SEQ 1, before its tag. -/
def wPfBody : List Word := [0x000150D6, 1, 0, 0, 9, 0x3F800000]
/-- The whole datagram. -/
def wPfFrame : List Word := wPfBody ++ wordsOf ((hmac (List.replicate 32 7) (bytesAll wPfBody)).take 16)
theorem test_PointFrame_met : wPfMac.dev.pframeErr (wPfMac.dev.points.pframe.rd 2) 0 wPfFrame = none := by decide
theorem test_PointFrame_met2 : wPfMac.dev.hubUp = true ∧ (wPfMac.dev.host.eth.rd 2).enable = true ∧ (wPfMac.dev.host.eth.rd 2).ipv4 ≠ 0 ∧ (wPfMac.dev.points.pframe.rd 2).cfg.enable = true ∧
    (wPfMac.dev.points.pframe.rd 2).ingest < 64 := by and_intros <;> decide

/-! SnapshotAndIdentityCommandsComplete -/

theorem test_SnapshotAndIdentityCommandsComplete_met :
    (Ready opSnapshotAt (wPkt 0x0210 1 0 [200000, 0]) (wQ wUp (wPkt 0x0210 1 0 [200000, 0])) (wEnt (wPkt 0x0210 1 0 [200000, 0])) ∧
      nearEra wUp.dev.now 200000 0 = ((200000 : Nat) : Int) ∧ wUp.dev.now + 200000 ≤ 200000) ∧
    (let p := wPkt 0x0211 1 0 [9, 0, 1]; let s : State := { wUp with dev := { wUp.dev with points := { wUp.dev.points with gens := [{ gen := 9 }] } } };
      Ready opSnapshotRead p (wQ s p) (wEnt p) ∧ s.dev.points.heldAt ((wEnt p).f 0 15 0) = some 0 ∧ s.dev.points.viewBad 0 0 1 = false ∧ (wEnt p).holds 4) ∧
    (Ready opSnapshotStatus (wPkt 0x0212 1 0 []) (wQ wUp (wPkt 0x0212 1 0 [])) (wEnt (wPkt 0x0212 1 0 [])) ∧ wUp.dev.points.gens = [] ∧ wUp.dev.points.reqs = []) ∧
    (let q : QPacket := { pkt := wPkt 0x0100 1 4 [0], waitsSnap := true, snapDone := true };
      let s : State := { wUp with dev := { wUp.dev with host := { wUp.dev.host with queue := [q] } } };
      s.dev.host.queue.find? (fun x => x.waitsSnap && x.snapDone && !x.started && mayStart s.dev.host.queue x) = some q ∧
        (opOf q.pkt).isSome = true) ∧
    (Ready opNop (wPkt 0x0100 1 0 [63]) (wQ wUp (wPkt 0x0100 1 0 [63])) (wEnt (wPkt 0x0100 1 0 [63])) ∧ ((wEnt (wPkt 0x0100 1 0 [63])).par 0).toNat ≤ 63) ∧
    Ready opDevIdent (wPkt 0x0101 1 0 []) (wQ wUp (wPkt 0x0101 1 0 [])) (wEnt (wPkt 0x0101 1 0 [])) := by
  and_intros <;> decide
theorem test_SnapshotAndIdentityCommandsComplete_met2 :
    (Ready opHostConfig (wPkt 0x0120 1 0 [0x72, 5000, 0, 0]) (wQ (wRoom wUp) (wPkt 0x0120 1 0 [0x72, 5000, 0, 0])) (wEnt (wPkt 0x0120 1 0 [0x72, 5000, 0, 0])) ∧
      Journals (wQ (wRoom wUp) (wPkt 0x0120 1 0 [0x72, 5000, 0, 0])) (wEnt (wPkt 0x0120 1 0 [0x72, 5000, 0, 0])) ∧
      (wEnt (wPkt 0x0120 1 0 [0x72, 5000, 0, 0])).resv 0 0x7F = false ∧ (wEnt (wPkt 0x0120 1 0 [0x72, 5000, 0, 0])).f 0 3 2 ≠ 3 ∧
      (wEnt (wPkt 0x0120 1 0 [0x72, 5000, 0, 0])).resv 1 0xFFFF = false ∧ (hostCfgOf (wEnt (wPkt 0x0120 1 0 [0x72, 5000, 0, 0]))).cmdUdpPort ∉ [0, 319, 320] ∧ (∀ m, m < 3 → (wUp.dev.points.pframe.rd m).cfg.udpPort ≠ 5000) ∧
      cutsOff (hostCfgOf (wEnt (wPkt 0x0120 1 0 [0x72, 5000, 0, 0]))) (wPkt 0x0120 1 0 [0x72, 5000, 0, 0]) = false) := by
  and_intros <;> decide
theorem test_SnapshotAndIdentityCommandsComplete_met3 :
    (Ready opHostStatus (wPkt 0x0121 1 0 [1]) (wQ wUp (wPkt 0x0121 1 0 [1])) (wEnt (wPkt 0x0121 1 0 [1])) ∧ (wEnt (wPkt 0x0121 1 0 [1])).resv 0 1 = false) := by
  and_intros <;> decide
theorem test_SnapshotAndIdentityCommandsComplete_met4 :
    (Ready opEthIfConfig (wPkt 0x0122 0x30 0 [1, 5, 6, 7, 0, 0, 0]) (wQ (wRoom wUp) (wPkt 0x0122 0x30 0 [1, 5, 6, 7, 0, 0, 0])) (wEnt (wPkt 0x0122 0x30 0 [1, 5, 6, 7, 0, 0, 0])) ∧
      Journals (wQ (wRoom wUp) (wPkt 0x0122 0x30 0 [1, 5, 6, 7, 0, 0, 0])) (wEnt (wPkt 0x0122 0x30 0 [1, 5, 6, 7, 0, 0, 0])) ∧ (wEnt (wPkt 0x0122 0x30 0 [1, 5, 6, 7, 0, 0, 0])).b 6 8 = false ∧
      (wEnt (wPkt 0x0122 0x30 0 [1, 5, 6, 7, 0, 0, 0])).resv 0 0x1FF = false ∧ (wEnt (wPkt 0x0122 0x30 0 [1, 5, 6, 7, 0, 0, 0])).resv 4 0x7FFF = false ∧ (wEnt (wPkt 0x0122 0x30 0 [1, 5, 6, 7, 0, 0, 0])).resv 6 0xFFFF = false) := by
  and_intros <;> decide
theorem test_SnapshotAndIdentityCommandsComplete_met5 :
    (let s : State := wPow { wUp.dev.power with causes := [{ data := 3 }] };
      Ready opResetCause (wPkt 0x0105 1 0 [0]) (wQ s (wPkt 0x0105 1 0 [0])) (wEnt (wPkt 0x0105 1 0 [0])) ∧ (wEnt (wPkt 0x0105 1 0 [0])).resv 0 0xF = false ∧
        s.dev.power.causes[(wEnt (wPkt 0x0105 1 0 [0])).f 0 3 0]? = some { data := 3 }) := by
  and_intros <;> decide
theorem test_SnapshotAndIdentityCommandsComplete_met6 :
    (wEnt (wPkt 0x0210 1 0 [200000, 0])).resv 1 0xFFFF = false ∧ 200000 < wUp.dev.now + 2147483648 ∧ wUp.dev.points.reqs.length < 4 ∧
    (let q := wEnt (wPkt 0x0211 1 0 [9, 0, 1]);
      q.resv 0 0xFFFF = false ∧ q.resv 1 0xFFFFF = false ∧ q.resv 2 0x7FF = false ∧ 1 ≤ q.f 2 10 0 ∧ q.f 2 10 0 ≤ 1022 ∧ q.f 1 19 0 + q.f 2 10 0 ≤ 2 ^ 20) ∧
    (let s : State := { wUp with dev := { wUp.dev with points := { wUp.dev.points with reqs := [{ gen := 0x8000, time := 200000 }] } } };
      s.dev.points.reqs = [{ gen := 0x8000, time := 200000 }]) := by and_intros <;> decide

/-! PisteCommandsComplete -/

/-- A device with this staged model. -/
def wStage (m : Model) : State := { wUp with dev := wUp.dev.setPiste { wUp.dev.piste with staging := some m } }
/-- A PARTITION_SET of one QP subproblem. -/
def wPart : Packet := wPkt 0x0304 0x21 0 [0x00010005, 0x01FF0406, 0x00640001, 0, 0, 0, 0, 0, 0]
/-- A SUBST_SET of one rule. -/
def wSubst : Packet := wPkt 0x0305 0x21 0 [1, 3, 0x00010004, 0, 0]
theorem test_PisteCommandsComplete_met :
    (Ready opModelLoad (wPkt 0x0301 0x21 0 [3, 65535, 9]) (wQ wUp (wPkt 0x0301 0x21 0 [3, 65535, 9])) (wEnt (wPkt 0x0301 0x21 0 [3, 65535, 9])) ∧
      (wEnt (wPkt 0x0301 0x21 0 [3, 65535, 9])).resv 0 7 = false ∧ wUp.dev.piste.commit = none ∧ (wEnt (wPkt 0x0301 0x21 0 [3, 65535, 9])).b 0 0 = true ∧
      (wEnt (wPkt 0x0301 0x21 0 [3, 65535, 9])).b 0 1 = true ∧ ((wEnt (wPkt 0x0301 0x21 0 [3, 65535, 9])).par 1).toNat + 1 ≤ 65536) ∧
    (Ready opModelStatus (wPkt 0x0303 0x21 0 []) (wQ wUp (wPkt 0x0303 0x21 0 [])) (wEnt (wPkt 0x0303 0x21 0 []))) ∧
    (Ready opPartitionSet wPart (wQ (wStage {}) wPart) (wEnt wPart) ∧ (wEnt wPart).resv 0 0x1FF0FFF = false ∧ (wEnt wPart).f 0 24 16 = 1 ∧
      firstErr (subEntryChecks (wEnt wPart) 1) = none ∧ (wStage {}).dev.piste.staging = some {} ∧ (wEnt wPart).f 0 11 0 + 1 ≤ 4096 ∧ 1 + 8 * 1 ≤ (wEnt wPart).n ∧ (wStage {}).dev.piste.commit = none) ∧
    (Ready opSubstSet wSubst (wQ (wStage {}) wSubst) (wEnt wSubst) ∧ (wEnt wSubst).f 0 5 0 = 1 ∧ firstErr (substChecks (wEnt wSubst) 1) = none ∧ (wEnt wSubst).resv 0 0x3F = false ∧ 1 + 4 * 1 ≤ (wEnt wSubst).n) ∧
    (wUp.dev.ctlUp = true ∧ wUp.dev.piste.imageCopy = none ∧ wUp.dev.piste.image = none) ∧
    (let s : State := { wUp with dev := wUp.dev.setPiste { wUp.dev.piste with held0 := some {} } }; s.dev.piste.held0 = some {}) := by and_intros <;> decide
/-- A model of one load in subproblem 0. -/
def wModel : Model :=
  { elemWords := Tbl.wr [] 0 10, pool := Tbl.wr (Tbl.wr [] 0 26) 1 0x3F800000, elemCount := 1, paramWords := 2
    subs := Tbl.wr [] 0 { jobKind := 6, enable := true, horizon := 1, stepS := 1, engine := 0xFF } }
/-- Its commit. -/
def wCommit : Packet := wPkt 0x0302 0x21 0 [1, 2, 0, 0]
set_option maxRecDepth 20000 in
theorem test_ModelCommit_met : wModel.reject false {} = none := by decide
theorem test_ModelCommit_ready : Ready opModelCommit wCommit (wQ (wStage wModel) wCommit) (wEnt wCommit) ∧ ((wEnt wCommit).par 0).toNat = 1 ∧
    ((wEnt wCommit).par 3).toNat = 0 ∧ wUp.dev.piste.commit = none := by and_intros <;> decide

/-! SolverEngineCommandsComplete -/

/-- A host vector of four values on engine 0. -/
def wVec : MemObj := { handle := handleOf 0 0 0 0 1, n := 4 }
/-- A device whose engine 0 holds that vector. -/
def wMem : State := { wUp with dev := wUp.dev.setEng 0 { objs := [wVec] } }
def wAlloc : Packet := wPkt 0x0410 0x20 0 [0, 4, 0, 0]
def wFree : Packet := wPkt 0x0411 0x20 0 [wVec.handle]
def wMemWrite : Packet := wPkt 0x0412 0x20 0 [wVec.handle, 19, 7]
def wMemRead : Packet := wPkt 0x0413 0x20 0 [wVec.handle, 0, 20]
def wSolverCfg : Packet := wPkt 0x0414 0x20 0 [0x00020404, 200, 0x38D1B717, 0x3A83126F, 0x3DCCCCCD, 0xEC, 0x33D6BF95, 200, 0x33D6BF95, 0x358637BD, 0x3DCCCCCD, 0xD8, 0x283424DC]
theorem test_SolverEngineCommandsComplete_met :
    (Ready opMemAlloc wAlloc (wQ wUp wAlloc) (wEnt wAlloc) ∧ (wEnt wAlloc).resv 0 0x7F = false ∧ allocOk false 0 0 0 4 0 0 = true ∧
      ((wQ wUp wAlloc).dev.allocObj 0 0 (4 * 16384) (allocObjOf 0 false 0 4 0 0)).isSome = true) ∧
    (Ready opMemFree wFree (wQ wMem wFree) (wEnt wFree) ∧ fld ((wEnt wFree).par 0) 30 27 = wFree.inst ∧ (wQ wMem wFree).dev.obj ((wEnt wFree).par 0) = some wVec ∧
      fld wVec.handle 26 25 ≠ 1) ∧
    (Ready opMemWrite wMemWrite (wQ wMem wMemWrite) (wEnt wMemWrite) ∧ fld ((wEnt wMemWrite).par 0) 30 27 = wMemWrite.inst ∧
      (wQ wMem wMemWrite).dev.obj ((wEnt wMemWrite).par 0) = some wVec ∧ (wEnt wMemWrite).f 1 19 0 + 1 ≤ 16 + wVec.dataWords) ∧
    (Ready opMemRead wMemRead (wQ wMem wMemRead) (wEnt wMemRead) ∧ fld ((wEnt wMemRead).par 0) 30 27 = wMemRead.inst ∧
      (wQ wMem wMemRead).dev.obj ((wEnt wMemRead).par 0) = some wVec ∧ (wEnt wMemRead).f 1 19 0 + (wEnt wMemRead).f 2 11 0 ≤ 16 + wVec.dataWords ∧
      (wEnt wMemRead).holds ((wEnt wMemRead).f 2 11 0)) ∧
    (Ready opSolverConfig wSolverCfg (wQ (wRoom wUp) wSolverCfg) (wEnt wSolverCfg) ∧ Journals (wQ (wRoom wUp) wSolverCfg) (wEnt wSolverCfg)) ∧
    (Ready opSolverStatus (wPkt 0x0415 0x20 0 []) (wQ wUp (wPkt 0x0415 0x20 0 [])) (wEnt (wPkt 0x0415 0x20 0 []))) ∧
    wUp.dev.ctlUp = true ∧ (let e : Engine := { state := .draining }; (wUp.dev.setEng 3 e).eng 3 = e ∧ e.flight = []) := by and_intros <;> decide
theorem test_SolverConfig_checks : firstErr (solverChecks (wQ (wRoom wUp) wSolverCfg) (wEnt wSolverCfg)) = none := by decide
theorem test_SolverEngineCommandsComplete_met2 :
    ((wEnt wAlloc).f 0 2 0 ≤ 4 ∧ (wEnt wAlloc).resv 1 0x1FFFF = false) ∧ wVec.inUse = 0 ∧
    ((wEnt wMemWrite).resv 1 0xFFFFF = false ∧ 16 ≤ (wEnt wMemWrite).f 1 19 0 ∧ ((wEnt wMemWrite).from' 2).length = 1) ∧
    ((wEnt wMemRead).resv 1 0xFFFFF = false ∧ (wEnt wMemRead).resv 2 0xFFF = false) ∧
    (let e : Engine := { state := .draining }; e.drain = 0 ∧ e.drainRound = 0) := by and_intros <;> decide

/-! JobCommandsComplete -/

/-- A packed symmetric matrix of order two on engine 0. -/
def wMat : MemObj := { handle := handleOf 0 0 1 0 1, format := 1, n := 2, npos := 2 }
/-- A device whose engine 0 holds that matrix. -/
def wJobs : State := { wUp with dev := wUp.dev.setEng 0 { objs := [wMat] } }
/-- A FACTOR job on it. -/
def wSubmit : Packet := wPkt 0x0401 0x20 0 [0x00FF0001, 0, 0, 0, 2, 0, wMat.handle, 0, 0, 0, 0, 0, 0, 0, 0, 0]
def wFlight : State := { wUp with dev := wUp.dev.setEng 3 { state := .busy, flight := [{ kind := 7, engine := 3 }] } }
theorem test_JobCommandsComplete_met :
    (wUp.dev.ctlUp = true ∧ wUp.dev.issueHead 5 true = none ∧ wUp.dev.issueHead 5 false = none ∧ (wUp.dev.eng 5).queue = [] ∧ (wUp.dev.eng 5).round = []) ∧
    ((wUp.dev.setEng 5 { queue := [{ kind := 7, engine := 5 }] }).issueHead 5 false).isSome = true ∧
    (((wFlight.dev.eng 3).flight)[0]? = some { kind := 7, engine := 3 } ∧ wFlight.dev.engState 3 = .busy ∧ ({ kind := 7, engine := 3 } : Job).host = none) ∧
    (Ready opJobSubmit wSubmit (wQ wJobs wSubmit) (wEnt wSubmit) ∧
      (∀ x ∈ members ((wQ wJobs wSubmit).dev.sized (jobOf (wQ wJobs wSubmit).dev (wEnt wSubmit))).engine 0, 0 < (wQ wJobs wSubmit).dev.freeCredits x)) ∧
    (Ready opJobResult (wPkt 0x0402 0x20 0 [0x10007]) (wQ wUp (wPkt 0x0402 0x20 0 [0x10007])) (wEnt (wPkt 0x0402 0x20 0 [0x10007])) ∧
      (wEnt (wPkt 0x0402 0x20 0 [0x10007])).resv 0 0x1FFFF = false ∧ (wEnt (wPkt 0x0402 0x20 0 [0x10007])).f 0 15 0 = 7) ∧
    (Ready opJobCancel (wPkt 0x0403 0x20 0 [7]) (wQ wUp (wPkt 0x0403 0x20 0 [7])) (wEnt (wPkt 0x0403 0x20 0 [7])) ∧
      (wEnt (wPkt 0x0403 0x20 0 [7])).resv 0 0xFFFF = false ∧ ([{ num := 7 }] : List HostJob).find? (fun x => x.num = 7) = some { num := 7 }) := by
  and_intros <;> decide
theorem test_JobSubmit_checks : firstErr (jobChecks (wQ wJobs wSubmit) (wEnt wSubmit)) = none := by decide

/-! CoordinationCommandsComplete -/

/-- A device that waits for its own round, frame 4, with a DOWN port 1. -/
def wCoord : State :=
  { wUp with dev := { wUp.dev with
    coord := { committed := false, phase := .solving, frame := 4, dN := 10 ^ 9, roundStart := 1000000 }
    jalow := { port := Tbl.wr [] 1 { cfg := { role := .down }, link := .up } } } }
/-- A mid-level device. -/
def wMid : State :=
  { wUp with dev := { wUp.dev with
    coord := { committed := false, asTop := false, phase := .waitDown, frame := 4 }
    jalow := { port := Tbl.wr [] 2 { cfg := { role := .up }, link := .up } } } }
def wSettings : Packet := wPkt 0x0501 0x22 0 [0, 0x00640001, 0x00010001, 0x38D1B717, 0]
def wScope : Packet := wPkt 0x0501 0x22 0 [1, 0x0020FFE0, 5]
theorem test_CoordinationCommandsComplete_met :
    ({ wUp.dev with coord := { committed := false, phase := .solving, dN := 10 ^ 9 } } : Dev).stepReady = true ∧ wUp.dev.stepReady = false ∧
    (wCoord.dev.ctlUp = true ∧ (wCoord.dev.portOf .down).all wCoord.dev.portReady = false ∧ wCoord.dev.reportDeadline < wCoord.dev.coord.dN) ∧
    ((wCoord.dev.jalow.port.rd 1).cfg.role = .down ∧ ({ missed := 255 } : DownPort).dropped = false ∧ wCoord.dev.freezeNow ≤ ({ missed := 255 } : DownPort).missed) ∧
    ((wCoord.dev.coord.ports.rd 1).cur = none ∧ (wCoord.dev.coord.ports.rd 1).deadlinePassed = false ∧ wCoord.dev.now < wCoord.dev.reportDeadline ∧
      wCoord.dev.coord.round < 1 ∧ ({ wCoord.dev with coord := { wCoord.dev.coord with roundStart := 0, cfg := { wCoord.dev.coord.cfg with wait0Ms := 0 } } } : Dev).reportDeadline ≤ wCoord.dev.now) ∧
    (wMid.dev.ctlUp = true ∧ wMid.dev.upPort = some 2 ∧ (wMid.dev.jalow.port.rd 2).link = .up ∧ wMid.dev.coord.asTop = false ∧ wMid.dev.coord.phase = .waitDown) ∧
    (Ready opCoordConfigSettings wSettings (wQ (wRoom wUp) wSettings) (wEnt wSettings) ∧ Journals (wQ (wRoom wUp) wSettings) (wEnt wSettings) ∧
      (wEnt wSettings).resv 1 0xFFFF01FF = false ∧ 100 ≤ (wEnt wSettings).f 1 31 16 ∧ (wEnt wSettings).f 1 8 0 = 1 ∧ (wEnt wSettings).f 2 15 0 = 1 ∧
      (wEnt wSettings).f 2 23 16 ≠ 0 ∧ fpPos ((wEnt wSettings).par 3) = true ∧ fpNonNeg ((wEnt wSettings).par 4) = true) ∧
    (Ready opCoordConfigScope wScope (wQ (wRoom wUp) wScope) (wEnt wScope) ∧ Journals (wQ (wRoom wUp) wScope) (wEnt wScope) ∧
      (wEnt wScope).f 1 15 0 = 65504 ∧ (wEnt wScope).f 1 31 16 = 32 ∧ (wEnt wScope).n = 2 + 32 / 32) ∧
    (Ready opCoordStatus (wPkt 0x0502 0x22 0 []) (wQ wUp (wPkt 0x0502 0x22 0 [])) (wEnt (wPkt 0x0502 0x22 0 []))) := by and_intros <;> decide

/-! SequencerCommandsComplete -/

def wSeqOn : Sequencer := { table := Tbl.wr [] 63 { enable := true }, inCycle := true, state := .running }
def wSeqW : Packet := wPkt 0x0711 0x110 0 [0x1013F, 0x4000, 0, 0, 0]
def wSeqSt : Packet := wPkt 0x0712 0x110 0 [1, 100, 99]
def wSeqSp : Packet := wPkt 0x0712 0x110 0 [0]
def wSeqR : Packet := wPkt 0x0713 0x110 0 [0x13F]
theorem test_SequencerCommandsComplete_met :
    ({ (wFld { seq := { waiting := [{}] } }).dev with fabric := { wUp.dev.fabric with fldLink := Tbl.wr [] 1 { up := true } } } : Dev).nextSample 1 = some {} ∧
    ({ sampleQ := Tbl.wr [] 1 [{ point := some 7 }] } : FieldSide).sampleQ.rd 1 = [{ point := some 7 }] ∧
    ((wFld { seq := { startWait := some { ticks := 0, phase := 0 } } }).dev.fldRuns 1 = true ∧
      ({ startWait := some { ticks := 0, phase := 0 } } : Sequencer).due = some 0 ∧ ({ startWait := some {} } : Sequencer).auto = false ∧
      ({ startWait := some { ticks := 0, phase := 0 }, auto := true } : Sequencer).due = some 0) ∧
    ((wSeqOn.times.find? (fun t => t.e = 63)).isSome = true ∧ wSeqOn.ended.contains 63 = false) ∧
    (Ready opSeqWrite wSeqW (wQ (wFld {}) wSeqW) (wEnt wSeqW) ∧ Journals (wQ (wFld {}) wSeqW) (wEnt wSeqW) ∧ (wEnt wSeqW).f 0 14 8 = 1 ∧ (wEnt wSeqW).b 0 16 = true ∧
      (wEnt wSeqW).resv 0 0x17F3F = false ∧ firstErr (seqEntryChecks (wQ (wFld {}) wSeqW).dev 1 (wEnt wSeqW) 1).1 = none ∧
      firstErr (seqEntryChecks (wQ (wFld {}) wSeqW).dev 1 (wEnt wSeqW) 1).2.1 = none ∧ firstErr (seqEntryChecks (wQ (wFld {}) wSeqW).dev 1 (wEnt wSeqW) 1).2.2 = none ∧
      ((wQ (wFld {}) wSeqW).dev.fld wSeqW.inst).seq.tdacChan = none ∧ ((wQ (wFld {}) wSeqW).dev.fld wSeqW.inst).seq.state = .stopped) ∧
    (Ready opSeqStart wSeqSt (wQ (wFld {}) wSeqSt) (wEnt wSeqSt) ∧ Journals (wQ (wFld {}) wSeqSt) (wEnt wSeqSt) ∧ (wEnt wSeqSt).f 2 22 0 < (wEnt wSeqSt).f 1 22 0) ∧
    (Ready opSeqStop wSeqSp (wQ (wFld { seq := wSeqOn }) wSeqSp) (wEnt wSeqSp) ∧ Journals (wQ (wFld { seq := wSeqOn }) wSeqSp) (wEnt wSeqSp) ∧
      (wEnt wSeqSp).resv 0 1 = false) ∧
    (Ready opSeqResult wSeqR (wQ wUp wSeqR) (wEnt wSeqR) ∧ (wEnt wSeqR).resv 0 0x7F3F = false ∧ (wEnt wSeqR).f 0 5 0 + (wEnt wSeqR).f 0 14 8 ≤ 64) := by
  and_intros <;> decide

/-! AnalogueCommandsComplete -/

def wAch : Packet := wPkt 0x0710 0x110 0 [1, 0x3F800000, 0]
def wCal (op c1 c2 c3 : Word) : Packet := wPkt 0x0714 0x07000110 0 [op, c1, c2, c3]
def wCalDie (op c1 c2 c3 : Word) : Packet := wPkt 0x0714 0xFF000110 0 [op, c1, c2, c3]
def wTdac (x : Word) : Packet := wPkt 0x0715 0x110 0 [x]
theorem test_AnalogueCommandsComplete_met :
    (Ready opAchConfig wAch (wQ (wFld {}) wAch) (wEnt wAch) ∧ Journals (wQ (wFld {}) wAch) (wEnt wAch) ∧ firstErr (achChecks (wQ (wFld {}) wAch) (wEnt wAch)) = none ∧
      ((wEnt wAch).f 0 3 0) = 1 ∧ ((wFld {}).dev.ana 1 0).cfg.mode = 0 ∧ ((wFld {}).dev.ana 1 0).sensorFault = false ∧
      ((((wFld {}).dev.setAna 1 0 { cfg := { mode := 1 } }).voidEntries 1 0).ana 1 0).sensorFault = false) ∧
    (Ready opCalChannelTrim (wCal 0 0x3F800000 0 0) (wQ (wFld {}) (wCal 0 0x3F800000 0 0)) (wEnt (wCal 0 0x3F800000 0 0)) ∧
      firstErr (calChecks (wEnt (wCal 0 0x3F800000 0 0))) = none ∧ gainIn 0x3F800000 100 = true ∧ gainIn 0x3F800000 10 = true ∧ Sys2Proof.Float.fin32 0 = true) ∧
    (Ready opCalNtc (wCal 1 0 0 0) (wQ (wFld {}) (wCal 1 0 0 0)) (wEnt (wCal 1 0 0 0)) ∧ firstErr (calChecks (wEnt (wCal 1 0 0 0))) = none) ∧
    (Ready opCalAoTrim (wCal 2 0x3F800000 0 0) (wQ (wFld {}) (wCal 2 0x3F800000 0 0)) (wEnt (wCal 2 0x3F800000 0 0)) ∧ firstErr (calChecks (wEnt (wCal 2 0x3F800000 0 0))) = none) ∧
    (Ready opCalHbManual (wCalDie 0x33 0x3F800000 0 0) (wQ (wFld {}) (wCalDie 0x33 0x3F800000 0 0)) (wEnt (wCalDie 0x33 0x3F800000 0 0)) ∧
      firstErr (calChecks (wEnt (wCalDie 0x33 0x3F800000 0 0))) = none ∧ (wEnt (wCalDie 0x33 0x3F800000 0 0)).f 0 5 4 = 3) ∧
    (Ready opCalHbAuto (wCalDie 4 0 0 0) (wQ (wFld {}) (wCalDie 4 0 0 0)) (wEnt (wCalDie 4 0 0 0)) ∧ firstErr (calChecks (wEnt (wCalDie 4 0 0 0))) = none ∧
      ((wFld {}).dev.fld 1).seq.state = .stopped) ∧
    (Ready opCalUserDefaults (wCal 5 0 0 0) (wQ (wFld {}) (wCal 5 0 0 0)) (wEnt (wCal 5 0 0 0)) ∧ firstErr (calChecks (wEnt (wCal 5 0 0 0))) = none ∧
      Journals (wQ (wFld {}) (wCal 5 0 0 0)) (wEnt (wCal 5 0 0 0)) ∧ (wCal 5 0 0 0).sub ≠ 0xFF) ∧
    (Ready opTestdacSet (wTdac 0x171FFF) (wQ (wFld {}) (wTdac 0x171FFF)) (wEnt (wTdac 0x171FFF)) ∧ (wEnt (wTdac 0x171FFF)).resv 0 0x1F1FFF = false ∧
      (wEnt (wTdac 0x171FFF)).f 0 20 16 = 23 ∧ (wEnt (wTdac 0x171FFF)).b 0 12 = true ∧ (wEnt (wTdac 0)).b 0 12 = false) ∧
    (({ cfg := { mode := 8 } } : AnaChan).faultKind true = true ∧ ({ driving := true } : DigChan).driving = true) := by and_intros <;> decide

/-! DigitalInputAndSwitchCommandsComplete -/

def wLoopIn : Dev := { (wDig { cfg := { mode := 1 } }).dev with loops := { slot := Tbl.wr [] 2 { mode := .auto, cfg := { inType := 0, inId := 47, periodM := 10 } } } }
theorem test_DigitalInputAndSwitchCommandsComplete_met :
    (wDig { cfg := { mode := 1, toPoint := true, refreshMs := 5, wbEn := true } }).dev.isDi 1 23 = true ∧
    ((wLoopIn.loops.slot.filter (fun l => l.2.reads (24 * 1 + 23))).map (fun l => l.2.tickAfter wLoopIn.now (wLoopIn.dig 1 23).loopAt)).length = 1 ∧
    wUp.dev.hubUp = true ∧
    ((wDig { cfg := { mode := 2, olEn := true }, driving := true, applied := 0x3F800000 }).dev.isSwitch 1 23 = true ∧
      ({ driving := true, applied := 0x3F800000 } : DigChan).on = true ∧ ({} : DigChan).on = false ∧ ({} : DigChan).overloadOff = false) ∧
    ((wDig { cfg := { mode := 3 } }).dev.fldRuns 1 = true ∧ ((wDig { cfg := { mode := 3 } }).dev.dig 1 23).cfg.mode = 3) ∧
    (((wFld { clampQ := [23] }).dev.fld 1).clampQ.head? = some 23) ∧
    (((wDig { clampStart := some 7 }).dev.dig 1 23).clampStart.isSome = true ∧ ((wDig { held := true }).dev.dig 1 23).held = true) := by and_intros <;> decide

/-! OutputCommandsComplete -/

def wDch : Packet := wPkt 0x0701 0x17000110 0 [0x00050001, 0, 0x00250002, 0, 0, 0]
def wDchS : Packet := wPkt 0x0702 0x110 0 [0x0117]
def wArm : Packet := wPkt 0x0703 0x10 0 [2]
def wSet : Packet := wPkt 0x0704 0x17000110 0 [0x3F800000]
def wSafe : Packet := wPkt 0x0705 0x110 0 ([100, 0, 0, 0] ++ List.replicate 24 0)
def wCnt : Packet := wPkt 0x0706 0x10 0 [0x015F]
/-- A device with a running DO on channel 23 of die 1. -/
def wDo : State := wDig { cfg := { mode := 2 } }
theorem test_OutputCommandsComplete_met :
    ((wFld { outState := .armed }).dev.fldRuns 1 = true ∧ ((wFld { outState := .armed }).dev.fld 1).outState = .armed ∧
      ((wFld { refreshSent := some 7 }).dev.fld 1).refreshSent = some 7 ∧
      ((wFld { outState := .snowplough, refreshBack := some 7, safeCfg := { resumeAuto := true } }).dev.fld 1).safeCfg.resumeAuto = true) ∧
    wUp.dev.ctlUp = true ∧
    ((wFld { armAt := some (true, 5) }).dev.fldRuns 1 = true ∧ ((wFld { armAt := some (true, 5) }).dev.toCt 5).silent 1 = true ∧
      ((wFld { armAt := some (true, 5), refreshRaw := some 0 }).dev.toCt 5).silent 1 = false) ∧
    ((wUp.dev.setFld 1 { run := .resetWait }).fld 1).run = .resetWait ∧
    ((wUp.dev.setFld 1 { run := .inReset }).fieldHeld 1 = false ∧ (wUp.dev.setFld 1 { run := .released }).hubUp = true) ∧
    (Ready opDchConfig wDch (wQ (wFld {}) wDch) (wEnt wDch) ∧ Journals (wQ (wFld {}) wDch) (wEnt wDch)) ∧
    (Ready opDchStatus wDchS (wQ (wFld {}) wDchS) (wEnt wDchS) ∧ (wEnt wDchS).resv 0 0x1F1F = false ∧ (wEnt wDchS).f 0 4 0 = 23 ∧ (wEnt wDchS).f 0 12 8 = 1) ∧
    (Ready opArmOutputs wArm (wQ (wFld {}) wArm) (wEnt wArm) ∧ (wEnt wArm).resv 0 0xFF = false ∧ bitsOf ((wEnt wArm).f 0 3 0) 4 = [1] ∧ bitsOf ((wEnt wArm).f 0 7 4) 4 = [] ∧
      (wFld {}).dev.fldRuns 1 = true ∧ (wFld {}).dev.fieldTested 1 = false) ∧
    (Ready opOutputSet wSet (wQ wDo wSet) (wEnt wSet) ∧ Sys2Proof.Float.fin32 0x3F800000 = true ∧ wDo.dev.isOut 1 23 = true ∧ wDo.dev.owned (24 * 1 + 23) = false) ∧
    (Ready opSafeConfig wSafe (wQ (wFld {}) wSafe) (wEnt wSafe) ∧ Journals (wQ (wFld {}) wSafe) (wEnt wSafe)) ∧
    (Ready opCounterRead wCnt (wQ (wFld {}) wCnt) (wEnt wCnt) ∧ (wEnt wCnt).resv 0 0x7F7F = false ∧ (wEnt wCnt).f 0 6 0 + (wEnt wCnt).f 0 14 8 ≤ 96) := by
  and_intros <;> decide
theorem test_DchConfig_checks : firstErr (dchChecks (wQ (wFld {}) wDch) (wEnt wDch)) = none := by decide
theorem test_SafeConfig_checks : firstErr (safeChecks (wQ (wFld {}) wSafe) (wEnt wSafe)) = none := by decide

/-! LoopCommandsComplete -/

/-- A device with this loop 5. -/
def wSlot (l : LoopSlot) : State := { wRoom wUp with dev := (wRoom wUp).dev.setSlot 5 l }
def wLc : Packet := wPkt 0x0601 0x523 0 [0, 0xF1000002, 0, 0x01000000, 1, 0, 0, 0, 0, 0, 0x3F800000, 0, 0, 0, 0, 0, 0]
def wLs : Packet := wPkt 0x0602 0x523 0 [0, 0x3F800000, 0, 0, 0, 0]
def wLm : Packet := wPkt 0x0603 0x523 0 [1, 0]
def wLst : Packet := wPkt 0x0604 0x523 0 []
def wOvr : Packet := wPkt 0x0605 0x23 0 [0, 0, 0, 0]
/-- Loop 5 on AUTO, its next tick at 20 µs. -/
def wAuto : LoopSlot := { mode := .auto, cfg := { periodM := 2 }, nextTick := some 20000 }
theorem test_LoopCommandsComplete_met :
    (({ wUp.dev with loops := { ptOut := [{ due := 10000 }] } } : Dev).nextApply.isSome = true) ∧
    (((wFld { discards := [5] }).dev.fld 1).discards ≠ [] ∧
      ({ (wFld { discards := [5] }).dev with fabric := { wUp.dev.fabric with fldLink := Tbl.wr [] 1 { up := true } } } : Dev).fldUp 1 = true ∧
      ((wFld {}).dev.setFld 1 {}).ctlUp = true) ∧
    (((wSlot { numRun := 8 }).dev.slot 5).numRun = 8 ∧ (wSlot { numRun := 8 }).dev.groupOf 5 = none ∧ (wSlot { numRun := 8 }).dev.membersOf 5 = [5]) ∧
    ((wSlot wAuto).dev.ctlUp = true ∧ (wSlot wAuto).dev.tickDue 5 = some 20000 ∧ (wSlot wAuto).dev.membersOf 5 = [5]) ∧
    (Ready opLoopConfig wLc (wQ (wSlot {}) wLc) (wEnt wLc) ∧ Journals (wQ (wSlot {}) wLc) (wEnt wLc)) ∧
    (Ready opLoopSectionSet wLs (wQ (wSlot {}) wLs) (wEnt wLs) ∧ Journals (wQ (wSlot {}) wLs) (wEnt wLs) ∧ firstErr (sectionChecks (wQ (wSlot {}) wLs) (wEnt wLs)) = none) ∧
    (Ready opLoopMode wLm (wQ (wSlot {}) wLm) (wEnt wLm) ∧ (wEnt wLm).resv 0 7 = false ∧ (wEnt wLm).f 0 1 0 = 1 ∧ modeOf 1 = .manual ∧
      ((wSlot {}).dev.groupsWith 16 {}).find? (fun g => g.2.members.contains 5) = none ∧
      admitted ((wSlot {}).dev.liveCfgs ((wSlot {}).dev.cfgsWith 5 {}) [5]) = true) ∧
    Ready opLoopStatus wLst (wQ (wSlot {}) wLst) (wEnt wLst) ∧
    (Ready opOverrideConfig wOvr (wQ (wSlot {}) wOvr) (wEnt wOvr) ∧ Journals (wQ (wSlot {}) wOvr) (wEnt wOvr) ∧ firstErr (overrideChecks (wQ (wSlot {}) wOvr) (wEnt wOvr)) = none) := by
  and_intros <;> decide
theorem test_LoopConfig_checks : firstErr (loopConfigChecks (wQ (wSlot {}) wLc) (wEnt wLc)) = none := by decide

/-! SupervisionAndTraceCommandsComplete -/

/-- A device with this supervisor on loop 5. -/
def wSup (x : Superv) : State := { wRoom wUp with dev := (wRoom wUp).dev.setSup 5 x }
def wSc : Packet := wPkt 0x0610 0x523 0 [0x00020000, 0, 0, 0, 0, 0, 0x3F800000, 0x3F800000, 0x00010001, 0, 0x3F800000, 0x3F800000, 0]
def wSa : Packet := wPkt 0x0610 0x523 0 [1]
def wSr : Packet := wPkt 0x0610 0x523 0 [2]
def wMg : Packet := wPkt 0x0618 0x523 0 [0, 4, 0, 0, 0, 0x3F800000]
def wMr : Packet := wPkt 0x0619 0x523 0 [0, 1023, 1]
def wMog : State := { wUp with dev := wUp.dev.setMog 5 { cfg := { n := 4 } } }
def wTc : Packet := wPkt 0x0620 0x323 0 [0x100, 1, 0, 0, 1, 0, 0, 0]
def wTa : Packet := wPkt 0x0621 0x323 0 [1]
def wTd : Packet := wPkt 0x0621 0x323 0 [0]
def wTr : Packet := wPkt 0x0622 0x323 0 [0, 1]
def wTrc (x : TraceUnit) : State := { wUp with dev := wUp.dev.setTrc 3 x }
theorem test_SupervisionAndTraceCommandsComplete_met :
    ((wSup { due := true, cfg := { enable := true } }).dev.ctlUp = true ∧ ((wSup { due := true, cfg := { enable := true } }).dev.sup 5).due = true) ∧
    ((((wSup { cfg := { enable := true, rangeEn := true, persist := 3 }, nRange := 3 }).dev.supEval 5).sup 5).atPersist ≠ 0) ∧
    ((((wSup { inForce := true, quiet := 60000 }).dev.supEval 5).sup 5).inForce = true ∧ (((wSup { inForce := true, quiet := 60000 }).dev.supEval 5).sup 5).cfg.clearTicks ≤ 60000) ∧
    (Ready opSupervConfig wSc (wQ (wSup {}) wSc) (wEnt wSc) ∧ Journals (wQ (wSup {}) wSc) (wEnt wSc) ∧ firstErr (supervChecks (wEnt wSc)) = none) ∧
    (Ready opSupervAck wSa (wQ (wSup { inForce := true, latched := true }) wSa) (wEnt wSa)) ∧
    (Ready opSupervRestartModel wSr (wQ (wSup {}) wSr) (wEnt wSr)) ∧
    (Ready opSupervStatus (wPkt 0x0611 0x523 0 []) (wQ (wSup {}) (wPkt 0x0611 0x523 0 [])) (wEnt (wPkt 0x0611 0x523 0 []))) ∧
    (Ready opMogulConfig wMg (wQ (wSup {}) wMg) (wEnt wMg) ∧ Journals (wQ (wSup {}) wMg) (wEnt wMg) ∧ firstErr (mogulChecks (wQ (wSup {}) wMg) (wEnt wMg)) = none) ∧
    (Ready opMogulPageRead wMr (wQ wMog wMr) (wEnt wMr) ∧ (wMog.dev.mog 5).cfg.pages = 1 ∧ (wEnt wMr).f 1 9 0 + (wEnt wMr).f 2 10 0 ≤ 1024 ∧ 1 ≤ min 1024 wMr.transport.maxCount) ∧
    (((wTrc { state := .triggered }).dev.trc 3).state = .triggered ∧ ((wTrc { state := .triggered }).dev.trc 3).post = 0) ∧
    (Ready opTraceConfig wTc (wQ wUp wTc) (wEnt wTc) ∧ firstErr (traceChecks (wQ wUp wTc) (wEnt wTc)) = none) ∧
    (Ready opTraceArm wTa (wQ wUp wTa) (wEnt wTa) ∧ (wEnt wTa).resv 0 3 = false) ∧ (Ready opTraceDisarm wTd (wQ wUp wTd) (wEnt wTd) ∧ (wEnt wTd).resv 0 3 = false) ∧
    (Ready opTraceRead wTr (wQ (wTrc { state := .done, recs := [[7]] }) wTr) (wEnt wTr) ∧ (wEnt wTr).f 1 11 0 = 1 ∧ ((wTrc { state := .done, recs := [[7]] }).dev.trc 3).recs.reverse.flatten.length = 1) := by
  and_intros <;> decide

/-! SlalomCommandsComplete -/

/-- A device with this state of Slalom. -/
def wSlm (x : Slalom) : State := { wUp with dev := wUp.dev.setSlm x }
def wBs : Packet := wPkt 0x0C01 0x02 0 []
def wPc : Packet := wPkt 0x0C02 0x02 0 [200]
def wBc : Packet := wPkt 0x0C03 0x02 0 [0x0064055A, 0x01F40A05, 0x00200032, 0x003C0001, 0x000A0064]
def wFldUp : Dev := { (wFld {}).dev with fabric := { wUp.dev.fabric with fldLink := Tbl.wr [] 1 { up := true } } }
theorem test_SlalomCommandsComplete_met :
    wUp.dev.hubUp = true ∧ wUp.dev.ctlUp = true ∧ min 1000 (999 + 1) = 1000 ∧ (wFldUp.fldUp 1 = true ∧ wFldUp.fldRuns 1 = true) ∧
    (((wSlm { hold := Tbl.wr [] 1 { readings := [18000] } }).dev.slalom.hold.rd 1).readings.head? = some 18000 ∧ (wUp.dev.power.feeds.rd 1).lost = false) ∧
    ((wSlm { hold := Tbl.wr [] 1 { testing := some 5 } }).dev.slalom.hold.rd 1).testing = some 5 ∧
    ((wSlm { evalAt := 5 }).dev.slalom.evalAt ≠ 0 ∧ ({} : Slalom).clampHigh = none ∧ ({ eWin := Tbl.wr [] 3 2047 } : Slalom).clampHigh = some 3) ∧
    (({ level := 6, pAvg := 65535 } : Slalom).limit < 65535) ∧ (64 ≤ (wRoom wUp).dev.slalom.gMax) ∧
    (Ready opBudgetStatus wBs (wQ wUp wBs) (wEnt wBs)) ∧
    (Ready opPwrCapSet wPc (wQ (wRoom wUp) wPc) (wEnt wPc) ∧ Journals (wQ (wRoom wUp) wPc) (wEnt wPc) ∧ (wEnt wPc).resv 0 0xFFFF = false ∧ (wEnt wPc).f 0 15 0 = 200) ∧
    (Ready opBudgetConfig wBc (wQ (wRoom wUp) wBc) (wEnt wBc) ∧ Journals (wQ (wRoom wUp) wBc) (wEnt wBc) ∧ firstErr (budgetChecks (wQ (wRoom wUp) wBc) (wEnt wBc)) = none) := by
  and_intros <;> decide

/-! TwinDieCommandsComplete -/

/-- A device whose control die 1 is in state `st`. -/
def wTwin (st : CtlDieState) (t : Twin) : State := { wUp with dev := { wUp.dev with twin := { t with die := Tbl.wr (Tbl.wr [] 0 { state := .active, railOk := true }) 1 { state := st, railOk := true, recoverAsked := true } } } }
/-- A device in the Glide: die 1 wakes and no die is active. -/
def wGlide (t : Twin) : State := { wUp with dev := { wUp.dev with twin := { t with die := Tbl.wr [] 1 { state := .waking } } } }
theorem test_TwinDieCommandsComplete_met :
    wUp.dev.ctlUp = true ∧ wUp.dev.hubUp = true ∧ wUp.dev.activeDie = some 0 ∧ wUp.dev.fabric.ctlPll.rd 0 = false ∧
    (Tbl.rd (Tbl.wr ([] : Tbl Link) 0 { up := true }) 0).up = true ∧ (1 : BitVec 32).toNat % 65536 = (wUp.dev.twin.hbSeq.toNat + 1) % 65536 ∧
    ((wUp.dev.updCtl 0 (fun c => { c with lineHard := true })).ctl 0).state = .active ∧
    (((wTwin .recovering {}).dev.updCtl 1 (fun c => { c with lineHard := true })).ctl 1).state = .recovering ∧
    ((((wTwin .waking {}).dev.updCtl 1 (fun c => { c with lineHard := true })).ctl 1).state = .waking ∧ (wTwin .waking {}).dev.activeDie.isSome = true ∧ (wTwin .waking {}).dev.power.lbAt = none) ∧
    (((wGlide {}).dev.activeDie.isSome || (wGlide {}).dev.twin.tH.isSome) = false) ∧
    (({} : Twin).arbAgree = true) ∧
    ((wGlide {}).dev.wakingDie = some 1 ∧ (wGlide {}).dev.activeDie = none ∧ (wGlide { tH := some 7 }).dev.twin.tH = some 7 ∧ (wGlide { restoredAt := some 9 }).dev.twin.restoredAt = some 9) ∧
    ((wTwin .failed {}).dev.ctl 1).recoverAsked = true ∧ (wTwin .failed {}).dev.slalom.temps.rd 2 < ((wTwin .failed {}).dev.slalom.cfg.thermStart : Int) - 10 ∧
    (wTwin .failed {}).dev.bistRoom 1 1 = true ∧
    (((wTwin .cold { ckpt := Tbl.wr [] 0 { complete := true } }).dev.ctl 1).retry = none ∧ (wTwin .cold { ckpt := Tbl.wr [] 0 { complete := true } }).dev.twin.bank.isSome = true) := by
  and_intros <;> decide

/-! SwapAndSelfTestCommandsComplete -/

/-- A device with a standby die 1 that may take over. -/
def wSwap (t : Twin) (st : CtlDieState) : State := { wUp with dev := { wUp.dev with twin := { t with die := Tbl.wr (Tbl.wr [] 0 { state := .active, railOk := true }) 1 { state := st, railOk := true } } } }
/-- A device whose self-test engine stands as `t`. -/
def wTest (t : TestUnit) : State := { wSwap {} .cold with dev := { (wSwap {} .cold).dev with test := t } }
theorem test_SwapAndSelfTestCommandsComplete_met :
    (let p := wPkt 0x0C11 0x51 0 [0, 0]; Ready opSwap p (wQ (wSwap { enabled := true } .coldSynced) p) (wEnt p) ∧ (wSwap {} .coldSynced).dev.standby = some 1) ∧
    (let p := wPkt 0x0C11 0x51 0 [0, 1]; Ready opSwapCancel p (wQ (wSwap { swapPending := true } .coldSynced) p) (wEnt p) ∧ (wSwap {} .coldSynced).dev.wakingDie = none ∧
      (wEnt p).resv 1 1 = false) ∧
    ((wSwap { swapPending := true, swapStopped := true } .waking).dev.wakingDie.isSome = true ∧ (wSwap {} .waking).dev.activeDie = some 0) ∧
    (let p := wPkt 0x0C10 0x51 0 []; Ready opTwinStatus p (wQ wUp p) (wEnt p)) ∧
    (let p := wPkt 0x0C12 0x51 0 [0x1824]; Ready opTwinConfig p (wQ (wRoom wUp) p) (wEnt p) ∧ (wEnt p).resv 0 0xFFFF = false ∧ (wEnt p).f 0 7 4 ≠ 0 ∧
      (wEnt p).f 0 15 8 = 24 ∧ (wEnt p).b 0 2 = true) ∧
    (let p := wPkt 0x0C12 0x51 0 [0x10001]; Ready opTwinRecover p (wQ (wSwap {} .failed) p) (wEnt p) ∧ (wEnt p).resv 0 0x1FFFF = false ∧
      ((wSwap {} .failed).dev.ctl ((wEnt p).f 0 16 16)).state = .failed) ∧
    (wSwap { slice := some (1, 3) } .coldSynced).dev.twin.slice = some (1, 3) ∧
    (let p := wPkt 0x0D01 0x160 0 [0x02040000]; Ready opSelftestRun p (wQ (wTest {}) p) (wEnt p) ∧ (wEnt p).resv 0 0x07FF01FF = false ∧
      (wTest {}).dev.testState 1 = none ∧ testSlices (wEnt p) = [0, 1, 2, 3]) ∧
    (let t : TestUnit := { state := .running, die := 1, todo := [5, 6] }; (wTest t).dev.test.todo = [5, 6] ∧ (wTest t).dev.bistRoom (sliceKind 5) 1 = true) ∧
    (let p := wPkt 0x0D02 0x360 0 [0x00080000]; Ready opSelftestResult p (wQ wUp p) (wEnt p) ∧ (wEnt p).resv 0 0x01FF01FF = false ∧ (wEnt p).f 0 24 16 = 8 ∧
      (wEnt p).holds 32) ∧
    (let p := wPkt 0x0C13 0x51 0 [0x00010000, 1]; Ready opHealthReport p (wQ wUp p) (wEnt p) ∧ (wEnt p).resv 0 0x01FF01FF = false ∧ (wEnt p).resv 1 1 = false ∧
      (wEnt p).f 0 24 16 = 1 ∧ (wEnt p).holds 4) := by
  and_intros <;> decide

/-! TimeBaseCommandsComplete -/

/-- A device that runs with this time base. -/
def wTime (t : NetTime) : State := { wRoom wUp with dev := { (wRoom wUp).dev with time := t } }
theorem test_TimeBaseCommandsComplete_met :
    (wTime {}).dev.hubUp = true ∧ ({ cfg := { source := 1 } } : NetTime).cfg.source = 1 ∧ ({ servo := .locked } : NetTime).pendingChg = none ∧
    (({ pendingChg := some { instant := 5 } } : NetTime).pendingChg = some { instant := 5 }) ∧ ({ instant := 5, step := some 7 } : TimeChange).step.isSome = true ∧
    (let p := wPkt 0x0801 1 0 []; Ready opTimeRead p (wQ wUp p) (wEnt p)) ∧
    (let p := wPkt 0x0802 1 0 [0, 5, 0]; Ready opTimeAdjustOffset p (wQ (wTime { cfg := { source := 2 } }) p) (wEnt p) ∧ (wEnt p).resv 0 3 = false ∧ (wEnt p).par 2 = 0) ∧
    (let p := wPkt 0x0802 1 0 [1, 5, 0]; Ready opTimeAdjustStep p (wQ (wTime { cfg := { source := 2 } }) p) (wEnt p) ∧ (wEnt p).resv 0 3 = false ∧
      ({ cfg := { source := 2 } } : NetTime).stepFits (sgn 64 (wEnt p).v64) = true) ∧
    (let p := wPkt 0x0802 1 0 [2, 5, 0]; Ready opTimeAdjustSet p (wQ (wTime { cfg := { source := 0 } }) p) (wEnt p) ∧ (wEnt p).resv 0 3 = false ∧
      ({ cfg := { source := 0 } } : NetTime).stepFits (((wEnt p).v64 : Int) - 5) = true) ∧
    (let p := wPkt 0x0802 1 0 [3, 0xFFFFFFFB, 0]; Ready opTimeAdjustFreq p (wQ (wTime { cfg := { source := 2 } }) p) (wEnt p) ∧ (wEnt p).resv 0 3 = false ∧
      sgn 32 ((wEnt p).par 1).toNat = -5) ∧
    (let p := wPkt 0x0805 1 0 [2, 0x3F000000, 0x3E000000, 100000, 0x00640064, 100]; Ready opServoConfig p (wQ (wTime {}) p) (wEnt p) ∧
      Journals (wQ (wTime {}) p) (wEnt p) ∧ firstErr (servoChecks (wEnt p)) = none ∧ (servoCfgOf (wEnt p)).source = 2) := by
  and_intros <;> decide

/-! PtpCommandsComplete -/

/-- A device that runs with this PTP port 1. -/
def wPtp (x : PtpPort) : State := { wRoom wUp with dev := { (wRoom wUp).dev with
  time := { port := Tbl.wr [] 1 x }
  host := { (wRoom wUp).dev.host with eth := Tbl.wr (wRoom wUp).dev.host.eth 1 { enable := true } } } }
/-- A Sync of domain 0 whose other bytes are 0. -/
def wSync : List Byte := [0x00, 0x02, 0x00, 0x2C] ++ List.replicate 40 0
theorem test_PtpCommandsComplete_met :
    (wPtp {}).dev.hubUp = true ∧ (ptpLen (ptpType wSync) ≠ 0 ∧ ptpLen (ptpType wSync) ≤ wSync.length ∧ ptpLen (ptpType wSync) ≤ pn wSync 2 2 ∧ pb wSync 4 = 0) ∧
    ptpLen (ptpType [0x0F]) = 0 ∧ ((wPtp { cfg := { enable := true } }).dev.time.port.rd 1).cfg.enable = true ∧
    ({ cfg := { enable := true, oc := true }, state := some .master } : PtpPort).sends 0 = true ∧
    ({ cfg := { enable := true, oc := true }, state := some .master } : PtpPort).sends 11 = true ∧
    ({ cfg := { enable := true, oc := true }, state := some .slave } : PtpPort).sends 1 = true ∧
    ({ cfg := { enable := true, profile := 2 } } : PtpPort).sends 2 = true ∧
    (let p := wPkt 0x0803 0x130 0 [0x11, 0x00300000, 0, 0]; Ready opPtpConfig p (wQ (wPtp {}) p) (wEnt p) ∧ Journals (wQ (wPtp {}) p) (wEnt p) ∧
      firstErr (ptpChecks (wQ (wPtp {}) p) (wEnt p)) = none) ∧
    (let p := wPkt 0x0804 0x130 0 []; Ready opPtpStatus p (wQ wUp p) (wEnt p)) := by
  and_intros <;> decide

/-! RtcCommandsComplete -/

theorem test_RtcCommandsComplete_met :
    ((wBak { load := some {} }).dev.backup.load = some {} ∧ (wBak {}).dev.power.on = true ∧ ({} : RtcLoad).atTime = none) ∧
    ((wBak { alarm := some { sec := 1 } }).dev.backup.alarm = some { sec := 1 } ∧ ({ sec := 1 } : RtcAlarm).toNat - (0 : Nat) ≠ 0) ∧
    (({} : Backup).edgesTo 3 80 0 7 ≠ 0) ∧
    (let p := wPkt 0x0810 0x40 0 []; Ready opReadRtc p (wQ wUp p) (wEnt p)) ∧
    (let p := wPkt 0x0811 0x40 0 [0, 7, 0, 0, 0]; Ready opWriteRtcNextEdge p (wQ (wBak {}) p) (wEnt p) ∧ (wEnt p).resv 2 0x7FFFFF = false ∧ (wEnt p).f 0 1 0 = 0) ∧
    (let p := wPkt 0x0811 0x40 0 [1, 7, 0, 100000, 0]; Ready opWriteRtcAtTime p (wQ (wBak {}) p) (wEnt p) ∧ nearEra 0 ((wEnt p).par 3) ((wEnt p).f 4 15 0) = 100000) := by
  and_intros <;> decide
theorem test_RtcCommandsComplete_met2 :
    (let p := wPkt 0x0812 0x40 0 [0, 0x1001]; Ready opRtcTrimSet p (wQ (wBak {}) p) (wEnt p) ∧ (sgn 13 ((wEnt p).f 1 12 0)).natAbs = 4095 ∧ (wEnt p).resv 1 0x1FFF = false) ∧
    (let p := wPkt 0x0812 0x40 0 [1, 0x00010001, 0, 0, 31]; Ready opRtcSyncConfig p (wQ (wBak {}) p) (wEnt p) ∧ Journals (wQ (wBak {}) p) (wEnt p) ∧
      (syncCfgOf (wEnt p)).syncS = 1 ∧ (wEnt p).f 4 19 0 = 31) ∧
    (let p := wPkt 0x0813 0x40 0 [0, 0, 0x200]; Ready opRtcAlarmSet p (wQ (wBak {}) p) (wEnt p) ∧ (wBak {}).dev.backup.count.toNat + 2 = 2 ∧ (countOf 0 0x200).toNat = 2) ∧
    (let p := wPkt 0x0813 0x40 0 [1]; Ready opRtcAlarmCancel p (wQ (wBak {}) p) (wEnt p) ∧ (wEnt p).resv 0 7 = false) ∧
    ((wBak { sync := { en := true } }).dev.backup.sync.en = true ∧ ({ servo := .locked } : NetTime).servo = .locked) := by
  and_intros <;> decide

/-! BackupAndEventInputCommandsComplete -/

theorem test_BackupAndEventInputCommandsComplete_met :
    (wBak { onVbat := true }).dev.backup.onVbat ≠ false ∧ (satN 16 2199 < 2200 ∧ 2300 < satN 16 2301 ∧ satN 16 2250 = 2250) ∧ (wBak {}).dev.hubUp = true ∧
    State.reset.dev.hubUp = false ∧
    (({ edges := 1 } : EvinCfg).selects true = true ∧ ({ edges := 2 } : EvinCfg).selects false = true ∧ ({ edges := 1, eventEn := true } : EvinCfg).eventEn = true) ∧
    (4 ≤ ({ fifo := List.replicate 4 {} } : Evin).fifo.length) ∧
    (let p := wPkt 0x0814 0x340 0 [0x0A09]; Ready opEvinConfig p (wQ (wBak {}) p) (wEnt p) ∧ (wEnt p).resv 0 0xFF0F = false) ∧
    (let p := wPkt 0x0815 0x340 0 [1]; Ready opEvinRead p (wQ (wBak {}) p) (wEnt p) ∧ (wEnt p).resv 0 1 = false ∧ (wEnt p).b 0 0 = true) ∧
    (let p := wPkt 0x0815 0x140 0 [0]; Ready opEvinRead p (wQ (wBak {}) p) (wEnt p) ∧ (wEnt p).b 0 0 = false) := by
  and_intros <;> decide

/-! CanBusEventsComplete -/

theorem test_CanBusEventsComplete_met :
    ((wCan { cfg := { mode := 1 } }).dev.hubUp = true ∧ ((wCan { cfg := { mode := 1 } }).dev.canAt 1).on = true ∧ ((wCan {}).dev.canAt 1).off = false) ∧
    (({ cfg := { mode := 2 } } : CanCtl).on = true ∧ ({ cfg := { mode := 3 } } : CanCtl).sends = true) ∧
    (let x : CanCtl := { cfg := { mode := 1 }, tx := Tbl.wr [] 32 { pending := true } }; x.sends = true ∧ (x.tx.rd 32).pending = true ∧ (x.tx.rd 32).suspended = false) ∧
    (let x : CanCtl := { tx := Tbl.wr [] 3 { clash := 4 } }; 4 ≤ (x.tx.rd 3).clash ∧ (x.tx.rd 3).suspended = false) ∧
    ((wCan { err := .busOff }).dev.canAt 1).err = .busOff ∧
    (let x : CanCtl := { cfg := { mode := 1 }, tcfg := { role := 1, cycleUs := 1000 } }; x.tcfg.role ≠ 0 ∧ x.on = true ∧ x.pendTime = none) ∧
    ({ pendTime := some .mastering } : CanCtl).pendTime = some .mastering ∧
    ((wCan { refDue := some 5 }).dev.canAt 1).refDue = some 5 ∧
    (let x : CanCtl := { time := .following, yielded := true }; x.time = .following ∧ x.off = false ∧ (x.tcfg.backup || x.yielded) = true) := by
  and_intros <;> decide

/-! CanCommandsComplete -/

theorem test_CanCommandsComplete_met :
    (let p := wPkt 0x0901 0x131 0 [1, 0x020203C5, 0x00063241, 0, 0];
      Ready opCanConfig p (wQ (wCan {}) p) (wEnt p) ∧ Journals (wQ (wCan {}) p) (wEnt p) ∧ firstErr (canConfigChecks (wQ (wCan {}) p) (wEnt p)) = none) ∧
    (let p := wPkt 0x0901 0x131 0 [0, 0x020203C5, 0x00063241, 0, 0]; (canCfgOf (wEnt p)).mode = 0 ∧ ({ cfg := { mode := 1 } } : CanCtl).cfg.mode ≠ 0) ∧
    (let p := wPkt 0x0902 0x131 0 [0x00010000, 0x01000005];
      Ready opCanFilter p (wQ (wCan {}) p) (wEnt p) ∧ firstErr (canFilterChecks (wQ (wCan {}) p) (wEnt p)) = none) ∧
    (let p := wPkt 0x0903 0x131 0 [3, 5, 0];
      Ready opCanSend p (wQ (wCan { cfg := { mode := 1 } }) p) (wEnt p) ∧ firstErr (canSendChecks (wQ (wCan { cfg := { mode := 1 } }) p) (wEnt p)) = none ∧
      (wEnt p).b 0 9 = false) := by
  and_intros <;> decide
theorem test_CanCommandsComplete_met2 :
    (let p := wPkt 0x0903 0x131 0 [0x203, 5, 0]; (wEnt p).b 0 9 = true ∧ (wEnt p).resv 0 0x31F = false) ∧
    (let p := wPkt 0x0904 0x131 0 [0x0102]; Ready opCanReceive p (wQ (wCan {}) p) (wEnt p) ∧ (wEnt p).f 0 15 8 = 1 ∧ 1 ≤ canMax (wEnt p).pkt.transport ∧
      (wEnt p).b 0 1 = true ∧ (wEnt p).b 0 0 = false ∧ (wEnt p).holds 1) ∧
    (let p := wPkt 0x0905 0x131 0 []; Ready opCanStatus p (wQ wUp p) (wEnt p)) ∧
    (let p := wPkt 0x0906 0x131 0 [0x0201, 0x80, 1000, 0]; Ready opCanTimeConfig p (wQ (wCan {}) p) (wEnt p) ∧
      firstErr (canTimeChecks (wQ (wCan {}) p) (wEnt p)) = none ∧ (canTimeCfgOf (wEnt p)).role = 1) ∧
    (let p := wPkt 0x0907 0x131 0 [0x0100, 0x40000005, 7, 0, 0x3F800000, 0]; Ready opCanMap p (wQ (wCan {}) p) (wEnt p)) ∧
    (let p := wPkt 0x0907 0x131 0 [0x0100, 0x40000005, 7, 0, 0x3F800000, 0]; firstErr (canMapChecks (wEnt p)) = none) ∧
    (let p := wPkt 0x0908 0x131 0 [0]; Ready opCanRecoverBus p (wQ (wCan { err := .busOffHeld }) p) (wEnt p) ∧ (wEnt p).resv 0 0xFF01 = false) ∧
    (let p := wPkt 0x0908 0x131 0 [0xFF01]; Ready opCanRecoverBuffer p (wQ (wCan {}) p) (wEnt p) ∧ (wEnt p).f 0 15 8 = 0xFF) ∧
    (let p := wPkt 0x0908 0x131 0 [0x0301]; (wEnt p).resv 0 0xFF01 = false ∧ (wEnt p).f 0 15 8 = 3) := by
  and_intros <;> decide

/-! KeyCommandsComplete -/

/-- A device that runs with this key slot 7. -/
def wKey (k : KeySlot) : State := { wRoom wUp with dev := { (wRoom wUp).dev with keys := { root := some [1], slots := Tbl.wr (Tbl.wr [] 7 k) 0 { state := .valid, purpose := 1 } } } }
theorem test_KeyCommandsComplete_met :
    (let p := wPkt 0x0B01 0x42 0 ([0x00010005, 0x00010000] ++ List.replicate 15 0); Ready opKeyProvision p (wQ (wKey {}) p) (wEnt p) ∧
      firstErr (keyProvisionChecks (wKey {}).dev (wEnt p)) = none) ∧
    (let p := wPkt 0x0B02 0x42 0 ([0x04010705, 0] ++ List.replicate 12 0); Ready opKeyDerive p (wQ (wKey { state := .valid, purpose := 2 }) p) (wEnt p) ∧
      firstErr (keyDeriveChecks (wKey { state := .valid, purpose := 2 }).dev (wEnt p)) = none) ∧
    (let p := wPkt 0x0B03 0x42 0 [7]; Ready opKeyStatus p (wQ (wKey { state := .valid }) p) (wEnt p) ∧ (wEnt p).resv 0 0x3F = false ∧
      ((wKey { state := .valid }).dev.keys.slots.rd ((wEnt p).f 0 5 0)).state = .valid) ∧
    (let p := wPkt 0x0B04 0x42 0 (7 :: List.replicate 8 0); Ready opKeyChallenge p (wQ (wKey { state := .valid, purpose := 3 }) p) (wEnt p) ∧
      (wKey { state := .valid, purpose := 3 }).dev.keyRefusal 7 3 = none ∧ (wKey { state := .valid, purpose := 3 }).dev.keyWaits 7 = false) ∧
    (let p := wPkt 0x0B05 0x42 0 [7]; Ready opKeyErase p (wQ (wKey { state := .valid }) p) (wEnt p) ∧ (wEnt p).resv 0 0x3F = false ∧ (wEnt p).f 0 5 0 = 7) ∧
    ((wKey {}).dev.hubUp = true ∧ (wKey {}).dev.keys.pend = 0 ∧ State.reset.dev.hubUp = false ∧ ({ pend := 1 } : KeyStore).pend ≠ 0) := by
  and_intros <;> decide

/-! RailEventsComplete -/

theorem test_RailEventsComplete_met :
    (State.reset.dev.power.sequencing = true ∧ State.reset.dev.power.nextStep State.reset.dev.power.stepNext ≠ 6) ∧
    (let p : Power := { phase := .sequencing, railEn := 1 }; p.sequencing = true ∧ (p.rail 0).stepNo = p.stepNext ∧ p.railEn.getLsbD 0 = true ∧
      p.railPg.getLsbD 0 = false ∧ p.spares 0 = false) ∧
    (let p : Power := { phase := .sequencing, table := { rails := [{ func := 0x20 }] } }; p.spares 0 = true) ∧
    (let p : Power := { phase := .sequencing, stepNext := 7 }; p.attempts < 3 ∧ p.on = true) ∧
    ((wPow { phase := .running, railPg := 3 }).dev.hubUp = true ∧ (wPow { phase := .running, railPg := 3 }).dev.power.lbAt = none) ∧
    ((wPow { phase := .running, railEn := 3 }).dev.hubUp = true ∧ (wPow { phase := .running, railEn := 3 }).dev.power.railPg.getLsbD 1 = false) ∧
    (satN 16 779 < 780 ∧ 780 ≤ satN 16 780 ∧ satN 16 900 = 900) := by
  and_intros <;> decide

/-! FeedAndSupplyEventsComplete -/

theorem test_FeedAndSupplyEventsComplete_met :
    ((wFld {}).dev.hubUp = true ∧ (wFld {}).dev.fldRuns 1 = true) ∧
    (let s : State := { wFld {} with dev := { (wFld {}).dev with fabric := { (wFld {}).dev.fabric with fldLink := Tbl.wr [] 1 { up := true } } } }
     s.dev.feedSeen 1 = true ∧ satN 16 15000 < 16000 ∧ satN 16 17000 < s.dev.power.table.feedWarn * 100 + 500 ∧ (s.dev.power.feeds.rd 1).lost = false ∧
       s.dev.power.lbAt = none) ∧
    (18000 < satN 16 20000 ∧ 36000 < satN 16 36001 ∧ satN 16 30000 < 33000) ∧
    ((wPow { phase := .poweredOff }).dev.power.keep = false ∧ ({ phase := .running } : Power).phase ≠ .poweredOff) ∧
    ((wPow { phase := .running, saveOn := true }).dev.hubUp = true ∧ (wPow { phase := .running, saveOn := true }).dev.power.lbAt = none) ∧
    ((wPow { phase := .running, lbAt := some 4 }).dev.hubUp = true ∧ ({ phase := .running, lbAt := some 4 } : Power).lbDone = false) ∧
    (({ phase := .poweredOff, keep := true, wakeMask := 4 } : Power).wakeMask.getLsbD 2 = true) ∧
    ((wPow { phase := .running }).dev.power.fieldThermal.rd 2 = false ∧ ({ thermalHold := true } : Power).thermalHold = true) ∧
    (({ phase := .running, table := { telemEn := true } } : Power).table.telemEn = true) := by
  and_intros <;> decide

/-! PowerCommandsComplete -/

theorem test_PowerCommandsComplete_met :
    (let p := wPkt 0x0C20 0x50 0 []; Ready opPwrStatus p (wQ wUp p) (wEnt p)) ∧
    (let p := wPkt 0x0C21 0x50 0 [0]; Ready opLowpowerSetRun p (wQ (wPow { phase := .running, lp := .quiesce }) p) (wEnt p) ∧ (wEnt p).resv 0 0x1F03 = false ∧
      (wEnt p).f 0 1 0 = 0) ∧
    (let p := wPkt 0x0C21 0x50 0 [0x102]; Ready opLowpowerSetQuiesce p (wQ (wPow { phase := .running }) p) (wEnt p) ∧ (wEnt p).resv 0 0x1F03 = false ∧
      (wPow { phase := .running }).dev.frame.state = .stopped ∧ ({} : Power).lp ≠ .quiesce) ∧
    (let p := wPkt 0x0C21 0x50 0 [0x103, 0x96160C21]; Ready opLowpowerSetKeep p (wQ (wPow { phase := .running }) p) (wEnt p) ∧ (wEnt p).par 1 = 0x96160C21 ∧
      (∀ k < 4, ((wPow { phase := .running }).dev.fld k).outState = .disarmed) ∧ (wPow { phase := .running }).dev.eMramWrites = false) ∧
    (let p := wPkt 0x0C22 0x50 0 [0xA500, 0x01000003, 0, 0x01000084, 0, 0x01000088, 0, 0x01000110, 0, 0x01000120, 0, 0x01000140, 0]
     Ready opRailConfig p (wQ (wRoom wUp) p) (wEnt p) ∧ firstErr (railChecks (wEnt p)) = none) := by
  and_intros <;> decide

/-! ResetCommandsComplete -/

theorem test_ResetCommandsComplete_met :
    ((wPow { phase := .running }).dev.power.on = true ∧ (wPow { phase := .running }).dev.power.saveOn = false) ∧
    (({ phase := .poweredOff, keep := true } : Power).phase = .poweredOff ∧ ({ phase := .poweredOff, lbAt := some 3 } : Power).lbAt.isSome = true) ∧
    ({ phase := .sequencing, stepNext := 6 } : Power).resetN = true ∧
    (let s : State := { dev := { power := { phase := .hubUp, noActiveSince := some 3 }, twin := { die := Tbl.wr [] 0 { railOk := true } } } }
     s.dev.ctlUp = false ∧ s.dev.startDie = some 0 ∧ s.dev.hubUp = true ∧ s.dev.power.noActiveExpired = false ∧ s.dev.power.boot ≠ .recovery) ∧
    (({ phase := .sequencing, stepNext := 7 } : Power).stepNext = 7 ∧ ({ resetN := false } : Power).resetN = false) ∧
    (let p := wPkt 0x0102 1 0 [0x96160102, 1]; Ready opDeviceReset p (wQ wUp p) (wEnt p) ∧ (wEnt p).par 0 = 0x96160102 ∧ (wEnt p).resv 1 1 = false) ∧
    (let p := wPkt 0x0103 3 0 [1]; Ready opDieReset p (wQ wUp p) (wEnt p) ∧ (wEnt p).resv 0 1 = false ∧ (wUp.dev.ctl 0).state = .active ∧ (wEnt p).b 0 0 = true) ∧
    (let p := wPkt 0x0103 4 0 [0]; Ready opDieReset p (wQ wUp p) (wEnt p) ∧ (wEnt p).pkt.unit - 3 = 1) := by
  and_intros <;> decide
theorem test_ResetCommandsComplete_met2 :
    (let p := wPkt 0x0104 0x110 0 []; Ready opFieldReset p (wQ (wFld {}) p) (wEnt p) ∧ (wEnt p).pkt.inst = 1 ∧ (wFld {}).dev.fieldTested 1 = false ∧
      ((wFld {}).dev.fld 1).run = .run ∧ ((wFld {}).dev.fld 0).run ≠ .run) ∧
    (let p := wPkt 0x0105 1 0 [0]; Ready opResetCause p (wQ wUp p) (wEnt p) ∧ (wEnt p).resv 0 0xF = false ∧ ({ causes := [{}] } : Power).causes[(wEnt p).f 0 3 0]? = some {}) ∧
    (let p := wPkt 0x0106 1 0 [1, 0, 5]; Ready opFwStage p (wQ wUp p) (wEnt p) ∧ (wEnt p).b 0 0 ≠ wUp.dev.power.runSlot ∧ (wEnt p).f 1 19 0 + ((wEnt p).n - 2) ≤ 1048576 ∧
      (wEnt p).resv 1 0xFFFFF = false) ∧
    (let p := wPkt 0x0107 1 0 [2]; Ready opFwActivate p (wQ (wRoom wUp) p) (wEnt p) ∧ (wEnt p).b 0 1 = true ∧ (wEnt p).resv 0 3 = false ∧
      ({ fw := Tbl.wr [] 0 { factory := true } } : Power).image 0 0 = some makerVersion) := by
  and_intros <;> decide

/-! DiagnosticAndRegisterCommandsComplete -/

theorem test_DiagnosticAndRegisterCommandsComplete_met :
    (let p := wPkt 0x0E01 0x50 0 [0x50000000, 12]; Ready opDiagRead p (wQ wUp p) (wEnt p) ∧ (match wUp.dev.diagDie 0x50 with | .go => true | _ => false) = true ∧
      (wEnt p).f 1 8 0 = 12 ∧ (wEnt p).resv 1 0x1FF = false ∧ rangeMapped 0x50 (diagOfs ((wEnt p).par 0)) 12 = true ∧ (wEnt p).holds 12) ∧
    (let p := wPkt 0x0E02 0x50 0 [0x50000024, 1, 9]; Ready opDiagWrite p (wQ wUp p) (wEnt p) ∧ (wEnt p).n = 3 ∧
      rangeMapped 0x50 (diagOfs ((wEnt p).par 0)) 1 = true) ∧
    (let p := wPkt 0x0E03 0x50 0 [0x50000024, 0xFFFF0000, 0]; Ready opDiagModify p (wQ wUp p) (wEnt p) ∧ rangeMapped 0x50 (diagOfs ((wEnt p).par 0)) 1 = true) ∧
    (wUp.dev.hubUp = true ∧ wUp.dev.ctlUp = true) ∧
    (diagUnit 0x50 = 0 ∧ diagUnit 0x50000024 ≠ 0 ∧ pageExists (diagUnit 0x50000024) (diagInst 0x50000024) = true ∧
      wordMapped (diagUnit 0x50000024) (diagOfs 0x50000024) = true) ∧
    (State.reset.dev.tap.tck = false ∧ ({ tck := true } : Tap).tck ≠ false) := by
  and_intros <;> decide

/-! StepOnEmptyQueueIsOneEdge -/

theorem test_StepOnEmptyQueueIsOneEdge : State.reset.pending = [] := rfl

/-! PacketCommandsRunTheInterpreter -/

theorem test_PacketCommandsRunTheInterpreter : (packetOf (.nop {})).isSome = true := rfl

/-! QueueIsFirstInFirstOut -/

theorem test_QueueIsFirstInFirstOut : 2 ≤ ({ State.reset with pending := [.hubPllLoss, .hubPllLoss] } : State).pending.length := by decide

/-! InvariantKeptByEveryStep -/

theorem test_InvariantKeptByEveryStep :
    ({ wUp with frameBank := { gen := some 32767 }, reqBank := { gen := some 0x8000 }, pending := [.jobEnd 3 63 5] } : State).Inv := by
  refine ⟨?_, ⟨?_, rfl, ?_⟩, ⟨?_, rfl, ?_⟩⟩
  · decide
  · intro n h; cases h; decide
  · intro h; cases h
  · intro n h; cases h; decide
  · intro h; cases h

/-! PacketsOfOneUnitRunInOrder -/

theorem test_PacketsOfOneUnitRunInOrder :
    let p := wPkt 0x0101 1 0 [];
    let s : State := { wUp with dev := { wUp.dev with host := { wUp.dev.host with queue := [{ pkt := wPkt 0x0100 1 2 [], started := true }, wEnt p] } } };
    p.opcode = opDevIdent.code ∧ s.dev.host.queue.find? (fun x => x.fresh p) = some (wEnt p) ∧ mayStart s.dev.host.queue (wEnt p) = false := by
  and_intros <;> decide
theorem test_PacketsOfOneUnitRunInOrder_goes : Stands opDevIdent (wPkt 0x0101 1 0 []) (wQ wUp (wPkt 0x0101 1 0 [])) (wEnt (wPkt 0x0101 1 0 [])) := by
  and_intros <;> decide

/-! CheckOnlyPacketsOnlyAnswer -/

theorem test_CheckOnlyPacketsOnlyAnswer :
    let p := wPkt 0x0101 1 16 [];
    packetOf (.devIdent p) = some (opDevIdent, p) ∧ Stands opDevIdent p (wQ wUp p) (wEnt p) ∧ p.checkOnly = true ∧
      (opDevIdent.body (wQ wUp p) (wEnt p)).waits = false ∧ accepted (opDevIdent.body (wQ wUp p) (wEnt p)).status = true ∧
      (wEnt p).holds (opDevIdent.body (wQ wUp p) (wEnt p)).words.length := by
  refine ⟨rfl, ?_⟩
  and_intros <;> decide
theorem test_CheckOnlyPacketsOnlyAnswer_rejected :
    let p := wPkt 0x0110 2 16 [0, 0, 0, 0];
    Stands opFrameSet p (wQ wUp p) (wEnt p) ∧ p.checkOnly = true ∧ (opFrameSet.body (wQ wUp p) (wEnt p)).waits = false ∧
      accepted (opFrameSet.body (wQ wUp p) (wEnt p)).status = false := by
  and_intros <;> decide
theorem test_CheckOnlyPacketsOnlyAnswer_noCapture :
    let p := wPkt 0x0101 1 20 [];
    Stands opDevIdent p (wQ wUp p) (wEnt p) ∧ p.checkOnly = true ∧ p.atSnapshot = true ∧ (wEnt p).snapDone = false ∧
      (wQ wUp p).dev.captureDue = false ∧ (opDevIdent.body (wQ wUp p) (wEnt p)).waits = false := by
  and_intros <;> decide

/-! AtSnapshotPacketsWaitForACapture -/

theorem test_AtSnapshotPacketsWaitForACapture :
    let p := wPkt 0x0101 1 4 [];
    let s := wQ { wUp with dev := { wUp.dev with frame := { wUp.dev.frame with state := .running } } } p;
    Stands opDevIdent p s (wEnt p) ∧ p.checkOnly = false ∧ p.atSnapshot = true ∧ (wEnt p).snapDone = false ∧
      (opDevIdent.body s (wEnt p)).waits = false ∧ accepted (opDevIdent.body s (wEnt p)).status = true ∧
      (wEnt p).holds (opDevIdent.body s (wEnt p)).words.length ∧ s.dev.captureDue = true := by
  and_intros <;> decide
theorem test_AtSnapshotPacketsWaitForACapture_none :
    let p := wPkt 0x0101 1 4 [];
    Stands opDevIdent p (wQ wUp p) (wEnt p) ∧ accepted (opDevIdent.body (wQ wUp p) (wEnt p)).status = true ∧
      (wEnt p).holds (opDevIdent.body (wQ wUp p) (wEnt p)).words.length ∧ (wQ wUp p).dev.captureDue = false := by
  and_intros <;> decide

/-! RejectedPacketsOnlyAnswer -/

theorem test_RejectedPacketsOnlyAnswer :
    let p := wPkt 0x0110 2 0 [0, 0, 0, 0];
    Stands opFrameSet p (wQ wUp p) (wEnt p) ∧ (opFrameSet.body (wQ wUp p) (wEnt p)).waits = false ∧
      accepted (opFrameSet.body (wQ wUp p) (wEnt p)).status = false := by
  and_intros <;> decide
theorem test_RejectedPacketsOnlyAnswer_waits :
    let p := wPkt 0x0104 0x10 0 [];
    let s := wQ { wUp with dev := { wUp.dev with power := { wUp.dev.power with lbAt := some 0 } } } p;
    Stands opFieldReset p s (wEnt p) ∧ (opFieldReset.body s (wEnt p)).waits = true := by
  and_intros <;> decide
theorem test_RejectedPacketsOnlyAnswer_key :
    let p := wPkt 0x0B01 0x42 0 (List.replicate 17 0xFFFFFFFF);
    Stands opKeyProvision p (wQ wUp p) (wEnt p) ∧ accepted (opKeyProvision.body (wQ wUp p) (wEnt p)).status = false := by
  and_intros <;> decide
theorem test_RejectedPacketsOnlyAnswer_model :
    let p := wPkt 0x0302 0x21 0 [0, 0, 0, 0];
    Stands opModelCommit p (wQ wUp p) (wEnt p) ∧ accepted (opModelCommit.body (wQ wUp p) (wEnt p)).status = false := by
  and_intros <;> decide
theorem test_RejectedPacketsOnlyAnswer_block :
    let p := wPkt 0x0203 1 0 [0, 0, 0, 0, 0];
    let r := wPkt 0x0204 1 0 [0, 0, 0, 0, 0];
    Stands opPointBlockWrite p (wQ wUp p) (wEnt p) ∧ accepted (opPointBlockWrite.body (wQ wUp p) (wEnt p)).status = false ∧
      Stands opPointBlockRead r (wQ wUp r) (wEnt r) ∧ accepted (opPointBlockRead.body (wQ wUp r) (wEnt r)).status = false := by
  and_intros <;> decide

/-! ClassNCommandsNeedJournalRoom -/

/-- A device that runs, with no holdup tested and settings not written through: the journal has no room. -/
def wFull : State := { wUp with dev := { wUp.dev with slalom := { wUp.dev.slalom with writeThrough := false } } }
theorem test_ClassNCommandsNeedJournalRoom :
    let p := wPkt 0x0503 (0x32 + 2 * 256) 0 [2, 0, 0, 0, 0];
    Ready opJlPortConfig p (wQ wFull p) (wEnt p) ∧ opJlPortConfig.classN = true ∧ (opJlPortConfig.body (wQ wFull p) (wEnt p)).waits = false ∧
      accepted (opJlPortConfig.body (wQ wFull p) (wEnt p)).status = true ∧ (opJlPortConfig.body (wQ wFull p) (wEnt p)).status ≠ stOkNoChange ∧
      (wEnt p).holds (opJlPortConfig.body (wQ wFull p) (wEnt p)).words.length ∧ (wQ wFull p).dev.slalom.room (granulesOf (wEnt p).n) = false := by
  and_intros <;> decide
theorem test_ClassNCommandsNeedJournalRoom_fits :
    let p := wPkt 0x0503 (0x32 + 2 * 256) 0 [2, 0, 0, 0, 0];
    Ready opJlPortConfig p (wQ (wRoom wUp) p) (wEnt p) ∧ accepted (opJlPortConfig.body (wQ (wRoom wUp) p) (wEnt p)).status = true ∧
      (wQ (wRoom wUp) p).dev.slalom.room (granulesOf (wEnt p).n) = true ∧
      (opJlPortConfig.body (wQ (wRoom wUp) p) (wEnt p)).st.dev.slalom.writeThrough = false := by
  and_intros <;> decide
theorem test_ClassNCommandsNeedJournalRoom_through :
    let p := wPkt 0x0503 (0x32 + 2 * 256) 0 [2, 0, 0, 0, 0];
    Ready opJlPortConfig p (wQ wUp p) (wEnt p) ∧ accepted (opJlPortConfig.body (wQ wUp p) (wEnt p)).status = true ∧
      (wQ wUp p).dev.slalom.room (granulesOf (wEnt p).n) = true ∧ (opJlPortConfig.body (wQ wUp p) (wEnt p)).st.dev.slalom.writeThrough = true := by
  and_intros <;> decide

/-! HeaderChecksInOrder -/

/-- A NOP with this header word 0, LEN and flags. -/
def wHead (w0 len flags : Nat) : Packet := { words := [w32 w0, w32 (len * 65536), 1, w32 flags], framedWords := 4 }
theorem test_HeaderChecksInOrder :
    let ok := 0xD6 + 2 * 256 + 0x0100 * 65536;
    (wUp.dev.hubUp = true ∧ wUp.dev.creditFree .pcie = true ∧ wUp.dev.oldFirmware = false ∧ ∀ x ∈ wUp.dev.host.queue, x.pkt ≠ wHead ok 4 0) ∧
    ((wHead (0xD5 + 2 * 256 + 0x0100 * 65536) 4 0).opcode = opNop.code ∧ (wHead (0xD5 + 2 * 256 + 0x0100 * 65536) 4 0).magic ≠ 0xD6) ∧
    ((wHead (0xD6 + 3 * 256 + 0x0100 * 65536) 4 0).magic = 0xD6 ∧ (wHead (0xD6 + 3 * 256 + 0x0100 * 65536) 4 0).version = 3) ∧
    ((wHead ok 5 0).magic = 0xD6 ∧ (wHead ok 5 0).version = 2 ∧ (wHead ok 5 0).len ≠ (wHead ok 5 0).framedWords) ∧
    ((wHead ok 4 0x40).len = 4 ∧ (wHead ok 4 0x40).len = (wHead ok 4 0x40).framedWords ∧ (wHead ok 4 0x40).len ≤ (wHead ok 4 0x40).transport.limit ∧
      fld ((wHead ok 4 0x40).w 3) 7 6 ≠ 0 ∧ fld ((wHead ok 4 0x800000).w 3) 23 14 ≠ 0) ∧
    ((wHead ok 4 0x100).auth = false ∧ (wHead ok 4 0x100).keySlot = 1 ∧ (wHead ok 4 0x80000000).seqLo = 128) ∧
    ((wHead ok 4 0x18).noReply = true ∧ (wHead ok 4 0x18).checkOnly = true) ∧ (wHead ok 4 0x20).relayed = true := by
  and_intros <;> decide

/-! PacketWithoutCreditIsRefused -/

theorem test_PacketWithoutCreditIsRefused :
    let s : State := { wUp with dev := { wUp.dev with host := { wUp.dev.host with creditsUsed := Tbl.wr [] 0 256 } } };
    (wPkt 0x0100 1 0 []).opcode = opNop.code ∧ (∀ x ∈ s.dev.host.queue, x.pkt ≠ wPkt 0x0100 1 0 []) ∧ s.dev.hubUp = true ∧
      256 ≤ s.dev.host.creditsUsed.rd (wPkt 0x0100 1 0 []).transport.num ∧ State.reset.dev.hubUp = false := by
  and_intros <;> decide

/-! SequenceNumbersOfAuthentication -/

/-- A device whose key slot 5 holds a MAC key and whose L for PCIe and that slot is `l`. -/
def wMac (l : Word) : Dev :=
  { wUp.dev with keys := { wUp.dev.keys with root := some (List.replicate 32 1), slots := Tbl.wr [] 5 { state := .valid, purpose := 1, key := List.replicate 32 7 } }
                 host := { wUp.dev.host with lastSeq := Tbl.wr [] 5 l } }
/-- A NOP with SEQ_LO 1 under slot 5 and this tag. -/
def wTagged (tag : List Word) : Packet :=
  { words := [w32 (0xD6 + 2 * 256 + 0x0100 * 65536), w32 (8 * 65536), 1, w32 (1 + 5 * 256 + 2 ^ 24)] ++ tag, framedWords := 8 }
/-- The tag of `wTagged` under SEQ 1. -/
def wTag : List Word := [992877971, 763571951, 903752505, 684603994]
theorem test_SequenceNumbersOfAuthentication :
    (wTagged wTag).auth = true ∧ (wTagged wTag).keySlot = 5 ∧ (wMac 0).keyRefusal 5 1 = none ∧ (wMac 0).keyWaits 5 = false ∧
      ((wMac 0).host.lastSeq.rd (seqIndex (wTagged wTag).transport 5)).toNat = 0 ∧ 1 % 256 = (wTagged wTag).seqLo := by
  and_intros <;> decide
theorem test_SequenceNumbersOfAuthentication_verifies : (wTagged wTag).verifies (List.replicate 32 7) 1 = true := by decide
theorem test_SequenceNumbersOfAuthentication_fails : (wTagged [0, 0, 0, 0]).verifies (List.replicate 32 7) 1 = false := by decide
theorem test_SequenceNumbersOfAuthentication_replay : (wTagged wTag).verifies (List.replicate 32 7) 257 = false := by decide
theorem test_SequenceNumbersOfAuthentication_spent :
    (wMac 0xFFFFFFFF).keyRefusal 5 1 = none ∧ (wTagged wTag).verifies (List.replicate 32 7) 0xFFFFFF01 = false := by and_intros <;> decide
theorem test_SequenceNumbersOfAuthentication_taken :
    (wMac 0).authCheck (wTagged wTag) = .tagged 1 ∧ (wTagged wTag).headerErr (wMac 0).oldFirmware = none ∧ knownOpcode (wTagged wTag).opcode = true := by
  refine ⟨rfl, ?_, ?_⟩ <;> decide
theorem test_SequenceNumbersOfAuthentication_bad :
    (wMac 1).authCheck (wTagged wTag) = .bad stAuthReplay 3 ∧ (wTagged []).headerErr (wMac 0).oldFirmware ≠ none ∧ (wPkt 0x0100 1 0 []).auth = false := by
  refine ⟨rfl, ?_, ?_⟩ <;> decide

/-! CorrectedTimeIsContinuousAcrossARate -/

theorem test_CorrectedTimeIsContinuousAcrossARate_met :
    let d : Dev := { wUp.dev with time := { wUp.dev.time with raw := 4001, ofs := 77, rate := -5000 } };
    ((d.sendRate 12345).time.pendingChg.map (fun x => (x.rate, x.instant % 8, decide (6001 ≤ x.instant))) = none → False) ∧ d.time.ctAt 4001 < 2 ^ 64 := by
  and_intros <;> decide

/-! ReplyGoesOutAndReturnsItsCredit -/

theorem test_ReplyGoesOutAndReturnsItsCredit :
    (({ transport := .eth } : Packet).transport = .eth ∧ ({ transport := .spi } : Packet).transport = .spi ∧ ({} : Packet).transport = .pcie) ∧
      ((wPkt 0x0100 1 8 []).noReply = true ∧ stOkPending < 0x0100 ∧ (wPkt 0x0100 1 0 []).noReply = false) ∧
      (let r : PcieRing := { ringEn := true }; r.suspended = false ∧ r.ringEn = true ∧ r.irqMsixEn = false) ∧
      (let r : PcieRing := {}; r.ringEn = false) := by
  and_intros <;> decide

/-! FiveTmsEdgesResetTheTap -/

theorem test_FiveTmsEdgesResetTheTap : ({ tck := false, state := .shiftDr } : Tap).tck = false := rfl

/-! DieResetFollowsTheDieState -/

/-- A device whose control die 1 is in this state while die 0 is ACTIVE. -/
def wSide (c : CtlDie) : State := { wUp with dev := { wUp.dev with twin := { wUp.dev.twin with die := Tbl.wr wUp.dev.twin.die 1 c } } }
theorem test_DieResetFollowsTheDieState :
    (let p := wPkt 0x0103 3 0 [1]; Ready opDieReset p (wQ wUp p) (wEnt p) ∧ (wEnt p).resv 0 1 = false ∧ (wUp.dev.ctl 0).state = .active ∧ (wEnt p).b 0 0 = true) ∧
    (let p := wPkt 0x0103 3 0 [0]; Ready opDieReset p (wQ wUp p) (wEnt p) ∧ (wEnt p).b 0 0 = false ∧ (wQ wUp p).dev.eligible 1 = false) ∧
    (let p := wPkt 0x0103 4 0 [0]; Ready opDieReset p (wQ (wSide { state := .coldSynced }) p) (wEnt p) ∧ ((wSide { state := .coldSynced }).dev.ctl 1).state = .coldSynced) ∧
    (let p := wPkt 0x0103 4 0 [0]; Ready opDieReset p (wQ (wSide { state := .failed }) p) (wEnt p) ∧ ((wSide { state := .failed }).dev.ctl 1).state = .failed) := by
  and_intros <;> decide

/-! RingIndexesKeepTheirBounds -/

theorem test_RingIndexesKeepTheirBounds :
    wUp.dev.hubUp = true ∧ 256 < ((257 : Word).toNat % 512 + 512 - wUp.dev.host.ring.cqHead.toNat) % 512 ∧
      ((256 : Word).toNat % 512 + 512 - wUp.dev.host.ring.cqHead.toNat) % 512 ≤ 256 ∧
      (let r : PcieRing := { cqTail := 3, cqHead := 1 };
        (r.cqTail.toNat + 512 - r.cqHead.toNat) % 512 < ((4 : Word).toNat % 512 + 512 - r.cqHead.toNat) % 512 ∧
        ((3 : Word).toNat % 512 + 512 - r.cqHead.toNat) % 512 ≤ (r.cqTail.toNat + 512 - r.cqHead.toNat) % 512) := by
  and_intros <;> decide

/-! TakenPacketJoinsTheQueue -/

theorem test_TakenPacketJoinsTheQueue :
    let p := wPkt 0x0101 1 0 [];
    p.opcode = opDevIdent.code ∧ (∀ x ∈ wUp.dev.host.queue, x.pkt ≠ p) ∧ wUp.dev.hubUp = true ∧ wUp.dev.creditFree p.transport = true ∧
      p.headerErr wUp.dev.oldFirmware = none ∧ knownOpcode p.opcode = true := by and_intros <;> decide
theorem test_TakenPacketJoinsTheQueue_plain : wUp.dev.authCheck (wPkt 0x0101 1 0 []) = .plain := rfl
theorem test_TakenPacketJoinsTheQueue_unknown :
    let p := wPkt 0x0F01 1 0 [];
    p.headerErr wUp.dev.oldFirmware = none ∧ knownOpcode p.opcode = false := by and_intros <;> decide
theorem test_TakenPacketJoinsTheQueue_unknown_plain :
    ({ wUp.dev with host := { wUp.dev.host with cfg := { wUp.dev.host.cfg with pcieAuthReq := false } } } : Dev).authCheck (wPkt 0x0F01 1 0 []) = .plain := rfl

/-! PointStoreKeepsItsCanonicalForm -/

theorem test_PointStoreKeepsItsCanonicalForm_met :
    let s : State := { wUp with dev := { wUp.dev with points := { wUp.dev.points with live := Tbl.wr [] 5 { value := 1, quality := 0 } } } };
    s.dev.points.live.wf = true ∧ (s.dev.points.live.rd 5).value = 1 ∧ (s.dev.points.live.rd 6).quality = 0xFF := by and_intros <;> decide

/-! Ill-formed terms, one for each check of WellFormed. -/

theorem test_illFormed_packet_port : Instr.wf (.nop { port := 4 }) = false := by decide
theorem test_illFormed_packet_srcPort : Instr.wf (.nop { srcPort := 65536 }) = false := by decide
theorem test_illFormed_packet_rplAddr : Instr.wf (.nop { rplAddr := 2 ^ 64 }) = false := by decide
theorem test_illFormed_packet_rplCap : Instr.wf (.nop { rplCap := 65536 }) = false := by decide
theorem test_illFormed_packet_framed : Instr.wf (.nop { framedWords := 65536 }) = false := by decide
theorem test_illFormed_jlFrame_credits : Instr.wf (.jlFrameReceive 0 { credits := 64 }) = false := by decide
theorem test_illFormed_jlFrame_relayFree : Instr.wf (.jlFrameReceive 0 { relayFree := 256 }) = false := by decide
theorem test_illFormed_jlFrame_payload : Instr.wf (.jlFrameReceive 0 { payload := List.replicate 65 0 }) = false := by decide
theorem test_illFormed_canFrame_id : Instr.wf (.canFrameReceived 0 { id := 2 ^ 29, ide := true } 0) = false := by decide
theorem test_illFormed_canFrame_stdId : Instr.wf (.canFrameReceived 0 { id := 2 ^ 11 } 0) = false := by decide
theorem test_illFormed_canFrame_dlc : Instr.wf (.canFrameReceived 0 { dlc := 16 } 0) = false := by decide
theorem test_illFormed_canFrame_data : Instr.wf (.canFrameReceived 0 { data := List.replicate 65 0 } 0) = false := by decide
theorem test_illFormed_canFrame_sof : Instr.wf (.canFrameReceived 0 {} (2 ^ 64)) = false := by decide
theorem test_illFormed_canTx_sof : Instr.wf (.canTxComplete 0 0 (2 ^ 64)) = false := by decide
theorem test_illFormed_up_frame : Instr.wf (.coordUpReceive 0 { frame := 2 ^ 32 }) = false := by decide
theorem test_illFormed_up_round : Instr.wf (.coordUpReceive 0 { round := 2 ^ 16 }) = false := by decide
theorem test_illFormed_up_id : Instr.wf (.coordUpReceive 0 { entries := [{ id := 2 ^ 16 }] }) = false := by decide
theorem test_illFormed_up_h : Instr.wf (.coordUpReceive 0 { entries := [{ h := 256, sums := List.replicate 256 0 }] }) = false := by decide
theorem test_illFormed_up_step : Instr.wf (.coordUpReceive 0 { entries := [{ stepS := 2 ^ 16 }] }) = false := by decide
theorem test_illFormed_up_sums : Instr.wf (.coordUpReceive 0 { entries := [{ h := 1, sums := [] }] }) = false := by decide
theorem test_illFormed_down_frame : Instr.wf (.coordDownReceive { frame := 2 ^ 32 }) = false := by decide
theorem test_illFormed_down_round : Instr.wf (.coordDownReceive { round := 2 ^ 16 }) = false := by decide
theorem test_illFormed_down_cap : Instr.wf (.coordDownReceive { cap := 512 }) = false := by decide
theorem test_illFormed_down_wait : Instr.wf (.coordDownReceive { waitUs := 2 ^ 16 }) = false := by decide
theorem test_illFormed_down_wait0 : Instr.wf (.coordDownReceive { wait0Ms := 2 ^ 16 }) = false := by decide
theorem test_illFormed_down_freeze : Instr.wf (.coordDownReceive { freezeFrames := 256 }) = false := by decide
theorem test_illFormed_down_id : Instr.wf (.coordDownReceive { entries := [{ id := 2 ^ 16 }] }) = false := by decide
theorem test_illFormed_sq_entry : Instr.wf (.hubSqTailWrite 0 [{ pkt := { port := 4 } }]) = false := by decide
theorem test_illFormed_sq_count : Instr.wf (.hubSqTailWrite 0 (List.replicate 257 {})) = false := by decide
theorem test_illFormed_ecc_id : Instr.wf (.pointEccError (2 ^ 20)) = false := by decide
theorem test_illFormed_power_sample : Instr.wf (.powerSample (2 ^ 20)) = false := by decide
theorem test_illFormed_holdout : Instr.wf (.holdoutRead 0 65536) = false := by decide
theorem test_illFormed_cap_test : Instr.wf (.holdupCapTestEnd 0 65536) = false := by decide
theorem test_illFormed_clamp : Instr.wf (.clampEventEnd 0 0 (2 ^ 24)) = false := by decide
theorem test_illFormed_vbat : Instr.wf (.vbatMeasure 65536) = false := by decide
theorem test_illFormed_feed_low : Instr.wf (.feedLowWarn 0 false true 65536) = false := by decide
theorem test_illFormed_feed_over : Instr.wf (.feedOvervoltage 0 false true 65536) = false := by decide
theorem test_illFormed_feed_loss_a : Instr.wf (.feedLoss 0 65536 0) = false := by decide
theorem test_illFormed_feed_loss_b : Instr.wf (.feedLoss 0 0 65536) = false := by decide
theorem test_illFormed_feed_return : Instr.wf (.feedReturn 0 false 65536) = false := by decide
theorem test_illFormed_mux_a : Instr.wf (.hubMuxSwitch 65536 0) = false := by decide
theorem test_illFormed_mux_b : Instr.wf (.hubMuxSwitch 0 65536) = false := by decide
theorem test_illFormed_over_clear : Instr.wf (.feedOvervoltageClear 0 false 65536) = false := by decide
theorem test_illFormed_packet_words : Instr.wf (.nop { words := List.replicate 4097 0 }) = false := by
  simp only [Instr.wf, Packet.wf, List.length_replicate]; decide
theorem test_illFormed_relay_words : Instr.wf (.jalowRelayReceive (List.replicate 65537 0)) = false := by
  simp only [Instr.wf, List.length_replicate]; decide
theorem test_illFormed_reply_words : Instr.wf (.jalowReplyReceive 0 (List.replicate 65537 0)) = false := by
  simp only [Instr.wf, List.length_replicate]; decide
theorem test_illFormed_pointFrame_words : Instr.wf (.pointFrameReceive 0 0 (List.replicate 65537 0)) = false := by
  simp only [Instr.wf, List.length_replicate]; decide
theorem test_illFormed_hello_words : Instr.wf (.jlHelloReceive 0 (List.replicate 65537 0)) = false := by
  simp only [Instr.wf, List.length_replicate]; decide
theorem test_illFormed_points_words : Instr.wf (.jlPointsReceive 0 (List.replicate 65537 0)) = false := by
  simp only [Instr.wf, List.length_replicate]; decide
theorem test_illFormed_event_words : Instr.wf (.jlEventReceive 0 (List.replicate 65537 0)) = false := by
  simp only [Instr.wf, List.length_replicate]; decide
theorem test_illFormed_ptp_bytes : Instr.wf (.ptpMessageReceive 0 (List.replicate 9217 0)) = false := by
  simp only [Instr.wf, List.length_replicate]; decide
theorem test_illFormed_icmp_bytes : Instr.wf (.icmpEchoRequest 0 0 0 (List.replicate 9217 0)) = false := by
  simp only [Instr.wf, List.length_replicate]; decide
theorem test_illFormed_up_entries : Instr.wf (.coordUpReceive 0 { entries := List.replicate 4097 {} }) = false := by
  simp only [Instr.wf, UpMsg.wf, List.length_replicate]; decide
theorem test_wellFormed_empty : Instr.wf (.nop {}) = true ∧ Instr.wf (.jlFrameReceive 0 {}) = true ∧ Instr.wf (.canFrameReceived 0 {} 0) = true := by
  and_intros <;> decide

/-! Values of the spec's tables and worked examples, and published check values of the algorithms it names. -/

/-- CRC-32C of the digits 1 to 9: its published check value. -/
theorem test_crc32c_check : crc32c (ascii "123456789") = 0xE3069283 := by decide
/-- SHA-256 of abc (FIPS 180-4): its first four bytes. -/
theorem test_sha256_abc : (sha256 (ascii "abc")).take 4 = [0xBA, 0x78, 0x16, 0xBF] := by decide
/-- AES-128 is not used; AES-256 of FIPS 197, appendix C.3: the first four bytes. -/
theorem test_aes256 : (aes (aesKeys ((List.range 32).map (fun i => BitVec.ofNat 8 i))) ((List.range 16).map (fun i => BitVec.ofNat 8 (17 * i)))).take 4 =
    [0x8E, 0xA2, 0xB7, 0xCA] := by decide
/-- Worked example of chapter 02: SEQ of the three packets from L = 0x1FE. -/
theorem test_sequences_of_the_burst : nextSeq 0x1FE 0xFF = some 0x1FF ∧ nextSeq 0x1FF 0x00 = some 0x200 ∧ nextSeq 0x200 0x01 = some 0x201 := by
  and_intros <;> decide
/-- Worked example of chapter 02: DEV_IDENT's payload begins 0x0A61_9616, 0xA2B0_B0A1. -/
theorem test_deviceIdentity : wUp.dev.hubRev = 0xA2B0B0A1 := by decide
/-- Worked example of chapter 02: HUB_SQ_TAIL = 0x101 leaves 3 outstanding, within R49. -/
theorem test_ring_of_the_burst :
    (({ wUp with dev := wUp.dev.setRing { sqTail := 0xFE, sqHead := 0xFE, cqTail := 0xFE, cqHead := 0xFE } } : State).dev.cqHeadWrite 0xFE).host.ring.cqHeadErr = false := by
  decide
/-- Worked example of chapter 10: 330 µF at 23.6 V on each node give G_MAX = 8,053. -/
theorem test_gMax_of_the_board :
    ({ hold := Tbl.wr (Tbl.wr [] 0 { tested := true, capUf := 330, readings := [23600] }) 1 { tested := true, capUf := 330, readings := [23600] } } : Slalom).gMax = 8053 := by
  decide
/-- Chapter 19's lowest feed: 20.0 V give G_MAX = 4,600. -/
theorem test_gMax_at_the_floor :
    ({ hold := Tbl.wr (Tbl.wr [] 0 { tested := true, capUf := 330, readings := [20000] }) 1 { tested := true, capUf := 330, readings := [20000] } } : Slalom).gMax = 4600 := by
  decide
/-- Worked example of chapter 10: a LOOP_CONFIG entry takes two granules. -/
theorem test_granules_of_loopConfig : granulesOf 17 = 2 := by decide
/-- R433: IDCODE reads 0x1961_69E7 (version 0x1, part 0x9616, manufacturer field 0x4F3, last bit 1). -/
theorem test_idcode : tapIdcode = 0x196169E7 ∧ (0x1 * 2 ^ 28 + 0x9616 * 2 ^ 12 + 0x4F3 * 2 + 1 : Nat) = 0x196169E7 := by and_intros <;> decide
/-- R66: an entry that nothing has written reads NaN with quality 0xFF. -/
theorem test_unwrittenPoint : State.reset.dev.points.live.rd 7 = { value := 0x7FC00000, quality := 0xFF } := by decide
/-- The reset state's memory holds the canonical form. -/
theorem test_reset_points_wf : State.reset.dev.points.live.wf = true := by decide
/-- Binary32 rounding: 1/3 to nearest even, 2^24 + 1 to even, and 0.1 + 0.2 as binary64. -/
theorem test_binary32_third : Float.b32.div 0x3F800000 0x40400000 = 0x3EAAAAAB := by decide

end Sys2Proof.Tests
end

section
/-! The diagnostic packets, the single register accesses and the test access port (R7, R62, R433). -/

namespace Sys2Proof.Machine

open Sys2Proof Sys2Proof.Bits

/-! The diagnostic packets (R62). -/

theorem outside_eq_false_iff {v lo hi : Nat} : outside v lo hi = false ↔ lo ≤ v ∧ v ≤ hi := by
  simp [outside]

/-- A diagnostic opcode whose die lets it, whose checks pass and whose words are mapped answers what its meaning says. -/
theorem State.diag_pass {s : State} {q : QPacket} {n : Nat} {checks : List (Bool × Nat × Nat)} {ans : Ans}
    (hdie : s.dev.diagDie q.pkt.unit = .go) (hchecks : firstErr checks = none)
    (hmap : rangeMapped q.pkt.unit (diagOfs (q.par 0)) n = true) : s.diag q n checks ans = ans := by
  simp only [State.diag, hdie]
  exact guarded_pass (firstErr_append.mpr ⟨hchecks, by simp [hmap]⟩)

/-- The checks of a word count N between 1 and 256 pass, whatever is checked after them. -/
theorem firstErr_diagCount {q : QPacket} {t : List (Bool × Nat × Nat)} (hresv : q.resv 1 0x1FF = false) (hlo : 1 ≤ q.f 1 8 0) (hhi : q.f 1 8 0 ≤ 256)
    (ht : firstErr t = none) : firstErr (encIf (q.resv 1 0x1FF) 1 :: rangeIf (outside (q.f 1 8 0) 1 256) 1 :: t) = none :=
  firstErr_cons_none.mpr ⟨hresv, firstErr_cons_none.mpr ⟨outside_eq_false_iff.mpr ⟨hlo, hhi⟩, ht⟩⟩

theorem opDiagRead_body {s t : State} {q : QPacket} {ws : List Word} (hdie : s.dev.diagDie q.pkt.unit = .go) (hresv : q.resv 1 0x1FF = false)
    (hlo : 1 ≤ q.f 1 8 0) (hhi : q.f 1 8 0 ≤ 256) (hmap : rangeMapped q.pkt.unit (diagOfs (q.par 0)) (q.f 1 8 0) = true)
    (hread : State.readWords (diagUnit (q.par 0)) (diagInst (q.par 0)) (diagOfs (q.par 0)) (q.f 1 8 0) s = (ws, t)) :
    opDiagRead.body s q = { st := t, words := ws } := by
  have h := State.diag_pass (ans := { st := t, words := ws }) hdie (firstErr_diagCount hresv hlo hhi firstErr_nil) hmap
  simpa only [opDiagRead, hread] using h

theorem opDiagWrite_body {s : State} {q : QPacket} (hdie : s.dev.diagDie q.pkt.unit = .go) (hresv : q.resv 1 0x1FF = false)
    (hlo : 1 ≤ q.f 1 8 0) (hhi : q.f 1 8 0 ≤ 256) (hlen : q.n = 2 + q.f 1 8 0)
    (hmap : rangeMapped q.pkt.unit (diagOfs (q.par 0)) (q.f 1 8 0) = true) :
    opDiagWrite.body s q = .ok s (s.dev.writeWords (diagUnit (q.par 0)) (diagInst (q.par 0)) (q.from' 2) (diagOfs (q.par 0))) :=
  State.diag_pass hdie (firstErr_diagCount hresv hlo hhi (by simp [hlen])) hmap

theorem opDiagModify_body {s : State} {q : QPacket} {v : Word} {d : Dev} (hdie : s.dev.diagDie q.pkt.unit = .go)
    (hmap : rangeMapped q.pkt.unit (diagOfs (q.par 0)) 1 = true)
    (hread : s.readWord (diagUnit (q.par 0)) (diagInst (q.par 0)) (diagOfs (q.par 0)) = (v, d)) :
    opDiagModify.body s q = { st := s.withDev (d.writeWord (diagUnit (q.par 0)) (diagInst (q.par 0)) (diagOfs (q.par 0))
      ((v &&& ~~~(q.par 1)) ||| (q.par 2 &&& q.par 1))), words := [v] } := by
  simp only [opDiagModify, hread]
  exact State.diag_pass hdie firstErr_nil hmap

/-- DIAG_READ answers the words read, with the effects of their reads (R62). -/
theorem exec_diagRead {p : Packet} {s t : State} {q : QPacket} {ws : List Word} (h : Ready opDiagRead p s q)
    (hdie : s.dev.diagDie q.pkt.unit = .go) (hresv : q.resv 1 0x1FF = false) (hlo : 1 ≤ q.f 1 8 0) (hhi : q.f 1 8 0 ≤ 256)
    (hmap : rangeMapped q.pkt.unit (diagOfs (q.par 0)) (q.f 1 8 0) = true)
    (hread : State.readWords (diagUnit (q.par 0)) (diagInst (q.par 0)) (diagOfs (q.par 0)) (q.f 1 8 0) s = (ws, t)) (hfit : q.holds ws.length) :
    exec (.diagRead p) s = .next (t.finish q stOk 0 ws) :=
  congrArg Host.Outcome.next (row_done h (opDiagRead_body hdie hresv hlo hhi hmap hread) rfl hfit (.inl rfl))

/-- DIAG_WRITE writes its words in ascending order (R62). -/
theorem exec_diagWrite {p : Packet} {s : State} {q : QPacket} (h : Ready opDiagWrite p s q) (hdie : s.dev.diagDie q.pkt.unit = .go)
    (hresv : q.resv 1 0x1FF = false) (hlo : 1 ≤ q.f 1 8 0) (hhi : q.f 1 8 0 ≤ 256) (hlen : q.n = 2 + q.f 1 8 0)
    (hmap : rangeMapped q.pkt.unit (diagOfs (q.par 0)) (q.f 1 8 0) = true) :
    exec (.diagWrite p) s =
      .next ((s.withDev (s.dev.writeWords (diagUnit (q.par 0)) (diagInst (q.par 0)) (q.from' 2) (diagOfs (q.par 0)))).finish q stOk 0 []) :=
  congrArg Host.Outcome.next (row_done h (opDiagWrite_body hdie hresv hlo hhi hlen hmap) rfl (q.holds_short (by simp)) (.inl rfl))

/-- DIAG_MODIFY reads the word, writes its masked bits and answers the old value (R62). -/
theorem exec_diagModify {p : Packet} {s : State} {q : QPacket} {v : Word} {d : Dev} (h : Ready opDiagModify p s q)
    (hdie : s.dev.diagDie q.pkt.unit = .go) (hmap : rangeMapped q.pkt.unit (diagOfs (q.par 0)) 1 = true)
    (hread : s.readWord (diagUnit (q.par 0)) (diagInst (q.par 0)) (diagOfs (q.par 0)) = (v, d)) :
    exec (.diagModify p) s = .next ((s.withDev (d.writeWord (diagUnit (q.par 0)) (diagInst (q.par 0)) (diagOfs (q.par 0))
      ((v &&& ~~~(q.par 1)) ||| (q.par 2 &&& q.par 1)))).finish q stOk 0 [v]) :=
  congrArg Host.Outcome.next (row_done h (opDiagModify_body hdie hmap hread) rfl (q.holds_short (by simp)) (.inl rfl))

/-! The single register accesses (R7). -/

section SingleAccess
variable {s : State} (hub : s.dev.hubUp = true)
include hub

theorem exec_qmonLevelRead_hub : exec (.qmonLevelRead false) s = .next (s.readOut 0x01 0 0x204) :=
  congrArg Host.Outcome.next (if_neg (by simp [hub]))

theorem exec_qmonLevelRead_ctl (ctl : s.dev.ctlUp = true) : exec (.qmonLevelRead true) s = .next (s.readOut 0x02 0 0x204) :=
  congrArg Host.Outcome.next (if_neg (by simp [hub, ctl]))

theorem exec_freeLowRead : exec .freeLowRead s = .next (s.readOut 0x01 0 0x608) :=
  congrArg Host.Outcome.next (if_pos hub)

theorem exec_minSlackRead (ctl : s.dev.ctlUp = true) : exec .minSlackRead s = .next (s.readOut 0x23 0 0x0C) :=
  congrArg Host.Outcome.next (if_pos (by simp [hub, ctl]))

theorem exec_maxGlideUsRead : exec .maxGlideUsRead s = .next (s.readOut 0x51 0 0x08) :=
  congrArg Host.Outcome.next (if_pos hub)

/-- An address below 0x0100_0000 is an offset in BAR0. -/
theorem exec_registerWrite_bar {a v : Word} (hunit : diagUnit a = 0) :
    exec (.registerWrite a v) s = .next (s.withDev (s.dev.barWrite a.toNat v)) :=
  congrArg Host.Outcome.next ((if_neg (by simp [hub])).trans (if_pos hunit))

/-- Any other address names a word of a unit's page. -/
theorem exec_registerWrite_unit {a v : Word} (hunit : diagUnit a ≠ 0) (hpage : pageExists (diagUnit a) (diagInst a) = true)
    (hword : wordMapped (diagUnit a) (diagOfs a) = true) (hdie : s.dev.diagDie (diagUnit a) = .go) :
    exec (.registerWrite a v) s = .next (s.withDev (s.dev.writeWord (diagUnit a) (diagInst a) (diagOfs a) v)) :=
  congrArg Host.Outcome.next ((if_neg (by simp [hub])).trans ((if_neg hunit).trans (if_pos (by simp [hpage, hword, hdie]))))

end SingleAccess

/-! The test access port (R433). -/

/-- The device with the levels of TCK and TRST_N as an edge leaves them. -/
def Dev.tapPins (d : Dev) (tck trstN : Bool) : Dev := { d with tap := { d.tap with tck := tck, trstN := trstN } }

/-- TRST_N low holds the TAP in reset (R425), whatever TCK does. -/
theorem exec_tckEdge_reset {s : State} {r tms tdi : Bool} :
    exec (.tckEdge r tms tdi false) s = .next (s.withDev { s.dev.tapPins r false with tap := (s.dev.tapPins r false).tap.reset }) := rfl

/-- A level that TCK already has is no edge. -/
theorem exec_tckEdge_level {s : State} {tms tdi : Bool} :
    exec (.tckEdge s.dev.tap.tck tms tdi true) s = .next (s.withDev (s.dev.tapPins s.dev.tap.tck true)) :=
  congrArg (fun d => Host.Outcome.next (s.withDev d)) ((if_neg Bool.false_ne_true).trans (if_pos (by simp)))

theorem exec_tckEdge_rise {s : State} {tms tdi : Bool} (hlow : s.dev.tap.tck ≠ true) :
    exec (.tckEdge true tms tdi true) s = .next (s.withDev ((s.dev.tapPins true true).tapRise tms tdi)) :=
  congrArg (fun d => Host.Outcome.next (s.withDev d)) ((if_neg Bool.false_ne_true).trans ((if_neg (by simp [hlow])).trans (if_pos rfl)))

theorem exec_tckEdge_fall {s : State} {tms tdi : Bool} (hhigh : s.dev.tap.tck ≠ false) :
    exec (.tckEdge false tms tdi true) s =
      .next (s.withDev { s.dev.tapPins false true with tap := (s.dev.tapPins false true).tap.fall s.dev.power.resetN }) :=
  congrArg (fun d => Host.Outcome.next (s.withDev d)) ((if_neg Bool.false_ne_true).trans ((if_neg (by simp [hhigh])).trans (if_neg Bool.false_ne_true)))

/-- Settles O35: each packet by the checks that its hypotheses let pass, each single access and each kind of TCK edge by its case. -/
theorem diagnosticAndRegisterCommandsComplete : Obligations.DiagnosticAndRegisterCommandsComplete := by
  unfold Obligations.DiagnosticAndRegisterCommandsComplete
  refine ⟨?read, ?write, ?modify, ?single, ?register, ?tap⟩
  case read =>
    rintro p s q _ _ h hdie rfl rfl hresv hlo hhi hmap ws t hread hfit
    exact exec_diagRead h hdie hresv hlo hhi hmap hread hfit
  case write =>
    rintro p s q _ _ h hdie rfl rfl hresv hlo hhi hlen hmap
    exact exec_diagWrite h hdie hresv hlo hhi hlen hmap
  case modify =>
    rintro p s q _ v d h hdie rfl hmap hread
    exact exec_diagModify h hdie hmap hread
  case single =>
    intro s hub
    exact ⟨exec_qmonLevelRead_hub hub, exec_qmonLevelRead_ctl hub, exec_freeLowRead hub, exec_minSlackRead hub, exec_maxGlideUsRead hub⟩
  case register =>
    intro s a v hub
    exact ⟨exec_registerWrite_bar hub, exec_registerWrite_unit hub⟩
  case tap =>
    rintro s r tms tdi d t rfl
    refine ⟨?reset, ?level, ?rise, ?fall⟩
    case reset => rintro rfl; exact exec_tckEdge_reset
    case level => rintro rfl rfl; exact exec_tckEdge_level
    case rise => rintro rfl hedge rfl; exact exec_tckEdge_rise hedge
    case fall => rintro rfl hedge rfl; exact exec_tckEdge_fall hedge

end Sys2Proof.Machine
end

section
/-! The event router and the recorder (chapter 17), the control frame (chapter 01), and the defaults that reset leaves. -/

namespace Sys2Proof.Machine

open Sys2Proof Sys2Proof.Bits

/-! The event router (R23, R24): what is delivered, and what delivering leaves. -/

@[simp] theorem EvRouter.accept_routes (r : EvRouter) (e : EventRec) : (r.accept e).routes = r.routes := by
  unfold EvRouter.accept
  split
  · rfl
  · split
    · rfl
    · split <;> rfl

theorem EvRouter.accept_room {r : EvRouter} (e : EventRec) (room : r.queue.length < 512) : r.accept e = { r with queue := r.queue ++ [e] } :=
  if_pos room

@[simp] theorem Dev.raiseIf_routes (d : Dev) (c : Bool) (code source : Nat) (sev : Severity) (data : Nat) :
    (d.raiseIf c code source sev data).evr.routes = d.evr.routes := by
  cases c
  · rfl
  · exact EvRouter.accept_routes _ _

@[simp] theorem Dev.record_routes (d : Dev) (code source : BitVec 16) (data : BitVec 64) (origin : Option (BitVec 8)) (crit start : Bool) :
    (d.record code source data origin crit start).evr.routes = d.evr.routes := Dev.raiseIf_routes _ _ _ _ _ _

@[simp] theorem Dev.mergeRep_evr (d : Dev) (n : Nat) : (d.mergeRep n).evr = d.evr := by
  unfold Dev.mergeRep
  split <;> rfl

@[simp] theorem Dev.deliver_zero (fuel : Nat) (d : Dev) (e : EventRec) : Dev.deliver fuel d e 0 = d := by
  cases fuel with
  | zero => rfl
  | succ fuel => exact if_pos rfl

@[simp] theorem Dev.deliver_routes (fuel : Nat) (d : Dev) (e : EventRec) (n : Nat) : (Dev.deliver fuel d e n).evr.routes = d.evr.routes := by
  induction fuel generalizing d n with
  | zero => rfl
  | succ fuel ih =>
    unfold Dev.deliver
    split
    · rfl
    · split <;> simp [ih]

theorem Recorder.merges_iff {r : Recorder} {e : EventRec} : r.merges e = true ↔
    ∃ h, r.head = some h ∧ h.code = e.code ∧ h.source = e.source ∧ h.data = e.data ∧ h.origin = e.origin ∧ h.rep < 65535 := by
  unfold Recorder.merges
  cases r.head with
  | none => simp
  | some h => simp [and_assoc]

/-- One occurrence that the newest record absorbs is one repeat (R365). -/
theorem Dev.deliver_one_merge {d : Dev} {e : EventRec} (fuel : Nat) (hmerge : d.recorder.merges e = true) :
    Dev.deliver (fuel + 1) d e 1 = d.mergeRep 1 := by
  obtain ⟨h, hhead, -, -, -, -, hrep⟩ := Recorder.merges_iff.mp hmerge
  have hone : min 1 (65535 - h.rep) = 1 := by omega
  simp [Dev.deliver, hmerge, hhead, hone]

/-- One occurrence that the newest record does not absorb is one new record (R364). -/
theorem Dev.deliver_one_new {d : Dev} {e : EventRec} (fuel : Nat) (hmerge : d.recorder.merges e = false) :
    Dev.deliver (fuel + 1) d e 1 = d.record e.code e.source e.data e.origin (e.sev = .crit) false := by
  simp [Dev.deliver, hmerge]

theorem Dev.mergeRep_head {d : Dev} {h : Record} (n : Nat) (hhead : d.recorder.head = some h) :
    ∃ mac, (d.mergeRep n).recorder.head = some { h with rep := h.rep + n, mac := mac } := by
  unfold Dev.mergeRep
  rw [hhead]
  exact ⟨_, rfl⟩

theorem Dev.record_head (d : Dev) (code source : BitVec 16) (data : BitVec 64) (origin : Option (BitVec 8)) (crit start : Bool) :
    ∃ mac, (d.record code source data origin crit start).recorder.head =
      some { seq := if d.recorder.ever then d.recorder.headSeq + 1 else 1, opTime := d.recorder.opTime, cycles := d.recorder.cycles,
             subSec := d.recorder.opSub, code := code, source := source, data := data, origin := origin, mac := mac } :=
  ⟨_, congrArg Recorder.head (Dev.raiseIf_recorder _ _ _ _ _ _)⟩

/-- An event below its class's least severity is notified to no one (Table 01-10). -/
theorem Dev.notify_below {d : Dev} {e : EventRec} (below : e.sev.num < (d.evr.routes.rd (e.code.toNat / 256)).minSev.toNat) : d.notify e = d :=
  if_pos below

/-- The device with the router's queue `es`. -/
def Dev.setEvQueue (d : Dev) (es : List EventRec) : Dev := { d with evr := { d.evr with queue := es } }

/-- A single event below its class's least severity ends with the recorder that took it. -/
theorem exec_eventRoute_below {s : State} {e : EventRec} {es : List EventRec} (hub : s.dev.hubUp = true) (hqueue : s.dev.evr.queue = e :: es)
    (hreps : e.reps = 0) (below : e.sev.num < (s.dev.evr.routes.rd (e.code.toNat / 256)).minSev.toNat) :
    ∃ t, exec .eventRoute s = .next t ∧ t.dev.recorder = (Dev.deliver 3 (s.dev.setEvQueue es) e 1).recorder := by
  refine ⟨_, congrArg Host.Outcome.next (if_pos hub), ?_⟩
  have hnotify : (Dev.deliver 3 (s.dev.setEvQueue es) e 1).notify e = Dev.deliver 3 (s.dev.setEvQueue es) e 1 :=
    Dev.notify_below (by rw [Dev.deliver_routes]; exact below)
  simp only [hqueue, hreps]
  exact congrArg Dev.recorder hnotify

/-- EVENT_ROUTE of an event that the newest record absorbs (R365). -/
theorem exec_eventRoute_merge {s : State} {e : EventRec} {es : List EventRec} (hub : s.dev.hubUp = true) (hqueue : s.dev.evr.queue = e :: es)
    (hreps : e.reps = 0) (below : e.sev.num < (s.dev.evr.routes.rd (e.code.toNat / 256)).minSev.toNat) (hmerge : s.dev.recorder.merges e = true) :
    ∃ t h mac, exec .eventRoute s = .next t ∧ s.dev.recorder.head = some h ∧ h.code = e.code ∧ h.source = e.source ∧ h.data = e.data ∧
      h.origin = e.origin ∧ t.dev.recorder.head = some { h with rep := h.rep + 1, mac := mac } := by
  obtain ⟨t, hexec, hrec⟩ := exec_eventRoute_below hub hqueue hreps below
  obtain ⟨h, hhead, hcode, hsource, hdata, horigin, -⟩ := Recorder.merges_iff.mp hmerge
  obtain ⟨mac, hnew⟩ := Dev.mergeRep_head (d := s.dev.setEvQueue es) 1 hhead
  refine ⟨t, h, mac, hexec, hhead, hcode, hsource, hdata, horigin, ?_⟩
  rw [hrec, Dev.deliver_one_merge (d := s.dev.setEvQueue es) 2 hmerge, hnew]

/-- EVENT_ROUTE of an event that the newest record does not absorb (R364). -/
theorem exec_eventRoute_new {s : State} {e : EventRec} {es : List EventRec} (hub : s.dev.hubUp = true) (hqueue : s.dev.evr.queue = e :: es)
    (hreps : e.reps = 0) (below : e.sev.num < (s.dev.evr.routes.rd (e.code.toNat / 256)).minSev.toNat) (hmerge : s.dev.recorder.merges e = false) :
    ∃ t mac, exec .eventRoute s = .next t ∧ t.dev.recorder.head =
      some { seq := if s.dev.recorder.ever then s.dev.recorder.headSeq + 1 else 1, opTime := s.dev.recorder.opTime, cycles := s.dev.recorder.cycles,
             subSec := s.dev.recorder.opSub, code := e.code, source := e.source, data := e.data, origin := e.origin, mac := mac } := by
  obtain ⟨t, hexec, hrec⟩ := exec_eventRoute_below hub hqueue hreps below
  obtain ⟨mac, hnew⟩ := Dev.record_head (s.dev.setEvQueue es) e.code e.source e.data e.origin (e.sev = .crit) false
  refine ⟨t, mac, hexec, ?_⟩
  rw [hrec, Dev.deliver_one_new (d := s.dev.setEvQueue es) 2 hmerge]
  exact hnew

/-- EVR_QUEUE_DRAIN reports the lost events as the router's youngest event (R24). -/
theorem exec_evrQueueDrain {s : State} (hub : s.dev.hubUp = true) (hlost : 0 < s.dev.evr.lost) (hheld : s.dev.evr.held = [])
    (room : s.dev.evr.queue.length < 512) :
    exec .evrQueueDrain s = .next (s.withDev ({ s.dev with evr := { s.dev.evr with lost := 0, queue := s.dev.evr.queue ++
      [{ code := 0x0104, source := 0x0100, sev := .warn, data := BitVec.ofNat 64 (s.dev.evr.lost % 2 ^ 32) }] } })) :=
  congrArg Host.Outcome.next ((if_pos (by simp [hub, hlost, hheld, room])).trans
    (congrArg (fun x => s.withDev { s.dev with evr := x }) (EvRouter.accept_room (r := { s.dev.evr with lost := 0 }) _ room)))

/-! The recorder's packets (Table 17-2). -/

/-- The checks of REC_READ by SEQUENCE pass. -/
theorem opRecRead_body {s : State} {q : QPacket} {rs : List Record} (hresv : q.resv 1 0x703FF = false) (hregion : q.f 1 18 17 ≠ 3)
    (hlo : 1 ≤ q.f 1 9 0) (hhi : q.f 1 9 0 ≤ recCountMax q.pkt.transport) (hslot : q.b 1 16 = false)
    (hfirst : (q.par 0 - s.dev.recorder.headSeq).toNat = 0 ∨ 2 ^ 31 < (q.par 0 - s.dev.recorder.headSeq).toNat)
    (hrs : rs = ((s.dev.recorder.held (q.f 1 18 17)).filter (fun x =>
      decide ((s.dev.recorder.headSeq - x.seq).toNat ≤ (s.dev.recorder.headSeq - q.par 0).toNat))).take (q.f 1 9 0)) :
    opRecRead.body s q = { st := s.withDev (s.dev.markRead rs)
                           words := [pack [(rs.length, 0), (b1 (!((s.dev.recorder.held (q.f 1 18 17)).any (fun x => x.seq = q.par 0))), 16)],
                             s.dev.recorder.headSeq, w32 (natLE (s.dev.recorder.headMac.take 4)),
                             w32 (natLE (s.dev.recorder.headMac.drop 4))] ++ rs.flatMap Record.words } := by
  have hpresent : ¬(1 ≤ (q.par 0 - s.dev.recorder.headSeq).toNat ∧ (q.par 0 - s.dev.recorder.headSeq).toNat ≤ 2 ^ 31) := by omega
  have hchecks : firstErr [encIf (q.resv 1 0x703FF || decide (q.f 1 18 17 = 3)) 1,
      rangeIf (outside (q.f 1 9 0) 1 (recCountMax q.pkt.transport)) 1, rangeIf (q.b 1 16 && decide (8191 < (q.par 0).toNat)) 0] = none := by
    simp [encIf, rangeIf, hresv, hregion, hslot, outside_eq_false_iff.mpr ⟨hlo, hhi⟩]
  refine (guarded_pass hchecks).trans ?_
  simp only [hslot, hpresent, hrs]
  rfl

theorem exec_recRead {p : Packet} {s : State} {q : QPacket} {rs : List Record} (h : Ready opRecRead p s q) (hresv : q.resv 1 0x703FF = false)
    (hregion : q.f 1 18 17 ≠ 3) (hlo : 1 ≤ q.f 1 9 0) (hhi : q.f 1 9 0 ≤ recCountMax p.transport) (hslot : q.b 1 16 = false)
    (hfirst : (q.par 0 - s.dev.recorder.headSeq).toNat = 0 ∨ 2 ^ 31 < (q.par 0 - s.dev.recorder.headSeq).toNat)
    (hrs : rs = ((s.dev.recorder.held (q.f 1 18 17)).filter (fun x =>
      decide ((s.dev.recorder.headSeq - x.seq).toNat ≤ (s.dev.recorder.headSeq - q.par 0).toNat))).take (q.f 1 9 0))
    (hfit : q.holds (4 + (rs.flatMap Record.words).length)) :
    exec (.recRead p) s = .next ((s.withDev (s.dev.markRead rs)).finish q stOk 0
      ([pack [(rs.length, 0), (b1 (!((s.dev.recorder.held (q.f 1 18 17)).any (fun x => x.seq = q.par 0))), 16)], s.dev.recorder.headSeq,
        w32 (natLE (s.dev.recorder.headMac.take 4)), w32 (natLE (s.dev.recorder.headMac.drop 4))] ++ rs.flatMap Record.words)) := by
  rw [← h.pkt] at hhi
  exact congrArg Host.Outcome.next
    (row_done h (opRecRead_body hresv hregion hlo hhi hslot hfirst hrs) rfl (by rw [List.length_append]; exact hfit) (.inl rfl))

/-- REC_STATUS answers the words 0x0000 to 0x001C of the recorder's page. -/
theorem exec_recStatus {p : Packet} {s : State} {q : QPacket} (h : Ready opRecStatus p s q) :
    exec (.recStatus p) s = .next (s.finish q stOk 0 ((List.range 8).map (fun i => s.dev.recWord (4 * i)))) :=
  congrArg Host.Outcome.next (row_done h rfl rfl (q.holds_short (by simp)) (.inl rfl))

theorem opRecMark_body {s : State} {q : QPacket} (hresv : q.resv 0 0xFFFF = false) :
    opRecMark.body s q = .ok s (s.dev.raise 0x4110 (q.f 0 15 0) .info ((q.par 1).toNat + 2 ^ 32 * (q.par 2).toNat)) :=
  guarded_pass (firstErr_cons_none.mpr ⟨hresv, firstErr_nil⟩)

theorem exec_recMark {p : Packet} {s : State} {q : QPacket} (h : Ready opRecMark p s q) (hresv : q.resv 0 0xFFFF = false) :
    exec (.recMark p) s = .next ((s.withDev (s.dev.raise 0x4110 (q.f 0 15 0) .info ((q.par 1).toNat + 2 ^ 32 * (q.par 2).toNat))).finish q stOk 0 []) :=
  congrArg Host.Outcome.next (row_done h (opRecMark_body hresv) rfl (q.holds_short (by simp)) (.inl rfl))

/-! The saves to eMRAM (R362, R365) and the page's write (Table 17-3). -/

theorem exec_repeatFlush {s : State} {h : Record} (hhead : s.dev.recorder.head = some h) (on : s.dev.power.on = true)
    (changed : h.rep ≠ s.dev.recorder.headSaved) :
    exec .repeatFlush s = .next (s.withDev ({ s.dev.pass (s.dev.recorder.toMultiple 1) with
      recorder := { (s.dev.pass (s.dev.recorder.toMultiple 1)).recorder with headSaved := h.rep } })) := by
  change execRepeatFlush s = _
  simp [execRepeatFlush, hhead, on, changed]

theorem exec_opTimeSave {s : State} (on : s.dev.power.on = true) :
    exec .opTimeSave s = .next (s.withDev ({ s.dev.pass (s.dev.recorder.toMultiple 16) with
      recorder := (s.dev.pass (s.dev.recorder.toMultiple 16)).recorder.save })) :=
  congrArg Host.Outcome.next (if_neg (by simp [on]))

theorem exec_recSaturatedWrite {s : State} (v : Word) (hub : s.dev.hubUp = true) :
    exec (.recSaturatedWrite v) s =
      .next (s.withDev ({ s.dev with recorder := { s.dev.recorder with saturated := s.dev.recorder.saturated && !bit v 18 } })) :=
  congrArg Host.Outcome.next (if_pos hub)

/-- Settles O2: an event by whether the newest record absorbs it, each packet by the checks that its hypotheses let pass. -/
theorem eventRecorderCommandsComplete : Obligations.EventRecorderCommandsComplete := by
  unfold Obligations.EventRecorderCommandsComplete
  refine ⟨?route, ?drain, ?read, ?status, ?mark, ?flush, ?save, ?saturated⟩
  case route =>
    intro s e es hub hqueue hreps below
    cases hmerge : s.dev.recorder.merges e with
    | true =>
      obtain ⟨t, h, mac, hexec, hhead, hcode, hsource, hdata, horigin, hnew⟩ := exec_eventRoute_merge hub hqueue hreps below hmerge
      exact ⟨t, _, hexec, hnew, hcode, hsource, hdata, horigin, fun _ => by simp [Recorder.headSeq, hhead], by simp⟩
    | false =>
      obtain ⟨t, mac, hexec, hnew⟩ := exec_eventRoute_new hub hqueue hreps below hmerge
      exact ⟨t, _, hexec, hnew, rfl, rfl, rfl, rfl, by simp, fun _ => ⟨rfl, rfl, rfl, rfl, rfl⟩⟩
  case drain => intro s; exact exec_evrQueueDrain
  case read =>
    intro p s q rs h hresv hregion hlo hhi hslot hfirst hrs hfit
    exact exec_recRead h hresv hregion hlo hhi hslot hfirst hrs hfit
  case status => intro p s q; exact exec_recStatus
  case mark => intro p s q; exact exec_recMark
  case flush => intro s h; exact exec_repeatFlush
  case save => intro s; exact exec_opTimeSave
  case saturated => intro v s; exact exec_recSaturatedWrite v

/-! The control frame (chapter 01): what its parts leave as it was. -/

@[simp] theorem Dev.freeSnap_frame (d : Dev) : d.freeSnap.frame = d.frame := rfl
@[simp] theorem Dev.applySizes_frame (d : Dev) : d.applySizes.frame = d.frame := rfl
@[simp] theorem Dev.atBoundary_frame (d : Dev) : d.atBoundary.frame = d.frame := by simp [Dev.atBoundary]

@[simp] theorem Dev.schedule_state (d : Dev) (n : Nat) : (d.schedule n).frame.state = d.frame.state := by
  unfold Dev.schedule
  split
  · split <;> rfl
  · rfl

@[simp] theorem Dev.schedule_maxFrameRun (d : Dev) (n : Nat) : (d.schedule n).frame.maxFrameRun = d.frame.maxFrameRun := by
  unfold Dev.schedule
  split
  · split <;> rfl
  · rfl

/-- The points of frame `n` are captured at `t`, and its generation is pinned (R30). -/
def Dev.captureFrame (d : Dev) (n t : Nat) : Dev :=
  let cap := d.points.capture (BitVec.ofNat 16 (n % 32768)) false t
  { d with points := { cap with gens := cap.gens.map (fun g =>
      if g.gen = BitVec.ofNat 16 (n % 32768) ∧ !g.requested then { g with pinned := true } else g) } }

/-- The frame controller as frame `n` starts at `t` (R25); `prior` is the state that it had before. -/
def FrameCtl.start (f : FrameCtl) (prior : FrameState) (n t : Nat) : FrameCtl :=
  { f with
    state := if f.state = .stopped then .running else f.state, frameNum := n, everRun := true, phase := .snapshot, tN := t
    maxFrameRun := max f.maxFrameRun n, firstRun := if prior = .stopped then n else f.firstRun, resumeAt := 0 }

@[simp] theorem Dev.captureFrame_frame (d : Dev) (n t : Nat) : (d.captureFrame n t).frame = d.frame := rfl

/-- FRAME_BOUNDARY captures the units at T_N, then starts frame N (R25, R30). -/
theorem exec_frameBoundary {s : State} {n T : Nat} {d : Dev} (up : s.dev.ctlUp = true) (hnext : s.dev.frame.nextFrame = some (n, T))
    (hd : ((s.dev.toCt T).captureFrame n T).schedule n = d) :
    exec .frameBoundary s = .next { s with
      dev := (d.setFrame (d.frame.start (s.dev.toCt T).frame.state n T)).atBoundary.freeSnap.reserve
      frameBank := { gen := some (n % 32768), dev := { s.dev.toCt T with out := [] } } } := by
  subst hd
  change execFrameBoundary s = _
  unfold execFrameBoundary
  rw [hnext]
  exact congrArg Host.Outcome.next (if_neg (by simp [up]))

/-- GENERATION_COMMIT where nothing of an earlier frame is open (R92). -/
theorem exec_generationCommit {s : State} (up : s.dev.ctlUp = true) (ran : s.dev.frame.everRun = true)
    (fresh : s.dev.frame.genCommitted < s.dev.frame.frameNum) (idle : s.dev.piste.cursor = none) (held0 : s.dev.piste.held0 = none)
    (held1 : s.dev.piste.held1 = none) (committed : s.dev.coord.committed = true) (noSwap : s.dev.swapAt s.dev.frame.frameNum = false) :
    exec .generationCommit s = .next (s.withDev ((s.dev.exportPoints s.dev.frame.frameNum).beginAssembly s.dev.frame.frameNum)) :=
  congrArg Host.Outcome.next (if_neg (by simp [up, ran, fresh, idle, held0, held1, committed, noSwap]))

/-- FRAME_DEADLINE of a device that does not decide by itself (R150). -/
theorem exec_frameDeadline {s : State} (up : s.dev.ctlUp = true) (running : s.dev.coord.committed = false) (below : s.dev.coord.asTop = false) :
    exec .frameDeadline s =
      .next (s.withDev ((s.dev.toCt s.dev.coord.dN).commitFrame true s.dev.coord.round (s.dev.toCt s.dev.coord.dN).now)) := by
  change execFrameDeadline s = _
  simp [execFrameDeadline, up, running, below]

theorem exec_frameCheckpoint {s : State} {n : Nat} {recs : Tbl WarmRec} {rest : List (Nat × Tbl WarmRec)} {d : Dev} (up : s.dev.ctlUp = true)
    (htodo : s.dev.jobs.toCkpt = (n, recs) :: rest) (hrecs : ({ s.dev with jobs := { s.dev.jobs with toCkpt := rest } } : Dev).writeRecs n recs = d) :
    exec .frameCheckpoint s =
      .next (s.withDev ((((d.setFrame { d.frame with checkpointed := n }).phaseOf n .done).writeBank (n % 2) n).stopAfter n)) := by
  change execFrameCheckpoint s = _
  simp [execFrameCheckpoint, htodo, up, hrecs]

theorem exec_stoppedCheckpoint {s : State} {t0 t1 : Nat} (up : s.dev.ctlUp = true) (stopped : s.dev.frame.state = .stopped)
    (h0 : (s.dev.twin.ckpt.rd 0).time = t0) (h1 : (s.dev.twin.ckpt.rd 1).time = t1) :
    exec .stoppedCheckpoint s = .next (s.withDev ((if t0 = 0 ∧ t1 = 0 then s.dev else s.dev.toCt (max t0 t1 + 1000000000)).writeBank
      (if t1 < t0 then 1 else 0) s.dev.frame.frameNum)) := by
  change execStoppedCheckpoint s = _
  simp [execStoppedCheckpoint, up, stopped, h0, h1, apply_ite Dev.frame]

/-! The packets of the control frame (Table 01-13). -/

/-- FRAME_SET from STOPPED: the schedule is pending and the packet waits for its stream record (R31, R282). -/
theorem opFrameSet_body {s : State} {q : QPacket} {a : Nat} (hresv0 : q.resv 0 0xFFFF = false) (hresv2 : q.resv 2 0xFFFF = false)
    (hlo : 10 ≤ q.f 0 15 0) (hhi : q.f 0 15 0 ≤ 60000) (hanchor : nearEra s.dev.now (q.par 1) (q.f 2 15 0) = (a : Int))
    (stopped : s.dev.frame.state = .stopped) (hahead : s.dev.now + 10000000 ≤ a)
    (hfresh : s.dev.frame.everRun = true → s.dev.frame.maxFrameRun < (q.par 3).toNat) (hmanager : s.dev.fromManager q = true)
    (hlp : s.dev.power.lp ≠ .quiesce) :
    opFrameSet.body s q = { st := s.withDev { s.dev with
      frame := { s.dev.frame with pendingSet := some { len := q.f 0 15 0, anchor := a, anchorFrame := (q.par 3).toNat }, awaitSet := false },
      twin := { s.dev.twin with waiting := s.dev.twin.waiting ++ [{ q with started := true }] } }, later := true } := by
  have hnumber : ¬((q.par 3).toNat ≤ s.dev.frame.maxFrameRun ∧ s.dev.frame.everRun = true) := fun h => by have := hfresh h.2; omega
  have hearly : ¬a < s.dev.now + 10000000 := Nat.not_lt.mpr hahead
  refine (guarded_pass ?checks).trans ?answer
  case checks =>
    simp [firstErr_cons_none, encIf, rangeIf, conflictIf, stateIf, hresv0, hresv2, outside_eq_false_iff.mpr ⟨hlo, hhi⟩, hanchor, stopped, hearly,
      hnumber, hmanager, hlp]
  case answer => simp [hanchor, Dev.setFrame]

theorem exec_frameSet {p : Packet} {s : State} {q : QPacket} {a : Nat} (h : Ready opFrameSet p s q) (hresv0 : q.resv 0 0xFFFF = false)
    (hresv2 : q.resv 2 0xFFFF = false) (hlo : 10 ≤ q.f 0 15 0) (hhi : q.f 0 15 0 ≤ 60000)
    (hanchor : nearEra s.dev.now (q.par 1) (q.f 2 15 0) = (a : Int)) (stopped : s.dev.frame.state = .stopped) (hahead : s.dev.now + 10000000 ≤ a)
    (hfresh : s.dev.frame.everRun = true → s.dev.frame.maxFrameRun < (q.par 3).toNat) (hmanager : s.dev.fromManager q = true)
    (hlp : s.dev.power.lp ≠ .quiesce) :
    exec (.frameSet p) s = .next ((s.withDev { s.dev with
      frame := { s.dev.frame with pendingSet := some { len := q.f 0 15 0, anchor := a, anchorFrame := (q.par 3).toNat }, awaitSet := false },
      twin := { s.dev.twin with waiting := s.dev.twin.waiting ++ [{ q with started := true }] } }).started q) :=
  congrArg Host.Outcome.next (row_later h (opFrameSet_body hresv0 hresv2 hlo hhi hanchor stopped hahead hfresh hmanager hlp) rfl
    (q.holds_short (by simp)) rfl)

theorem opFrameStop_body_stopped {s : State} {q : QPacket} (hmanager : s.dev.fromManager q = true) (stopped : s.dev.frame.state = .stopped) :
    opFrameStop.body s q = { st := s, status := stOkNoChange } :=
  (guarded_pass (firstErr_cons_none.mpr ⟨by simp [hmanager], firstErr_nil⟩)).trans (if_pos stopped)

/-- FRAME_STOP at a frame that is still to come (R32). -/
theorem opFrameStop_body_ahead {s : State} {q : QPacket} {d : Dev} (hmanager : s.dev.fromManager q = true) (running : s.dev.frame.state ≠ .stopped)
    (hahead : s.dev.frame.frameNum < (q.par 0).toNat)
    (hd : (s.dev.setFrame { s.dev.frame with state := .stopping, stopFrame := some (q.par 0).toNat }).abortSnap = d) :
    opFrameStop.body s q =
      { st := s.withDev { d with twin := { d.twin with waiting := d.twin.waiting ++ [{ q with started := true }] } }, later := true } := by
  have hframe : (q.par 0).toNat ≠ 0 := by omega
  have hrange : ¬(q.par 0).toNat < s.dev.frame.frameNum := by omega
  have hdone : ¬((q.par 0).toNat = s.dev.frame.frameNum ∧ s.dev.frame.checkpointed = (q.par 0).toNat) := by omega
  refine (guarded_pass (firstErr_cons_none.mpr ⟨by simp [hmanager], firstErr_nil⟩)).trans ((if_neg running).trans ?_)
  simp only [hframe, if_false, hrange, hdone, decide_false, hd]
  rfl

theorem exec_frameStop_stopped {p : Packet} {s : State} {q : QPacket} (h : Ready opFrameStop p s q) (hmanager : s.dev.fromManager q = true)
    (stopped : s.dev.frame.state = .stopped) : exec (.frameStop p) s = .next (s.finish q stOkNoChange 0 []) :=
  congrArg Host.Outcome.next (row_done h (opFrameStop_body_stopped hmanager stopped) rfl (q.holds_short (by simp)) (.inl rfl))

theorem exec_frameStop_ahead {p : Packet} {s : State} {q : QPacket} {d : Dev} (h : Ready opFrameStop p s q) (hmanager : s.dev.fromManager q = true)
    (running : s.dev.frame.state ≠ .stopped) (hahead : s.dev.frame.frameNum < (q.par 0).toNat)
    (hd : (s.dev.setFrame { s.dev.frame with state := .stopping, stopFrame := some (q.par 0).toNat }).abortSnap = d) :
    exec (.frameStop p) s =
      .next ((s.withDev { d with twin := { d.twin with waiting := d.twin.waiting ++ [{ q with started := true }] } }).started q) :=
  congrArg Host.Outcome.next (row_later h (opFrameStop_body_ahead hmanager running hahead hd) rfl (q.holds_short (by simp)) rfl)

theorem exec_frameStatus {p : Packet} {s : State} {q : QPacket} (h : Ready opFrameStatus p s q) :
    exec (.frameStatus p) s = .next (s.finish q stOk 0 s.dev.frame.words) :=
  congrArg Host.Outcome.next (row_done h rfl rfl (q.holds_short (by simp [FrameCtl.words])) (.inl rfl))

/-- Settles O3: each row of the frame by the branch that its hypotheses select, each packet by the checks that they let pass. -/
theorem controlFrameCommandsComplete : Obligations.ControlFrameCommandsComplete := by
  unfold Obligations.ControlFrameCommandsComplete
  refine ⟨?boundary, ?generation, ?deadline, ?checkpoint, ?stoppedCheckpoint, ?frameSet, ?frameStop, ?frameStatus⟩
  case boundary =>
    intro s n T up hnext
    refine ⟨_, exec_frameBoundary up hnext rfl, rfl, rfl, ?_⟩
    simp [FrameCtl.start]
  case generation => intro s; exact exec_generationCommit
  case deadline => intro s; exact exec_frameDeadline
  case checkpoint => intro s n recs rest d; exact exec_frameCheckpoint
  case stoppedCheckpoint => intro s t0 t1; exact exec_stoppedCheckpoint
  case frameSet =>
    intro p s q a h hresv0 hresv2 hlo hhi hanchor stopped hahead hfresh hmanager hlp
    exact exec_frameSet h hresv0 hresv2 hlo hhi hanchor stopped hahead hfresh hmanager hlp
  case frameStop =>
    intro p s q h hmanager
    exact ⟨exec_frameStop_stopped h hmanager, fun d => exec_frameStop_ahead h hmanager⟩
  case frameStatus => intro p s q; exact exec_frameStatus

/-! What reset leaves: dies and tables at their defaults. -/

theorem State.reset_ctl (k : Nat) : State.reset.dev.ctl k = {} := rfl
theorem State.reset_fld (k : Nat) : State.reset.dev.fld k = {} := rfl
theorem State.reset_lastSeq (i : Nat) : State.reset.dev.host.lastSeq.rd i = 0 := rfl

/-- Settles O56: at reset every unit holds its default, and an unwritten entry of a table reads as the default of its type. -/
theorem resetLeavesTheDefaults : Obligations.ResetLeavesTheDefaults := by
  unfold Obligations.ResetLeavesTheDefaults
  refine ⟨rfl, by decide, rfl, rfl, rfl, ?dies, ?outputs, ?sequences, rfl, rfl, rfl, rfl, rfl, rfl, rfl, rfl, rfl⟩
  case dies => intro k; rw [State.reset_ctl]
  case outputs =>
    intro k
    rw [State.reset_fld]
    exact ⟨rfl, fun c => rfl⟩
  case sequences => intro t k; exact State.reset_lastSeq _

end Sys2Proof.Machine
end

section
/-! The command interpreter (R40 to R48): how a packet joins its queue, when it may start, what its sequence number must be, and how CHECK_ONLY and
AT_SNAPSHOT packets end. -/

namespace Sys2Proof.Machine

open Sys2Proof Sys2Proof.Bits

/-- A command that is a packet runs the interpreter with its row of Table 02-20. -/
theorem exec_packetOf {c : Instr} {op : Op} {p : Packet} (h : packetOf c = some (op, p)) (s : State) : exec c s = .next (packetRow op p s) := by
  unfold packetOf at h
  split at h <;> cases h <;> rfl

/-! The order of execution (R46, R48). -/

theorem mayStart_iff {queue : List QPacket} {q : QPacket} : mayStart queue q = true ↔
    ∀ x ∈ ahead queue q, x.pkt.ordered = false ∧ q.pkt.ordered = false ∧ ¬(x.pkt.unit = q.pkt.unit ∧ x.pkt.inst = q.pkt.inst) ∧ x.unitKey ≠ q.unitKey := by
  unfold mayStart QPacket.sameUnit
  cases q.pkt.ordered with
  | true => simp [List.eq_nil_iff_forall_not_mem]
  | false => simp [-not_and, not_and_or]

theorem execQ_held {op : Op} {s : State} {q : QPacket} (held : mayStart s.dev.host.queue q = false) : execQ op s q = s :=
  if_pos (by simp [held])

/-- A packet of the row that stands in the queue is executed from there. -/
theorem packetRow_queued {op : Op} {p : Packet} {s : State} {q : QPacket} (hcode : p.opcode = op.code) (hsel : op.sel p = true)
    (hfind : s.dev.host.queue.find? (fun x => x.fresh p) = some q) : packetRow op p s = execQ op s q := by
  unfold packetRow
  rw [if_neg (by simp [hcode, hsel]), hfind]

theorem exec_stands {c : Instr} {op : Op} {p : Packet} {s : State} {q : QPacket} (hc : packetOf c = some (op, p)) (h : Stands op p s q) :
    exec c s = .next (runBody op s q) := by
  rw [exec_packetOf hc, packetRow_stands h]

/-- Settles O43: the order is that of the packets ahead; a held packet stays, any other reaches its row's meaning. -/
theorem packetsOfOneUnitRunInOrder : Obligations.PacketsOfOneUnitRunInOrder := by
  unfold Obligations.PacketsOfOneUnitRunInOrder
  refine ⟨fun _ _ => mayStart_iff, ?held, fun c op p s q => exec_stands⟩
  intro c op p s q hc hcode hsel hfind held
  rw [exec_packetOf hc, packetRow_queued hcode hsel hfind, execQ_held held]

/-! How the meaning of a packet that stands in the queue ends. -/

theorem Stands.pkt {op : Op} {p : Packet} {s : State} {q : QPacket} (h : Stands op p s q) : q.pkt = p :=
  QPacket.fresh_pkt (List.find?_some (p := fun x : QPacket => x.fresh p) h.2.2.1)

theorem Stands.params_le {op : Op} {p : Packet} {s : State} {q : QPacket} (h : Stands op p s q) : op.params ≤ q.n := h.2.2.2.2.2.2.2

theorem Ans.fits_iff {a : Ans} {q : QPacket} : a.fits q = true ↔ q.holds a.words.length := decide_eq_true_iff

section Ends
variable {op : Op} {s : State} {q : QPacket} (hparams : op.params ≤ q.n) (hwaits : (op.body s q).waits = false)
include hparams hwaits

/-- A rejection is answered with its status and detail; one of authentication is booked besides (R41). -/
theorem runBody_error (hacc : accepted (op.body s q).status = false) :
    runBody op s q = ({ (op.body s q).st with dev := (op.body s q).st.dev.bookAuthFail q.pkt (op.body s q).status } : State).finish q
      (op.body s q).status (op.body s q).detail [] := by
  unfold runBody
  rw [if_neg (by omega)]
  simp [hwaits, hacc]

/-- The reply does not fit the transport (R35). -/
theorem runBody_tooLong (hacc : accepted (op.body s q).status = true) (hlong : ¬q.holds (op.body s q).words.length) :
    runBody op s q = s.finish q stParamRange op.sizeAt [] := by
  have hfits : (op.body s q).fits q = false := Bool.eq_false_iff.mpr (mt Ans.fits_iff.mp hlong)
  unfold runBody
  rw [if_neg (by omega)]
  simp [hwaits, hacc, hfits]

section Accepted
variable (hacc : accepted (op.body s q).status = true) (hfits : (op.body s q).fits q = true)
include hacc hfits

/-- No capture is due that an AT_SNAPSHOT packet could wait for (R47). -/
theorem runBody_noCapture (hsnap : q.pkt.atSnapshot = true) (hdone : q.snapDone = false) (hdue : s.dev.captureDue = false) :
    runBody op s q = s.finish q stWrongState 0 [] := by
  unfold runBody
  rw [if_neg (by omega)]
  simp [hwaits, hacc, hfits, hsnap, hdone, hdue]

/-- An AT_SNAPSHOT packet waits in the queue for the capture that is due (R47). -/
theorem runBody_waitsCapture (hcheck : q.pkt.checkOnly = false) (hsnap : q.pkt.atSnapshot = true) (hdone : q.snapDone = false)
    (hdue : s.dev.captureDue = true) :
    runBody op s q = s.withDev { s.dev with host := { s.dev.host with queue := replaceQ q { q with waitsSnap := true } s.dev.host.queue } } := by
  unfold runBody
  rw [if_neg (by omega)]
  simp [hwaits, hacc, hfits, hcheck, hsnap, hdone, hdue]

/-- CHECK_ONLY (Table 02-1): the checks have passed, those of AT_SNAPSHOT among them. -/
theorem runBody_checkOnly (hcheck : q.pkt.checkOnly = true) (hdue : q.pkt.atSnapshot = true → q.snapDone = false → s.dev.captureDue = true) :
    runBody op s q = s.finish q stOkChecked 0 [] := by
  unfold runBody
  rw [if_neg (by omega)]
  by_cases hsnap : q.pkt.atSnapshot = true ∧ q.snapDone = false
  · simp [hwaits, hacc, hfits, hcheck, hsnap, hdue hsnap.1 hsnap.2]
  · have hgo : (q.pkt.atSnapshot && !q.snapDone) = false := by simpa using hsnap
    simp [hwaits, hacc, hfits, hcheck, hgo]

end Accepted
end Ends

/-- Settles O44: a CHECK_ONLY packet ends by whether its meaning accepts, its reply fits and a capture it asks for is due. -/
theorem checkOnlyPacketsOnlyAnswer : Obligations.CheckOnlyPacketsOnlyAnswer := by
  unfold Obligations.CheckOnlyPacketsOnlyAnswer
  intro c op p s q hc h hcheck hwaits
  obtain rfl := h.pkt
  rw [exec_stands hc h]
  refine ⟨?checked, ?noCapture, ?tooLong, ?error⟩
  case checked =>
    intro hacc hholds hdue
    rw [runBody_checkOnly h.params_le hwaits hacc (Ans.fits_iff.mpr hholds) hcheck hdue]
  case noCapture =>
    intro hacc hholds hsnap hdone hdue
    rw [runBody_noCapture h.params_le hwaits hacc (Ans.fits_iff.mpr hholds) hsnap hdone hdue]
  case tooLong =>
    intro hacc hlong
    rw [runBody_tooLong h.params_le hwaits hacc hlong]
  case error =>
    intro hacc
    rw [runBody_error h.params_le hwaits hacc]

theorem Dev.captureDue_iff {d : Dev} : d.captureDue = true ↔ d.points.reqs ≠ [] ∨ d.frame.state = .running ∨
    (d.frame.state = .stopping ∧ ∃ n, d.frame.stopFrame = some n ∧ d.frame.frameNum < n) ∨ (d.frame.state = .stopped ∧ d.frame.pendingSet.isSome = true) := by
  unfold Dev.captureDue
  cases d.frame.state with
  | running => simp
  | stopping => cases d.frame.stopFrame <;> simp
  | stopped => simp

/-- Settles O45: an AT_SNAPSHOT packet ends by whether a capture is due. -/
theorem atSnapshotPacketsWaitForACapture : Obligations.AtSnapshotPacketsWaitForACapture := by
  unfold Obligations.AtSnapshotPacketsWaitForACapture
  refine ⟨?packet, fun _ => Dev.captureDue_iff⟩
  intro c op p s q hc h hcheck hsnap hdone hwaits hacc hholds
  obtain rfl := h.pkt
  rw [exec_stands hc h]
  constructor
  · intro hdue
    rw [runBody_waitsCapture h.params_le hwaits hacc (Ans.fits_iff.mpr hholds) hcheck hsnap hdone hdue]
  · intro hdue
    rw [runBody_noCapture h.params_le hwaits hacc (Ans.fits_iff.mpr hholds) hsnap hdone hdue]

/-! The candidates for a sequence number (R43). -/

theorem Packet.seqLo_lt (p : Packet) : p.seqLo < 256 := Nat.mod_lt _ (by decide)

/-- The next candidate lies within 256 above L and has the low byte. -/
theorem nextSeq_eq_some {l lo v : Nat} (hlo : lo < 256) (h : nextSeq l lo = some v) : v < 2 ^ 32 ∧ l < v ∧ v ≤ l + 256 ∧ v % 256 = lo := by
  simp only [nextSeq, Option.ite_none_right_eq_some, Option.some.injEq] at h
  omega

theorem nextSeq_of_least {l v : Nat} (hv : v < 2 ^ 32) (habove : l < v) (hleast : ∀ u, l < u → u % 256 = v % 256 → v ≤ u) :
    nextSeq l (v % 256) = some v := by
  have hle := hleast (l + 1 + (v % 256 + 256 - (l + 1) % 256) % 256) (by omega) (by omega)
  have hv' : l + 1 + (v % 256 + 256 - (l + 1) % 256) % 256 = v := by omega
  simp only [nextSeq, hv', hv, if_true]

theorem nextSeq_eq_none {l lo : Nat} (hlo : lo < 256) (hspent : ∀ v, l < v → v % 256 = lo → 2 ^ 32 ≤ v) : nextSeq l lo = none := by
  have := hspent (l + 1 + (lo + 256 - (l + 1) % 256) % 256) (by omega) (by omega)
  exact if_neg (by omega)

/-- The candidate of a replay lies within 255 below L and has the low byte. -/
theorem prevSeq_eq_some {l lo u : Nat} (hlo : lo < 256) : prevSeq l lo = some u ↔ u ≤ l ∧ l < u + 256 ∧ u % 256 = lo := by
  simp only [prevSeq, Option.ite_none_right_eq_some, Option.some.injEq]
  omega

/-! The authentication check (R42 to R44). -/

/-- A packet without a tag is accepted where Table 02-4 or the open opcodes allow it. -/
theorem Dev.authCheck_untagged {d : Dev} {p : Packet} (hauth : p.auth = false) :
    d.authCheck p = if (p.transport = .pcie ∧ d.host.cfg.pcieAuthReq = false) ∨ (openOpcode p.opcode = true ∧ p.transport ≠ .relay) then .plain
      else .bad stAuthRequired 3 := by
  unfold Dev.authCheck
  rw [if_pos (by simp [hauth])]
  cases p.transport with
  | pcie => cases d.host.cfg.pcieAuthReq <;> cases openOpcode p.opcode <;> simp
  | spi => cases openOpcode p.opcode <;> simp
  | eth => cases openOpcode p.opcode <;> simp
  | relay => simp

section Tagged
variable {d : Dev} {p : Packet} (hauth : p.auth = true) (hslot : p.keySlot = 0 → 0x0B01 ≤ p.opcode ∧ p.opcode ≤ 0x0B05)
  (husable : d.keyRefusal p.keySlot 1 = none) {l : Nat} {key : List Byte} (hl : l = (d.host.lastSeq.rd (seqIndex p.transport p.keySlot)).toNat)
  (hkey : key = (d.keys.slots.rd p.keySlot).key)
include hauth hslot husable hl hkey

theorem Dev.authCheck_verifies {v : Nat} (hroom : d.keyWaits p.keySlot = false) (hnext : nextSeq l p.seqLo = some v) (hv : p.verifies key v = true) :
    d.authCheck p = .tagged v := by
  subst hl hkey
  unfold Dev.authCheck
  rw [if_neg (by simp [hauth]), if_neg (by simpa using hslot), husable]
  simp [hnext, Option.filter_some, hv, hroom]

section NextFails
variable (hnext : (nextSeq l p.seqLo).filter (fun v => p.verifies key v) = none)
include hnext

/-- The tag of the candidate below L is a replay (R43). -/
theorem Dev.authCheck_replay {u : Nat} (hprev : prevSeq l p.seqLo = some u) (hu : p.verifies key u = true) :
    d.authCheck p = .bad stAuthReplay 3 := by
  subst hl hkey
  unfold Dev.authCheck
  rw [if_neg (by simp [hauth]), if_neg (by simpa using hslot), husable]
  simp only [hnext, hprev]
  simp [hu]

/-- A tag of neither candidate fails, and where no candidate above L is left the key's sequence is spent (R43). -/
theorem Dev.authCheck_fails (hprev : ∀ u, prevSeq l p.seqLo = some u → p.verifies key u = false) :
    d.authCheck p = if nextSeq l p.seqLo = none then .bad stKeyExhausted 3 else .bad stAuthFail (p.len - 4) := by
  have hnot : ((prevSeq l p.seqLo).map (fun u => p.verifies key u)).getD false = false := by
    cases hu : prevSeq l p.seqLo with
    | none => rfl
    | some u => simpa using hprev u hu
  subst hl hkey
  unfold Dev.authCheck
  rw [if_neg (by simp [hauth]), if_neg (by simpa using hslot), husable]
  simp only [hnext, hnot]
  simp

end NextFails
end Tagged

/-- The candidate above L does not verify where no number above L within its range does. -/
theorem nextSeq_filter_eq_none {p : Packet} {key : List Byte} {l : Nat}
    (h : ∀ v, v < 2 ^ 32 → l < v → v ≤ l + 256 → v % 256 = p.seqLo → p.verifies key v = false) :
    (nextSeq l p.seqLo).filter (fun v => p.verifies key v) = none := by
  refine Option.filter_eq_none_iff.mpr fun v hv => ?_
  obtain ⟨hbits, habove, hnear, hlow⟩ := nextSeq_eq_some p.seqLo_lt hv
  simp [h v hbits habove hnear hlow]

/-- A packet with a tag is never accepted without it, and what accepts it is the candidate above L (R43). -/
theorem Dev.authCheck_of_auth {d : Dev} {p : Packet} (hauth : p.auth = true) : d.authCheck p ≠ .plain ∧
    ∀ v, d.authCheck p = .tagged v → nextSeq (d.host.lastSeq.rd (seqIndex p.transport p.keySlot)).toNat p.seqLo = some v := by
  unfold Dev.authCheck
  rw [if_neg (by simp [hauth])]
  split
  · simp
  · split
    · simp
    · dsimp only
      split
      next hverified =>
        obtain ⟨hnext, -⟩ := Option.filter_eq_some_iff.mp hverified
        split <;> simp [hnext]
      next =>
        split
        · simp
        · split <;> simp

theorem Dev.authCheck_eq_plain {d : Dev} {p : Packet} (h : d.authCheck p = .plain) : p.auth = false :=
  Bool.eq_false_iff.mpr fun hauth => (Dev.authCheck_of_auth hauth).1 h

theorem Dev.authCheck_eq_tagged {d : Dev} {p : Packet} {v : Nat} (h : d.authCheck p = .tagged v) :
    p.auth = true ∧ nextSeq (d.host.lastSeq.rd (seqIndex p.transport p.keySlot)).toNat p.seqLo = some v := by
  cases hauth : p.auth with
  | false =>
    rw [Dev.authCheck_untagged hauth] at h
    split at h <;> cases h
  | true => exact ⟨rfl, (Dev.authCheck_of_auth hauth).2 v h⟩

/-! Checks 4 to 6 of R40, and how a packet is taken. -/

@[simp] theorem Dev.useKey_host (d : Dev) (slot : Nat) : (d.useKey slot).host = d.host := by
  unfold Dev.useKey
  simp only [Dev.raiseIf_host]
  split <;> rfl

@[simp] theorem Dev.bookAuthFail_host_queue (d : Dev) (p : Packet) (st : Nat) : (d.bookAuthFail p st).host.queue = d.host.queue := by
  unfold Dev.bookAuthFail
  split <;> simp

@[simp] theorem Dev.bookAuthFail_host_lastSeq (d : Dev) (p : Packet) (st : Nat) : (d.bookAuthFail p st).host.lastSeq = d.host.lastSeq := by
  unfold Dev.bookAuthFail
  split <;> simp

theorem Dev.accept_known (d : Dev) (q : QPacket) (hknown : knownOpcode q.pkt.opcode = true) :
    Dev.verify.accept d q = { d with host := { d.host with queue := d.host.queue ++ [q] } } := if_pos hknown

theorem Dev.accept_unknown (d : Dev) (q : QPacket) (hunknown : knownOpcode q.pkt.opcode = false) :
    Dev.verify.accept d q = d.reply q stBadOpcode 0 [] := if_neg (by simp [hunknown])

/-- The entry with which a packet joins the queue once its tag has verified with `v`. -/
def Dev.taggedEntry (d : Dev) (p : Packet) (v : Nat) : QPacket :=
  { pkt := p, seq := BitVec.ofNat 32 v, tagged := true, key := (d.keys.slots.rd p.keySlot).key, die := d.activeDie }

/-- The device in which `v` has become L of the packet's transport and key (R43). -/
def Dev.setLastSeq (d : Dev) (p : Packet) (v : Nat) : Dev :=
  { d with host := { d.host with lastSeq := d.host.lastSeq.wr (seqIndex p.transport p.keySlot) (BitVec.ofNat 32 v) } }

section Verify
variable {d : Dev} {p : Packet} (hheader : p.headerErr d.oldFirmware = none)
include hheader

theorem Dev.verify_plain (hcheck : d.authCheck p = .plain) : d.verify p = Dev.verify.accept d { pkt := p, die := d.activeDie } := by
  unfold Dev.verify
  rw [hheader, hcheck]

theorem Dev.verify_tagged {v : Nat} (hcheck : d.authCheck p = .tagged v) :
    d.verify p = Dev.verify.accept ((d.setLastSeq p v).useKey p.keySlot) (d.taggedEntry p v) := by
  unfold Dev.verify
  rw [hheader, hcheck]
  rfl

theorem Dev.verify_bad {st det : Nat} (hcheck : d.authCheck p = .bad st det) :
    d.verify p = (d.bookAuthFail p st).reply { pkt := p } st det [] := by
  unfold Dev.verify
  rw [hheader, hcheck]

/-- A tagged packet that is accepted moves L to the number that verified, and joins the queue (R43). -/
theorem Dev.verify_tagged_host {v : Nat} (hcheck : d.authCheck p = .tagged v) (hknown : knownOpcode p.opcode = true) :
    (d.verify p).host.lastSeq = d.host.lastSeq.wr (seqIndex p.transport p.keySlot) (BitVec.ofNat 32 v) ∧
      (d.verify p).host.queue = d.host.queue ++ [d.taggedEntry p v] := by
  rw [Dev.verify_tagged hheader hcheck, Dev.accept_known _ (d.taggedEntry p v) hknown]
  simp [Dev.setLastSeq]

end Verify

/-- Settles O50: the candidates of R43 are the numbers that the statement names, and the check tries them in its order. -/
theorem sequenceNumbersOfAuthentication : Obligations.SequenceNumbersOfAuthentication := by
  unfold Obligations.SequenceNumbersOfAuthentication
  refine ⟨?check, ?accepted, ?rejected, fun d p => Dev.authCheck_untagged⟩
  case check =>
    intro d p hauth hslot husable hroom l key hl hkey
    refine ⟨?next, ?replay, ?spent⟩
    case next =>
      intro v hbits habove hlow hleast
      have hnext : nextSeq l p.seqLo = some v := hlow ▸ nextSeq_of_least hbits habove (hlow ▸ hleast)
      refine ⟨Dev.authCheck_verifies hauth hslot husable hl hkey hroom hnext, fun hv hprev => ?_⟩
      rw [Dev.authCheck_fails hauth hslot husable hl hkey (by simp [hnext, Option.filter_some, hv]) fun u hu => ?_, if_neg (by simp [hnext])]
      obtain ⟨hle, hnear, hlow'⟩ := (prevSeq_eq_some p.seqLo_lt).mp hu
      exact hprev u hle hnear hlow'
    case replay =>
      intro u hle hnear hlow hu hnext
      exact Dev.authCheck_replay hauth hslot husable hl hkey (nextSeq_filter_eq_none hnext) ((prevSeq_eq_some p.seqLo_lt).mpr ⟨hle, hnear, hlow⟩) hu
    case spent =>
      intro hspent hprev
      have hnone : nextSeq l p.seqLo = none := nextSeq_eq_none p.seqLo_lt hspent
      rw [Dev.authCheck_fails hauth hslot husable hl hkey (by rw [hnone]; rfl) fun u hu => ?_, if_pos hnone]
      obtain ⟨hle, hnear, hlow⟩ := (prevSeq_eq_some p.seqLo_lt).mp hu
      exact hprev u hle hnear hlow
  case accepted =>
    intro d p v hcheck hheader hknown
    obtain ⟨hseq, hqueue⟩ := Dev.verify_tagged_host hheader hcheck hknown
    obtain ⟨hbits, habove, -, -⟩ := nextSeq_eq_some p.seqLo_lt (Dev.authCheck_eq_tagged hcheck).2
    have hv : (BitVec.ofNat 32 v).toNat = v := by rw [BitVec.toNat_ofNat, Nat.mod_eq_of_lt hbits]
    refine ⟨?_, hqueue⟩
    rw [hseq, Tbl.rd_wr_ne, hv]
    intro hzero
    rw [hzero] at hv
    exact absurd hv (by have : (default : Word).toNat = 0 := rfl; omega)
  case rejected =>
    intro d p st det hcheck hheader
    rw [Dev.verify_bad hheader hcheck]
    simp

/-! A packet that is not queued yet (R40). -/

theorem Dev.take_verify {d : Dev} {p : Packet} (hub : d.hubUp = true) (hcredit : d.creditFree p.transport = true) :
    d.take p = (d.takeCredit p.transport).verify p :=
  (if_neg (by simp [hub])).trans (if_neg (by simp [hcredit]))

/-- Taking a credit moves neither what the authentication check looks at nor the queue. -/
@[simp] theorem Dev.takeCredit_authCheck (d : Dev) (t : Transport) (p : Packet) : (d.takeCredit t).authCheck p = d.authCheck p := by
  unfold Dev.authCheck Dev.keyRefusal Dev.keyWaits Dev.takeCredit
  simp only [Dev.mon_host, Dev.mon_keys, Dev.mon_slalom]
@[simp] theorem Dev.takeCredit_oldFirmware (d : Dev) (t : Transport) : (d.takeCredit t).oldFirmware = d.oldFirmware := by
  simp [Dev.oldFirmware, Dev.takeCredit]
@[simp] theorem Dev.takeCredit_activeDie (d : Dev) (t : Transport) : (d.takeCredit t).activeDie = d.activeDie := by
  simp [Dev.activeDie, Dev.takeCredit]
@[simp] theorem Dev.takeCredit_host_queue (d : Dev) (t : Transport) : (d.takeCredit t).host.queue = d.host.queue := by
  simp [Dev.takeCredit]
@[simp] theorem Dev.takeCredit_creditsUsed (d : Dev) (t : Transport) :
    (d.takeCredit t).host.creditsUsed = d.host.creditsUsed.wr t.num (d.host.creditsUsed.rd t.num + 1) := by
  simp [Dev.takeCredit]

section Take
variable {d : Dev} {p : Packet} (hub : d.hubUp = true) (hcredit : d.creditFree p.transport = true) (hheader : p.headerErr d.oldFirmware = none)
include hub hcredit hheader

theorem Dev.take_plain (hcheck : d.authCheck p = .plain) :
    d.take p = Dev.verify.accept (d.takeCredit p.transport) { pkt := p, die := d.activeDie } := by
  rw [Dev.take_verify hub hcredit, Dev.verify_plain (by simpa using hheader) (by simpa using hcheck), Dev.takeCredit_activeDie]

/-- An accepted packet joins the queue behind all others, not started and waiting for nothing (R40). -/
theorem Dev.take_queue (hknown : knownOpcode p.opcode = true) (hcheck : d.authCheck p = .plain ∨ ∃ v, d.authCheck p = .tagged v) :
    ∃ q : QPacket, q.pkt = p ∧ q.started = false ∧ q.waitsSnap = false ∧ q.tagged = p.auth ∧ (d.take p).host.queue = d.host.queue ++ [q] := by
  obtain hplain | ⟨v, htag⟩ := hcheck
  · refine ⟨{ pkt := p, die := d.activeDie }, rfl, rfl, rfl, (Dev.authCheck_eq_plain hplain).symm, ?_⟩
    rw [Dev.take_plain hub hcredit hheader hplain, Dev.accept_known _ { pkt := p, die := d.activeDie } hknown]
    simp
  · refine ⟨(d.takeCredit p.transport).taggedEntry p v, rfl, rfl, rfl, (Dev.authCheck_eq_tagged htag).1.symm, ?_⟩
    rw [Dev.take_verify hub hcredit, (Dev.verify_tagged_host (by simpa using hheader) (by simpa using htag) hknown).2, Dev.takeCredit_host_queue]

end Take

/-- A packet that no queue entry holds is executed from the entry with which it joins the queue. -/
theorem packetRow_taken {op : Op} {p : Packet} {s : State} {q : QPacket} (hcode : p.opcode = op.code) (hsel : op.sel p = true)
    (hnew : ∀ x ∈ s.dev.host.queue, x.pkt ≠ p) (hqueue : (s.dev.take p).host.queue = s.dev.host.queue ++ [q]) (hfresh : q.fresh p = true) :
    packetRow op p s = execQ op { s with dev := s.dev.take p } q := by
  have hnone : s.dev.host.queue.find? (fun x => x.fresh p) = none :=
    List.find?_eq_none.mpr fun x hx hf => hnew x hx (QPacket.fresh_pkt hf)
  have hany : (s.dev.host.queue.any fun x => decide (x.pkt = p)) = false := by simpa using hnew
  have hfind : (s.dev.take p).host.queue.find? (fun x => x.fresh p) = some q := by
    rw [hqueue, List.find?_append, hnone, Option.none_or, List.find?_singleton, if_pos hfresh]
  unfold packetRow
  rw [if_neg (by simp [hcode, hsel]), hnone]
  simp only [hany, hfind]
  rfl

/-- Settles O57: the packet is taken with a credit, joins the queue last, and is executed from there. -/
theorem takenPacketJoinsTheQueue : Obligations.TakenPacketJoinsTheQueue := by
  unfold Obligations.TakenPacketJoinsTheQueue
  refine ⟨?joins, ?credit⟩
  case joins =>
    intro c op p s hc hcode hsel hnew hub hcredit hheader hknown hcheck
    obtain ⟨q, hpkt, hstarted, hsnap, htagged, hqueue⟩ := Dev.take_queue hub hcredit hheader hknown hcheck
    refine ⟨q, hpkt, hstarted, htagged, hqueue, ?_⟩
    rw [exec_packetOf hc, packetRow_taken hcode hsel hnew hqueue (by simp [QPacket.fresh, hpkt, hstarted, hsnap])]
  case credit =>
    intro d p hub hcredit hheader hcheck
    rw [Dev.take_plain hub hcredit hheader hcheck]
    constructor
    · intro hknown
      rw [Dev.accept_known _ { pkt := p, die := d.activeDie } hknown]
      simp
    · intro hunknown
      rw [Dev.accept_unknown _ { pkt := p, die := d.activeDie } hunknown]
      simp

end Sys2Proof.Machine
end

section
/-! The host port (R49 to R56): the registers of the PCIe rings, the quad-SPI port and the Ethernet transport. -/

namespace Sys2Proof.Machine

open Sys2Proof Sys2Proof.Bits Sys2Proof.Crypto

theorem hubStep_up {s : State} {f : Dev → Dev} {d : Dev} (hub : s.dev.hubUp = true) (hf : f s.dev = d) : hubStep s f = .next (s.withDev d) :=
  congrArg Host.Outcome.next ((if_pos hub).trans (congrArg s.withDev hf))

/-! The tail of the submission ring (R49, R50): only its register's write moves it. -/

@[simp] theorem Dev.giveCredit_host_ring (d : Dev) (t : Transport) : (d.giveCredit t).host.ring = d.host.ring := by
  unfold Dev.giveCredit; simp
@[simp] theorem Dev.takeCredit_host_ring (d : Dev) (t : Transport) : (d.takeCredit t).host.ring = d.host.ring := by
  unfold Dev.takeCredit; simp
@[simp] theorem Dev.countRefused_host_ring (d : Dev) : d.countRefused.host.ring = d.host.ring := by
  unfold Dev.countRefused; simp
@[simp] theorem Dev.bookAuthFail_host_ring (d : Dev) (p : Packet) (st : Nat) : (d.bookAuthFail p st).host.ring = d.host.ring := by
  unfold Dev.bookAuthFail; split <;> simp
@[simp] theorem Dev.setRelay_host_ring (d : Dev) (i : Nat) (w : RelayWait) : (d.setRelay i w).host.ring = d.host.ring := rfl
@[simp] theorem Dev.gatherEnd_host_ring (d : Dev) (i : Nat) : (d.gatherEnd i).host.ring = d.host.ring := by
  unfold Dev.gatherEnd
  dsimp only
  split
  · rfl
  · split <;> simp
@[simp] theorem Dev.gather_host_ring (d : Dev) (i : Nat) (port : Option Nat) (st : Nat) : (d.gather i port st).host.ring = d.host.ring := by
  cases port <;> simp [Dev.gather]
@[simp] theorem Dev.signalCq_sqTail (d : Dev) : d.signalCq.host.ring.sqTail = d.host.ring.sqTail := by
  unfold Dev.signalCq; dsimp only; split <;> simp
@[simp] theorem Dev.complete_sqTail (d : Dev) (p : Packet) (tag st n : Nat) : (d.complete p tag st n).host.ring.sqTail = d.host.ring.sqTail := by
  unfold Dev.complete; dsimp only; split <;> simp

/-- A reply writes completions over PCIe and leaves the tail, whatever its transport. -/
@[simp] theorem Dev.reply_sqTail (d : Dev) (q : QPacket) (st det : Nat) (ws : List Word) : (d.reply q st det ws).host.ring.sqTail = d.host.ring.sqTail := by
  unfold Dev.reply
  dsimp only
  cases q.pkt.transport with
  | pcie => dsimp only; split <;> simp
  | spi => dsimp only; split <;> simp
  | eth => dsimp only; split <;> simp
  | relay =>
    dsimp only
    split
    · simp
    · split
      · simp
      · split <;> simp

@[simp] theorem Dev.accept_sqTail (d : Dev) (q : QPacket) : (Dev.verify.accept d q).host.ring.sqTail = d.host.ring.sqTail := by
  unfold Dev.verify.accept; split <;> simp

@[simp] theorem Dev.verify_sqTail (d : Dev) (p : Packet) : (d.verify p).host.ring.sqTail = d.host.ring.sqTail := by
  unfold Dev.verify
  split
  · simp
  · split <;> simp [Dev.useKey_host]

@[simp] theorem Dev.take_sqTail (d : Dev) (p : Packet) : (d.take p).host.ring.sqTail = d.host.ring.sqTail := by
  unfold Dev.take
  split
  · rfl
  · split <;> simp

/-- Fetching leaves the tail where the write put it. -/
@[simp] theorem Dev.sqFetch_sqTail (d : Dev) (xs : List SqFetch) : (d.sqFetch xs).host.ring.sqTail = d.host.ring.sqTail := by
  induction xs generalizing d with
  | nil => rfl
  | cons x xs ih =>
    unfold Dev.sqFetch
    dsimp only
    split
    · rfl
    · rw [ih]
      split <;> simp

/-- Nothing is fetched while the ring is off, paused or suspended (R50, R53). -/
theorem Dev.sqFetch_stopped {d : Dev} (xs : List SqFetch) (stopped : d.host.ring.ringEn = false ∨ d.host.ring.pause = true ∨ d.host.ring.suspended = true) :
    d.sqFetch xs = d := by
  cases xs with
  | nil => rfl
  | cons x xs => exact if_pos (by rcases stopped with h | h | h <;> simp [h])

/-! The registers of the rings (R49, R53, Tables 02-6, 02-10 and 02-11). -/

section Rings
variable {s : State} (hub : s.dev.hubUp = true)
include hub

theorem exec_hubSqTailWrite_overrun {v : Word} (xs : List SqFetch) (hover : 256 < (v.toNat % 512 + 512 - s.dev.host.ring.cqHead.toNat) % 512) :
    exec (.hubSqTailWrite v xs) s =
      .next (s.withDev ((s.dev.setRing { s.dev.host.ring with sqOverrun := true }).raise 0x0110 0x0100 .warn (v.toNat % 512))) :=
  show execHubSqTailWrite v xs s = _ from hubStep_up hub (if_pos hover)

theorem exec_hubSqTailWrite_moves {v : Word} (xs : List SqFetch) (hfit : (v.toNat % 512 + 512 - s.dev.host.ring.cqHead.toNat) % 512 ≤ 256) :
    exec (.hubSqTailWrite v xs) s =
      .next (s.withDev ((s.dev.setRing { s.dev.host.ring with sqTail := BitVec.ofNat 9 (v.toNat % 512) }).sqFetch xs)) :=
  show execHubSqTailWrite v xs s = _ from hubStep_up hub (if_neg (Nat.not_lt.mpr hfit))

theorem exec_hubCqHeadWrite_past {v : Word} (hpast : (s.dev.host.ring.cqTail.toNat + 512 - s.dev.host.ring.cqHead.toNat) % 512 <
      (v.toNat % 512 + 512 - s.dev.host.ring.cqHead.toNat) % 512) :
    exec (.hubCqHeadWrite v) s = .next (s.withDev (s.dev.setRing { s.dev.host.ring with cqHeadErr := true })) :=
  show execHubCqHeadWrite v s = _ from hubStep_up hub (if_pos hpast)

theorem exec_hubCqHeadWrite_moves {v : Word} (hwithin : (v.toNat % 512 + 512 - s.dev.host.ring.cqHead.toNat) % 512 ≤
      (s.dev.host.ring.cqTail.toNat + 512 - s.dev.host.ring.cqHead.toNat) % 512) :
    exec (.hubCqHeadWrite v) s = .next (s.withDev (s.dev.setRing { s.dev.host.ring with cqHead := BitVec.ofNat 9 (v.toNat % 512) })) :=
  show execHubCqHeadWrite v s = _ from hubStep_up hub (if_neg (Nat.not_lt.mpr hwithin))

/-- RING_EN from 0 to 1 starts the rings afresh (Table 02-6). -/
theorem exec_hubHostCtlWrite_starts {v : Word} (hen : bit v 0 = true) (hoff : s.dev.host.ring.ringEn = false) :
    exec (.hubHostCtlWrite v) s = .next (s.withDev (s.dev.setRing { s.dev.host.ring with
      ringEn := true, pause := bit v 1, sqTail := 0, sqHead := 0, cqTail := 0, cqHead := 0, suspended := false, unsignalled := 0 })) := by
  change execHubHostCtlWrite v s = _
  refine hubStep_up hub ?_
  simp [Dev.hostCtlWrite, hen, hoff]

theorem exec_hubHostCtlWrite_keeps {v : Word} (hno : ¬(bit v 0 = true ∧ s.dev.host.ring.ringEn = false)) :
    exec (.hubHostCtlWrite v) s = .next (s.withDev (s.dev.setRing { s.dev.host.ring with ringEn := bit v 0, pause := bit v 1 })) := by
  change execHubHostCtlWrite v s = _
  refine hubStep_up hub ?_
  have hstart : (bit v 0 && !s.dev.host.ring.ringEn) = false := by simpa using hno
  simp [Dev.hostCtlWrite, hstart]

theorem exec_hubHostErrWrite (v : Word) :
    exec (.hubHostErrWrite v) s = .next (s.withDev (s.dev.setRing { s.dev.host.ring with
      sqOverrun := s.dev.host.ring.sqOverrun && !bit v 0, cqHeadErr := s.dev.host.ring.cqHeadErr && !bit v 1,
      dmaErr := s.dev.host.ring.dmaErr && !bit v 2 })) :=
  show execHubHostErrWrite v s = _ from hubStep_up hub rfl

theorem exec_cqIrqTimeout (htime : s.dev.host.ring.irqTimeUs ≠ 0) (hwaiting : s.dev.host.ring.unsignalled ≠ 0) (hmsix : s.dev.host.ring.irqMsixEn = true) :
    exec .cqIrqTimeout s = .next (s.withDev (((s.dev.toRaw (s.dev.host.ring.unsigAt + 1000 * s.dev.host.ring.irqTimeUs)).setRing
      { s.dev.host.ring with unsignalled := 0 }).emit (.msix s.dev.host.ring.irqVector.toNat))) :=
  show execCqIrqTimeout s = _ from hubStep_up hub (if_neg (by simp [htime, hwaiting, hmsix]))

theorem exec_pcieLinkReset (kind : Fin 3) :
    exec (.pcieLinkReset kind) s =
      .next (s.withDev ((s.dev.setRing { s.dev.host.ring with suspended := true }).raise 0x0113 0x0100 .warn kind.val)) :=
  show execPcieLinkReset kind s = _ from hubStep_up hub rfl

end Rings

/-- Settles O55: each index by whether the write keeps its bound. -/
theorem ringIndexesKeepTheirBounds : Obligations.RingIndexesKeepTheirBounds := by
  unfold Obligations.RingIndexesKeepTheirBounds
  refine ⟨?tail, ?head⟩
  case tail =>
    rintro v xs s _ hub rfl
    refine ⟨exec_hubSqTailWrite_overrun hub xs, fun hfit => ⟨exec_hubSqTailWrite_moves hub [] hfit, exec_hubSqTailWrite_moves hub xs hfit, ?_⟩⟩
    simp
  case head =>
    rintro v s _ hub rfl
    exact ⟨exec_hubCqHeadWrite_past hub, exec_hubCqHeadWrite_moves hub⟩

/-- Settles O4: each register's write and each event of the rings by the case its hypotheses select. -/
theorem hostRingCommandsComplete : Obligations.HostRingCommandsComplete := by
  unfold Obligations.HostRingCommandsComplete
  refine ⟨?sqTail, ?cqHead, ?ctl, ?err, ?timeout, ?linkReset⟩
  case sqTail =>
    intro v xs s hub
    refine ⟨exec_hubSqTailWrite_overrun hub xs, fun hfit => ⟨exec_hubSqTailWrite_moves hub xs hfit, fun stopped => ?_⟩⟩
    exact (exec_hubSqTailWrite_moves hub xs hfit).trans (congrArg (fun d => Host.Outcome.next (s.withDev d)) (Dev.sqFetch_stopped xs stopped))
  case cqHead =>
    rintro v s _ _ hub rfl rfl
    split
    · exact exec_hubCqHeadWrite_past hub ‹_›
    · exact exec_hubCqHeadWrite_moves hub (Nat.not_lt.mp ‹_›)
  case ctl =>
    intro v s hub
    exact ⟨fun h => exec_hubHostCtlWrite_starts hub h.1 h.2, exec_hubHostCtlWrite_keeps hub⟩
  case err =>
    intro v s hub
    exact exec_hubHostErrWrite hub v
  case timeout =>
    intro s hub
    exact exec_cqIrqTimeout hub
  case linkReset =>
    intro kind s hub
    exact exec_pcieLinkReset hub kind

/-! The quad-SPI port (R54, R55, Table 02-15). -/

theorem spiStep_on {s : State} {f : Dev → Dev} {d : Dev} (hub : s.dev.hubUp = true) (on : s.dev.host.cfg.spiEn = true) (hf : f s.dev = d) :
    spiStep s f = .next (s.withDev d) :=
  hubStep_up hub ((if_pos on).trans hf)

/-- The oldest waiting reply is shifted out. -/
theorem Dev.spiRead_cons {d : Dev} {r : List Word} {rs : List (List Word)} (h : d.host.spi.replies = r :: rs) : d.spiRead = d.spiSend r := by
  simp [Dev.spiRead, h]

theorem Dev.spiRead_nil {d : Dev} (h : d.host.spi.replies = []) : d.spiRead = d.spiSend [0] := by
  simp [Dev.spiRead, h]

/-- A frame of whole words within the limit whose CRC is wrong (R54). -/
theorem Dev.spiWrite_crcErr {d : Dev} {p : Packet} {c : Word} (hwords : p.framedWords = p.words.length) (hlimit : p.words.length ≤ 1024)
    (hcrc : c ≠ crcWords p.words) :
    d.spiWrite p c = (d.setSpi { d.host.spi with lastCrcErr := true, lastRefused := false, lastLenErr := false }).countSpiCrc :=
  (if_neg (by omega)).trans (if_pos hcrc)

/-- A good frame that finds a credit is taken (R54). -/
theorem Dev.spiWrite_take {d : Dev} {p : Packet} (hwords : p.framedWords = p.words.length) (hlimit : p.words.length ≤ 1024)
    (hcredit : d.creditFree .spi = true) :
    d.spiWrite p (crcWords p.words) = (d.setSpi { d.host.spi with lastCrcErr := false, lastRefused := false, lastLenErr := false,
                                                                  acceptCnt := d.host.spi.acceptCnt + 1 }).take { p with transport := .spi } :=
  (if_neg (by omega)).trans ((if_neg (not_not_intro rfl)).trans (if_neg (by simp [hcredit])))

section QuadSpi
variable {s : State} (hub : s.dev.hubUp = true) (on : s.dev.host.cfg.spiEn = true)
include hub on

theorem exec_readStatus : exec .readStatus s = .next (s.withDev (s.dev.spiSend s.dev.spiStatus)) :=
  show execReadStatus s = _ from spiStep_on hub on rfl
theorem exec_readReply : exec .readReply s = .next (s.withDev s.dev.spiRead) :=
  show execReadReply s = _ from spiStep_on hub on rfl
theorem exec_readReplyQ : exec .readReplyQ s = .next (s.withDev s.dev.spiRead) :=
  show execReadReplyQ s = _ from spiStep_on hub on rfl
theorem exec_writePacket (p : Packet) (c : Word) : exec (.writePacket p c) s = .next (s.withDev (s.dev.spiWrite p c)) :=
  show execWritePacket p c s = _ from spiStep_on hub on rfl
theorem exec_writePacketQ (p : Packet) (c : Word) : exec (.writePacketQ p c) s = .next (s.withDev (s.dev.spiWrite p c)) :=
  show execWritePacketQ p c s = _ from spiStep_on hub on rfl

/-- ACK_REPLY of the oldest reply's TAG removes it and returns its credit (R55). -/
theorem exec_ackReply {r : List Word} {rs : List (List Word)} {tag : BitVec 16} (h : s.dev.host.spi.replies = r :: rs)
    (htag : fld (nth r 1) 15 0 = tag.toNat) :
    exec (.ackReply tag (crc32c (leBytes 2 tag.toNat))) s = .next (s.withDev ((s.dev.setSpi { s.dev.host.spi with replies := rs }).giveCredit .spi)) := by
  change execAckReply tag (crc32c (leBytes 2 tag.toNat)) s = _
  refine spiStep_on hub on ?_
  simp [h, htag]

end QuadSpi

/-! The Ethernet transport (R56). -/

section Ethernet
variable {port : Fin 3} {s : State} (hub : s.dev.hubUp = true) (on : (s.dev.host.eth.rd port.val).enable = true)
  (haddr : (s.dev.host.eth.rd port.val).ipv4 ≠ 0)
include hub on haddr

theorem exec_arpRequest (sender : BitVec 32) (mac : BitVec 48) :
    exec (.arpRequest port (s.dev.host.eth.rd port.val).ipv4 sender mac) s =
      .next (s.withDev (s.dev.emit (.arpReply port.val sender mac (s.dev.host.eth.rd port.val).ipv4 (s.dev.macAddr port.val)))) :=
  show execArpRequest port (s.dev.host.eth.rd port.val).ipv4 sender mac s = _ from
    hubStep_up hub (if_pos (by simpa [on] using haddr))

theorem exec_icmpEchoRequest (sender : BitVec 32) (echo : List Byte) :
    exec (.icmpEchoRequest port (s.dev.host.eth.rd port.val).ipv4 sender echo) s = .next (s.withDev (s.dev.emit (.icmpReply port.val sender echo))) :=
  show execIcmpEchoRequest port (s.dev.host.eth.rd port.val).ipv4 sender echo s = _ from
    hubStep_up hub (if_pos (by simpa [on] using haddr))

/-- A datagram that the port lets through is taken where a credit is free; else it is answered at once with a header-only ST_QUEUE_FULL. -/
theorem exec_ethCmdDatagram {p : Packet} (hmask : bit (w32 s.dev.host.cfg.ethCmdMask.toNat) port.val = true) (hwords : p.framedWords = p.words.length)
    (hmagic : p.magic = 0xD6) (hsource : s.dev.host.cfg.admits p.srcAddr = true) :
    exec (.ethCmdDatagram port p) s = .next (s.withDev (if !s.dev.creditFree .eth then s.dev.countRefused.emit (.ethReply port.val p.srcAddr p.srcPort p.vlan
        (replyWords { pkt := { p with transport := .eth, port := port.val } } stQueueFull 0 []))
      else s.dev.take { p with transport := .eth, port := port.val })) :=
  show execEthCmdDatagram port p s = _ from
    hubStep_up hub ((if_neg (by simpa [on, hmask] using haddr)).trans (if_neg (by simp [hwords, hmagic, hsource])))

end Ethernet

/-- Settles O5: each command of the port by the check that its hypotheses select. -/
theorem hostTransportCommandsComplete : Obligations.HostTransportCommandsComplete := by
  unfold Obligations.HostTransportCommandsComplete
  refine ⟨?spiRead, ?spiWrite, ?datagram, ?address⟩
  case spiRead =>
    intro s hub on
    refine ⟨?_, fun r rs h => ?_, fun h => ?_⟩
    · rw [exec_readStatus hub on, Dev.spiSend]
    · rw [exec_readReply hub on, exec_readReplyQ hub on, Dev.spiRead_cons h]
      exact ⟨rfl, rfl, fun tag => exec_ackReply hub on h⟩
    · rw [exec_readReply hub on, exec_readReplyQ hub on, Dev.spiRead_nil h]
      exact ⟨rfl, rfl⟩
  case spiWrite =>
    intro p s c hub on hwords hlimit
    rw [exec_writePacket hub on, exec_writePacketQ hub on]
    constructor
    · rintro hcrc _ rfl
      rw [Dev.spiWrite_crcErr hwords hlimit hcrc]
      exact ⟨rfl, rfl⟩
    · rintro rfl hcredit _ rfl
      rw [Dev.spiWrite_take hwords hlimit hcredit]
      exact ⟨rfl, rfl⟩
  case datagram =>
    intro port p s hub on haddr hmask hwords hmagic hsource
    rw [exec_ethCmdDatagram hub on haddr hmask hwords hmagic hsource]
    constructor <;> intro hcredit <;> rw [hcredit] <;> rfl
  case address =>
    rintro port _ sender mac echo s hub on haddr rfl
    exact ⟨exec_arpRequest hub on haddr sender mac, exec_icmpEchoRequest hub on haddr sender echo⟩

end Sys2Proof.Machine
end

section
/-! Relays and the journal (R59 to R61, R226 to R228), snapshots and identity (R45, R47, R57, R58, R76 to R79, R406). -/

namespace Sys2Proof.Machine

open Sys2Proof Sys2Proof.Bits

/-! Relays (R59 to R61). -/

/-- The record of a relay `q` that has left at raw instant `raw` and waits TIMEOUT_MS for its reply (R59, R61). -/
def QPacket.relayWait (q : QPacket) (raw : Nat) : RelayWait :=
  { pkt := { q with started := true }, head := (q.from' 2).take 4, ports := [q.f 0 3 2], subtree := q.b 0 8,
    deadline := raw + q.f 1 15 0 * 1000000, innerTag := BitVec.ofNat 16 (fld (nth (q.from' 2) 1) 15 0) }

theorem opRelay_body {s : State} {q : QPacket} (hresv0 : q.resv 0 0x1FF = false) (hhops : q.f 0 1 0 ≠ 0)
    (hold : q.b 0 8 = true → s.dev.oldFirmware = false) (hresv1 : q.resv 1 0xFFFF = false) (htimeout : q.f 1 15 0 ≠ 0)
    (hlimit : (q.from' 2).length ≤ 1024) (hlen : fld (nth (q.from' 2) 1) 31 16 = (q.from' 2).length) (hbar : s.dev.relayBar (q.f 0 3 2) = none) {d : Dev}
    (hd : s.dev.jlSend (q.f 0 3 2) 5 q.pkt.params = d) :
    opRelay.body s q = { st := s.withDev (d.addRelay (q.relayWait d.time.raw)), later := true } := by
  have hbit : (q.b 0 8 && s.dev.oldFirmware) = false := by
    cases hb : q.b 0 8 with
    | false => rfl
    | true => exact hold hb
  refine (guarded_pass ?_).trans ?_
  · simp only [firstErr_cons_none, encIf, rangeIf]
    simp [hresv0, hhops, hbit, hresv1, htimeout, hlimit, hlen]
  · simp only [hbar, hd]
    rfl

theorem exec_relay {p : Packet} {s : State} {q : QPacket} (h : Ready opRelay p s q) (hresv0 : q.resv 0 0x1FF = false) (hhops : q.f 0 1 0 ≠ 0)
    (hold : q.b 0 8 = true → s.dev.oldFirmware = false) (hresv1 : q.resv 1 0xFFFF = false) (htimeout : q.f 1 15 0 ≠ 0)
    (hlimit : (q.from' 2).length ≤ 1024) (hlen : fld (nth (q.from' 2) 1) 31 16 = (q.from' 2).length) (hbar : s.dev.relayBar (q.f 0 3 2) = none) {d : Dev}
    (hd : s.dev.jlSend (q.f 0 3 2) 5 q.pkt.params = d) :
    exec (.relay p) s = .next ((s.withDev (d.addRelay (q.relayWait d.time.raw))).started q) :=
  congrArg Host.Outcome.next
    (row_later h (opRelay_body hresv0 hhops hold hresv1 htimeout hlimit hlen hbar hd) rfl (q.holds_short (by simp)) rfl)

section Relays
variable {s : State} (hub : s.dev.hubUp = true)
include hub

/-- A relay with more hops to go leaves over its next port (R59). -/
theorem exec_jalowRelayReceive_onward {m : List Word} (hhops : 1 < fld (nth m 0) 1 0) (hbar : s.dev.relayBar (fld (nth m 0) 5 4) = none) :
    exec (.jalowRelayReceive m) s = .next (s.withDev (s.dev.jlSend (fld (nth m 0) 5 4) 5
      (pack [(fld (nth m 0) 1 0 - 1, 0), (fld (nth m 0) 5 4, 2), (fld (nth m 0) 7 6, 4), (b1 (bit (nth m 0) 8), 8)] :: nth m 1 :: m.drop 2))) := by
  change execJalowRelayReceive m s = _
  refine hubStep_up hub ((if_pos hhops).trans ?_)
  simp only [hbar]

/-- A relay at its last hop is taken as a packet of the relay transport (R59). -/
theorem exec_jalowRelayReceive_taken {m : List Word} (hhops : fld (nth m 0) 1 0 ≤ 1) (hsub : bit (nth m 0) 8 = false)
    (hcredit : s.dev.creditFree .relay = true) :
    exec (.jalowRelayReceive m) s = .next (s.withDev (s.dev.take
      { transport := .relay, port := s.dev.upPort.getD 0, words := m.drop 2, framedWords := (m.drop 2).length })) :=
  show execJalowRelayReceive m s = _ from
    hubStep_up hub ((if_neg (Nat.not_lt.mpr hhops)).trans ((if_neg (by simp [hcredit])).trans (if_pos (by simp [hsub]))))

/-- The awaited reply ends its relay (R60). -/
theorem exec_jalowReplyReceive_awaited {port : Fin 4} {m : List Word} {i : Nat}
    (hfind : s.dev.host.relays.findIdx? (fun w => w.awaited && decide (port.val ∈ w.ports ∧ w.innerTag.toNat = fld (nth m 1) 15 0)) = some i)
    (hsub : (s.dev.host.relays.getD i {}).subtree = false) :
    exec (.jalowReplyReceive port m) s = .next (s.withDev (s.dev.endRelay i ((pathError m).getD stOk) m)) := by
  change execJalowReplyReceive port m s = _
  refine hubStep_up hub ?_
  simp only [hfind]
  exact if_pos (by rw [hsub]; rfl)

/-- A reply that comes after its relay has ended is reported (R61). -/
theorem exec_jalowReplyReceive_late {port : Fin 4} {m : List Word} {w : RelayWait}
    (hnone : s.dev.host.relays.findIdx? (fun w => w.awaited && decide (port.val ∈ w.ports ∧ w.innerTag.toNat = fld (nth m 1) 15 0)) = none)
    (hfind : s.dev.host.relays.find? (fun w => !w.awaited && decide (w.innerTag.toNat = fld (nth m 1) 15 0)) = some w) (horigin : w.origin = true) :
    exec (.jalowReplyReceive port m) s =
      .next (s.withDev (s.dev.raise 0x0114 0x0100 .info (w.pkt.pkt.tag + 65536 * fld (w.pkt.par 0) 7 0))) := by
  change execJalowReplyReceive port m s = _
  refine hubStep_up hub ?_
  simp only [hnone, hfind]
  exact if_pos horigin

/-- TIMEOUT_MS ends a relay of this device with the ports that have not answered (R61). -/
theorem exec_relayTimeout {tag : BitVec 16} {i : Nat} {w : RelayWait}
    (hfind : s.dev.host.relays.findIdx? (fun w => w.awaited && decide ((if w.origin then w.pkt.pkt.tag else w.innerTag.toNat) = tag.toNat)) = some i)
    (hw : s.dev.host.relays.getD i {} = w) (horigin : w.origin = true) (hsub : w.subtree = false) (hown : w.own = false) :
    exec (.relayTimeout tag) s = .next (s.withDev ((s.dev.toRaw w.deadline).endRelay i stRelayTimeout
      (w.answers ++ w.ports.map (fun p => relayWord (s.dev.jalow.port.rd p).partnerAddr.toNat stRelayTimeout)))) := by
  change execRelayTimeout tag s = _
  refine hubStep_up hub ?_
  simp only [hfind, hw, horigin, hsub, hown, if_true, Bool.false_eq_true, if_false, List.append_nil]

end Relays

/-! Commands that wait for journal room and the eMRAM writer (R226 to R228). -/

theorem exec_journalAdmit {s : State} {w : JrnWait} {op : Op} (hfind : s.dev.slalom.jrnWait.find? (fun w => s.dev.slalom.room w.need) = some w)
    (hauth : w.auth = false) (hop : opOf w.pkt.pkt = some op) (hdie : op.die = false) :
    exec .journalAdmit s = .next ((s.unwait w).admitNow op w.pkt) := by
  refine congrArg Host.Outcome.next ?_
  simp [hfind, hauth, hop, hdie]

theorem exec_journalWaitTimeout {s : State} {w : JrnWait} {ws : List JrnWait} (hwaits : s.dev.slalom.jrnWait = w :: ws) :
    exec .journalWaitTimeout s = .next ((s.withDev (((s.dev.toRaw w.deadline).setSlm { s.dev.slalom with
      jrnWait := ws, jrnlBusy := bump 16 s.dev.slalom.jrnlBusy }).satAt 0x50 16 (bump 16 s.dev.slalom.jrnlBusy))).finish w.pkt stBusy 0 []) := by
  refine congrArg Host.Outcome.next ?_
  simp only [hwaits, State.unwait, Dev.toRaw_slalom, List.erase_cons_head]
  rfl

theorem exec_emramWriteDone {s : State} {r : EmramReq} (hbusy : s.dev.slalom.emramBusy = some r) (hctl : (s.written r).dev.ctlUp = false) :
    exec .emramWriteDone s = .next ((s.written r).withDev ((s.written r).dev.setSlm (s.written r).dev.slalom.serve)) := by
  refine congrArg Host.Outcome.next ?_
  have hserved : ((s.written r).dev.setSlm (s.written r).dev.slalom.serve).ctlUp = false := hctl
  simp [hbusy, hserved]

/-- Settles O6: each relay and each wait by the case that its hypotheses select. -/
theorem relayAndJournalCommandsComplete : Obligations.RelayAndJournalCommandsComplete := by
  unfold Obligations.RelayAndJournalCommandsComplete
  refine ⟨?relay, ?receive, ?reply, ?timeout, ?admission, ?waitTimeout, ?done⟩
  case relay =>
    intro p s q d h hresv0 hhops hold hresv1 htimeout hlimit hlen hbar hd
    exact exec_relay h hresv0 hhops hold hresv1 htimeout hlimit hlen hbar hd
  case receive =>
    intro m s hub
    exact ⟨exec_jalowRelayReceive_onward hub, exec_jalowRelayReceive_taken hub⟩
  case reply =>
    intro port m s hub
    refine ⟨?_, fun w => exec_jalowReplyReceive_late hub⟩
    rintro i _ hfind rfl hsub
    exact exec_jalowReplyReceive_awaited hub hfind hsub
  case timeout =>
    intro tag s i w hub hfind hw horigin hsub hown
    exact exec_relayTimeout hub hfind hw horigin hsub hown
  case admission =>
    intro s w op hfind hauth hop hdie
    exact exec_journalAdmit hfind hauth hop hdie
  case waitTimeout =>
    rintro s _ w ws hwaits rfl
    exact exec_journalWaitTimeout hwaits
  case done =>
    rintro s r _ hbusy rfl hctl
    exact exec_emramWriteDone hbusy hctl

/-! Snapshots (R47, R76 to R79). -/

theorem opSnapshotAt_body {s : State} {q : QPacket} {a : Nat} (hresv : q.resv 1 0xFFFF = false)
    (hat : nearEra s.dev.now (q.par 0) (q.f 1 15 0) = (a : Int)) (hlo : s.dev.now + 200000 ≤ a) (hhi : a < s.dev.now + 2147483648)
    (hroom : s.dev.points.reqs.length < 4) :
    opSnapshotAt.body s q = { st := s.withDev { s.dev with points := { s.dev.points with
                                reqs := insertReq { gen := BitVec.ofNat 16 (0x8000 + s.dev.points.reqCount % 32768), time := a } s.dev.points.reqs,
                                reqCount := (s.dev.points.reqCount + 1) % 32768 } },
                              status := stOkPending, words := [w32 (0x8000 + s.dev.points.reqCount % 32768)] } := by
  refine (guarded_pass ?_).trans ?_
  · have hrange : ¬((a : Int) < (s.dev.now : Int) + 200000 ∨ (s.dev.now : Int) + 2147483648 ≤ (a : Int)) := by omega
    simp only [firstErr_cons_none, firstErr_nil, encIf, rangeIf, hat, hresv, decide_eq_false hrange, decide_eq_false (Nat.not_le.mpr hroom), and_self]
  · simp only [hat]
    rfl

theorem exec_snapshotAt {p : Packet} {s : State} {q : QPacket} {a : Nat} (h : Ready opSnapshotAt p s q) (hresv : q.resv 1 0xFFFF = false)
    (hat : nearEra s.dev.now (q.par 0) (q.f 1 15 0) = (a : Int)) (hlo : s.dev.now + 200000 ≤ a) (hhi : a < s.dev.now + 2147483648)
    (hroom : s.dev.points.reqs.length < 4) :
    exec (.snapshotAt p) s = .next ((s.withDev ({ s.dev with points := { s.dev.points with
      reqs := insertReq { gen := BitVec.ofNat 16 (0x8000 + s.dev.points.reqCount % 32768), time := a } s.dev.points.reqs,
      reqCount := (s.dev.points.reqCount + 1) % 32768 } })).finish q stOkPending 0 [w32 (0x8000 + s.dev.points.reqCount % 32768)]) :=
  congrArg Host.Outcome.next (row_done h (opSnapshotAt_body hresv hat hlo hhi hroom) rfl (q.holds_short (by simp)) (.inl rfl))

/-- A generation's view of `n` points is four words each (Table 03-1). -/
theorem PointStore.viewAll_length (p : PointStore) (i start n : Nat) : (p.viewAll i start n).length = 4 * n := by
  simp [PointStore.viewAll, PointEntry.words, Nat.mul_comm]

section SnapshotRead
variable {p : Packet} {s : State} {q : QPacket} {i : Nat} (hresv0 : q.resv 0 0xFFFF = false) (hresv1 : q.resv 1 0xFFFFF = false)
  (hresv2 : q.resv 2 0x7FF = false) (hlo : 1 ≤ q.f 2 10 0) (hhi : q.f 2 10 0 ≤ 1022) (hend : q.f 1 19 0 + q.f 2 10 0 ≤ 2 ^ 20)
  (hheld : s.dev.points.heldAt (q.f 0 15 0) = some i)
include hresv0 hresv1 hresv2 hlo hhi hend hheld

/-- Once its operands are right and the generation is held, only a copy that is bad can fail SNAPSHOT_READ (R78). -/
theorem opSnapshotRead_body : opSnapshotRead.body s q =
    if s.dev.points.viewBad i (q.f 1 19 0) (q.f 2 10 0) then { st := s, status := stEccUncorrectable }
    else { st := s, words := s.dev.points.viewAll i (q.f 1 19 0) (q.f 2 10 0) } := by
  have hrange : outside (q.f 2 10 0) 1 1022 = false := outside_eq_false_iff.mpr ⟨hlo, hhi⟩
  simp only [opSnapshotRead, guarded, encIf, rangeIf, stateIf, hresv0, hresv1, hresv2, hrange, decide_eq_false (Nat.not_lt.mpr hend), hheld,
    Option.isNone_some, Option.getD_some, firstErr_false]
  cases s.dev.points.viewBad i (q.f 1 19 0) (q.f 2 10 0) <;> rfl

theorem exec_snapshotRead_good (h : Ready opSnapshotRead p s q) (hgood : s.dev.points.viewBad i (q.f 1 19 0) (q.f 2 10 0) = false)
    (hfit : q.holds (4 * q.f 2 10 0)) :
    exec (.snapshotRead p) s = .next (s.finish q stOk 0 (s.dev.points.viewAll i (q.f 1 19 0) (q.f 2 10 0))) := by
  have hbody := opSnapshotRead_body hresv0 hresv1 hresv2 hlo hhi hend hheld
  rw [hgood, if_neg Bool.false_ne_true] at hbody
  exact congrArg Host.Outcome.next (row_done h hbody rfl (by rw [PointStore.viewAll_length]; exact hfit) (.inl rfl))

theorem exec_snapshotRead_bad (h : Ready opSnapshotRead p s q) (hbad : s.dev.points.viewBad i (q.f 1 19 0) (q.f 2 10 0) = true) :
    exec (.snapshotRead p) s = .next (s.finish q stEccUncorrectable 0 []) := by
  have hbody := opSnapshotRead_body hresv0 hresv1 hresv2 hlo hhi hend hheld
  rw [hbad, if_pos rfl] at hbody
  exact congrArg Host.Outcome.next (row_rejected h hbody rfl (by decide))

end SnapshotRead

/-- SNAPSHOT_STATUS with nothing held and nothing pending: all the pool is free. -/
theorem exec_snapshotStatus_empty {p : Packet} {s : State} {q : QPacket} (h : Ready opSnapshotStatus p s q) (hgens : s.dev.points.gens = [])
    (hreqs : s.dev.points.reqs = []) :
    exec (.snapshotStatus p) s = .next (s.finish q stOk 0 ([pack [(1048576, 0), (0, 21), (0, 24)]] ++ List.replicate 17 0)) := by
  have hbody : opSnapshotStatus.body s q = { st := s, words := [pack [(1048576, 0), (0, 21), (0, 24)]] ++ List.replicate 17 0 } := by
    simp only [opSnapshotStatus, PointStore.freeSlots, hgens, hreqs]
    rfl
  exact congrArg Host.Outcome.next (row_done h hbody rfl (q.holds_short (by simp)) (.inl rfl))

@[simp] theorem Dev.freeSnap_points (d : Dev) : d.freeSnap.points = d.points := rfl
@[simp] theorem Dev.freeSnap_evr (d : Dev) : d.freeSnap.evr = d.evr := rfl

/-- REQUESTED_CAPTURE at its instant: the bank holds the pages, the store its new generation, and the event is raised (R76, R79). -/
theorem exec_requestedCapture {s : State} {r : SnapReq} {rs : List SnapReq} {d : Dev} (hreqs : s.dev.points.reqs = r :: rs)
    (hd : s.dev.toCt r.time = d) :
    exec .requestedCapture s = .next { s with
      dev := ((({ d with points := { d.points.capture r.gen true r.time with reqs := rs } } : Dev).raise 0x0121 0x0100 .info
        (r.gen.toNat + 2 ^ 16 * (r.time % 2 ^ 32) + 2 ^ 48 * eraOf r.time)).freeSnap).reserve
      reqBank := { gen := some r.gen.toNat, dev := { d with out := [] } } } := by
  subst hd
  refine congrArg Host.Outcome.next ?_
  simp only [hreqs]

theorem exec_atSnapshotRelease {s : State} {q : QPacket} {op : Op}
    (hfind : s.dev.host.queue.find? (fun q => q.waitsSnap && q.snapDone && !q.started && mayStart s.dev.host.queue q) = some q)
    (hop : opOf q.pkt = some op) : exec .atSnapshotRelease s = .next (execQ op s q) := by
  refine congrArg Host.Outcome.next ?_
  simp only [hfind, hop]

/-! Identity and the settings of the host port (R45, R57, R58, R406). -/

theorem exec_nop {p : Packet} {s : State} {q : QPacket} (h : Ready opNop p s q) (hslot : (q.par 0).toNat ≤ 63) :
    exec (.nop p) s = .next (s.finish q stOk 0 [w32 (s.dev.host.lastSeq.rd (p.transport.num * 64 + (q.par 0).toNat)).toNat]) := by
  have hbody : opNop.body s q = .read s [w32 (s.dev.host.lastSeq.rd (seqIndex q.pkt.transport (q.par 0).toNat)).toNat] :=
    guarded_pass (firstErr_cons_none.mpr ⟨decide_eq_false (Nat.not_lt.mpr hslot), firstErr_nil⟩)
  rw [h.pkt] at hbody
  exact congrArg Host.Outcome.next (row_done h hbody rfl (q.holds_short (by simp)) (.inl rfl))

theorem exec_devIdent {p : Packet} {s : State} {q : QPacket} (h : Ready opDevIdent p s q) :
    exec (.devIdent p) s = .next (s.finish q stOk 0 [0x0A619616, s.dev.hubRev, s.dev.hubFwrev, s.dev.serialLo, s.dev.serialHi,
      pack [((s.dev.activeDie.map (fun n => n + 1)).getD 0, 0), (s.dev.treeLevel, 2)]]) := by
  have hbody : opDevIdent.body s q = { st := s, words := [0x0A619616, s.dev.hubRev, s.dev.hubFwrev, s.dev.serialLo, s.dev.serialHi,
      pack [((s.dev.activeDie.map (fun n => n + 1)).getD 0, 0), (s.dev.treeLevel, 2)]] } := by
    simp only [opDevIdent]
    cases s.dev.activeDie <;> rfl
  exact congrArg Host.Outcome.next (row_done h hbody rfl (q.holds_short (by simp)) (.inl rfl))

theorem opHostConfig_body {s : State} {q : QPacket} (hresv0 : q.resv 0 0x7F = false) (hirq : q.f 0 3 2 ≠ 3) (hresv1 : q.resv 1 0xFFFF = false)
    (hport : (hostCfgOf q).cmdUdpPort ∉ [0, 319, 320]) (hframes : ∀ m, m < 3 → (s.dev.points.pframe.rd m).cfg.udpPort ≠ (hostCfgOf q).cmdUdpPort)
    (hcut : cutsOff (hostCfgOf q) q.pkt = false) : opHostConfig.body s q = .ok s s.dev := by
  have hany : ((List.range 3).any fun m => decide ((s.dev.points.pframe.rd m).cfg.udpPort = (hostCfgOf q).cmdUdpPort)) = false := by
    simpa using hframes
  refine guarded_pass ?_
  simp only [List.mem_cons, List.not_mem_nil, or_false] at hport
  simp only [firstErr_cons_none, firstErr_nil, encIf, conflictIf, hresv0, hresv1, hany, hcut, decide_eq_false hirq, decide_eq_false hport, Bool.or_false,
    and_self]

/-- HOST_CONFIG takes effect with its journal entry, once the reply has gone out (R57). -/
theorem exec_hostConfig {p : Packet} {s : State} {q : QPacket} (h : Ready opHostConfig p s q) (hj : Journals s q) (hresv0 : q.resv 0 0x7F = false)
    (hirq : q.f 0 3 2 ≠ 3) (hresv1 : q.resv 1 0xFFFF = false) (hport : (hostCfgOf q).cmdUdpPort ∉ [0, 319, 320])
    (hframes : ∀ m, m < 3 → (s.dev.points.pframe.rd m).cfg.udpPort ≠ (hostCfgOf q).cmdUdpPort) (hcut : cutsOff (hostCfgOf q) p = false) :
    exec (.hostConfig p) s = .next (opHostConfig.after q ((s.entered 0x0120 q).finish q stOk 0 [])) := by
  rw [← h.pkt] at hcut
  exact congrArg Host.Outcome.next (row_classN h (opHostConfig_body hresv0 hirq hresv1 hport hframes hcut) rfl (q.holds_short (by simp)) rfl
    (by decide) hj hj.2)

/-- HOST_STATUS answers the counts before it clears them (Table 02-28). -/
theorem exec_hostStatus {p : Packet} {s : State} {q : QPacket} {h : HostPort} (hready : Ready opHostStatus p s q) (hresv : q.resv 0 1 = false)
    (hh : s.dev.host = h) :
    exec (.hostStatus p) s = .next ((if q.b 0 0 then s.withDev ({ s.dev with host := { h with authFailCnt := 0, refusedCnt := 0, ethDiscarded := 0, spiCrcErr := 0 } })
      else s).finish q stOk 0 [h.accepted.rd 0, h.accepted.rd 1, h.accepted.rd 2, h.accepted.rd 3, pack [(h.authFailCnt, 0), (h.refusedCnt, 16)],
        pack [(h.ethDiscarded, 0), (h.spiCrcErr, 16)]]) := by
  subst hh
  exact congrArg Host.Outcome.next
    (row_done hready (guarded_pass (firstErr_cons_none.mpr ⟨hresv, firstErr_nil⟩)) rfl (q.holds_short (by simp)) (.inl rfl))

theorem exec_ethIfConfig {p : Packet} {s : State} {q : QPacket} (h : Ready opEthIfConfig p s q) (hj : Journals s q) (hresv0 : q.resv 0 0x1FF = false)
    (hresv4 : q.resv 4 0x7FFF = false) (hresv6 : q.resv 6 0xFFFF = false) (hgroup : q.b 6 8 = false) :
    exec (.ethIfConfig p) s = .next (((s.withDev ({ s.dev with host := { s.dev.host with eth := (s.dev.host.eth.wr p.inst
      { enable := q.b 0 0, sgmii := q.b 0 1, speed := BitVec.ofNat 2 (q.f 0 3 2), phyAddr := BitVec.ofNat 5 (q.f 0 8 4), ipv4 := q.par 1, netmask := q.par 2,
        gateway := q.par 3, vid := BitVec.ofNat 12 (q.f 4 11 0), pcp := BitVec.ofNat 3 (q.f 4 14 12),
        mac := BitVec.ofNat 48 (q.f 6 15 0 * 2 ^ 32 + (q.par 5).toNat) }) } })).entered 0x0122 q).finish q stOk 0 []) := by
  have hchecks : firstErr [encIf (q.resv 0 0x1FF) 0, encIf (q.resv 4 0x7FFF) 4, encIf (q.resv 6 0xFFFF || q.b 6 8) 6] = none := by
    simp [encIf, hresv0, hresv4, hresv6, hgroup]
  have hpkt := h.pkt
  subst hpkt
  exact congrArg Host.Outcome.next (row_classN h (guarded_pass hchecks) rfl (q.holds_short (by simp)) rfl (by decide) hj hj.2)

theorem exec_resetCause {p : Packet} {s : State} {q : QPacket} {r : CauseRec} (h : Ready opResetCause p s q) (hresv : q.resv 0 0xF = false)
    (hr : s.dev.power.causes[q.f 0 3 0]? = some r) :
    exec (.resetCause p) s = .next (s.finish q stOk 0 [w32 r.data.toNat, w32 (r.data.toNat / 2 ^ 32), r.seq, w32 r.opTime]) := by
  have hlt : q.f 0 3 0 < s.dev.power.causes.length := (List.getElem?_eq_some_iff.mp hr).1
  have hget : s.dev.power.causes.getD (q.f 0 3 0) {} = r := by simp [List.getD, hr]
  have hbody : opResetCause.body s q = { st := s, words := [w32 r.data.toNat, w32 (r.data.toNat / 2 ^ 32), r.seq, w32 r.opTime] } := by
    refine (guarded_pass (firstErr_cons_none.mpr ⟨hresv, firstErr_cons_none.mpr ⟨decide_eq_false (Nat.not_le.mpr hlt), firstErr_nil⟩⟩)).trans ?_
    rw [hget]
    rfl
  exact congrArg Host.Outcome.next (row_done h hbody rfl (q.holds_short (by simp)) (.inl rfl))

/-- Settles O10: each packet by the checks that its hypotheses let pass, the capture at its instant. -/
theorem snapshotAndIdentityCommandsComplete : Obligations.SnapshotAndIdentityCommandsComplete := by
  unfold Obligations.SnapshotAndIdentityCommandsComplete
  refine ⟨?snapshotAt, ?read, ?status, ?capture, ?release, ?nop, ?ident, ?hostConfig, ?hostStatus, ?ethIf, ?cause⟩
  case snapshotAt =>
    intro p s q a h hresv hat hlo hhi hroom
    exact exec_snapshotAt h hresv hat hlo hhi hroom
  case read =>
    intro p s q i h hresv0 hresv1 hresv2 hlo hhi hend hheld
    exact ⟨exec_snapshotRead_good hresv0 hresv1 hresv2 hlo hhi hend hheld h, exec_snapshotRead_bad hresv0 hresv1 hresv2 hlo hhi hend hheld h⟩
  case status => intro p s q; exact exec_snapshotStatus_empty
  case capture =>
    rintro s r rs _ hreqs rfl
    exact ⟨_, exec_requestedCapture hreqs rfl, rfl, rfl, rfl, rfl⟩
  case release => intro s q op; exact exec_atSnapshotRelease
  case nop => intro p s q; exact exec_nop
  case ident => intro p s q; exact exec_devIdent
  case hostConfig =>
    rintro p s q _ _ h hj rfl hresv0 hirq hresv1 hport hframes hcut rfl
    exact exec_hostConfig h hj hresv0 hirq hresv1 hport hframes hcut
  case hostStatus =>
    intro p s q h hready hresv hh
    exact exec_hostStatus hready hresv hh
  case ethIf =>
    intro p s q h hj hresv0 hresv4 hresv6 hgroup
    exact exec_ethIfConfig h hj hresv0 hresv4 hresv6 hgroup
  case cause => intro p s q r; exact exec_resetCause

end Sys2Proof.Machine
end

section
/-! The invariant of the block: it holds at reset, and every command and every CK_NET edge keeps it (R76). -/

namespace Sys2Proof.Machine

open Sys2Proof

/-- Every command answers a next state, leaves the waiting commands and keeps sound banks sound: the law of its row. -/
theorem exec_keeps (c : Instr) (s : State) : ∃ t, exec c s = .next t ∧ s.Keeps t := by
  cases c with
  | linkTransferError l => exact execLinkTransferError_keeps l s
  | linkReplayExhausted l => exact execLinkReplayExhausted_keeps l s
  | linkRetrain l ok => exact execLinkRetrain_keeps l ok s
  | hubPllLoss => exact execHubPllLoss_keeps s
  | ctlPllLoss die => exact execCtlPllLoss_keeps die s
  | fldPllLoss die => exact execFldPllLoss_keeps die s
  | fldPllRelock die => exact execFldPllRelock_keeps die s
  | creditReturn kind inst => exact execCreditReturn_keeps kind inst s
  | sampleArrival die => exact execSampleArrival_keeps die s
  | eventRoute => exact execEventRoute_keeps s
  | evrQueueDrain => exact execEvrQueueDrain_keeps s
  | frameBoundary => exact execFrameBoundary_keeps s
  | generationCommit => exact execGenerationCommit_keeps s
  | pisteResume pipe => exact execPisteResume_keeps pipe s
  | jobIssue k => exact execJobIssue_keeps k s
  | jobEnd k j cycles => exact execJobEnd_keeps k j cycles s
  | seMemoryEcc k uncorrectable => exact execSeMemoryEcc_keeps k uncorrectable s
  | engineDrained k => exact execEngineDrained_keeps k s
  | coordStep => exact execCoordStep_keeps s
  | reportDeadline => exact execReportDeadline_keeps s
  | workerDrop port => exact execWorkerDrop_keeps port s
  | coordUpReceive port m => exact execCoordUpReceive_keeps port m s
  | coordDownReceive m => exact execCoordDownReceive_keeps m s
  | frameDeadline => exact execFrameDeadline_keeps s
  | frameCheckpoint => exact execFrameCheckpoint_keeps s
  | stoppedCheckpoint => exact execStoppedCheckpoint_keeps s
  | hubSqTailWrite v fetched => exact execHubSqTailWrite_keeps v fetched s
  | hubCqHeadWrite v => exact execHubCqHeadWrite_keeps v s
  | hubHostCtlWrite v => exact execHubHostCtlWrite_keeps v s
  | hubHostErrWrite v => exact execHubHostErrWrite_keeps v s
  | cqIrqTimeout => exact execCqIrqTimeout_keeps s
  | pcieLinkReset kind => exact execPcieLinkReset_keeps kind s
  | readStatus => exact execReadStatus_keeps s
  | writePacket p crc => exact execWritePacket_keeps p crc s
  | writePacketQ p crc => exact execWritePacketQ_keeps p crc s
  | readReply => exact execReadReply_keeps s
  | readReplyQ => exact execReadReplyQ_keeps s
  | ackReply tag crc => exact execAckReply_keeps tag crc s
  | ethCmdDatagram port p => exact execEthCmdDatagram_keeps port p s
  | jalowRelayReceive m => exact execJalowRelayReceive_keeps m s
  | jalowReplyReceive port m => exact execJalowReplyReceive_keeps port m s
  | relayTimeout tag => exact execRelayTimeout_keeps tag s
  | nop p => exact execNop_keeps p s
  | devIdent p => exact execDevIdent_keeps p s
  | deviceReset p => exact execDeviceReset_keeps p s
  | dieReset p => exact execDieReset_keeps p s
  | fieldReset p => exact execFieldReset_keeps p s
  | resetCause p => exact execResetCause_keeps p s
  | fwStage p => exact execFwStage_keeps p s
  | fwActivate p => exact execFwActivate_keeps p s
  | frameSet p => exact execFrameSet_keeps p s
  | frameStop p => exact execFrameStop_keeps p s
  | frameStatus p => exact execFrameStatus_keeps p s
  | hostConfig p => exact execHostConfig_keeps p s
  | hostStatus p => exact execHostStatus_keeps p s
  | ethIfConfig p => exact execEthIfConfig_keeps p s
  | pointRead p => exact execPointRead_keeps p s
  | pointWrite p => exact execPointWrite_keeps p s
  | pointBlockWrite p => exact execPointBlockWrite_keeps p s
  | pointBlockRead p => exact execPointBlockRead_keeps p s
  | snapshotAt p => exact execSnapshotAt_keeps p s
  | snapshotRead p => exact execSnapshotRead_keeps p s
  | snapshotStatus p => exact execSnapshotStatus_keeps p s
  | pframeConfig p => exact execPframeConfig_keeps p s
  | pointFrameReceive port src dg => exact execPointFrameReceive_keeps port src dg s
  | pointEccError id => exact execPointEccError_keeps id s
  | waitingWriteLand => exact execWaitingWriteLand_keeps s
  | requestedCapture => exact execRequestedCapture_keeps s
  | atSnapshotRelease => exact execAtSnapshotRelease_keeps s
  | modelLoad p => exact execModelLoad_keeps p s
  | modelCommit p => exact execModelCommit_keeps p s
  | modelStatus p => exact execModelStatus_keeps p s
  | partitionSet p => exact execPartitionSet_keeps p s
  | substSet p => exact execSubstSet_keeps p s
  | modelImageLoad => exact execModelImageLoad_keeps s
  | jobSubmit p => exact execJobSubmit_keeps p s
  | jobResult p => exact execJobResult_keeps p s
  | jobCancel p => exact execJobCancel_keeps p s
  | memAlloc p => exact execMemAlloc_keeps p s
  | memFree p => exact execMemFree_keeps p s
  | memWrite p => exact execMemWrite_keeps p s
  | memRead p => exact execMemRead_keeps p s
  | solverConfig p => exact execSolverConfig_keeps p s
  | solverStatus p => exact execSolverStatus_keeps p s
  | coordConfigSettings p => exact execCoordConfigSettings_keeps p s
  | coordConfigScope p => exact execCoordConfigScope_keeps p s
  | coordStatus p => exact execCoordStatus_keeps p s
  | jlPortConfig p => exact execJlPortConfig_keeps p s
  | jlStatus p => exact execJlStatus_keeps p s
  | relay p => exact execRelay_keeps p s
  | jlHelloTimer port => exact execJlHelloTimer_keeps port s
  | jlHelloReceive port m => exact execJlHelloReceive_keeps port m s
  | jlRetryTimer port => exact execJlRetryTimer_keeps port s
  | jlFrameReceive port f => exact execJlFrameReceive_keeps port f s
  | jlNakReceive port seq => exact execJlNakReceive_keeps port seq s
  | jlAckTimeout port => exact execJlAckTimeout_keeps port s
  | jlIdleTimer port => exact execJlIdleTimer_keeps port s
  | jlLinkLoss port signal => exact execJlLinkLoss_keeps port signal s
  | jlPointsReceive port m => exact execJlPointsReceive_keeps port m s
  | jlEventReceive port m => exact execJlEventReceive_keeps port m s
  | loopConfig p => exact execLoopConfig_keeps p s
  | loopSectionSet p => exact execLoopSectionSet_keeps p s
  | loopMode p => exact execLoopMode_keeps p s
  | loopStatus p => exact execLoopStatus_keeps p s
  | overrideConfig p => exact execOverrideConfig_keeps p s
  | loopTick n => exact execLoopTick_keeps n s
  | loopComputeDeadline n => exact execLoopComputeDeadline_keeps n s
  | loopStaleLimit n => exact execLoopStaleLimit_keeps n s
  | numericManual n => exact execNumericManual_keeps n s
  | outputApply => exact execOutputApply_keeps s
  | supervConfig p => exact execSupervConfig_keeps p s
  | supervAck p => exact execSupervAck_keeps p s
  | supervRestartModel p => exact execSupervRestartModel_keeps p s
  | supervStatus p => exact execSupervStatus_keeps p s
  | supervEvaluation n => exact execSupervEvaluation_keeps n s
  | supervPersistReached n => exact execSupervPersistReached_keeps n s
  | supervQuietReached n => exact execSupervQuietReached_keeps n s
  | mogulConfig p => exact execMogulConfig_keeps p s
  | mogulPageRead p => exact execMogulPageRead_keeps p s
  | traceConfig p => exact execTraceConfig_keeps p s
  | traceArm p => exact execTraceArm_keeps p s
  | traceDisarm p => exact execTraceDisarm_keeps p s
  | traceRead p => exact execTraceRead_keeps p s
  | traceComplete u => exact execTraceComplete_keeps u s
  | slalomEvaluation => exact execSlalomEvaluation_keeps s
  | capUnmetTimer => exact execCapUnmetTimer_keeps s
  | holdupOkTimer => exact execHoldupOkTimer_keeps s
  | powerSample mw => exact execPowerSample_keeps mw s
  | tempSensorRead temps => exact execTempSensorRead_keeps temps s
  | clampReport die => exact execClampReport_keeps die s
  | holdoutRead n mv => exact execHoldoutRead_keeps n mv s
  | holdupCapTest n => exact execHoldupCapTest_keeps n s
  | holdupCapTestEnd n mv => exact execHoldupCapTestEnd_keeps n mv s
  | pwrCapSet p => exact execPwrCapSet_keeps p s
  | budgetConfig p => exact execBudgetConfig_keeps p s
  | budgetStatus p => exact execBudgetStatus_keeps p s
  | journalAdmit => exact execJournalAdmit_keeps s
  | journalWaitTimeout => exact execJournalWaitTimeout_keeps s
  | emramWriteDone => exact execEmramWriteDone_keeps s
  | achConfig p => exact execAchConfig_keeps p s
  | seqWrite p => exact execSeqWrite_keeps p s
  | seqStart p => exact execSeqStart_keeps p s
  | seqStop p => exact execSeqStop_keeps p s
  | seqResult p => exact execSeqResult_keeps p s
  | calChannelTrim p => exact execCalChannelTrim_keeps p s
  | calNtc p => exact execCalNtc_keeps p s
  | calAoTrim p => exact execCalAoTrim_keeps p s
  | calHbManual p => exact execCalHbManual_keeps p s
  | calHbAuto p => exact execCalHbAuto_keeps p s
  | calUserDefaults p => exact execCalUserDefaults_keeps p s
  | testdacSet p => exact execTestdacSet_keeps p s
  | seqCycleStart die => exact execSeqCycleStart_keeps die s
  | entryResult die e codes => exact execEntryResult_keeps die e codes s
  | sampleSend die => exact execSampleSend_keeps die s
  | aoFaultDetect die c short => exact execAoFaultDetect_keeps die c short s
  | aoFaultClear die c short => exact execAoFaultClear_keeps die c short s
  | seqAutostart die => exact execSeqAutostart_keeps die s
  | dchConfig p => exact execDchConfig_keeps p s
  | dchStatus p => exact execDchStatus_keeps p s
  | armOutputs p => exact execArmOutputs_keeps p s
  | outputSet p => exact execOutputSet_keeps p s
  | safeConfig p => exact execSafeConfig_keeps p s
  | counterRead p => exact execCounterRead_keeps p s
  | diEdgeAccept die c => exact execDiEdgeAccept_keeps die c s
  | diPointRefresh die c => exact execDiPointRefresh_keeps die c s
  | diLoopSample die c => exact execDiLoopSample_keeps die c s
  | wireBreakDeclare die c => exact execWireBreakDeclare_keeps die c s
  | wireBreakClear die c => exact execWireBreakClear_keeps die c s
  | countAccumulate => exact execCountAccumulate_keeps s
  | outputFoldback die c => exact execOutputFoldback_keeps die c s
  | outputRetry die c still => exact execOutputRetry_keeps die c still s
  | outputOvertemp die c => exact execOutputOvertemp_keeps die c s
  | openLoadDetect die c => exact execOpenLoadDetect_keeps die c s
  | shortToSupplyDetect die c => exact execShortToSupplyDetect_keeps die c s
  | shortToSupplyClear die c => exact execShortToSupplyClear_keeps die c s
  | externalDriveDetect die c => exact execExternalDriveDetect_keeps die c s
  | externalDriveClear die c => exact execExternalDriveClear_keeps die c s
  | pwmPeriodStart die c => exact execPwmPeriodStart_keeps die c s
  | clampEventStart die c => exact execClampEventStart_keeps die c s
  | clampEventEnd die c uj => exact execClampEventEnd_keeps die c uj s
  | cycleHoldRelease die c => exact execCycleHoldRelease_keeps die c s
  | armTakeEffect die => exact execArmTakeEffect_keeps die s
  | refreshSend => exact execRefreshSend_keeps s
  | refreshReceive die => exact execRefreshReceive_keeps die s
  | snowploughTimeout die => exact execSnowploughTimeout_keeps die s
  | snowploughResume die => exact execSnowploughResume_keeps die s
  | fieldResetTakeHold die => exact execFieldResetTakeHold_keeps die s
  | fieldResetRelease die => exact execFieldResetRelease_keeps die s
  | fieldDieConfigured die => exact execFieldDieConfigured_keeps die s
  | heartbeatSend => exact execHeartbeatSend_keeps s
  | heartbeatReceive seq => exact execHeartbeatReceive_keeps seq s
  | heartbeatLate => exact execHeartbeatLate_keeps s
  | heartbeatTimeout => exact execHeartbeatTimeout_keeps s
  | hardFaultLine die cause => exact execHardFaultLine_keeps die cause s
  | arbiterDisagreement => exact execArbiterDisagreement_keeps s
  | stateRestoreDone => exact execStateRestoreDone_keeps s
  | releaseInstant => exact execReleaseInstant_keeps s
  | loopStream => exact execLoopStream_keeps s
  | streamLate => exact execStreamLate_keeps s
  | recoveryStart die => exact execRecoveryStart_keeps die s
  | recoveryBistDone die pass => exact execRecoveryBistDone_keeps die pass s
  | standbySliceEnd sig => exact execStandbySliceEnd_keeps sig s
  | swapPrepare => exact execSwapPrepare_keeps s
  | swapHandover => exact execSwapHandover_keeps s
  | twinStatus p => exact execTwinStatus_keeps p s
  | swap p => exact execSwap_keeps p s
  | swapCancel p => exact execSwapCancel_keeps p s
  | twinConfig p => exact execTwinConfig_keeps p s
  | twinRecover p => exact execTwinRecover_keeps p s
  | healthReport p => exact execHealthReport_keeps p s
  | timeRead p => exact execTimeRead_keeps p s
  | timeAdjustOffset p => exact execTimeAdjustOffset_keeps p s
  | timeAdjustStep p => exact execTimeAdjustStep_keeps p s
  | timeAdjustSet p => exact execTimeAdjustSet_keeps p s
  | timeAdjustFreq p => exact execTimeAdjustFreq_keeps p s
  | ptpConfig p => exact execPtpConfig_keeps p s
  | ptpStatus p => exact execPtpStatus_keeps p s
  | servoConfig p => exact execServoConfig_keeps p s
  | ptpMessageReceive port m => exact execPtpMessageReceive_keeps port m s
  | ptpTransmitTimer port kind => exact execPtpTransmitTimer_keeps port kind s
  | announceReceiptTimeout port => exact execAnnounceReceiptTimeout_keeps port s
  | followupTimeout port => exact execFollowupTimeout_keeps port s
  | servoSample theta => exact execServoSample_keeps theta s
  | servoHoldover => exact execServoHoldover_keeps s
  | timeChangeApply => exact execTimeChangeApply_keeps s
  | timeLoRead => exact execTimeLoRead_keeps s
  | rawLoRead => exact execRawLoRead_keeps s
  | readRtc p => exact execReadRtc_keeps p s
  | writeRtcNextEdge p => exact execWriteRtcNextEdge_keeps p s
  | writeRtcAtTime p => exact execWriteRtcAtTime_keeps p s
  | rtcTrimSet p => exact execRtcTrimSet_keeps p s
  | rtcSyncConfig p => exact execRtcSyncConfig_keeps p s
  | rtcAlarmSet p => exact execRtcAlarmSet_keeps p s
  | rtcAlarmCancel p => exact execRtcAlarmCancel_keeps p s
  | evinConfig p => exact execEvinConfig_keeps p s
  | evinRead p => exact execEvinRead_keeps p s
  | rtcSecLoRead => exact execRtcSecLoRead_keeps s
  | rtcFlagsWrite v => exact execRtcFlagsWrite_keeps v s
  | evinStatusWrite n v => exact execEvinStatusWrite_keeps n v s
  | rtcLoad => exact execRtcLoad_keeps s
  | alarmMatch => exact execAlarmMatch_keeps s
  | rtcSyncMeasure => exact execRtcSyncMeasure_keeps s
  | backupSupplySwitch toVbat => exact execBackupSupplySwitch_keeps toVbat s
  | vbatMeasure mv => exact execVbatMeasure_keeps mv s
  | backupLoss => exact execBackupLoss_keeps s
  | evinEdgeAccept n rising => exact execEvinEdgeAccept_keeps n rising s
  | evinTamperEdge n rising => exact execEvinTamperEdge_keeps n rising s
  | canConfig p => exact execCanConfig_keeps p s
  | canFilter p => exact execCanFilter_keeps p s
  | canSend p => exact execCanSend_keeps p s
  | canReceive p => exact execCanReceive_keeps p s
  | canStatus p => exact execCanStatus_keeps p s
  | canTimeConfig p => exact execCanTimeConfig_keeps p s
  | canMap p => exact execCanMap_keeps p s
  | canRecoverBus p => exact execCanRecoverBus_keeps p s
  | canRecoverBuffer p => exact execCanRecoverBuffer_keeps p s
  | canFrameReceived k f sof => exact execCanFrameReceived_keeps k f sof s
  | canTxComplete k b sof => exact execCanTxComplete_keeps k b sof s
  | canBusError k lec tx post => exact execCanBusError_keeps k lec tx post s
  | canClashLimit k b => exact execCanClashLimit_keeps k b s
  | canBusoffRecovered k => exact execCanBusoffRecovered_keeps k s
  | canRefCycle k => exact execCanRefCycle_keeps k s
  | canRefLateTimeout k => exact execCanRefLateTimeout_keeps k s
  | canSilenceTimeout k => exact execCanSilenceTimeout_keeps k s
  | canMapTimeoutCheck => exact execCanMapTimeoutCheck_keeps s
  | recRead p => exact execRecRead_keeps p s
  | recStatus p => exact execRecStatus_keeps p s
  | recMark p => exact execRecMark_keeps p s
  | repeatFlush => exact execRepeatFlush_keeps s
  | opTimeSave => exact execOpTimeSave_keeps s
  | recSaturatedWrite v => exact execRecSaturatedWrite_keeps v s
  | keyProvision p => exact execKeyProvision_keeps p s
  | keyDerive p => exact execKeyDerive_keeps p s
  | keyStatus p => exact execKeyStatus_keeps p s
  | keyChallenge p => exact execKeyChallenge_keeps p s
  | keyErase p => exact execKeyErase_keeps p s
  | tamperZeroise source => exact execTamperZeroise_keeps source s
  | pwrStatus p => exact execPwrStatus_keeps p s
  | lowpowerSetRun p => exact execLowpowerSetRun_keeps p s
  | lowpowerSetQuiesce p => exact execLowpowerSetQuiesce_keeps p s
  | lowpowerSetKeep p => exact execLowpowerSetKeep_keeps p s
  | railConfig p => exact execRailConfig_keeps p s
  | feedLowWarn die b low mv => exact execFeedLowWarn_keeps die b low mv s
  | feedOvervoltage die b opened mv => exact execFeedOvervoltage_keeps die b opened mv s
  | feedLoss die aMv bMv => exact execFeedLoss_keeps die aMv bMv s
  | feedReturn die b mv => exact execFeedReturn_keeps die b mv s
  | feedReset die => exact execFeedReset_keeps die s
  | hubMuxSwitch vhaMv vhbMv => exact execHubMuxSwitch_keeps vhaMv vhbMv s
  | saveSupplyStart => exact execSaveSupplyStart_keeps s
  | railStep pg => exact execRailStep_keeps pg s
  | railPgTimeout r => exact execRailPgTimeout_keeps r s
  | railSequenceRetry => exact execRailSequenceRetry_keeps s
  | railPgLoss r => exact execRailPgLoss_keeps r s
  | railPgReturn r => exact execRailPgReturn_keeps r s
  | pmbusTelemetry reads => exact execPmbusTelemetry_keeps reads s
  | pmbusGainAdjust target => exact execPmbusGainAdjust_keeps target s
  | pmbusAlert status => exact execPmbusAlert_keeps status s
  | powerOnReset cause => exact execPowerOnReset_keeps cause s
  | hubResetRelease => exact execHubResetRelease_keeps s
  | activeDieBistDone die pass => exact execActiveDieBistDone_keeps die pass s
  | noActiveWaitExpiry => exact execNoActiveWaitExpiry_keeps s
  | resetNLow => exact execResetNLow_keeps s
  | resetNRise bootMode => exact execResetNRise_keeps bootMode s
  | hubWatchdogExpiry lockstep => exact execHubWatchdogExpiry_keeps lockstep s
  | dieThermalTrip d => exact execDieThermalTrip_keeps d s
  | thermalRecover d => exact execThermalRecover_keeps d s
  | lastBreathConfirm => exact execLastBreathConfirm_keeps s
  | lastBreathDone => exact execLastBreathDone_keeps s
  | keepWake source => exact execKeepWake_keeps source s
  | selftestRun p => exact execSelftestRun_keeps p s
  | selftestResult p => exact execSelftestResult_keeps p s
  | selftestSliceEnd sig => exact execSelftestSliceEnd_keeps sig s
  | qmonLevelRead ctl => exact execQmonLevelRead_keeps ctl s
  | freeLowRead => exact execFreeLowRead_keeps s
  | minSlackRead => exact execMinSlackRead_keeps s
  | maxGlideUsRead => exact execMaxGlideUsRead_keeps s
  | residMaxNsRead port => exact execResidMaxNsRead_keeps port s
  | registerWrite addr v => exact execRegisterWrite_keeps addr v s
  | diagRead p => exact execDiagRead_keeps p s
  | diagWrite p => exact execDiagWrite_keeps p s
  | diagModify p => exact execDiagModify_keeps p s
  | openLoadClear die c => exact execOpenLoadClear_keeps die c s
  | feedOvervoltageClear die b mv => exact execFeedOvervoltageClear_keeps die b mv s
  | saveSupplyRelease => exact execSaveSupplyRelease_keeps s
  | bitAndWordLock port => exact execBitAndWordLock_keeps port s
  | coldSyncComplete die => exact execColdSyncComplete_keeps die s
  | outputDiscardReport die => exact execOutputDiscardReport_keeps die s
  | arpRequest port target sender senderMac => exact execArpRequest_keeps port target sender senderMac s
  | icmpEchoRequest port target sender payload => exact execIcmpEchoRequest_keeps port target sender payload s
  | tckEdge rising tms tdi trstN => exact execTckEdge_keeps rising tms tdi trstN s

/-- What leaves the waiting commands and keeps sound banks sound keeps the invariant. -/
theorem State.Keeps.inv {s t : State} (k : s.Keeps t) (h : s.Inv) : t.Inv := by
  obtain ⟨hpending, hframe, hreq⟩ := k
  obtain ⟨hwf, hframeBank, hreqBank⟩ := h
  exact ⟨fun c hc => hwf c (hpending ▸ hc), hframe hframeBank, hreq hreqBank⟩

/-- A CK_NET edge moves the device only. -/
theorem State.tick_keeps (s : State) : s.Keeps s.tick := s.dev_keeps _

/-- The commands that wait behind the first one are as well formed as all were. -/
theorem State.Inv.behind {s : State} {c : Instr} {cs : List Instr} (h : s.Inv) (hpending : s.pending = c :: cs) : ({ s with pending := cs } : State).Inv := by
  obtain ⟨hwf, hframe, hreq⟩ := h
  exact ⟨fun x hx => hwf x (hpending ▸ List.mem_cons_of_mem c hx), hframe, hreq⟩

/-- Settles O41: no command waits and no page has been captured. -/
theorem invariantHoldsAtReset : Obligations.InvariantHoldsAtReset :=
  ⟨fun _ h => absurd h List.not_mem_nil, Bank.sound_empty _, Bank.sound_empty _⟩

/-- Settles O42: an edge where nothing waits, else the law of the command at the front. -/
theorem invariantKeptByEveryStep : Obligations.InvariantKeptByEveryStep := by
  intro s h
  cases hpending : s.pending with
  | nil => exact ⟨s.tick, by rw [step, hpending], s.tick_keeps.inv h⟩
  | cons c cs =>
    obtain ⟨t, ht, k⟩ := exec_keeps c { s with pending := cs }
    exact ⟨t, by rw [step, hpending]; exact ht, k.inv (h.behind hpending)⟩

end Sys2Proof.Machine
end

section
/-! The point store as an addressed memory (R66, R67): what a list of writes and an uncorrectable error leave in its live entries. -/

namespace Sys2Proof.Machine

open Sys2Proof

/-! A write changes no entry but the one it names, and keeps the canonical form. -/

theorem Dev.writePoint_wf {d : Dev} (w : PointWrite) (h : d.points.live.wf = true) : (d.writePoint w).points.live.wf = true := by
  rcases d.writePoint_live w with hsame | ⟨e, hwr⟩
  · rw [hsame]; exact h
  · rw [hwr]; exact Tbl.wf_wr _ _ _ h

theorem Dev.writePoint_rd_other (d : Dev) {w : PointWrite} {j : Nat} (hj : j ≠ w.id) :
    (d.writePoint w).points.live.rd j = d.points.live.rd j := by
  rcases d.writePoint_live w with hsame | ⟨e, hwr⟩
  · rw [hsame]
  · rw [hwr]; exact Tbl.rd_wr_other _ _ _ _ hj

theorem Dev.writePoints_cons (d : Dev) (w : PointWrite) (ws : List PointWrite) : d.writePoints (w :: ws) = (d.writePoint w).writePoints ws := rfl

theorem Dev.writePoints_wf {d : Dev} (ws : List PointWrite) (h : d.points.live.wf = true) : (d.writePoints ws).points.live.wf = true := by
  induction ws generalizing d with
  | nil => exact h
  | cons w ws ih => exact ih (Dev.writePoint_wf w h)

theorem Dev.writePoints_rd_other (d : Dev) {ws : List PointWrite} {j : Nat} (hj : ∀ w ∈ ws, w.id ≠ j) :
    (d.writePoints ws).points.live.rd j = d.points.live.rd j := by
  induction ws generalizing d with
  | nil => rfl
  | cons w ws ih =>
    obtain ⟨hw, hws⟩ := List.forall_mem_cons.mp hj
    rw [Dev.writePoints_cons, ih _ hws, Dev.writePoint_rd_other d hw.symm]

/-! An uncorrectable error (R67). -/

/-- What an uncorrectable error makes of an entry: a NaN of quality 0x86 and source 0xF0, with TIME and FRAME_TAG as they were. -/
def PointEntry.lost (e : PointEntry) : PointEntry := { e with value := 0x7FC00000, quality := 0x86, source := 0xF0, sequence := e.sequence + 1 }

theorem PointEntry.lost_ne_default (e : PointEntry) : e.lost ≠ default :=
  fun h => absurd (congrArg PointEntry.source h) (show (0xF0 : BitVec 8) ≠ 0 by decide)

/-- POINT_ECC_ERROR writes what is lost over the entry it names and raises its event. -/
theorem exec_pointEccError (id : Nat) {s : State} (hub : s.dev.hubUp = true) : ∃ t, exec (.pointEccError id) s = .next t ∧
    t.dev.points.live = s.dev.points.live.wr (id % 2 ^ 20) (s.dev.points.live.rd (id % 2 ^ 20)).lost ∧
    t.dev.evr = s.dev.evr.accept { code := 0x0124, source := 0x0100, sev := .crit, data := BitVec.ofNat 64 (id % 2 ^ 20) } :=
  ⟨_, congrArg Host.Outcome.next (if_neg (by simp [hub])), rfl, rfl⟩

/-- Out of operation the hub has no point store that an error could hit. -/
theorem exec_pointEccError_down (id : Nat) {s : State} (hub : s.dev.hubUp = false) : exec (.pointEccError id) s = .next s :=
  congrArg Host.Outcome.next (if_pos (by simp [hub]))

/-- Settles O58: the list of writes by induction, the error as one write, the reset state by its empty table. -/
theorem pointStoreKeepsItsCanonicalForm : Obligations.PointStoreKeepsItsCanonicalForm := by
  unfold Obligations.PointStoreKeepsItsCanonicalForm
  refine ⟨fun ws d h => ⟨Dev.writePoints_wf ws h, fun j => d.writePoints_rd_other⟩, ?error, Tbl.wf_nil, fun i => ⟨rfl, rfl, rfl⟩⟩
  case error =>
    intro id s h
    cases hub : s.dev.hubUp with
    | false => exact ⟨s, exec_pointEccError_down id hub, h, fun _ _ => rfl⟩
    | true =>
      obtain ⟨t, hexec, hlive, -⟩ := exec_pointEccError id hub
      refine ⟨t, hexec, ?_, fun j hj => ?_⟩
      · rw [hlive]; exact Tbl.wf_wr _ _ _ h
      · rw [hlive]; exact Tbl.rd_wr_other _ _ _ _ hj

end Sys2Proof.Machine
end

section
/-! The packets and the other commands of the point store (R67 to R77, Tables 03-1 and 03-5). -/

namespace Sys2Proof.Machine

open Sys2Proof Sys2Proof.Bits

/-! A write that lands (R67, R68). -/

/-- What the write `w` leaves in its entry where it lands and loses to no other (Table 03-1, R67). -/
def Dev.landed (d : Dev) (w : PointWrite) : PointEntry :=
  { value := w.value, time := if w.landTime then w32 d.now else w.time, frameTag := w.frameTag.getD (BitVec.ofNat 16 d.frame.frameNum)
    quality := if finite32 w.value then w.quality else 0x87, source := w.source, sequence := (d.points.live.rd w.id).sequence + 1 }

theorem Dev.landed_ne_default (d : Dev) {w : PointWrite} (hsource : w.source ≠ 0) : d.landed w ≠ default :=
  fun h => hsource (congrArg PointEntry.source h)

theorem Dev.land_live_of_wins {d : Dev} {w : PointWrite} (hwins : d.loses w = false) :
    (d.land w).points.live = d.points.live.wr w.id (d.landed w) := by
  unfold Dev.land
  rw [if_neg (by simp [hwins])]
  dsimp only
  rw [PointStore.shadow_live]
  refine congrArg (fun x => Tbl.wr x w.id (d.landed w)) ?_
  split
  · rw [Dev.collide_live]; split <;> rfl
  · split <;> rfl

/-- With nothing waiting, a write whose entry needs no copy lands at once (R70). -/
theorem Dev.writePoint_lands {d : Dev} {w : PointWrite} (hwaiting : d.points.waiting = []) (hcopy : d.points.needsCopy w.id = false) :
    d.writePoint w = d.land w := by
  have hcan : d.canLand w = true := by simp [Dev.canLand, hcopy]
  simp [Dev.writePoint, hwaiting, hcan]

/-- The entry of a write that lands at once and wins, and every other entry. -/
theorem Dev.writePoint_rd {d : Dev} {w : PointWrite} (hsource : w.source ≠ 0) (hwaiting : d.points.waiting = [])
    (hcopy : d.points.needsCopy w.id = false) (hwins : d.loses w = false) :
    (d.writePoint w).points.live.rd w.id = d.landed w ∧ ∀ j, j ≠ w.id → (d.writePoint w).points.live.rd j = d.points.live.rd j := by
  refine ⟨?_, fun j => d.writePoint_rd_other⟩
  rw [Dev.writePoint_lands hwaiting hcopy, Dev.land_live_of_wins hwins, Tbl.rd_wr_ne _ _ _ (d.landed_ne_default hsource)]

/-! The packets. -/

/-- `n` points are four words each (Table 03-1). -/
theorem length_words (t : Tbl PointEntry) (first n : Nat) : ((List.range n).flatMap (fun k => (t.rd (first + k)).words)).length = 4 * n := by
  simp [PointEntry.words, Nat.mul_comm]

theorem exec_pointRead {p : Packet} {s : State} {q : QPacket} (h : Ready opPointRead p s q) (hresv0 : q.resv 0 0xFFFFF = false)
    (hresv1 : q.resv 1 0x7FF = false) (hlo : 1 ≤ q.f 1 10 0) (hhi : q.f 1 10 0 ≤ 1022) (hend : q.f 0 19 0 + q.f 1 10 0 ≤ 2 ^ 20)
    (hfit : q.holds (4 * q.f 1 10 0)) :
    exec (.pointRead p) s = .next (s.finish q stOk 0 ((List.range (q.f 1 10 0)).flatMap (fun k => (s.dev.points.live.rd (q.f 0 19 0 + k)).words))) := by
  have hchecks : firstErr [encIf (q.resv 0 0xFFFFF) 0, encIf (q.resv 1 0x7FF) 1, rangeIf (outside (q.f 1 10 0) 1 1022) 1,
      rangeIf (decide (2 ^ 20 < q.f 0 19 0 + q.f 1 10 0)) 0] = none := by
    simp only [encIf, rangeIf, hresv0, hresv1, outside_eq_false_iff.mpr ⟨hlo, hhi⟩, decide_eq_false (Nat.not_lt.mpr hend), firstErr_false, firstErr_nil]
  exact congrArg Host.Outcome.next (row_done h (guarded_pass hchecks) rfl (by rw [length_words]; exact hfit) (.inl rfl))

/-- The write that a POINT_WRITE packet hands over (Table 03-5). -/
def QPacket.pointWrite (q : QPacket) (t : Transport) : PointWrite :=
  { id := q.f 0 19 0, value := q.par 1, landTime := true, quality := BitVec.ofNat 8 (q.f 2 7 0), source := BitVec.ofNat 8 (0x10 + t.num) }

theorem QPacket.pointWrite_source_ne_zero (q : QPacket) (t : Transport) : (q.pointWrite t).source ≠ 0 := by
  change BitVec.ofNat 8 (0x10 + t.num) ≠ 0
  cases t <;> decide

theorem exec_pointWrite {p : Packet} {s : State} {q : QPacket} (h : Ready opPointWrite p s q) (hresv0 : q.resv 0 0xFFFFF = false)
    (hresv2 : q.resv 2 0xFF = false) (hquality : qualityOk (q.f 2 7 0) = true) :
    exec (.pointWrite p) s = .next ((s.withDev (s.dev.writePoint (q.pointWrite p.transport))).finish q stOk 0 []) := by
  have hbody : opPointWrite.body s q = .ok s (s.dev.writePoint (q.pointWrite q.pkt.transport)) :=
    guarded_pass (by simp [encIf, hresv0, hresv2, hquality])
  rw [h.pkt] at hbody
  exact congrArg Host.Outcome.next (row_done h hbody rfl (q.holds_short (by simp)) (.inl rfl))

/-- The write that element `i` of a block asks for (Table 03-6), its two words standing in `ws`. -/
def QPacket.blockWrite (q : QPacket) (ws : List Word) (i : Nat) : PointWrite :=
  { id := if q.b 2 20 then fld (nth ws (2 * i + 1)) 31 12 else q.f 2 19 0 + i, value := nth ws (2 * i), time := q.par 4, landTime := !q.b 2 21
    quality := BitVec.ofNat 8 (fld (nth ws (2 * i + 1)) 7 0), source := 0x20 }

theorem exec_pointBlockWrite {p : Packet} {s : State} {q : QPacket} {ws : List Word} (h : Ready opPointBlockWrite p s q) (hdma : p.dma = some ws)
    (hblock : firstErr (blockChecks q) = none)
    (hel : ∀ i, i < q.f 3 16 0 → fld (nth ws (2 * i + 1)) 11 8 = 0 ∧ (q.b 2 20 = false → fld (nth ws (2 * i + 1)) 31 12 = 0) ∧
      qualityOk (fld (nth ws (2 * i + 1)) 7 0) = true) :
    exec (.pointBlockWrite p) s = .next ((s.withDev (s.dev.writePoints ((List.range (q.f 3 16 0)).map (q.blockWrite ws)))).finish q stOk 0 []) := by
  have hgood : ((List.range (q.f 3 16 0)).any fun i => decide (fld (nth ws (2 * i + 1)) 11 8 ≠ 0) ||
      (!q.b 2 20 && decide (fld (nth ws (2 * i + 1)) 31 12 ≠ 0)) || !qualityOk (fld (nth ws (2 * i + 1)) 7 0)) = false := by
    rw [List.any_eq_false]
    intro i hi
    obtain ⟨hzero, hid, hquality⟩ := hel i (List.mem_range.mp hi)
    simpa [hzero, hquality] using hid
  have hbody : opPointBlockWrite.body s q = .ok s (s.dev.writePoints ((List.range (q.f 3 16 0)).map (q.blockWrite ws))) := by
    rw [← h.pkt] at hdma
    simp only [opPointBlockWrite, hdma]
    exact guarded_pass (firstErr_append.mpr ⟨hblock, firstErr_cons_none.mpr ⟨hgood, firstErr_nil⟩⟩)
  exact congrArg Host.Outcome.next (row_done h hbody rfl (q.holds_short (by simp)) (.inl rfl))

/-- The host address that a block packet names (Table 03-6). -/
def QPacket.blockAddr (q : QPacket) : Nat := (q.par 0).toNat + 2 ^ 32 * (q.par 1).toNat

section BlockRead
variable {p : Packet} {s : State} {q : QPacket} {ws : List Word} (h : Ready opPointBlockRead p s q) (hdma : p.dma = some ws)
  (hblock : firstErr (blockChecks q) = none) (hlist : q.b 2 20 = false)
include h hdma hblock hlist

theorem exec_pointBlockRead_live (hlive : q.b 2 21 = false) :
    exec (.pointBlockRead p) s = .next ((s.withDev (s.dev.emit (.hostWrite q.blockAddr
      ((List.range (q.f 3 16 0)).flatMap (fun k => (s.dev.points.live.rd (q.f 2 19 0 + k)).words))))).finish q stOk 0 []) := by
  have hbody : opPointBlockRead.body s q = .ok s (s.dev.emit (.hostWrite q.blockAddr
      ((List.range (q.f 3 16 0)).flatMap (fun k => (s.dev.points.live.rd (q.f 2 19 0 + k)).words)))) := by
    rw [← h.pkt] at hdma
    simp only [opPointBlockRead, hdma, hlive]
    exact guarded_pass (firstErr_append.mpr ⟨hblock, by simp [encIf, stateIf, hlist]⟩)
  exact congrArg Host.Outcome.next (row_done h hbody rfl (q.holds_short (by simp)) (.inl rfl))

theorem exec_pointBlockRead_held {i : Nat} (hgen : q.b 2 21 = true) (hresv : q.resv 4 0xFFFF = false)
    (hheld : s.dev.points.heldAt (q.f 4 15 0) = some i) (hgood : s.dev.points.viewBad i (q.f 2 19 0) (q.f 3 16 0) = false) :
    exec (.pointBlockRead p) s = .next ((s.withDev (s.dev.emit (.hostWrite q.blockAddr
      (s.dev.points.viewAll i (q.f 2 19 0) (q.f 3 16 0))))).finish q stOk 0 []) := by
  have hbody : opPointBlockRead.body s q = .ok s (s.dev.emit (.hostWrite q.blockAddr (s.dev.points.viewAll i (q.f 2 19 0) (q.f 3 16 0)))) := by
    rw [← h.pkt] at hdma
    simp only [opPointBlockRead, hdma, hgen, hheld, Option.getD_some]
    exact guarded_pass (firstErr_append.mpr ⟨hblock, by simp [encIf, stateIf, hlist, hresv, hgood]⟩)
  exact congrArg Host.Outcome.next (row_done h hbody rfl (q.holds_short (by simp)) (.inl rfl))

end BlockRead

/-- PFRAME_CONFIG takes effect with its journal entry, once the reply has gone out (R73). -/
theorem exec_pframeConfig {p : Packet} {s : State} {q : QPacket} (h : Ready opPframeConfig p s q) (hj : Journals s q)
    (hresv0 : q.resv 0 0xFFFF3F03 = false) (hresv3 : q.resv 3 0xFFFFF = false) (hresv4 : q.resv 4 0xFFFFF = false)
    (hport : (pframeCfgOf q).udpPort ∉ [0, 319, 320, s.dev.host.cfg.cmdUdpPort])
    (hkey : (pframeCfgOf q).enable = true → s.dev.macRefusal (pframeCfgOf q).keySlot.toNat = none) (hids : (pframeCfgOf q).idLow ≤ (pframeCfgOf q).idHigh) :
    exec (.pframeConfig p) s = .next (opPframeConfig.after q ((s.entered 0x0220 q).finish q stOk 0 [])) := by
  have hmac : ((pframeCfgOf q).enable && (s.dev.macRefusal (pframeCfgOf q).keySlot.toNat).isSome) = false := by
    simpa using hkey
  have hbody : opPframeConfig.body s q = .ok s s.dev := by
    refine guarded_pass ?_
    simp only [List.mem_cons, List.not_mem_nil, or_false] at hport
    simp only [firstErr_cons_none, firstErr_nil, encIf, conflictIf, hresv0, hresv3, hresv4, hmac, decide_eq_false hport,
      decide_eq_false (Nat.not_lt.mpr hids), and_self]
  exact congrArg Host.Outcome.next (row_classN h hbody rfl (q.holds_short (by simp)) rfl (by decide) hj hj.2)

/-! Point frames and waiting writes (R70, R74, R75). -/

/-- A point frame that passes every check of R74 is booked, uses its key once and hands over its records. -/
theorem exec_pointFrameReceive {port : Fin 3} {src : BitVec 32} {dg : List Word} {s : State} {f : PFrameState} (hub : s.dev.hubUp = true)
    (heth : (s.dev.host.eth.rd port.val).enable = true) (hip : (s.dev.host.eth.rd port.val).ipv4 ≠ 0) (hf : s.dev.points.pframe.rd port.val = f)
    (hen : f.cfg.enable = true) (hroom : f.ingest < 64) (hgood : s.dev.pframeErr f src dg = none) :
    exec (.pointFrameReceive port src dg) s = .next (s.withDev ((({ s.dev with points := { s.dev.points with
      pframe := s.dev.points.pframe.wr port.val { f with accepted := f.accepted + 1, lastSeq := nth dg 1, ingest := f.ingest + 1 } } } : Dev).useKey
        f.cfg.keySlot.toNat).writePoints (pframeWrites f.cfg port.val s.dev.now dg))) := by
  subst hf
  refine congrArg Host.Outcome.next ((if_neg (by simpa [hub, heth, hen] using hip)).trans ((if_neg (Nat.not_le.mpr hroom)).trans ?_))
  simp only [hgood]

theorem exec_waitingWriteLand {s : State} {w : PointWrite} (hland : s.dev.landable s.dev.points.waiting [] = some w) :
    exec .waitingWriteLand s =
      .next (s.withDev (({ s.dev with points := { s.dev.points with waiting := s.dev.points.waiting.erase w } } : Dev).land w)) := by
  refine congrArg Host.Outcome.next ?_
  simp only [hland]

/-- Settles O9: each packet by the checks that its hypotheses let pass, a landing write by the entry it leaves. -/
theorem pointStoreCommandsComplete : Obligations.PointStoreCommandsComplete := by
  unfold Obligations.PointStoreCommandsComplete
  refine ⟨?read, ?write, ?blockWrite, ?blockRead, ?frame, ?error, ?land, ?config⟩
  case read => intro p s q; exact exec_pointRead
  case write =>
    rintro p s q _ h hresv0 hresv2 hquality rfl
    have hexec := exec_pointWrite h hresv0 hresv2 hquality
    refine ⟨hexec, fun hwaiting hcopy hwins => ⟨_, hexec, ?_⟩⟩
    rw [State.finish_dev, Dev.finish_points]
    exact Dev.writePoint_rd (q.pointWrite_source_ne_zero p.transport) hwaiting hcopy hwins
  case blockWrite =>
    intro p s q ws el h hdma hblock hel hgood
    obtain rfl : el = fun i => nth ws (2 * i + 1) := funext hel
    exact exec_pointBlockWrite h hdma hblock hgood
  case blockRead =>
    intro p s q ws h hdma hblock hlist
    exact ⟨exec_pointBlockRead_live h hdma hblock hlist, fun i => exec_pointBlockRead_held h hdma hblock hlist⟩
  case frame =>
    rintro port src dg s f _ hub heth hip hf hen hroom hgood rfl
    exact exec_pointFrameReceive hub heth hip hf hen hroom hgood
  case error =>
    intro id s hub hid
    obtain ⟨t, hexec, hlive, hevr⟩ := exec_pointEccError id hub
    rw [Nat.mod_eq_of_lt hid] at hlive hevr
    refine ⟨t, hexec, ?_, fun j hj => ?_, hevr⟩
    · rw [hlive]; exact Tbl.rd_wr_ne _ _ _ (PointEntry.lost_ne_default _)
    · rw [hlive]; exact Tbl.rd_wr_other _ _ _ _ hj
  case land => intro s w; exact exec_waitingWriteLand
  case config =>
    rintro p s q _ _ h hj rfl hresv0 hresv3 hresv4 hport hkey hids rfl
    have hexec := exec_pframeConfig h hj hresv0 hresv3 hresv4 hport hkey hids
    rw [← h.pkt] at hexec ⊢
    exact hexec

end Sys2Proof.Machine
end

section
/-! Piste's loading opcodes, the model that a start-up or a takeover loads, and the pipeline that goes on (R18, R83, R88, R96). -/

namespace Sys2Proof.Machine

open Sys2Proof Sys2Proof.Bits

/-- With no commit in progress and a model to change, the last two checks of a loading opcode pass (R96, Table 04-9). -/
theorem firstErr_loadable {d : Dev} {start : Option Model} {m : Model} (hcommit : d.piste.commit = none) (hstart : start = some m) :
    firstErr [d.committing, stateIf start.isNone] = none :=
  firstErr_cons_none.mpr ⟨by simp [hcommit], firstErr_cons_none.mpr ⟨by simp [hstart], firstErr_nil⟩⟩

/-- A row outside class N whose meaning only stages a model is answered at once with ST_OK, without payload. -/
theorem packetRow_staged {op : Op} {p : Packet} {s : State} {q : QPacket} {m : Model} (h : Ready op p s q)
    (hbody : op.body s q = .ok s (s.dev.setPiste { s.dev.piste with staging := some m })) (hclass : op.classN = false) :
    packetRow op p s = op.after q ((s.withDev (s.dev.setPiste { s.dev.piste with staging := some m })).finish q stOk 0 []) :=
  row_done h hbody rfl (q.holds_short (by simp)) (.inl hclass)

/-! MODEL_LOAD. -/

/-- The model that MODEL_LOAD changes (Table 04-9): the staged one, or with BEGIN a copy of the active model or an empty one. -/
def Dev.loadStart (d : Dev) (q : QPacket) : Option Model :=
  if q.b 0 1 then some (if q.b 0 2 then d.piste.active.getD {} else {}) else d.piste.staging

section ModelLoad
variable {p : Packet} {s : State} {q : QPacket} {m : Model} (h : Ready opModelLoad p s q) (hresv : q.resv 0 7 = false)
  (hcommit : s.dev.piste.commit = none) (hstart : s.dev.loadStart q = some m)
include h hresv hcommit hstart

/-- With SECTION 1 the words go to the parameter pool. -/
theorem exec_modelLoad_pool (hpool : q.b 0 0 = true) (hsize : (q.par 1).toNat + (q.from' 2).length ≤ 65536) :
    exec (.modelLoad p) s = .next ((s.withDev (s.dev.setPiste { s.dev.piste with
      staging := some { m with pool := m.pool.wrAll (q.par 1).toNat (q.from' 2) } })).finish q stOk 0 []) := by
  have hbody : opModelLoad.body s q =
      .ok s (s.dev.setPiste { s.dev.piste with staging := some { m with pool := m.pool.wrAll (q.par 1).toNat (q.from' 2) } }) := by
    unfold Dev.loadStart at hstart
    simp only [opModelLoad, hstart, hpool, if_true]
    exact guarded_pass (firstErr_cons_none.mpr ⟨hresv, firstErr_cons_none.mpr ⟨by simp, firstErr_cons_none.mpr
      ⟨decide_eq_false (Nat.not_lt.mpr hsize), firstErr_loadable hcommit rfl⟩⟩⟩)
  exact congrArg Host.Outcome.next (packetRow_staged h hbody rfl)

/-- With SECTION 0 the words go to the elements, whose second words carry reserved bits (Table 04-2). -/
theorem exec_modelLoad_elements (hpool : q.b 0 0 = false) (hsize : (q.par 1).toNat + (q.from' 2).length ≤ 786432)
    (hwords : ∀ x ∈ (q.from' 2).zipIdx, ((q.par 1).toNat + x.2) % 3 = 1 → fld x.1 31 22 = 0) :
    exec (.modelLoad p) s = .next ((s.withDev (s.dev.setPiste { s.dev.piste with
      staging := some { m with elemWords := m.elemWords.wrAll (q.par 1).toNat (q.from' 2) } })).finish q stOk 0 []) := by
  have hgood : ((q.from' 2).zipIdx.any fun x => decide (((q.par 1).toNat + x.2) % 3 = 1) && decide (fld x.1 31 22 ≠ 0)) = false := by
    rw [List.any_eq_false]
    intro x hx
    simpa using hwords x hx
  have hbody : opModelLoad.body s q =
      .ok s (s.dev.setPiste { s.dev.piste with staging := some { m with elemWords := m.elemWords.wrAll (q.par 1).toNat (q.from' 2) } }) := by
    unfold Dev.loadStart at hstart
    simp only [opModelLoad, hstart, hpool, Bool.not_false, Bool.true_and, Bool.false_eq_true, if_false]
    exact guarded_pass (firstErr_cons_none.mpr ⟨hresv, firstErr_cons_none.mpr ⟨hgood, firstErr_cons_none.mpr
      ⟨decide_eq_false (Nat.not_lt.mpr hsize), firstErr_loadable hcommit rfl⟩⟩⟩)
  exact congrArg Host.Outcome.next (packetRow_staged h hbody rfl)

end ModelLoad

/-! MODEL_COMMIT and MODEL_STATUS. -/

/-- The staged model with the counts, the revision and the edition that MODEL_COMMIT gives it (Table 04-9). -/
def Model.committed (st : Model) (q : QPacket) : Model :=
  { st with elemCount := (q.par 0).toNat, paramWords := (q.par 1).toNat, modelRev := BitVec.ofNat 16 (q.f 2 15 0),
            paramEdition := BitVec.ofNat 16 (q.f 2 31 16) }

/-- A commit that passes R88 holds its model for the eMRAM write, makes it the image copy, and is answered later (R96). -/
theorem exec_modelCommit {p : Packet} {s : State} {q : QPacket} {st : Model} (h : Ready opModelCommit p s q) (hstaging : s.dev.piste.staging = some st)
    (hcommit : s.dev.piste.commit = none) (hlo : 1 ≤ (q.par 0).toNat) (hhi : (q.par 0).toNat ≤ 262144) (hwords : (q.par 1).toNat ≤ 65536)
    (hframe : (q.par 3).toNat = 0 ∨ s.dev.frame.state = .stopped ∨ s.dev.frame.frameNum + 2 ≤ (q.par 3).toNat)
    (hgood : (st.committed q).reject s.dev.smallGangs s.dev.solver.cfg = none) :
    exec (.modelCommit p) s = .next ((s.withDev ({ s.dev with
      piste := { s.dev.piste with commit := some { model := st.committed q, effective := (q.par 3).toNat, sigs := (st.committed q).sigs,
                                                   pkt := { q with started := true } }, imageCopy := some (st.committed q) },
      slalom := s.dev.slalom.request .model })).started q) := by
  have hchecks : firstErr [rangeIf (outside (q.par 0).toNat 1 262144) 0, rangeIf (decide (65536 < (q.par 1).toNat)) 1,
      rangeIf (decide ((q.par 3).toNat ≠ 0 ∧ s.dev.frame.state ≠ .stopped ∧ (q.par 3).toNat < s.dev.frame.frameNum + 2)) 3,
      s.dev.committing, stateIf s.dev.piste.staging.isNone] = none := by
    have hsoon : ¬((q.par 3).toNat ≠ 0 ∧ s.dev.frame.state ≠ .stopped ∧ (q.par 3).toNat < s.dev.frame.frameNum + 2) := by
      rintro ⟨hnow, hrunning, hearly⟩
      rcases hframe with hzero | hstopped | hlate
      · exact hnow hzero
      · exact hrunning hstopped
      · omega
    exact firstErr_cons_none.mpr ⟨outside_eq_false_iff.mpr ⟨hlo, hhi⟩, firstErr_cons_none.mpr ⟨decide_eq_false (Nat.not_lt.mpr hwords),
      firstErr_cons_none.mpr ⟨decide_eq_false hsoon, firstErr_loadable hcommit hstaging⟩⟩⟩
  have hbody : opModelCommit.body s q = { st := s.withDev ({ s.dev with
      piste := { s.dev.piste with commit := some { model := st.committed q, effective := (q.par 3).toNat, sigs := (st.committed q).sigs,
                                                   pkt := { q with started := true } }, imageCopy := some (st.committed q) },
      slalom := s.dev.slalom.request .model }), status := stOkPending, later := true } := by
    refine (guarded_pass hchecks).trans ?_
    unfold Model.committed at hgood
    simp only [hstaging, Option.getD_some, hgood]
    rfl
  exact congrArg Host.Outcome.next (row_later h hbody rfl (q.holds_short (by simp)) rfl)

theorem exec_modelStatus {p : Packet} {s : State} {q : QPacket} (h : Ready opModelStatus p s q) :
    exec (.modelStatus p) s = .next (s.finish q stOk 0 [pack [(s.dev.piste.modelState, 0), (b1 s.dev.piste.staging.isSome, 2),
      (b1 s.dev.piste.image.isSome, 3), ((s.dev.piste.active.getD {}).modelRev.toNat, 16)], w32 (s.dev.piste.active.getD {}).paramEdition.toNat,
      w32 (s.dev.piste.active.getD {}).elemCount, w32 s.dev.piste.activeSince, w32 ((s.dev.piste.pend.map (fun c => c.effective)).getD 0),
      w32 s.dev.piste.errReason.toNat, w32 s.dev.piste.errIndex, (s.dev.piste.active.getD {}).sigFold s.dev.piste.sigs]) :=
  congrArg Host.Outcome.next (row_done h rfl rfl (q.holds_short (by simp)) (.inl rfl))

/-! PARTITION_SET and SUBST_SET: the entries of each are checked one by one, then written in order. -/

section Entries
variable {p : Packet} {s : State} {q : QPacket} {m : Model} (hcommit : s.dev.piste.commit = none) (hstaging : s.dev.piste.staging = some m)
include hcommit hstaging

theorem firstErr_entries {head : List (Bool × Nat × Nat)} {n : Nat} {checks : Nat → List (Bool × Nat × Nat)} (hhead : firstErr head = none)
    (hentries : ∀ i, i < n → firstErr (checks i) = none) :
    firstErr (head ++ (List.range n).flatMap checks ++ [s.dev.committing, stateIf s.dev.piste.staging.isNone]) = none :=
  firstErr_append.mpr ⟨firstErr_append.mpr ⟨hhead, firstErr_flatMap.mpr fun i hi => hentries i (List.mem_range.mp hi)⟩,
    firstErr_loadable hcommit hstaging⟩

theorem exec_partitionSet (h : Ready opPartitionSet p s q) (hresv : q.resv 0 0x1FF0FFF = false) (hlo : 1 ≤ q.f 0 24 16) (hhi : q.f 0 24 16 ≤ 256)
    (hend : q.f 0 11 0 + q.f 0 24 16 ≤ 4096) (hlen : 1 + 8 * q.f 0 24 16 ≤ q.n)
    (hentries : ∀ i, i < q.f 0 24 16 → firstErr (subEntryChecks q (1 + 8 * i)) = none) :
    exec (.partitionSet p) s = .next ((s.withDev (s.dev.setPiste { s.dev.piste with staging := some { m with
      subs := m.subs.wrAll (q.f 0 11 0) ((List.range (q.f 0 24 16)).map (fun i => subEntryOf q (1 + 8 * i))) } })).finish q stOk 0 []) := by
  have hhead : firstErr [encIf (q.resv 0 0x1FF0FFF) 0, rangeIf (decide (q.f 0 24 16 = 0 ∨ 256 < q.f 0 24 16 ∨ 4096 < q.f 0 11 0 + q.f 0 24 16)) 0,
      (decide (q.n < 1 + 8 * q.f 0 24 16), stBadLength, 1)] = none :=
    firstErr_cons_none.mpr ⟨hresv, firstErr_cons_none.mpr ⟨decide_eq_false (by omega), firstErr_cons_none.mpr
      ⟨decide_eq_false (Nat.not_lt.mpr hlen), firstErr_nil⟩⟩⟩
  have hbody : opPartitionSet.body s q = .ok s (s.dev.setPiste { s.dev.piste with staging := some { m with
      subs := m.subs.wrAll (q.f 0 11 0) ((List.range (q.f 0 24 16)).map (fun i => subEntryOf q (1 + 8 * i))) } }) := by
    refine (guarded_pass (firstErr_entries hcommit hstaging hhead hentries)).trans ?_
    simp only [hstaging, Option.getD_some]
  exact congrArg Host.Outcome.next (packetRow_staged h hbody rfl)

theorem exec_substSet (h : Ready opSubstSet p s q) (hresv : q.resv 0 0x3F = false) (hlo : 1 ≤ q.f 0 5 0) (hhi : q.f 0 5 0 ≤ 48)
    (hlen : 1 + 4 * q.f 0 5 0 ≤ q.n) (hentries : ∀ i, i < q.f 0 5 0 → firstErr (substChecks q (1 + 4 * i)) = none) :
    exec (.substSet p) s = .next ((s.withDev (s.dev.setPiste { s.dev.piste with staging := some { m with
      substs := (List.range (q.f 0 5 0)).foldl
        (fun t i => Tbl.wr t (q.f (1 + 4 * i) 3 0 * 4 + q.f (1 + 4 * i) 5 4) (substOf q (1 + 4 * i))) m.substs } })).finish q stOk 0 []) := by
  have hhead : firstErr [encIf (q.resv 0 0x3F) 0, rangeIf (outside (q.f 0 5 0) 1 48) 0, (decide (q.n < 1 + 4 * q.f 0 5 0), stBadLength, 1)] = none :=
    firstErr_cons_none.mpr ⟨hresv, firstErr_cons_none.mpr ⟨outside_eq_false_iff.mpr ⟨hlo, hhi⟩, firstErr_cons_none.mpr
      ⟨decide_eq_false (Nat.not_lt.mpr hlen), firstErr_nil⟩⟩⟩
  have hbody : opSubstSet.body s q = .ok s (s.dev.setPiste { s.dev.piste with staging := some { m with
      substs := (List.range (q.f 0 5 0)).foldl
        (fun t i => Tbl.wr t (q.f (1 + 4 * i) 3 0 * 4 + q.f (1 + 4 * i) 5 4) (substOf q (1 + 4 * i))) m.substs } }) := by
    refine (guarded_pass (firstErr_entries hcommit hstaging hhead hentries)).trans ?_
    simp only [hstaging, Option.getD_some]
  exact congrArg Host.Outcome.next (packetRow_staged h hbody rfl)

end Entries

/-! The model that a start-up or a takeover loads (R83). -/

section ImageLoad
variable {s : State} {m : Model} (hctl : s.dev.ctlUp = true)
include hctl

/-- A takeover: the image copy becomes active, what was staged stays. -/
theorem exec_modelImageLoad_copy (hcopy : s.dev.piste.imageCopy = some m) :
    exec .modelImageLoad s = .next (s.withDev (s.dev.setPiste { s.dev.piste with active := some m, sigs := m.sigs, activeSince := s.dev.frame.frameNum })) := by
  refine congrArg Host.Outcome.next ((if_neg (by simp [hctl])).trans ?_)
  simp only [hcopy, Dev.loadModel]
  rfl

/-- A start-up: without a copy, what the image holds becomes the copy and is loaded. -/
theorem exec_modelImageLoad_noCopy (hcopy : s.dev.piste.imageCopy = none) :
    exec .modelImageLoad s =
      .next (s.withDev ((s.dev.setPiste { s.dev.piste with imageCopy := s.dev.piste.image }).loadModel s.dev.piste.image true)) := by
  refine congrArg Host.Outcome.next ((if_neg (by simp [hctl])).trans ?_)
  simp only [hcopy]

theorem exec_modelImageLoad_image (hcopy : s.dev.piste.imageCopy = none) (himage : s.dev.piste.image = some m) :
    exec .modelImageLoad s = .next (s.withDev (s.dev.setPiste { s.dev.piste with
      imageCopy := some m, active := some m, sigs := m.sigs, activeSince := s.dev.frame.frameNum, staging := none })) := by
  rw [exec_modelImageLoad_noCopy hctl hcopy, himage]
  rfl

/-- A failing CRC leaves no model and raises its event. -/
theorem exec_modelImageLoad_none (hcopy : s.dev.piste.imageCopy = none) (himage : s.dev.piste.image = none) :
    exec .modelImageLoad s = .next (s.withDev ((s.dev.setPiste { s.dev.piste with
      active := none, sigs := [], staging := none }).raiseCtl 0x21 0x2100 .crit 1)) := by
  have hsame : { s.dev.piste with imageCopy := none } = s.dev.piste := by rw [← hcopy]
  rw [exec_modelImageLoad_noCopy hctl hcopy, himage, hsame]
  rfl

end ImageLoad

/-! The pipeline that goes on (R18, R103). -/

section Resume
variable {d : Dev} {pipe : Nat} {j : Job} (hheld : (if pipe = 0 then d.piste.held0 else d.piste.held1) = some j)
include hheld

/-- The held job goes to the block that takes it, and the pipeline goes on with the cursor. -/
theorem Dev.resumePipe_placed {lead : Nat} (hlead : d.choose (d.fixedOf j.sub) j.gangLog2 j = some lead) :
    d.resumePipe pipe = Dev.assemble 4097 ((d.place lead j).setPiste
      (if pipe = 0 then { (d.place lead j).piste with held0 := none } else { (d.place lead j).piste with held1 := none })) := by
  have hplaced : d.tryPlace j = (true, d.place lead j) := by simp only [Dev.tryPlace, hlead]
  simp only [Dev.resumePipe, hheld, hplaced]
  rfl

/-- With room on no engine the job stays held. -/
theorem Dev.resumePipe_noRoom (hlead : d.choose (d.fixedOf j.sub) j.gangLog2 j = none) : d.resumePipe pipe = d := by
  have hplaced : d.tryPlace j = (false, d) := by simp only [Dev.tryPlace, hlead]
  simp only [Dev.resumePipe, hheld, hplaced]
  rfl

end Resume

/-- Settles O11: each opcode by the checks that its hypotheses let pass, the loads and the pipeline by what the device holds. -/
theorem pisteCommandsComplete : Obligations.PisteCommandsComplete := by
  unfold Obligations.PisteCommandsComplete
  refine ⟨?load, ?commit, ?status, ?partition, ?subst, ?image, ?resume⟩
  case load =>
    intro p s q m h hresv hcommit hstart
    exact ⟨exec_modelLoad_pool h hresv hcommit hstart, exec_modelLoad_elements h hresv hcommit hstart⟩
  case commit =>
    rintro p s q st _ h hstaging hcommit rfl hlo hhi hwords hframe hgood
    exact exec_modelCommit h hstaging hcommit hlo hhi hwords hframe hgood
  case status =>
    rintro p s q _ h rfl
    exact exec_modelStatus h
  case partition =>
    rintro p s q m _ h hresv rfl hlo hhi hend hlen hentries hcommit hstaging
    exact exec_partitionSet hcommit hstaging h hresv hlo hhi hend hlen hentries
  case subst =>
    rintro p s q m _ h hresv rfl hlo hhi hlen hentries hcommit hstaging
    exact exec_substSet hcommit hstaging h hresv hlo hhi hlen hentries
  case image =>
    intro s hctl
    exact ⟨fun m => exec_modelImageLoad_copy hctl, fun m => exec_modelImageLoad_image hctl, exec_modelImageLoad_none hctl⟩
  case resume =>
    intro k s j hheld
    refine ⟨?_, fun hlead => congrArg (Host.Outcome.next ∘ s.withDev) (Dev.resumePipe_noRoom hheld hlead)⟩
    rintro lead _ hlead rfl
    exact congrArg (Host.Outcome.next ∘ s.withDev) (Dev.resumePipe_placed hheld hlead)

end Sys2Proof.Machine
end

section
/-! The solver engines' memory, settings and status, the errors of an engine's memory, and the end of a drain (R99 to R102, R122, R124, R126). -/

namespace Sys2Proof.Machine

open Sys2Proof Sys2Proof.Bits

/-- A row outside class N whose meaning only changes the device is answered at once with ST_OK, without payload. -/
theorem packetRow_changed {op : Op} {p : Packet} {s : State} {q : QPacket} {d : Dev} (h : Ready op p s q) (hbody : op.body s q = .ok s d)
    (hclass : op.classN = false) : packetRow op p s = op.after q ((s.withDev d).finish q stOk 0 []) :=
  row_done h hbody rfl (q.holds_short (by simp)) (.inl hclass)

/-! The objects of an engine's memory (R101, R124, Table 05-14). -/

theorem exec_memAlloc {p : Packet} {s : State} {q : QPacket} {w : Word} {d : Dev} (h : Ready opMemAlloc p s q) (hresv0 : q.resv 0 0x7F = false)
    (hfmt : q.f 0 2 0 ≤ 4) (hresv1 : q.resv 1 0x1FFFF = false)
    (hok : allocOk s.dev.smallGangs p.inst (q.f 0 2 0) (q.f 0 6 4) (q.f 1 16 0) (q.par 2).toNat (q.par 3).toNat = true)
    (halloc : s.dev.allocObj p.inst 0 (s.dev.solver.sizesHost * 16384)
      (allocObjOf (q.f 0 2 0) (q.b 0 3) (q.f 0 6 4) (q.f 1 16 0) (q.par 2).toNat (q.par 3).toNat) = some (w, d)) :
    exec (.memAlloc p) s = .next ((s.withDev d).finish q stOk 0
      [w, w32 (allocObjOf (q.f 0 2 0) (q.b 0 3) (q.f 0 6 4) (q.f 1 16 0) (q.par 2).toNat (q.par 3).toNat).total]) := by
  have hbody : opMemAlloc.body s q = { st := s.withDev d, words :=
      [w, w32 (allocObjOf (q.f 0 2 0) (q.b 0 3) (q.f 0 6 4) (q.f 1 16 0) (q.par 2).toNat (q.par 3).toNat).total] } := by
    rw [← h.pkt] at hok halloc
    refine (guarded_pass ?checks).trans ?placed
    case checks =>
      exact firstErr_cons_none.mpr ⟨by simp [hresv0, hfmt], firstErr_cons_none.mpr ⟨hresv1, firstErr_cons_none.mpr ⟨by simp [hok], firstErr_nil⟩⟩⟩
    case placed => simp only [halloc]
  exact congrArg Host.Outcome.next (row_done h hbody rfl (q.holds_short (by simp)) (.inl rfl))

/-- The object that P0 names on the packet's engine (Table 05-3). -/
theorem QPacket.obj_eq_some {p : Packet} {q : QPacket} {d : Dev} {o : MemObj} (hpkt : q.pkt = p) (hinst : fld (q.par 0) 30 27 = p.inst)
    (hobj : d.obj (q.par 0) = some o) : q.obj d = some o :=
  (if_pos (hinst.trans (congrArg Packet.inst hpkt.symm))).trans hobj

/-- A host object that no job references passes the checks of what changes it (R124). -/
theorem firstErr_unheld {o : MemObj} (hhost : fld o.handle 26 25 ≠ 1) (hfree : o.inUse = 0) :
    firstErr [conflictIf o.ctl 0, (decide (0 < o.inUse), stBusy, 4)] = none := by
  simp [conflictIf, MemObj.ctl, hhost, hfree]

section Objects
variable {p : Packet} {s : State} {q : QPacket} {o : MemObj} (hinst : fld (q.par 0) 30 27 = p.inst) (hobj : s.dev.obj (q.par 0) = some o)
include hinst hobj

theorem exec_memFree (h : Ready opMemFree p s q) (hhost : fld o.handle 26 25 ≠ 1) (hfree : o.inUse = 0) :
    exec (.memFree p) s = .next ((s.withDev (s.dev.freeObj o.handle)).finish q stOk 0 []) := by
  have hbody : opMemFree.body s q = .ok s (s.dev.freeObj o.handle) := by
    simp only [opMemFree, QPacket.obj_eq_some h.pkt hinst hobj]
    exact guarded_pass (firstErr_unheld hhost hfree)
  exact congrArg Host.Outcome.next (packetRow_changed h hbody rfl)

/-- What is written leaves an object RAW, its pivot record cleared (Table 05-4). -/
theorem exec_memWrite (h : Ready opMemWrite p s q) (hresv : q.resv 1 0xFFFFF = false) (hlo : 16 ≤ q.f 1 19 0)
    (hhi : q.f 1 19 0 + (q.from' 2).length ≤ 16 + o.dataWords) (hhost : fld o.handle 26 25 ≠ 1) (hfree : o.inUse = 0) :
    exec (.memWrite p) s = .next ((s.withDev (s.dev.setObj
      ({ o with data := o.data.wrAll (q.f 1 19 0 - 16) (q.from' 2), state := .raw }.clearPiv))).finish q stOk 0 []) := by
  have hrange : ¬(q.f 1 19 0 < 16 ∨ 16 + o.dataWords < q.f 1 19 0 + (q.from' 2).length) := by omega
  have hbody : opMemWrite.body s q = .ok s (s.dev.setObj
      ({ o with data := o.data.wrAll (q.f 1 19 0 - 16) (q.from' 2), state := .raw }.clearPiv)) := by
    simp only [opMemWrite, QPacket.obj_eq_some h.pkt hinst hobj]
    exact guarded_pass (firstErr_cons_none.mpr ⟨hresv, firstErr_cons_none.mpr ⟨decide_eq_false hrange, firstErr_unheld hhost hfree⟩⟩)
  exact congrArg Host.Outcome.next (packetRow_changed h hbody rfl)

theorem exec_memRead (h : Ready opMemRead p s q) (hresv1 : q.resv 1 0xFFFFF = false) (hresv2 : q.resv 2 0xFFF = false)
    (hend : q.f 1 19 0 + q.f 2 11 0 ≤ 16 + o.dataWords) (hfit : q.holds (q.f 2 11 0)) :
    exec (.memRead p) s = .next (s.finish q stOk 0 ((List.range (q.f 2 11 0)).map (fun i => o.word (q.f 1 19 0 + i)))) := by
  have hbody : opMemRead.body s q = .read s ((List.range (q.f 2 11 0)).map (fun i => o.word (q.f 1 19 0 + i))) := by
    simp only [opMemRead, QPacket.obj_eq_some h.pkt hinst hobj]
    exact guarded_pass (firstErr_cons_none.mpr ⟨hresv1, firstErr_cons_none.mpr ⟨hresv2, firstErr_cons_none.mpr
      ⟨decide_eq_false (Nat.not_lt.mpr hend), firstErr_nil⟩⟩⟩)
  exact congrArg Host.Outcome.next (row_done h hbody rfl (by simpa using hfit) (.inl rfl))

end Objects

/-! The settings and the status (R126, Tables 05-15 and 05-16). -/

/-- The device with the settings `c` of SOLVER_CONFIG, its regions still of their sizes before. -/
def Dev.withSolverCfg (d : Dev) (c : SolverCfg) : Dev := { d with solver := { d.solver with cfg := c } }

theorem exec_solverConfig {p : Packet} {s : State} {q : QPacket} (h : Ready opSolverConfig p s q) (hj : Journals s q)
    (hchecks : firstErr (solverChecks s q) = none) :
    exec (.solverConfig p) s = .next (((s.withDev (if s.dev.frame.state = .stopped then (s.dev.withSolverCfg (solverCfgOf q)).applySizes
      else s.dev.withSolverCfg (solverCfgOf q))).entered 0x0414 q).finish q stOk 0 []) := by
  have hbody : opSolverConfig.body s q = .ok s (if s.dev.frame.state = .stopped then (s.dev.withSolverCfg (solverCfgOf q)).applySizes
      else s.dev.withSolverCfg (solverCfgOf q)) := guarded_pass hchecks
  refine congrArg Host.Outcome.next (row_classN h hbody rfl (q.holds_short (by simp)) rfl (by decide) hj ?journal)
  case journal =>
    obtain ⟨-, hthrough⟩ := hj
    dsimp only
    split <;> exact hthrough

theorem exec_solverStatus {p : Packet} {s : State} {q : QPacket} (h : Ready opSolverStatus p s q) :
    exec (.solverStatus p) s = .next (s.finish q stOk 0 ([pack [(s.dev.engMask [.idle, .busy], 0), (s.dev.engMask [.draining, .parked], 16)],
      pack [(s.dev.engMask [.halted], 0)]] ++ (List.range 16).flatMap (fun k => [s.dev.seState k, pack [(s.dev.workFree k, 0), ((s.dev.eng k).util, 20)]]))) :=
  congrArg Host.Outcome.next (row_done h rfl rfl (q.holds_short (by simp)) (.inl rfl))

/-! An error of an engine's memory (R99) and the end of a drain (R122). -/

section MemoryError
variable {k : Fin 16} {s : State} (hctl : s.dev.ctlUp = true)
include hctl

/-- An uncorrectable error halts the engine, and its die asserts the hard-fault line. -/
theorem exec_seMemoryEcc_halts {d : Dev} (hd : s.dev.setEng k.val { s.dev.eng k.val with state := .halted } = d) :
    exec (.seMemoryEcc k true) s =
      .next (s.withDev { d with twin := { d.twin with die := d.twin.die.upd d.runDie (fun x => { x with lineHard := true }) } }) := by
  subst hd
  exact congrArg Host.Outcome.next (if_neg (by simp [hctl]))

/-- A corrected error is counted and reported with its address, a free value. -/
theorem exec_seMemoryEcc_corrects {a : Nat} {d : Dev}
    (hfree : (s.dev.setEng k.val { s.dev.eng k.val with eccCorr := bump 16 (s.dev.eng k.val).eccCorr }).freeN 524288 = (a, d)) :
    exec (.seMemoryEcc k false) s =
      .next (s.withDev ((d.satAt 0x20 16 (bump 16 (s.dev.eng k.val).eccCorr)).raiseCtl 0x33 (0x2000 + k.val) .info a)) := by
  refine congrArg Host.Outcome.next ((if_neg (by simp [hctl])).trans ?_)
  simp only [hfree]
  rfl

end MemoryError

theorem exec_engineDrained {k : Fin 16} {s : State} (hdraining : (s.dev.eng k.val).state = .draining) (hflight : (s.dev.eng k.val).flight = [])
    (hdrain : (s.dev.eng k.val).drain = 0) (hround : (s.dev.eng k.val).drainRound = 0) :
    exec (.engineDrained k) s =
      .next (s.withDev ((s.dev.setEng k.val { s.dev.eng k.val with state := .parked }).raiseCtl 0x35 (0x2000 + k.val) .info 1)) :=
  congrArg Host.Outcome.next (if_pos ⟨hdraining, hflight, hdrain, hround⟩)

/-- Settles O12: each opcode by the checks that its hypotheses let pass, the errors and the drain by what the engine is. -/
theorem solverEngineCommandsComplete : Obligations.SolverEngineCommandsComplete := by
  unfold Obligations.SolverEngineCommandsComplete
  refine ⟨?alloc, ?free, ?write, ?read, ?config, ?status, ?error, ?drained⟩
  case alloc =>
    rintro p s q _ w d h hresv0 hfmt hresv1 hok rfl halloc
    exact exec_memAlloc h hresv0 hfmt hresv1 hok halloc
  case free => intro p s q o h hinst hobj; exact exec_memFree hinst hobj h
  case write => intro p s q o h hinst hobj; exact exec_memWrite hinst hobj h
  case read => intro p s q o h hinst hobj; exact exec_memRead hinst hobj h
  case config =>
    rintro p s q _ h hj hchecks rfl
    exact exec_solverConfig h hj hchecks
  case status => intro p s q; exact exec_solverStatus
  case error =>
    rintro k s _ hctl rfl
    exact ⟨fun d => exec_seMemoryEcc_halts hctl, fun a d => exec_seMemoryEcc_corrects hctl⟩
  case drained =>
    rintro k s _ rfl
    exact exec_engineDrained

end Sys2Proof.Machine
end

section
/-! Jobs: the issue of a head, the end of a problem in flight, and the host jobs (R104, R105, R107, R129 to R131). -/

namespace Sys2Proof.Machine

open Sys2Proof Sys2Proof.Bits

/-! An issue opportunity (R104, R105): the round queue's head, else the Piste queue's, else the barrier of a waiting gang (R119). -/

section JobIssue
variable {k : Fin 16} {s : State} (hctl : s.dev.ctlUp = true)
include hctl

theorem exec_jobIssue_round {d : Dev} (hround : s.dev.issueHead k.val true = some d) : exec (.jobIssue k) s = .next (s.withDev d) := by
  refine congrArg Host.Outcome.next ((if_neg (by simp [hctl])).trans ?_)
  simp only [hround]

theorem exec_jobIssue_piste {d : Dev} (hround : s.dev.issueHead k.val true = none) (hpiste : s.dev.issueHead k.val false = some d) :
    exec (.jobIssue k) s =
      .next (s.withDev (if d.frame.phase = .assemble ∧ d.piste.cursor = none then { d with frame := { d.frame with phase := .solve } } else d)) := by
  refine congrArg Host.Outcome.next ((if_neg (by simp [hctl])).trans ?_)
  simp only [hround, hpiste]

/-- With both queues empty no gang waits. -/
theorem exec_jobIssue_empty (hround : s.dev.issueHead k.val true = none) (hpiste : s.dev.issueHead k.val false = none)
    (hqueue : (s.dev.eng k.val).queue = []) (hrounds : (s.dev.eng k.val).round = []) :
    exec (.jobIssue k) s = .next (s.withDev (s.dev.setEng k.val { s.dev.eng k.val with gangWait := false })) := by
  have hhead : ∀ round, (s.dev.eng k.val).head round = none := by
    intro round
    cases round
    · exact congrArg List.head? hqueue
    · exact congrArg List.head? hrounds
  refine congrArg Host.Outcome.next ((if_neg (by simp [hctl])).trans ?_)
  simp only [hround, hpiste, hhead, Option.map_none, Option.getD_none, Bool.or_false]

end JobIssue

/-! The end of a problem in flight (R107, R131). -/

section JobEnd
variable {k : Fin 16} {i cycles : Nat} {s : State} {j : Job} (hflight : ((s.dev.eng k.val).flight)[i]? = some j)
  (hhalted : s.dev.engState k.val ≠ .halted) (hoff : s.dev.engState k.val ≠ .off)
include hflight hhalted hoff

theorem exec_jobEnd_host {j' : Job} {r : Run} (hhost : j.host.isSome = true) (hrun : (s.dev.unflight j true).runHost j = (j', r)) :
    exec (.jobEnd k i cycles) s = .next (s.withDev (((s.dev.unflight j true).countRun j.engine j' r).endHost j' r cycles)) := by
  refine congrArg Host.Outcome.next ?_
  simp only [hflight, hhalted, hoff, or_self, if_false, hhost, if_true, hrun]

theorem exec_jobEnd_ctl (hctl : j.host = none) :
    exec (.jobEnd k i cycles) s = .next (s.withDev (((s.dev.unflight j true).countRun j.engine j
      (if j.kind = 6 then (s.dev.unflight j true).runQp j else j.runNet)).endCtl j
      (if j.kind = 6 then (s.dev.unflight j true).runQp j else j.runNet) cycles)) := by
  refine congrArg Host.Outcome.next ?_
  simp only [hflight, hhalted, hoff, or_self, if_false, hctl, Option.isSome_none, Bool.false_eq_true]

end JobEnd

/-! The host jobs (R129, R130). -/

/-- The device that has taken the host job `j` as number `num`, the `count`-th of its die: its objects held, it queued, its record open (R107, R129). -/
def Dev.takeJob (d : Dev) (j : Job) (count num : Nat) : Dev :=
  let d1 := (d.holdObjs { j with host := some num } true).place j.engine { j with host := some num }
  { d1 with jobs := { d1.jobs with hostCount := count, table := d1.jobs.table ++ [{ num := num }] } }

/-- A submission that passes its checks takes the next number once every member of its gang has a credit. -/
theorem exec_jobSubmit {p : Packet} {s : State} {q : QPacket} {j : Job} {c num : Nat} (h : Ready opJobSubmit p s q)
    (hchecks : firstErr (jobChecks s q) = none) (hj : s.dev.sized (jobOf s.dev q) = j)
    (hcredits : ∀ x ∈ members j.engine j.gangLog2, 0 < s.dev.freeCredits x) (hc : (s.dev.jobs.hostCount + 1) % 32768 = c)
    (hnum : c + 32768 * s.dev.runDie = num) :
    exec (.jobSubmit p) s = .next ((s.withDev (s.dev.takeJob j c num)).finish q stOk 0 [w32 num]) := by
  have hroom : ((members j.engine j.gangLog2).all fun x => decide (0 < s.dev.freeCredits x)) = true :=
    List.all_eq_true.mpr fun x hx => decide_eq_true (hcredits x hx)
  have hbody : opJobSubmit.body s q = { st := s.withDev (s.dev.takeJob j c num), words := [w32 num] } := by
    subst hj hc hnum
    refine (guarded_pass hchecks).trans ?_
    rw [if_neg (by simp [hroom])]
    simp only [Dev.takeJob]
  exact congrArg Host.Outcome.next (row_done h hbody rfl (q.holds_short (by simp)) (.inl rfl))

/-- A record has the eight words of Table 06-5. -/
theorem JobResult.length_words (r : JobResult) : r.words.length = 8 := rfl

/-- The device without the record of the host job `num` (JOB_RESULT's release, R130). -/
def Dev.releaseJob (d : Dev) (num : Nat) : Dev := { d with jobs := { d.jobs with table := d.jobs.table.filter (fun y => y.num ≠ num) } }

section JobRecord
variable {p : Packet} {s : State} {q : QPacket} {x : HostJob} (hfind : s.dev.jobs.table.find? (fun x => x.num = q.f 0 15 0) = some x)
include hfind

theorem exec_jobResult_pending (h : Ready opJobResult p s q) (hresv : q.resv 0 0x1FFFF = false) (hnone : x.result = none) :
    exec (.jobResult p) s = .next (s.finish q stOkPending 0 []) := by
  have hbody : opJobResult.body s q = { st := s, status := stOkPending } := by
    simp only [opJobResult, hfind, hnone]
    exact guarded_pass (firstErr_cons_none.mpr ⟨hresv, firstErr_nil⟩)
  exact congrArg Host.Outcome.next (row_done h hbody rfl (q.holds_short (by simp)) (.inl rfl))

theorem exec_jobResult_read {r : JobResult} (h : Ready opJobResult p s q) (hresv : q.resv 0 0x1FFFF = false) (hsome : x.result = some r) :
    exec (.jobResult p) s = .next ((if q.b 0 16 then s.withDev (s.dev.releaseJob x.num) else s).finish q stOk 0 r.words) := by
  have hbody : opJobResult.body s q = { st := if q.b 0 16 then s.withDev (s.dev.releaseJob x.num) else s, words := r.words } := by
    simp only [opJobResult, hfind, hsome]
    refine (guarded_pass (firstErr_cons_none.mpr ⟨hresv, firstErr_nil⟩)).trans ?_
    split <;> rfl
  exact congrArg Host.Outcome.next (row_done h hbody rfl (q.holds_short (by simp [r.length_words])) (.inl rfl))

theorem exec_jobCancel_running (h : Ready opJobCancel p s q) (hresv : q.resv 0 0xFFFF = false) (hnone : x.result = none) :
    exec (.jobCancel p) s = .next ((s.withDev (s.dev.cancelJob x.num)).finish q stOk 0 []) := by
  have hbody : opJobCancel.body s q = .ok s (s.dev.cancelJob x.num) := by
    simp only [opJobCancel, hfind, hnone, Option.isSome_none, Bool.false_eq_true, if_false]
    exact guarded_pass (firstErr_cons_none.mpr ⟨hresv, firstErr_nil⟩)
  exact congrArg Host.Outcome.next (packetRow_changed h hbody rfl)

theorem exec_jobCancel_ended (h : Ready opJobCancel p s q) (hresv : q.resv 0 0xFFFF = false) (hended : x.result.isSome = true) :
    exec (.jobCancel p) s = .next (s.finish q stOkNoChange 0 []) := by
  have hbody : opJobCancel.body s q = { st := s, status := stOkNoChange } := by
    simp only [opJobCancel, hfind, hended, if_true]
    exact guarded_pass (firstErr_cons_none.mpr ⟨hresv, firstErr_nil⟩)
  exact congrArg Host.Outcome.next (row_done h hbody rfl (q.holds_short (by simp)) (.inl rfl))

end JobRecord

/-- Settles O13: an issue by the queue that gives the head, an end by whose job it is, the packets by the record that the table holds. -/
theorem jobCommandsComplete : Obligations.JobCommandsComplete := by
  unfold Obligations.JobCommandsComplete
  refine ⟨?issue, ?ends, ?submit, ?result, ?cancel⟩
  case issue =>
    intro k s hctl
    refine ⟨fun d => exec_jobIssue_round hctl, fun d => exec_jobIssue_piste hctl, ?_⟩
    rintro _ hround hpiste rfl
    exact exec_jobIssue_empty hctl hround hpiste
  case ends =>
    rintro k i cycles s j _ hflight hhalted hoff rfl
    refine ⟨fun j' r => exec_jobEnd_host hflight hhalted hoff, ?_⟩
    rintro _ hctl rfl
    exact exec_jobEnd_ctl hflight hhalted hoff hctl
  case submit =>
    rintro p s q j _ c num h hchecks hj hcredits hc hnum rfl
    exact exec_jobSubmit h hchecks hj hcredits hc hnum
  case result =>
    intro p s q x h hresv hfind
    exact ⟨exec_jobResult_pending hfind h hresv, fun r => exec_jobResult_read hfind h hresv⟩
  case cancel =>
    intro p s q x h hresv hfind
    exact ⟨exec_jobCancel_running hfind h hresv, exec_jobCancel_ended hfind h hresv⟩

end Sys2Proof.Machine
end

section
/-! The Jalow ports: the link-up and the timers of a port, and the loss of its link (R153, R158, R159, R162, R163). -/

namespace Sys2Proof.Machine

open Sys2Proof Sys2Proof.Bits

/-! The link-up (R162). -/

theorem exec_bitAndWordLock {port : Fin 4} {s : State} (hub : s.dev.hubUp = true)
    (hlink : (s.dev.jl port.val).link = .noSignal ∨ (s.dev.jl port.val).link = .training) :
    exec (.bitAndWordLock port) s = .next (s.withDev (((s.dev.random 16).2.setJl port.val
      { s.dev.jl port.val with link := .hello, nonce := (s.dev.random 16).1, gotHello := false, refuse := 0 }).sendHello port.val)) := by
  refine congrArg Host.Outcome.next (if_neg ?_)
  rcases hlink with hlink | hlink <;> simp [hub, hlink]

section Hello
variable {port : Fin 4} {s : State} (hlink : (s.dev.jl port.val).link = .hello)
include hlink

/-- HELLO goes out again 100 µs after the last one. -/
theorem exec_jlHelloTimer (hgot : (s.dev.jl port.val).gotHello = false) :
    exec (.jlHelloTimer port) s = .next (s.withDev ((s.dev.toRaw ((s.dev.jl port.val).hsAt + 100000)).sendHello port.val)) :=
  congrArg Host.Outcome.next (if_neg (by simp [hlink, hgot]))

/-- A partner that nothing refuses brings the link up. -/
theorem exec_jlHelloReceive_up {m : List Word} (hpairs : s.dev.helloRefusal port.val m = none) :
    exec (.jlHelloReceive port m) s = .next (s.withDev (s.dev.jlUp port.val m)) := by
  refine congrArg Host.Outcome.next ((if_neg (not_not_intro hlink)).trans ?_)
  simp only [hpairs]

/-- A refused partner is recorded, and the port is REFUSED with the reason of Table 07-12. -/
theorem exec_jlHelloReceive_refused {m : List Word} {r : Nat} {d : Dev} (hrefused : s.dev.helloRefusal port.val m = some r)
    (hd : s.dev.setJl port.val { s.dev.jl port.val with
      partnerAddr := BitVec.ofNat 8 (fld (nth m 2) 15 8), partnerSerial := BitVec.ofNat 64 ((nth m 0).toNat + 2 ^ 32 * (nth m 1).toNat) } = d) :
    exec (.jlHelloReceive port m) s = .next (s.withDev (d.jlRefuse port.val r)) := by
  refine congrArg Host.Outcome.next ((if_neg (not_not_intro hlink)).trans ?_)
  simp only [hrefused, hd]

end Hello

/-- A port that is down or refused tries again 10 ms after its last attempt (R159, R162). -/
theorem exec_jlRetryTimer {port : Fin 4} {s : State} (hoff : (s.dev.jl port.val).link ≠ .off) (hup : (s.dev.jl port.val).link ≠ .up)
    (hhello : (s.dev.jl port.val).link ≠ .hello) {d : Dev} (hd : s.dev.toRaw ((s.dev.jl port.val).hsAt + 10000000) = d) :
    exec (.jlRetryTimer port) s = .next (s.withDev (d.setJl port.val { s.dev.jl port.val with
      link := if (s.dev.jl port.val).link = .refused then .training else (s.dev.jl port.val).link, refuse := 0, hsAt := d.time.raw })) := by
  subst hd
  exact congrArg Host.Outcome.next (if_neg (by simp [hoff, hup, hhello]))

/-! The timers of a link that is up, and its loss (R158, R159). -/

section LinkUp
variable {port : Fin 4} {s : State} (hup : (s.dev.jl port.val).link = .up)
include hup

/-- An idle frame goes out 5 µs after the last frame. -/
theorem exec_jlIdleTimer :
    exec (.jlIdleTimer port) s = .next (s.withDev ((s.dev.toRaw ((s.dev.jl port.val).sentAt + 5000)).jlControl port.val 0 [])) :=
  congrArg Host.Outcome.next (if_neg (not_not_intro hup))

/-- Frames without an ACK for 20 µs are sent again. -/
theorem exec_jlAckTimeout (hunacked : (s.dev.jl port.val).unacked ≠ []) :
    exec (.jlAckTimeout port) s = .next (s.withDev ((s.dev.toRaw ((s.dev.jl port.val).ackAt + 20000)).jlResend port.val)) :=
  congrArg Host.Outcome.next (if_neg (by simp [hup, hunacked]))

theorem exec_jlLinkLoss_signal : exec (.jlLinkLoss port true) s = .next (s.withDev (s.dev.jlDown port.val .noSignal (some 0))) :=
  congrArg Host.Outcome.next ((if_neg (by simp [hup])).trans (if_pos hup))

/-- Without a valid frame for 50 µs the link goes down. -/
theorem exec_jlLinkLoss_silence :
    exec (.jlLinkLoss port false) s = .next (s.withDev ((s.dev.toRaw ((s.dev.jl port.val).heardAt + 50000)).jlDown port.val .training (some 1))) :=
  congrArg Host.Outcome.next ((if_neg (by simp [hup])).trans (if_pos hup))

end LinkUp

/-- Settles O7: the partner's HELLO by whether it is refused, each timer and each loss by the state of the link that its hypotheses name. -/
theorem jalowLinkCommandsComplete : Obligations.JalowLinkCommandsComplete := by
  unfold Obligations.JalowLinkCommandsComplete
  refine ⟨?lock, ?helloTimer, ?hello, ?retry, ?idle, ?ack, ?loss⟩
  case lock => intro port s; exact exec_bitAndWordLock
  case helloTimer => intro port s; exact exec_jlHelloTimer
  case hello =>
    intro port m s hlink
    exact ⟨exec_jlHelloReceive_up hlink, fun r d => exec_jlHelloReceive_refused hlink⟩
  case retry => intro port s d hoff hup hhello; exact exec_jlRetryTimer hoff hup hhello
  case idle => intro port s; exact exec_jlIdleTimer
  case ack => intro port s; exact exec_jlAckTimeout
  case loss => intro port s hup; exact ⟨exec_jlLinkLoss_signal hup, exec_jlLinkLoss_silence hup⟩

end Sys2Proof.Machine
end

section
/-! The Jalow ports: frames and messages, and the ports' settings and status (R158, R159, R163 to R167, Tables 07-8, 07-10 and 07-12). -/

namespace Sys2Proof.Machine

open Sys2Proof Sys2Proof.Bits

/-! Frames of a link that is up (R158, R159). -/

section Frames
variable {port : Fin 4} {s : State} (hup : (s.dev.jl port.val).link = .up)
include hup

theorem exec_jlFrameReceive_badCrc {f : JlFrame} (hcrc : f.crc ≠ f.crcOf) :
    exec (.jlFrameReceive port f) s = .next (s.withDev ((s.dev.jlCrcErr port.val).jlNak port.val false)) :=
  congrArg Host.Outcome.next ((if_neg (not_not_intro hup)).trans (if_pos hcrc))

/-- A frame of a reserved TYPE is counted with the CRC errors, without a NAK. -/
theorem exec_jlFrameReceive_reserved {f : JlFrame} (hcrc : f.crc = f.crcOf) (htype : 9 ≤ f.ftype.toNat) :
    exec (.jlFrameReceive port f) s = .next (s.withDev (s.dev.jlCrcErr port.val)) :=
  congrArg Host.Outcome.next ((if_neg (not_not_intro hup)).trans ((if_neg (not_not_intro hcrc)).trans (if_pos htype)))

/-- An IDLE or a HELLO frame carries no more than every valid frame does. -/
theorem exec_jlFrameReceive_noData {f : JlFrame} (hcrc : f.crc = f.crcOf) (htype : f.ftype.toNat = 0 ∨ f.ftype.toNat = 2) :
    exec (.jlFrameReceive port f) s = .next (s.withDev (s.dev.jlHeard port.val f)) :=
  congrArg Host.Outcome.next ((if_neg (not_not_intro hup)).trans ((if_neg (not_not_intro hcrc)).trans
    ((if_neg (by omega)).trans ((if_neg (by omega)).trans (if_pos (by omega))))))

theorem exec_jlFrameReceive_data {f : JlFrame} (hcrc : f.crc = f.crcOf) (hlo : 3 ≤ f.ftype.toNat) (hhi : f.ftype.toNat < 9) :
    exec (.jlFrameReceive port f) s = .next (s.withDev ((s.dev.jlHeard port.val f).jlData port.val f)) :=
  congrArg Host.Outcome.next ((if_neg (not_not_intro hup)).trans ((if_neg (not_not_intro hcrc)).trans
    ((if_neg (by omega)).trans ((if_neg (by omega)).trans (if_neg (by omega))))))

theorem exec_jlNakReceive {k : BitVec 8} :
    exec (.jlNakReceive port k) s = .next (s.withDev ((s.dev.setJl port.val
      { (s.dev.jl port.val).acked (k - 1) s.dev.time.raw with heardAt := s.dev.time.raw }).jlResend port.val)) :=
  congrArg Host.Outcome.next (if_neg (not_not_intro hup))

/-! Messages (R164, R165). -/

/-- The entries within the import window are written, the others counted. -/
theorem exec_jlPointsReceive {m : List Word} {d : Dev}
    (hd : (List.range (min (fld (nth m 1) 14 0) (s.dev.jl port.val).cfg.impCount)).foldl (fun acc i => acc.writePoint {
      id := (s.dev.jl port.val).cfg.impBase + i, value := nth m (2 + 3 * i), time := nth m (3 + 3 * i),
      frameTag := some (BitVec.ofNat 16 (fld (nth m (4 + 3 * i)) 23 8)), quality := BitVec.ofNat 8 (fld (nth m (4 + 3 * i)) 7 0),
      source := BitVec.ofNat 8 (0x60 + port.val) }) s.dev = d) :
    exec (.jlPointsReceive port m) s = .next (s.withDev ((d.setJl port.val { d.jl port.val with
      impDiscard := satN 16 ((d.jl port.val).impDiscard + (fld (nth m 1) 14 0 - (s.dev.jl port.val).cfg.impCount)) }).satAt 0x32 16
        (satN 16 ((d.jl port.val).impDiscard + (fld (nth m 1) 14 0 - (s.dev.jl port.val).cfg.impCount))))) := by
  subst hd
  exact congrArg Host.Outcome.next (if_neg (not_not_intro hup))

/-- The event of a forwarded record `m`, with the address it comes from; a record carries no severity. -/
def jlEventRec (m : List Word) : EventRec :=
  { code := BitVec.ofNat 16 (fld (nth m 3) 15 0), source := BitVec.ofNat 16 (fld (nth m 3) 31 16), sev := sevOf (fld (nth m 3) 15 0),
    data := BitVec.ofNat 64 ((nth m 4).toNat + 2 ^ 32 * (nth m 5).toNat), origin := some (BitVec.ofNat 8 (fld (nth m 8) 7 0)) }

theorem exec_jlEventReceive {m : List Word} :
    exec (.jlEventReceive port m) s = .next (s.withDev ({ s.dev with evr := s.dev.evr.accept (jlEventRec m) })) :=
  congrArg Host.Outcome.next (if_neg (not_not_intro hup))

end Frames

/-! The settings and the status (R167, Tables 07-8 and 07-12). -/

/-- Port `p` with the settings `c`, its link still as it was. -/
def Dev.withJlCfg (d : Dev) (p : Nat) (c : JlCfg) : Dev := d.setJl p { d.jl p with cfg := c }

/-- The parameters of a JL_PORT_CONFIG have no reserved bit and no reserved ROLE (Table 07-10). -/
def QPacket.jlEncoded (q : QPacket) : Prop :=
  q.resv 0 0x3F3F = false ∧ q.f 0 1 0 ≠ 3 ∧ q.resv 1 0xFFFFF = false ∧ q.resv 2 0x7FFF = false ∧ q.resv 3 0xFFFFF = false ∧ q.resv 4 0x7FFF = false

/-- The export and the import window have at most 16,384 points each and lie within the point store (R167, Table 07-10). -/
def JlCfg.windowsFit (c : JlCfg) : Prop :=
  c.expCount ≤ 16384 ∧ c.expFirst + c.expCount ≤ 2 ^ 20 ∧ c.impCount ≤ 16384 ∧ c.impBase + c.impCount ≤ 2 ^ 20

theorem opJlPortConfig_body {s : State} {q : QPacket} (hencoded : q.jlEncoded) (hwindows : (jlCfgOf q).windowsFit)
    (hports : (jlCfgOf q).role = .up → ∀ x ∈ s.dev.portOf .up, x = q.pkt.inst)
    (hkey : (jlCfgOf q).enc = true → s.dev.keyRefusal (jlCfgOf q).keySlot.toNat 5 = none)
    (hstate : (jlCfgOf q).role = (s.dev.jl q.pkt.inst).cfg.role ∨ s.dev.frame.state = .stopped ∨ (s.dev.jl q.pkt.inst).link ≠ .up) :
    opJlPortConfig.body s q = .ok s (s.dev.withJlCfg q.pkt.inst (jlCfgOf q)) := by
  obtain ⟨hresv0, hrole, hresv1, hresv2, hresv3, hresv4⟩ := hencoded
  obtain ⟨hexp, hexpEnd, himp, himpEnd⟩ := hwindows
  have hother : (decide ((jlCfgOf q).role = .up) && (s.dev.portOf .up).any fun x => decide (x ≠ q.pkt.inst)) = false := by
    simpa using hports
  have hslot : ((jlCfgOf q).enc && (s.dev.keyRefusal (jlCfgOf q).keySlot.toNat 5).isSome) = false := by
    simpa using hkey
  have hrunning : ¬((jlCfgOf q).role ≠ (s.dev.jl q.pkt.inst).cfg.role ∧ s.dev.frame.state ≠ .stopped ∧ (s.dev.jl q.pkt.inst).link = .up) := by
    rintro ⟨hchanges, hruns, hup⟩
    rcases hstate with hsame | hstopped | hdown
    exacts [hchanges hsame, hruns hstopped, hdown hup]
  refine guarded_pass ?_
  simp only [firstErr_cons_none, firstErr_nil, encIf, rangeIf, conflictIf, stateIf, hresv0, hresv1, hresv2, hresv3, hresv4, hother, hslot,
    decide_eq_false hrole, decide_eq_false hrunning, Bool.or_false, decide_eq_false_iff_not, and_true, true_and]
  omega

/-- JL_PORT_CONFIG takes effect with its journal entry, and the port retrains once the reply has gone out (R167). -/
theorem exec_jlPortConfig {p : Packet} {s t : State} {q : QPacket} (h : Ready opJlPortConfig p s q) (hj : Journals s q)
    (hbody : opJlPortConfig.body s q = .ok s (s.dev.withJlCfg q.pkt.inst (jlCfgOf q)))
    (ht : ((s.withDev (s.dev.withJlCfg q.pkt.inst (jlCfgOf q))).entered 0x0503 q).finish q stOk 0 [] = t) :
    exec (.jlPortConfig p) s = .next (t.withDev (t.dev.jlRetrain q.pkt.inst)) := by
  subst ht
  exact congrArg Host.Outcome.next (row_classN h hbody rfl (q.holds_short (by simp)) rfl (by decide) hj hj.2)

theorem exec_jlStatus {p : Packet} {s : State} {q : QPacket} (h : Ready opJlStatus p s q) :
    exec (.jlStatus p) s = .next (s.finish q stOk 0 ((List.range 9).map (fun i => s.dev.jlWord p.inst (4 * i)))) := by
  have hpkt := h.pkt
  subst hpkt
  exact congrArg Host.Outcome.next (row_done h rfl rfl (q.holds_short (by simp)) (.inl rfl))

/-- Settles O8: a frame by its CRC and its TYPE, each message by the link that is up, each packet by the checks that its hypotheses let pass. -/
theorem jalowMessageCommandsComplete : Obligations.JalowMessageCommandsComplete := by
  unfold Obligations.JalowMessageCommandsComplete
  refine ⟨?frame, ?nak, ?points, ?event, ?config, ?status⟩
  case frame =>
    intro port f s hup
    exact ⟨exec_jlFrameReceive_badCrc hup, exec_jlFrameReceive_reserved hup, exec_jlFrameReceive_noData hup, exec_jlFrameReceive_data hup⟩
  case nak => intro port k s hup; exact exec_jlNakReceive hup
  case points => intro port m s d hup; exact exec_jlPointsReceive hup
  case event => intro port m s hup; exact ⟨jlEventRec m, exec_jlEventReceive hup, rfl, rfl, rfl, rfl⟩
  case config =>
    rintro p s q _ t h hj rfl hresv0 hrole hresv1 hresv2 hresv3 hresv4 hexp hexpEnd himp himpEnd hports hkey hstate ht
    have hpkt := h.pkt
    subst hpkt
    have hencoded : q.jlEncoded := ⟨hresv0, hrole, hresv1, hresv2, hresv3, hresv4⟩
    exact exec_jlPortConfig h hj (opJlPortConfig_body hencoded ⟨hexp, hexpEnd, himp, himpEnd⟩ hports hkey hstate) ht
  case status => intro p s q; exact exec_jlStatus

end Sys2Proof.Machine
end

section
/-! The loop engine: outputs at their base ticks, ticks of loops and their deadlines, and the loop commands (chapter 08). -/

namespace Sys2Proof.Machine

open Sys2Proof Sys2Proof.Bits

/-- A class N row whose meaning only changes the device, outside the save supply, is answered with its journal entry, without payload (R226). -/
theorem packetRow_entered {op : Op} {p : Packet} {s : State} {q : QPacket} {d : Dev} {st : Nat} (h : Ready op p s q) (hj : Journals s q)
    (hbody : op.body s q = { st := s.withDev d, status := st }) (hacc : accepted st = true) (hst : st ≠ stOkNoChange) (hclass : op.classN = true)
    (hslalom : d.slalom = s.dev.slalom) : packetRow op p s = op.after q (((s.withDev d).entered op.code q).finish q st 0 []) :=
  row_classN h hbody hacc (q.holds_short (by simp)) hclass hst hj ((congrArg Slalom.writeThrough hslalom).trans hj.2)

/-! Outputs at their base ticks (R172, R173). -/

theorem exec_outputApply {s : State} {b : Nat} (hnext : s.dev.nextApply = some b) :
    exec .outputApply s = .next (s.withDev (s.dev.applyAt b)) := by
  change execOutputApply s = _
  simp only [execOutputApply, hnext]

/-- The report of the outputs that a die discarded reaches the engine (R173). -/
theorem exec_outputDiscardReport {k : Fin 4} {s : State} (hsome : (s.dev.fld k.val).discards ≠ []) (hfld : s.dev.fldUp k.val = true)
    (hctl : (s.dev.setFld k.val { s.dev.fld k.val with discards := [] }).ctlUp = true) :
    exec (.outputDiscardReport k) s = .next (s.withDev ((s.dev.fld k.val).discards.foldl (fun acc x => acc.discardOf x)
      (s.dev.setFld k.val { s.dev.fld k.val with discards := [] }))) :=
  congrArg Host.Outcome.next ((if_neg (by simp [hsome, hfld])).trans (if_pos hctl))

/-! Numeric faults (R187). -/

/-- The output that a loop in MANUAL after numeric faults holds: its group's, or its own (R187). -/
def Dev.heldOutput (d : Dev) (i : Nat) : Word :=
  if (d.groupOf i).isSome then (d.slot ((d.membersOf i).headD i)).out else (d.slot ((d.membersOf i).headD i)).uPrev

theorem exec_numericManual {i : Fin 128} {s : State} {d : Dev} {lead : Nat} (hctl : s.dev.ctlUp = true) (hrun : 8 ≤ (s.dev.slot i.val).numRun)
    (hlead : (s.dev.membersOf i.val).headD i.val = lead) (hd : s.dev.setSlot i.val { s.dev.slot i.val with numRun := 0 } = d) :
    exec (.numericManual i) s = .next (s.withDev ((s.dev.membersOf i.val).foldl (fun acc j => acc.modeTo j .manual 1)
      (d.setSlot lead { d.slot lead with manOut := s.dev.heldOutput i.val }))) := by
  subst hlead hd
  exact congrArg Host.Outcome.next ((if_pos hctl).trans (congrArg s.withDev (if_neg (Nat.not_lt.mpr hrun))))

/-! The tick of a loop (R172, R177, R186, R190). -/

section Tick
variable {i : Nat} {t : Nat} {d d1 : Dev} (hdue : d.tickDue i = some t) (hd1 : (d.beforeTick (d.membersOf i) t).takeGroups i t = d1)
include hdue hd1

/-- The lead of a group, and a loop in none, ticks with all its members. -/
theorem Dev.loopTick_lead (hlead : (d1.membersOf i).head? = some i) : d.loopTick i = d1.tickMembers (d1.membersOf i) t := by
  simp only [Dev.loopTick, hdue, hd1, if_pos hlead]

/-- Any other member ticks with its lead: only what stood before the tick is brought up to date. -/
theorem Dev.loopTick_member (hmember : (d1.membersOf i).head? ≠ some i) : d.loopTick i = d1 := by
  simp only [Dev.loopTick, hdue, hd1, if_neg hmember]

end Tick

theorem exec_loopTick {i : Fin 128} {s : State} {e : Dev} (hctl : s.dev.ctlUp = true) (htick : s.dev.loopTick i.val = e) :
    exec (.loopTick i) s = .next (s.withDev e) := by
  subst htick
  exact congrArg Host.Outcome.next (if_pos hctl)

/-- The tick that puts the loop into HELD. -/
theorem exec_loopStaleLimit {i : Fin 128} {s : State} {e : Dev} (hctl : s.dev.ctlUp = true) (htick : s.dev.loopTick i.val = e)
    (hfresh : (s.dev.slot i.val).heldIn = false) (hheld : (e.slot i.val).heldIn = true) :
    exec (.loopStaleLimit i) s = .next (s.withDev e) := by
  subst htick
  exact congrArg Host.Outcome.next (if_pos (by simp [hctl, hfresh, hheld]))

/-- A tick abandoned at its compute deadline is an overrun of each member, and ends for each with the output it had (R173). -/
theorem exec_loopComputeDeadline {i : Fin 128} {s : State} {t : Nat} {d : Dev} (hctl : s.dev.ctlUp = true) (hdue : s.dev.tickDue i.val = some t)
    (hlead : (s.dev.membersOf i.val).head? = some i.val) (hlive : (s.dev.slot i.val).mode ≠ .off)
    (hd : (s.dev.membersOf i.val).foldl (fun acc j => acc.overrunOf j 0)
      ((s.dev.beforeTick (s.dev.membersOf i.val) t).toCt ((s.dev.slot i.val).cfg.grid (t + 1) - 5000)) = d) :
    exec (.loopComputeDeadline i) s =
      .next (s.withDev ((s.dev.membersOf i.val).foldl (fun acc j => acc.endTick j t (acc.slot j).present true) d)) := by
  subst hd
  change execLoopComputeDeadline i s = _
  simp only [execLoopComputeDeadline, hdue]
  exact congrArg Host.Outcome.next (if_neg (by simp [hctl, hlead, hlive]))

/-! LOOP_CONFIG and LOOP_SECTION_SET: at once for a loop that is OFF, else at a tick (R191, R192). -/

section Config
variable {p : Packet} {s : State} {q : QPacket} {c : LoopCfg} (h : Ready opLoopConfig p s q) (hj : Journals s q)
  (hchecks : firstErr (loopConfigChecks s q) = none) (hc : loopCfgOf q ((s.dev.slot p.inst).cfgNext.getD (s.dev.slot p.inst).cfg) = c)
include h hj hchecks hc

theorem exec_loopConfig_off (hoff : (s.dev.slot p.inst).mode = .off) :
    exec (.loopConfig p) s = .next (((s.withDev (s.dev.takeCfg p.inst c)).entered 0x0601 q).finish q stOk 0 []) := by
  have hpkt := h.pkt
  subst hpkt hc
  exact congrArg Host.Outcome.next
    (packetRow_entered h hj ((guarded_pass hchecks).trans (if_pos hoff)) rfl (by decide) rfl (Dev.takeCfg_slalom ..))

theorem exec_loopConfig_live (hlive : (s.dev.slot p.inst).mode ≠ .off) :
    exec (.loopConfig p) s = .next (((s.withDev (s.dev.setSlot p.inst
      { s.dev.slot p.inst with cfgNext := some c, cfgAt := s.dev.now + 50000 })).entered 0x0601 q).finish q stOkPending 0 []) := by
  have hpkt := h.pkt
  subst hpkt hc
  exact congrArg Host.Outcome.next
    (packetRow_entered h hj ((guarded_pass hchecks).trans (if_neg hlive)) rfl (by decide) rfl (Dev.setSlot_slalom ..))

end Config

/-- The loop with the section that LOOP_SECTION_SET carries waiting for a tick 50 µs from `now` on (Table 08-7, R192). -/
def LoopSlot.withSection (l : LoopSlot) (now : Nat) (q : QPacket) : LoopSlot :=
  { l with
    secNext := l.secNext.ins (q.f 0 2 0) { delta := q.b 0 3, b0 := q.par 1, b1 := q.par 2, b2 := q.par 3, a1 := q.par 4, a2 := q.par 5 }
    secAt := now + 50000 }

section Sections
variable {p : Packet} {s : State} {q : QPacket} (h : Ready opLoopSectionSet p s q) (hj : Journals s q)
  (hchecks : firstErr (sectionChecks s q) = none)
include h hj hchecks

theorem exec_loopSectionSet_off (hoff : (s.dev.slot p.inst).mode = .off) :
    exec (.loopSectionSet p) s = .next (((s.withDev (s.dev.setSlot p.inst
      ((s.dev.slot p.inst).withSection s.dev.now q).takeSections)).entered 0x0602 q).finish q stOk 0 []) := by
  have hpkt := h.pkt
  subst hpkt
  exact congrArg Host.Outcome.next
    (packetRow_entered h hj ((guarded_pass hchecks).trans (if_pos hoff)) rfl (by decide) rfl (Dev.setSlot_slalom ..))

theorem exec_loopSectionSet_live (hlive : (s.dev.slot p.inst).mode ≠ .off) :
    exec (.loopSectionSet p) s = .next (((s.withDev (s.dev.setSlot p.inst
      ((s.dev.slot p.inst).withSection s.dev.now q))).entered 0x0602 q).finish q stOkPending 0 []) := by
  have hpkt := h.pkt
  subst hpkt
  exact congrArg Host.Outcome.next
    (packetRow_entered h hj ((guarded_pass hchecks).trans (if_neg hlive)) rfl (by decide) rfl (Dev.setSlot_slalom ..))

end Sections

/-! LOOP_MODE and LOOP_STATUS (R193, R194). -/

/-- The loops that change mode with loop `i`: the members of the group that names it, else it alone (R193). -/
def Dev.modeLoops (d : Dev) (i : Nat) : List Nat :=
  match (d.groupsWith 16 {}).find? (fun g => g.2.members.contains i) with
  | some g => g.2.members
  | none => [i]

/-- LOOP_MODE asks for MANUAL at a value of its own (Table 08-8). -/
def QPacket.setsManual (q : QPacket) : Bool := decide (modeOf (q.f 0 1 0) = .manual) && q.b 0 2

/-- The loop with the request of LOOP_MODE waiting for a tick 50 µs from `now` on (R193). -/
def LoopSlot.withMode (l : LoopSlot) (now : Nat) (q : QPacket) : LoopSlot :=
  { l with modeNext := some (modeOf (q.f 0 1 0)), modeAt := now + 50000, modeCause := 0, setMan := if q.setsManual then some (q.par 1) else none }

section Mode
variable {p : Packet} {s : State} {q : QPacket} (hpkt : q.pkt = p) (hresv : q.resv 0 7 = false) (hmode : q.f 0 1 0 ≠ 3)
  (hman : q.setsManual = true → Sys2Proof.Float.fin32 (q.par 1) = true) (hlead : (s.dev.modeLoops p.inst).head? = some p.inst)
  (hadmit : modeOf (q.f 0 1 0) ≠ .off → admitted (s.dev.liveCfgs
    (s.dev.cfgsWith p.inst ((s.dev.slot p.inst).cfgNext.getD (s.dev.slot p.inst).cfg)) (s.dev.modeLoops p.inst)) = true)
include hpkt hresv hmode hman hlead hadmit

/-- With its checks passed, LOOP_MODE asks for a change unless the loop is in the mode, without a value and with nothing waiting. -/
theorem opLoopMode_body : opLoopMode.body s q =
    if decide ((s.dev.slot p.inst).mode = modeOf (q.f 0 1 0)) && !q.setsManual && (s.dev.slot p.inst).modeNext.isNone then { st := s, status := stOkNoChange }
    else { st := s.withDev (s.dev.setSlot p.inst ((s.dev.slot p.inst).withMode s.dev.now q)), status := stOkPending } := by
  subst hpkt
  have hmodeBits : (q.resv 0 7 || decide (q.f 0 1 0 = 3)) = false := by simp [hresv, hmode]
  have hvalue : (q.setsManual && !Sys2Proof.Float.fin32 (q.par 1)) = false := by simpa using hman
  have hmember : ((s.dev.modeLoops q.pkt.inst).head? != some q.pkt.inst) = false := by simp [hlead]
  have hload : (decide (modeOf (q.f 0 1 0) ≠ .off) && !admitted (s.dev.liveCfgs (s.dev.cfgsWith q.pkt.inst
      ((s.dev.slot q.pkt.inst).cfgNext.getD (s.dev.slot q.pkt.inst).cfg)) (s.dev.modeLoops q.pkt.inst))) = false := by simpa using hadmit
  exact guarded_pass (firstErr_cons_none.mpr ⟨hmodeBits, firstErr_cons_none.mpr ⟨hvalue, firstErr_cons_none.mpr ⟨hmember,
    firstErr_cons_none.mpr ⟨hload, firstErr_nil⟩⟩⟩⟩)

omit hpkt
variable (h : Ready opLoopMode p s q)
include h

theorem exec_loopMode_same (hsame : (s.dev.slot p.inst).mode = modeOf (q.f 0 1 0)) (hvalue : q.setsManual = false)
    (hidle : (s.dev.slot p.inst).modeNext = none) : exec (.loopMode p) s = .next (s.finish q stOkNoChange 0 []) := by
  have hbody : opLoopMode.body s q = { st := s, status := stOkNoChange } :=
    (opLoopMode_body h.pkt hresv hmode hman hlead hadmit).trans (if_pos (by simp [hsame, hvalue, hidle]))
  exact congrArg Host.Outcome.next (row_done h hbody rfl (q.holds_short (by simp)) (.inl rfl))

theorem exec_loopMode_change (hchange : (s.dev.slot p.inst).mode ≠ modeOf (q.f 0 1 0) ∨ q.setsManual = true ∨ (s.dev.slot p.inst).modeNext ≠ none) :
    exec (.loopMode p) s =
      .next ((s.withDev (s.dev.setSlot p.inst ((s.dev.slot p.inst).withMode s.dev.now q))).finish q stOkPending 0 []) := by
  have hasks : ¬(decide ((s.dev.slot p.inst).mode = modeOf (q.f 0 1 0)) && !q.setsManual && (s.dev.slot p.inst).modeNext.isNone) = true := by
    rcases hchange with hmoves | hsets | hwaits
    · simp [hmoves]
    · simp [hsets]
    · simp [hwaits]
  exact congrArg Host.Outcome.next (row_done h ((opLoopMode_body h.pkt hresv hmode hman hlead hadmit).trans (if_neg hasks)) rfl
    (q.holds_short (by simp)) (.inl rfl))

end Mode

/-- LOOP_STATUS answers the loop's block, its integrator's states, the time of its sample and uc (Table 08-8). -/
theorem exec_loopStatus {p : Packet} {s : State} {q : QPacket} {l : LoopSlot} {x : SecState} (h : Ready opLoopStatus p s q)
    (hl : s.dev.slot p.inst = l) (hx : (if l.cfg.intSec < l.cfg.sections then l.st.rd l.cfg.intSec else {}) = x) :
    exec (.loopStatus p) s = .next (s.finish q stOk 0 (l.words ++ [x.s1, x.s2, l.sampleNs, l.uc])) := by
  have hpkt := h.pkt
  subst hpkt hl hx
  exact congrArg Host.Outcome.next (row_done h rfl rfl (q.holds_short (by simp [LoopSlot.words])) (.inl rfl))

/-! OVERRIDE_CONFIG (R190, R195). -/

/-- Loops that the group `x` has, has waiting, or gets with `c`. -/
def OvrGroup.loopsWith (x : OvrGroup) (c : OvrCfg) : List Nat := x.cfg.members ++ ((x.cfgNext.map (fun y => y.members)).getD []) ++ c.members

/-- At once where all these loops are OFF, else at a tick. -/
theorem exec_overrideConfig {p : Packet} {s : State} {q : QPacket} {x : OvrGroup} (h : Ready opOverrideConfig p s q) (hj : Journals s q)
    (hchecks : firstErr (overrideChecks s q) = none) (hx : s.dev.grp (q.f 0 3 0) = x) :
    exec (.overrideConfig p) s = .next (((s.withDev (
      if (x.loopsWith (ovrCfgOf q)).all (fun j => decide ((s.dev.slot j).mode = .off)) then s.dev.setGrp (q.f 0 3 0) (x.take (ovrCfgOf q))
      else s.dev.setGrp (q.f 0 3 0) { x with cfgNext := some (ovrCfgOf q), cfgAt := s.dev.now + 50000 })).entered 0x0605 q).finish q stOkPending 0 []) := by
  subst hx
  refine congrArg Host.Outcome.next (packetRow_entered h hj (guarded_pass hchecks) rfl (by decide) rfl ?slalom)
  case slalom => split <;> exact Dev.setGrp_slalom ..

/-- Settles O19: a tick by whether the loop leads its group, a packet by the checks that its hypotheses let pass and by whether the loop is OFF. -/
theorem loopCommandsComplete : Obligations.LoopCommandsComplete := by
  unfold Obligations.LoopCommandsComplete
  refine ⟨?apply, ?discards, ?numeric, ?tick, ?deadline, ?config, ?sections, ?mode, ?status, ?override⟩
  case apply => intro s b; exact exec_outputApply
  case discards =>
    rintro k s _ rfl hsome hfld hctl
    exact exec_outputDiscardReport hsome hfld hctl
  case numeric =>
    rintro i s d _ lead hctl hrun rfl hlead hd
    subst hlead
    exact exec_numericManual hctl hrun rfl hd
  case tick =>
    intro i s t d hctl hdue hd
    refine ⟨fun hlead => exec_loopTick hctl (Dev.loopTick_lead hdue hd hlead),
      fun hmember => exec_loopTick hctl (Dev.loopTick_member hdue hd hmember), ?_⟩
    intro e hfresh hlead he hheld
    exact exec_loopStaleLimit hctl ((Dev.loopTick_lead hdue hd hlead).trans he) hfresh hheld
  case deadline =>
    rintro i s t _ d hctl hdue rfl hlead hlive hd
    exact exec_loopComputeDeadline hctl hdue hlead hlive hd
  case config =>
    rintro p s q _ c h hj hchecks rfl hc
    exact ⟨exec_loopConfig_off h hj hchecks hc, exec_loopConfig_live h hj hchecks hc⟩
  case sections =>
    rintro p s q _ _ h hj hchecks rfl rfl
    exact ⟨exec_loopSectionSet_off h hj hchecks, exec_loopSectionSet_live h hj hchecks⟩
  case mode =>
    rintro p s q _ _ _ _ h hresv hmode rfl rfl rfl hman rfl hlead hadmit
    exact ⟨exec_loopMode_same hresv hmode hman hlead hadmit h, exec_loopMode_change hresv hmode hman hlead hadmit h⟩
  case status =>
    intro p s q l x h hl hx
    exact exec_loopStatus h hl hx
  case override =>
    rintro p s q x _ h hj hchecks hx rfl
    exact exec_overrideConfig h hj hchecks hx

end Sys2Proof.Machine
end

section
/-! Supervision, learning and traces: the supervisor's evaluation, its failures, and the commands of the supervisor, the learner and the trace
units (chapter 09). -/

namespace Sys2Proof.Machine

open Sys2Proof Sys2Proof.Bits

/-! The supervisor's evaluation, and a failure declared and released (R197 to R199, R202). -/

/-- The awaited tick of an enabled supervisor is evaluated over the loop's input, output in force, present value and period (R198). -/
theorem Dev.supEval_due {d : Dev} {i : Nat} {x : Superv} (hx : d.sup i = x) (hdue : x.due = true) (henable : x.cfg.enable = true) :
    d.supEval i = d.setSup i (x.evaluate (d.slot i).y (d.inForceOut i) (d.slot i).present (stepT (d.slot i).cfg.periodM)) := by
  subst hx
  simp only [Dev.supEval, hdue, henable, Bool.not_true, Bool.false_eq_true, if_false]

/-- The supervisor with the failure of loop `i` in force: what R199 notes of it. -/
def Dev.supFailed (d : Dev) (i : Nat) (x : Superv) : Superv :=
  { x with inForce := true, latched := x.cfg.latch, cause := x.atPersist, failCnt := bump 16 x.failCnt, failTime := (d.slot i).lastTick, pointWritten := false }

/-- A counter at PERSIST without a failure in force declares one; every ACTION but NONE raises its event (R199). -/
theorem Dev.supDeclare_atPersist {d e : Dev} {i : Nat} {x : Superv} (hx : d.sup i = x) (henable : x.cfg.enable = true) (hnone : x.inForce = false)
    (hpersist : x.atPersist ≠ 0) (he : (d.setSup i (d.supFailed i x)).satAt 0x23 16 (bump 16 x.failCnt) = e) :
    d.supDeclare i = if x.cfg.action = .none then e
      else e.loopEvent 0x68 i .warn (i + 2 ^ 8 * x.atPersist.toNat + 2 ^ 12 * x.cfg.action.num + 2 ^ 32 * x.f.toNat) := by
  subst hx he
  have hdeclares : (!(d.sup i).cfg.enable || (d.sup i).inForce || decide ((d.sup i).atPersist = 0)) = false := by
    rw [henable, hnone, decide_eq_false hpersist]
    rfl
  exact if_neg (Bool.eq_false_iff.mp hdeclares)

/-- An unlatched failure whose QUIET has reached CLEAR_TICKS ends of itself (R202). -/
theorem Dev.supQuiet_releases {d : Dev} {i : Nat} {x : Superv} (hx : d.sup i = x) (hforce : x.inForce = true) (hlatch : x.latched = false)
    (hquiet : x.cfg.clearTicks ≤ x.quiet) : d.supQuiet i = d.supRelease i 0 := by
  subst hx
  exact if_pos (by simp [hforce, hlatch, hquiet])

section Supervision
variable {i : Fin 128} {s : State} {x : Superv} {d : Dev} (hctl : s.dev.ctlUp = true)
include hctl

/-- The evaluation takes the 16 cycles of a pipe pass, in which the supervisor stays as it was. -/
theorem exec_supervEvaluation (hx : s.dev.sup i.val = x) (hdue : x.due = true) (henable : x.cfg.enable = true) (hd : s.dev.pass 40 = d) :
    exec (.supervEvaluation i) s = .next (s.withDev (d.setSup i.val
      (x.evaluate (d.slot i.val).y (d.inForceOut i.val) (d.slot i.val).present (stepT (d.slot i.val).cfg.periodM)))) := by
  subst hd
  have hpass : (s.dev.pass 40).sup i.val = x := hx
  have hruns : ((s.dev.sup i.val).due && s.dev.ctlUp) = true := by rw [hx, hdue, hctl]; rfl
  exact congrArg Host.Outcome.next ((if_pos hruns).trans (congrArg s.withDev (Dev.supEval_due hpass hdue henable)))

variable (hd : s.dev.supEval i.val = d)
include hd

theorem exec_supervPersistReached {e : Dev} (he : d.supDeclare i.val = e) : exec (.supervPersistReached i) s = .next (s.withDev e) := by
  subst hd he
  exact congrArg Host.Outcome.next (if_pos hctl)

theorem exec_supervQuietReached {e : Dev} (he : d.supQuiet i.val = e) : exec (.supervQuietReached i) s = .next (s.withDev e) := by
  subst hd he
  exact congrArg Host.Outcome.next (if_pos hctl)

end Supervision

/-! The supervisor's commands: at once for a loop that is OFF, else at a tick (R202, R203, R212). -/

/-- A row outside class N that leaves its change waiting for a tick is answered at once with ST_OK_PENDING, without payload. -/
theorem packetRow_pending {op : Op} {p : Packet} {s : State} {q : QPacket} {d : Dev} (h : Ready op p s q)
    (hbody : op.body s q = { st := s.withDev d, status := stOkPending }) (hclass : op.classN = false) :
    packetRow op p s = op.after q ((s.withDev d).finish q stOkPending 0 []) :=
  row_done h hbody rfl (q.holds_short (by simp)) (.inl hclass)

section SupervConfig
variable {p : Packet} {s : State} {q : QPacket} (h : Ready opSupervConfig p s q) (hj : Journals s q) (hchecks : firstErr (supervChecks q) = none)
include h hj hchecks

theorem exec_supervConfig_off (hoff : (s.dev.slot p.inst).mode = .off) :
    exec (.supervConfig p) s = .next (((s.withDev (s.dev.supApply p.inst (supCfgOf q))).entered 0x0610 q).finish q stOk 0 []) := by
  have hpkt := h.pkt
  subst hpkt
  exact congrArg Host.Outcome.next
    (packetRow_entered h hj ((guarded_pass hchecks).trans (if_pos (decide_eq_true hoff))) rfl (by decide) rfl (Dev.supApply_slalom ..))

theorem exec_supervConfig_live (hlive : (s.dev.slot p.inst).mode ≠ .off) :
    exec (.supervConfig p) s = .next (((s.withDev (s.dev.setSup p.inst
      { s.dev.sup p.inst with cfgNext := some (supCfgOf q), cfgAt := s.dev.now + 50000 })).entered 0x0610 q).finish q stOkPending 0 []) := by
  have hpkt := h.pkt
  subst hpkt
  exact congrArg Host.Outcome.next
    (packetRow_entered h hj ((guarded_pass hchecks).trans (if_neg (by simp [hlive]))) rfl (by decide) rfl (Dev.setSup_slalom ..))

end SupervConfig

section SupervAck
variable {p : Packet} {s : State} {q : QPacket} (h : Ready opSupervAck p s q) (hforce : (s.dev.sup p.inst).inForce = true)
  (hlatch : (s.dev.sup p.inst).latched = true)
include h hforce hlatch

/-- Only a latched failure in force can be acknowledged. -/
theorem opSupervAck_body : opSupervAck.body s q = if (s.dev.slot p.inst).mode = .off then .ok s (s.dev.supAck p.inst) else
    { st := s.withDev (s.dev.setSup p.inst { s.dev.sup p.inst with ackNext := true, opAt := s.dev.now + 50000 }), status := stOkPending } := by
  have hpkt := h.pkt
  subst hpkt
  exact guarded_pass (firstErr_cons_none.mpr ⟨by simp [hforce, hlatch], firstErr_nil⟩)

theorem exec_supervAck_off (hoff : (s.dev.slot p.inst).mode = .off) :
    exec (.supervAck p) s = .next ((s.withDev (s.dev.supAck p.inst)).finish q stOk 0 []) :=
  congrArg Host.Outcome.next (packetRow_changed h ((opSupervAck_body h hforce hlatch).trans (if_pos hoff)) rfl)

theorem exec_supervAck_live (hlive : (s.dev.slot p.inst).mode ≠ .off) :
    exec (.supervAck p) s = .next ((s.withDev (s.dev.setSup p.inst
      { s.dev.sup p.inst with ackNext := true, opAt := s.dev.now + 50000 })).finish q stOkPending 0 []) :=
  congrArg Host.Outcome.next (packetRow_pending h ((opSupervAck_body h hforce hlatch).trans (if_neg hlive)) rfl)

end SupervAck

section SupervRestart
variable {p : Packet} {s : State} {q : QPacket} (h : Ready opSupervRestartModel p s q)
include h

theorem exec_supervRestartModel_off (hoff : (s.dev.slot p.inst).mode = .off) :
    exec (.supervRestartModel p) s = .next ((s.withDev (s.dev.setSup p.inst { s.dev.sup p.inst with reinit := true })).finish q stOk 0 []) := by
  have hpkt := h.pkt
  subst hpkt
  exact congrArg Host.Outcome.next (packetRow_changed h (if_pos hoff) rfl)

theorem exec_supervRestartModel_live (hlive : (s.dev.slot p.inst).mode ≠ .off) :
    exec (.supervRestartModel p) s = .next ((s.withDev (s.dev.setSup p.inst
      { s.dev.sup p.inst with restartNext := true, opAt := s.dev.now + 50000 })).finish q stOkPending 0 []) := by
  have hpkt := h.pkt
  subst hpkt
  exact congrArg Host.Outcome.next (packetRow_pending h (if_neg hlive) rfl)

end SupervRestart

/-- SUPERV_STATUS answers the supervision block (Table 09-9). -/
theorem exec_supervStatus {p : Packet} {s : State} {q : QPacket} (h : Ready opSupervStatus p s q) :
    exec (.supervStatus p) s = .next (s.finish q stOk 0 (s.dev.sup p.inst).words) := by
  have hpkt := h.pkt
  subst hpkt
  exact congrArg Host.Outcome.next (row_done h rfl rfl (q.holds_short (by simp [Superv.words])) (.inl rfl))

/-! The learner's commands (R208, R211, R212). -/

section MogulConfig
variable {p : Packet} {s : State} {q : QPacket} {c : MogulCfg} (h : Ready opMogulConfig p s q) (hj : Journals s q)
  (hchecks : firstErr (mogulChecks s q) = none) (hc : mogCfgOf q ((s.dev.mog p.inst).cfgNext.getD (s.dev.mog p.inst).cfg) = c)
include h hj hchecks hc

theorem exec_mogulConfig_off (hoff : (s.dev.slot p.inst).mode = .off) :
    exec (.mogulConfig p) s = .next (((s.withDev (s.dev.mogApply p.inst c (q.b 0 1))).entered 0x0618 q).finish q stOk 0 []) := by
  have hpkt := h.pkt
  subst hpkt hc
  exact congrArg Host.Outcome.next
    (packetRow_entered h hj ((guarded_pass hchecks).trans (if_pos hoff)) rfl (by decide) rfl (Dev.mogApply_slalom ..))

theorem exec_mogulConfig_live (hlive : (s.dev.slot p.inst).mode ≠ .off) :
    exec (.mogulConfig p) s = .next (((s.withDev (s.dev.setMog p.inst { s.dev.mog p.inst with
      cfgNext := some c, cfgClear := (s.dev.mog p.inst).cfgClear || q.b 0 1, cfgAt := s.dev.now + 50000 })).entered 0x0618 q).finish q stOkPending 0 []) := by
  have hpkt := h.pkt
  subst hpkt hc
  exact congrArg Host.Outcome.next
    (packetRow_entered h hj ((guarded_pass hchecks).trans (if_neg hlive)) rfl (by decide) rfl (Dev.setMog_slalom ..))

end MogulConfig

@[simp] theorem Tbl.length_rdAll {α : Type} [Inhabited α] (t : Tbl α) (i n : Nat) : (t.rdAll i n).length = n := by
  induction n generalizing i with
  | zero => rfl
  | succ n ih => exact congrArg Nat.succ (ih (i + 1))

/-- A block within the largest COUNT of the packet's transport fits its reply (R211). -/
theorem QPacket.holds_block {q : QPacket} {p : Packet} {n : Nat} (hpkt : q.pkt = p) (hlo : 1 ≤ n) (hhi : n ≤ p.transport.maxCount) : q.holds n := by
  subst hpkt
  unfold Transport.maxCount at hhi
  unfold QPacket.holds
  split <;> omega

/-- MOGUL_PAGE_READ answers the words of one of the loop's pages (R211). -/
theorem exec_mogulPageRead {p : Packet} {s : State} {q : QPacket} {c : MogulCfg} {n : Nat} (h : Ready opMogulPageRead p s q)
    (hc : (s.dev.mog p.inst).cfg = c) (hresv0 : q.resv 0 0x7F = false) (hresv1 : q.resv 1 0x3FF = false) (hresv2 : q.resv 2 0x7FF = false)
    (hpage : q.f 0 6 0 < c.pages) (hn : q.f 2 10 0 = n) (hlo : 1 ≤ n) (hhi : n ≤ min 1024 p.transport.maxCount) (hend : q.f 1 9 0 + n ≤ 1024) :
    exec (.mogulPageRead p) s = .next (s.finish q stOk 0 (s.dev.aux.mem.rdAll ((c.pageBase + q.f 0 6 0) * 1024 + q.f 1 9 0) n)) := by
  have hfit : q.holds n := QPacket.holds_block h.pkt hlo (le_min_iff.mp hhi).2
  have hpkt := h.pkt
  subst hpkt hc hn
  have hcount : (outside (q.f 2 10 0) 1 (min 1024 q.pkt.transport.maxCount) || decide (1024 < q.f 1 9 0 + q.f 2 10 0)) = false := by
    simp [outside_eq_false_iff.mpr ⟨hlo, hhi⟩, hend]
  have hbody : opMogulPageRead.body s q = .read s (s.dev.aux.mem.rdAll
      (((s.dev.mog q.pkt.inst).cfg.pageBase + q.f 0 6 0) * 1024 + q.f 1 9 0) (q.f 2 10 0)) :=
    guarded_pass (firstErr_cons_none.mpr ⟨hresv0, firstErr_cons_none.mpr ⟨hresv1, firstErr_cons_none.mpr ⟨hresv2,
      firstErr_cons_none.mpr ⟨decide_eq_false (Nat.not_le.mpr hpage), firstErr_cons_none.mpr ⟨hcount, firstErr_nil⟩⟩⟩⟩⟩)
  exact congrArg Host.Outcome.next (row_done h hbody rfl (by rw [Tbl.length_rdAll]; exact hfit) (.inl rfl))

/-! The trace units (R209 to R212). -/

/-- A triggered unit that has written its last record is DONE, and says so to the units that wait for it (R210). -/
theorem exec_traceComplete {u : Fin 4} {s : State} {x : TraceUnit} (hx : s.dev.trc u.val = x) (htriggered : x.state = .triggered) (hpost : x.post = 0) :
    exec (.traceComplete u) s = .next (s.withDev (((s.dev.setTrc u.val { x with state := .done, captures := x.captures + 1 }).markEvent 0x6A
      [x.cfg.loop]).raiseCtl 0x6A (0x2300 + u.val) .info (u.val + 2 ^ 8 * x.cfg.loop + 2 ^ 32 * (x.trigTime % 2 ^ 32)))) := by
  subst hx
  have hfull : (s.dev.trc u.val).full = true := by simp [TraceUnit.full, htriggered, hpost]
  exact congrArg Host.Outcome.next (if_pos hfull)

theorem exec_traceConfig {p : Packet} {s : State} {q : QPacket} (h : Ready opTraceConfig p s q) (hchecks : firstErr (traceChecks s q) = none) :
    exec (.traceConfig p) s = .next ((s.withDev (s.dev.setTrc p.inst
      { s.dev.trc p.inst with cfg := traceCfgOf q, configured := true })).finish q stOk 0 []) := by
  have hpkt := h.pkt
  subst hpkt
  exact congrArg Host.Outcome.next (packetRow_changed h (guarded_pass hchecks) rfl)

section TraceArm
variable {p : Packet} {s : State} {q : QPacket} {x : TraceUnit} (h : Ready opTraceArm p s q) (hresv : q.resv 0 3 = false)
  (hx : s.dev.trc p.inst = x)
include h hresv hx

/-- An armed unit takes the FORCE bit, a triggered one goes on, any other starts afresh (R210). -/
theorem opTraceArm_body : opTraceArm.body s q = .ok s (
    if x.state = .armed then s.dev.setTrc p.inst { x with force := x.force || q.b 0 1 }
    else if x.state = .triggered then s.dev
    else s.dev.setTrc p.inst { cfg := x.cfg, configured := x.configured, state := .armed, captures := x.captures }) := by
  have hpkt := h.pkt
  subst hpkt hx
  refine (guarded_pass (firstErr_cons_none.mpr ⟨hresv, firstErr_nil⟩)).trans ?_
  cases (s.dev.trc q.pkt.inst).state <;> rfl

theorem exec_traceArm_armed (harmed : x.state = .armed) :
    exec (.traceArm p) s = .next ((s.withDev (s.dev.setTrc p.inst { x with force := x.force || q.b 0 1 })).finish q stOk 0 []) :=
  congrArg Host.Outcome.next (packetRow_changed h ((opTraceArm_body h hresv hx).trans (congrArg (Ans.ok s) (if_pos harmed))) rfl)

theorem exec_traceArm_triggered (htriggered : x.state = .triggered) : exec (.traceArm p) s = .next (s.finish q stOk 0 []) := by
  have harmed : x.state ≠ .armed := by simp [htriggered]
  exact congrArg Host.Outcome.next (packetRow_changed h
    ((opTraceArm_body h hresv hx).trans (congrArg (Ans.ok s) ((if_neg harmed).trans (if_pos htriggered)))) rfl)

theorem exec_traceArm_fresh (harmed : x.state ≠ .armed) (htriggered : x.state ≠ .triggered) :
    exec (.traceArm p) s = .next ((s.withDev (s.dev.setTrc p.inst
      { cfg := x.cfg, configured := x.configured, state := .armed, captures := x.captures })).finish q stOk 0 []) :=
  congrArg Host.Outcome.next (packetRow_changed h
    ((opTraceArm_body h hresv hx).trans (congrArg (Ans.ok s) ((if_neg harmed).trans (if_neg htriggered)))) rfl)

end TraceArm

theorem exec_traceDisarm {p : Packet} {s : State} {q : QPacket} (h : Ready opTraceDisarm p s q) (hresv : q.resv 0 3 = false) :
    exec (.traceDisarm p) s = .next ((s.withDev (s.dev.setTrc p.inst { s.dev.trc p.inst with state := .idle })).finish q stOk 0 []) := by
  have hpkt := h.pkt
  subst hpkt
  exact congrArg Host.Outcome.next (packetRow_changed h (guarded_pass (firstErr_cons_none.mpr ⟨hresv, firstErr_nil⟩)) rfl)

/-- TRACE_READ answers words of the records of a trace that has ended, the oldest first (R211). -/
theorem exec_traceRead {p : Packet} {s : State} {q : QPacket} {x : TraceUnit} {n : Nat} (h : Ready opTraceRead p s q)
    (hresv0 : q.resv 0 0x3FFFFF = false) (hresv1 : q.resv 1 0xFFF = false) (hx : s.dev.trc p.inst = x)
    (hended : x.state = .done ∨ x.state = .aborted) (hn : q.f 1 11 0 = n) (hlo : 1 ≤ n) (hhi : n ≤ p.transport.maxCount)
    (hend : q.f 0 21 0 + n ≤ x.recs.reverse.flatten.length) :
    exec (.traceRead p) s = .next (s.finish q stOk 0 ((x.recs.reverse.flatten.drop (q.f 0 21 0)).take n)) := by
  have hfit : q.holds n := QPacket.holds_block h.pkt hlo hhi
  have hlength : ((x.recs.reverse.flatten.drop (q.f 0 21 0)).take n).length = n := by
    rw [List.length_take, List.length_drop]
    omega
  have hpkt := h.pkt
  subst hpkt hx hn
  have hstate : ¬((s.dev.trc q.pkt.inst).state ≠ .done ∧ (s.dev.trc q.pkt.inst).state ≠ .aborted) := fun hlive => hended.elim hlive.1 hlive.2
  have hbody : opTraceRead.body s q =
      .read s (((s.dev.trc q.pkt.inst).recs.reverse.flatten.drop (q.f 0 21 0)).take (q.f 1 11 0)) :=
    guarded_pass (firstErr_cons_none.mpr ⟨hresv0, firstErr_cons_none.mpr ⟨hresv1, firstErr_cons_none.mpr ⟨decide_eq_false hstate,
      firstErr_cons_none.mpr ⟨outside_eq_false_iff.mpr ⟨hlo, hhi⟩, firstErr_cons_none.mpr ⟨decide_eq_false (Nat.not_lt.mpr hend), firstErr_nil⟩⟩⟩⟩⟩)
  exact congrArg Host.Outcome.next (row_done h hbody rfl (by rw [hlength]; exact hfit) (.inl rfl))

/-- Settles O20: the supervisor by what its counters and its failure are, a configuration by whether the loop is OFF, a trace unit by its state. -/
theorem supervisionAndTraceCommandsComplete : Obligations.SupervisionAndTraceCommandsComplete := by
  unfold Obligations.SupervisionAndTraceCommandsComplete
  refine ⟨?evaluation, ?declared, ?released, ?config, ?ack, ?restart, ?status, ?learner, ?page, ?complete, ?traceConfig, ?arm, ?disarm, ?read⟩
  case evaluation => intro i s x d; exact exec_supervEvaluation
  case declared =>
    intro i s x d e hctl hd hx henable hnone hpersist he
    have hdeclare := Dev.supDeclare_atPersist hx henable hnone hpersist he
    exact ⟨fun hsilent => exec_supervPersistReached hctl hd (hdeclare.trans (if_pos hsilent)),
      fun hloud => exec_supervPersistReached hctl hd (hdeclare.trans (if_neg hloud))⟩
  case released =>
    intro i s x d hctl hd hx hforce hlatch hquiet
    exact exec_supervQuietReached hctl hd (Dev.supQuiet_releases hx hforce hlatch hquiet)
  case config =>
    intro p s q h hj hchecks
    exact ⟨exec_supervConfig_off h hj hchecks, exec_supervConfig_live h hj hchecks⟩
  case ack =>
    rintro p s q _ h rfl hforce hlatch
    exact ⟨exec_supervAck_off h hforce hlatch, exec_supervAck_live h hforce hlatch⟩
  case restart =>
    rintro p s q _ h rfl
    exact ⟨exec_supervRestartModel_off h, exec_supervRestartModel_live h⟩
  case status => intro p s q; exact exec_supervStatus
  case learner =>
    rintro p s q _ c h hj hchecks rfl hc
    exact ⟨exec_mogulConfig_off h hj hchecks hc, exec_mogulConfig_live h hj hchecks hc⟩
  case page => intro p s q c n; exact exec_mogulPageRead
  case complete =>
    rintro u s x _ hx htriggered hpost rfl
    exact exec_traceComplete hx htriggered hpost
  case traceConfig => intro p s q; exact exec_traceConfig
  case arm =>
    intro p s q x h hresv hx
    exact ⟨exec_traceArm_armed h hresv hx, exec_traceArm_triggered h hresv hx, exec_traceArm_fresh h hresv hx⟩
  case disarm => intro p s q; exact exec_traceDisarm
  case read => intro p s q x n; exact exec_traceRead

end Sys2Proof.Machine
end

section
/-! Slalom: its measurements, the test of a holdup node, the evaluation with its two timers of a second, and the budget commands (chapter 10). -/

namespace Sys2Proof.Machine

open Sys2Proof Sys2Proof.Bits

/-! The measurements (R215 to R218). -/

section PowerSample
variable {mw : Nat} {s : State} {x : Slalom} {sm : List Nat} {n : Nat} (hub : s.dev.hubUp = true) (hx : s.dev.slalom = x)
  (hsm : ((mw + 10 * x.pClamp) :: x.samples).take 100 = sm)
  (hn : min 1000 (x.engSamples + ((List.range 16).filter (fun k => decide (s.dev.engState k = .busy))).length) = n)
include hub hx hsm hn

/-- Before the 1,000th sample of a BUSY engine ENG_W keeps its value (R215). -/
theorem exec_powerSample_few (hfew : n ≠ 1000) : exec (.powerSample mw) s =
    .next (s.withDev (s.dev.setSlm { x with samples := sm, pAvg := satN 16 (meanPower sm), engSamples := n })) := by
  subst hx hsm hn
  change execPowerSample mw s = _
  simp only [execPowerSample, hub, if_neg hfew]
  rfl

/-- From the 1,000th sample on ENG_W is the measured value (R215). -/
theorem exec_powerSample_many {w : Nat} {d : Dev} (hmany : n = 1000) (hfree : s.dev.freeN 65536 = (w, d)) : exec (.powerSample mw) s =
    .next (s.withDev (d.setSlm { x with samples := sm, pAvg := satN 16 (meanPower sm), engSamples := n, engW := w })) := by
  subst hx hsm hn
  obtain ⟨rfl, rfl⟩ := Prod.mk.inj hfree
  change execPowerSample mw s = _
  simp only [execPowerSample, hub, if_pos hmany]
  rfl

end PowerSample

theorem exec_tempSensorRead {ts : List Int} {s : State} (hub : s.dev.hubUp = true) :
    exec (.tempSensorRead ts) s = .next (s.withDev (s.dev.setSlm { s.dev.slalom with
      temps := (List.range 7).foldl (fun t i => t.wr i (satI 8 (ts.getD i (s.dev.slalom.temps.rd i)))) s.dev.slalom.temps })) :=
  congrArg Host.Outcome.next (if_neg (by simp [hub]))

section ClampReport
variable {k : Fin 4} {s : State} (hub : s.dev.hubUp = true) (hfld : s.dev.fldUp k.val = true)
include hub hfld

/-- A running die reports its clamp accounts (R217). -/
theorem exec_clampReport_runs (hruns : s.dev.fldRuns k.val = true) : exec (.clampReport k) s = .next (s.withDev (s.dev.setSlm { s.dev.slalom with
    eWin := s.dev.slalom.eWin.wr k.val (satN 11 ((s.dev.fld k.val).eWinMj s.dev.time.raw))
    ePend := s.dev.slalom.ePend.wr k.val (satN 11 (s.dev.fld k.val).ePendMj) })) := by
  refine congrArg Host.Outcome.next ((if_neg (by simp [hub, hfld])).trans ?_)
  simp only [if_pos hruns]

/-- A die in its reset reports 0 (R231). -/
theorem exec_clampReport_reset (hreset : s.dev.fldRuns k.val = false) : exec (.clampReport k) s = .next (s.withDev (s.dev.setSlm { s.dev.slalom with
    eWin := s.dev.slalom.eWin.wr k.val 0, ePend := s.dev.slalom.ePend.wr k.val 0 })) := by
  refine congrArg Host.Outcome.next ((if_neg (by simp [hub, hfld])).trans ?_)
  simp only [hreset]
  rfl

end ClampReport

theorem exec_holdoutRead {n : Fin 2} {mv : Nat} {s : State} {h : Holdup} {d : Dev} (hub : s.dev.hubUp = true) (hruns : s.dev.fldRuns n.val = true)
    (hfld : s.dev.fldUp n.val = true) (hh : s.dev.slalom.hold.rd n.val = h)
    (hd : s.dev.setSlm { s.dev.slalom with hold := s.dev.slalom.hold.wr n.val { h with readings := (satN 16 mv :: h.readings).take 10 } } = d) :
    exec (.holdoutRead n mv) s =
      .next (s.withDev { d with power := { d.power with feeds := d.power.feeds.upd n.val (fun f => { f with holdMv := satN 16 mv }) } }) := by
  subst hh hd
  exact congrArg Host.Outcome.next (if_neg (by simp [hub, hruns, hfld]))

/-! The test of a holdup node (R218). -/

/-- A node that has reached 18 V, with no test in progress and its feeds there, is tested. -/
theorem exec_holdupCapTest {n : Fin 2} {s : State} {h : Holdup} {v : Nat} {d : Dev} (hub : s.dev.hubUp = true) (hruns : s.dev.fldRuns n.val = true)
    (hh : s.dev.slalom.hold.rd n.val = h) (hhead : h.readings.head? = some v) (hreached : 18000 ≤ v) (hidle : h.testing = none)
    (hfeeds : (s.dev.power.feeds.rd n.val).lost = false)
    (hd : (if h.tested then s.dev.toRaw (h.lastTest + s.dev.slalom.cfg.huTestS * 1000000000) else s.dev) = d) :
    exec (.holdupCapTest n) s = .next (s.withDev (d.setSlm { d.slalom with
      hold := d.slalom.hold.upd n.val (fun x => { x with testing := some d.time.raw, lastTest := d.time.raw }) })) := by
  subst hh hd
  exact congrArg Host.Outcome.next (if_neg (by simp [hub, hruns, hhead, hreached, hidle, hfeeds]))

/-- The end of a test sets C_n, and G_MAX is judged at once while a control die is active. -/
theorem exec_holdupCapTestEnd {n : Fin 2} {mv t c : Nat} {s : State} {d e : Dev} (htesting : (s.dev.slalom.hold.rd n.val).testing = some t)
    (hc : (if mv = 0 then (s.dev.toRaw (t + 2000000)).freeN 655360 else (capOf mv, s.dev.toRaw (t + 2000000))) = (c, d))
    (he : d.setSlm { d.slalom with hold := d.slalom.hold.upd n.val (fun x => { x with testing := none, tested := true, capUf := c }) } = e) :
    exec (.holdupCapTestEnd n mv) s = .next (s.withDev (if e.ctlUp then e.holdupLow else e)) := by
  subst he
  change execHoldupCapTestEnd n mv s = _
  simp only [execHoldupCapTestEnd, htesting, hc]

/-! The evaluation (R214). -/

/-- The warning of an evaluation that finds a die's clamp account high and D_CLAMP not yet set (R220). -/
def Dev.clampWarned (d : Dev) (was : Bool) : Dev :=
  match d.slalom.clampHigh with
  | none => d
  | some k => if was then d else d.raiseCtl 0x75 slmSource .warn (k + 4 * d.slalom.eWin.rd k + 2 ^ 13 * d.slalom.ePend.rd k)

theorem Dev.clampWarned_silent {d : Dev} {was : Bool} (hsilent : d.slalom.clampHigh = none ∨ was = true) : d.clampWarned was = d := by
  unfold Dev.clampWarned
  rcases hsilent with hlow | hwas
  · rw [hlow]
  · subst hwas
    split <;> rfl

theorem Dev.clampWarned_new {d : Dev} {k : Nat} (hhigh : d.slalom.clampHigh = some k) : d.clampWarned false =
    d.raiseCtl 0x75 slmSource .warn (k + 4 * d.slalom.eWin.rd k + 2 ^ 13 * d.slalom.ePend.rd k) := by
  simp only [Dev.clampWarned, hhigh, Bool.false_eq_true, if_false]

/-- What follows the demands of an evaluation at millisecond `ms`: LEVEL, CAP_UNMET, WRITE_THROUGH and the admission of a slice (R214). -/
def Dev.actOnDemands (d : Dev) (ms : Nat) : Dev := ((((d.levelStep ms).capUnmet).holdupLow).holdupOk).admitSlice ms

/-- The evaluation after the first, 1 ms after the last one. -/
theorem exec_slalomEvaluation {s : State} {x y : Slalom} {d : Dev} {dt ms : Nat} (hctl : s.dev.ctlUp = true) (hx : s.dev.slalom = x)
    (hstarted : x.evalAt ≠ 0) (hd : s.dev.toRaw (x.evalAt + 1000000) = d) (hdt : (d.time.raw - x.evalAt) / 1000000 = dt) (hms : x.evalMs + dt = ms)
    (hy : ((x.tally d.time.raw dt).demands ms (((d.sliceDie.bind (fun k => d.dueSlice k)).map sliceKind).getD 0)).clampDemand dt = y) :
    exec .slalomEvaluation s = .next (s.withDev (((d.setSlm y).clampWarned x.dClamp).actOnDemands ms)) := by
  subst hx
  refine congrArg Host.Outcome.next ((if_neg (by simp [hctl])).trans ?_)
  simp only [if_neg hstarted, hd, hdt, hms, hy, Dev.clampWarned, Dev.setSlm_slalom]
  cases y.clampHigh <;> rfl

/-! The second of CAP_UNMET and the second of WRITE_THROUGH (R227, R229). -/

/-- CAP_UNMET is set, with its warning, once LEVEL has been 6 for a second above the limit. -/
theorem Dev.capUnmet_sets {d : Dev} {x : Slalom} (hx : d.slalom = x) (hlevel : x.level = 6) (hmet : x.capUnmet = false) (hover : x.limit < x.pAvg)
    (hsecond : 1000 ≤ x.level6Ms) :
    d.capUnmet = (d.setSlm { x with capUnmet := true }).raiseCtl 0x72 slmSource .warn (x.pAvg + 2 ^ 16 * x.cfg.capDw) := by
  subst hx
  exact (if_pos hover).trans (if_pos (by simp [hlevel, hmet, hsecond]))

theorem exec_capUnmetTimer {s : State} {x : Slalom} {d : Dev} (hctl : s.dev.ctlUp = true) (hx : s.dev.slalom = x) (hlevel : x.level = 6)
    (hmet : x.capUnmet = false) (hover : x.limit < x.pAvg) (hd : s.dev.toRaw (x.evalAt + (1000 - x.level6Ms) * 1000000) = d) :
    exec .capUnmetTimer s = .next (s.withDev ((d.setSlm { x with level6Ms := max 1000 x.level6Ms, capUnmet := true }).raiseCtl 0x72 slmSource .warn
      (x.pAvg + 2 ^ 16 * x.cfg.capDw))) := by
  have hslalom : d.slalom = s.dev.slalom := by rw [← hd, Dev.toRaw_slalom]
  subst hx
  have hset := Dev.capUnmet_sets (d := d.setSlm { s.dev.slalom with level6Ms := max 1000 s.dev.slalom.level6Ms }) rfl hlevel hmet hover (le_max_left ..)
  refine congrArg Host.Outcome.next ((if_neg (by simp [hctl, hlevel, hmet, hover])).trans ?_)
  simp only [hd, hslalom, hset]
  rfl

theorem exec_holdupOkTimer {s : State} {x : Slalom} (hctl : s.dev.ctlUp = true) (hx : s.dev.slalom = x) (hthrough : x.writeThrough = true)
    (hroom : 64 ≤ x.gMax) : exec .holdupOkTimer s = .next (s.withDev
      (((s.dev.toRaw (x.evalAt + (1000 - x.gmaxOkMs) * 1000000)).setSlm { x with gmaxOkMs := max 1000 x.gmaxOkMs }).holdupOk)) := by
  subst hx
  refine congrArg Host.Outcome.next ((if_neg (by simp [hctl, hthrough, hroom])).trans ?_)
  simp only [Dev.toRaw_slalom]

/-! The commands (R219, R230). -/

/-- BUDGET_STATUS answers the Slalom page (Table 10-6). -/
theorem exec_budgetStatus {p : Packet} {s : State} {q : QPacket} (h : Ready opBudgetStatus p s q) :
    exec (.budgetStatus p) s = .next (s.finish q stOk 0 ((List.range 17).map (fun i => s.dev.slalom.word (0x0800 + 4 * i)))) :=
  congrArg Host.Outcome.next (row_done h rfl rfl (q.holds_short (by simp)) (.inl rfl))

/-- A class N row that changes Slalom's settings, and so not WRITE_THROUGH, is answered with its journal entry, without payload (R226). -/
theorem packetRow_settings {op : Op} {p : Packet} {s : State} {q : QPacket} {d : Dev} (h : Ready op p s q) (hj : Journals s q)
    (hbody : op.body s q = .ok s d) (hclass : op.classN = true) (hthrough : d.slalom.writeThrough = s.dev.slalom.writeThrough) :
    packetRow op p s = op.after q (((s.withDev d).entered op.code q).finish q stOk 0 []) :=
  row_classN h hbody rfl (q.holds_short (by simp)) hclass (by decide) hj (hthrough.trans hj.2)

theorem exec_pwrCapSet {p : Packet} {s : State} {q : QPacket} {c : Nat} (h : Ready opPwrCapSet p s q) (hj : Journals s q)
    (hresv : q.resv 0 0xFFFF = false) (hc : q.f 0 15 0 = c) (hlo : 200 ≤ c) (hhi : c ≤ 550) :
    exec (.pwrCapSet p) s = .next (((s.withDev ((s.dev.setSlm { s.dev.slalom with
      cfg := { s.dev.slalom.cfg with capDw := c } }).raiseCtl 0x77 slmSource .info (c + 2 ^ 16 * s.dev.slalom.cfg.capDw))).entered 0x0C02 q).finish
      q stOk 0 []) := by
  subst hc
  have hchecks : firstErr [encIf (q.resv 0 0xFFFF) 0, rangeIf (outside (q.f 0 15 0) 200 550) 0] = none :=
    firstErr_cons_none.mpr ⟨hresv, firstErr_cons_none.mpr ⟨outside_eq_false_iff.mpr ⟨hlo, hhi⟩, firstErr_nil⟩⟩
  exact congrArg Host.Outcome.next (packetRow_settings h hj (guarded_pass hchecks) rfl rfl)

theorem exec_budgetConfig {p : Packet} {s : State} {q : QPacket} (h : Ready opBudgetConfig p s q) (hj : Journals s q)
    (hchecks : firstErr (budgetChecks s q) = none) : exec (.budgetConfig p) s = .next (((s.withDev (s.dev.setSlm { s.dev.slalom with
      cfg := budgetCfgOf q s.dev.slalom.cfg })).entered 0x0C03 q).finish q stOk 0 []) :=
  congrArg Host.Outcome.next (packetRow_settings h hj (guarded_pass hchecks) rfl rfl)

/-- Settles O21: a sample by whether ENG_W is measured, a report by whether the die runs, an evaluation by whether a clamp account has just risen,
each timer and each packet by the checks that its hypotheses let pass. -/
theorem slalomCommandsComplete : Obligations.SlalomCommandsComplete := by
  unfold Obligations.SlalomCommandsComplete
  refine ⟨?power, ?temps, ?clamp, ?holdout, ?test, ?testEnd, ?evaluation, ?capUnmet, ?holdupOk, ?status, ?cap, ?config⟩
  case power =>
    intro mw s x sm n hub hx hsm hn
    exact ⟨exec_powerSample_few hub hx hsm hn, fun w d => exec_powerSample_many hub hx hsm hn⟩
  case temps => intro ts s; exact exec_tempSensorRead
  case clamp =>
    rintro k s _ hub hfld rfl
    exact ⟨exec_clampReport_runs hub hfld, exec_clampReport_reset hub hfld⟩
  case holdout => intro n mv s h d; exact exec_holdoutRead
  case test => intro n s h v d; exact exec_holdupCapTest
  case testEnd => intro n mv t c s d e; exact exec_holdupCapTestEnd
  case evaluation =>
    intro s x y d dt ms hctl hx hstarted hd hdt hms hy
    have heval := exec_slalomEvaluation hctl hx hstarted hd hdt hms hy
    refine ⟨fun hsilent => ?_, fun k hhigh hrises => ?_⟩
    · rwa [Dev.clampWarned_silent hsilent] at heval
    · rwa [hrises, Dev.clampWarned_new hhigh] at heval
  case capUnmet => intro s x d; exact exec_capUnmetTimer
  case holdupOk => intro s x; exact exec_holdupOkTimer
  case status => intro p s q; exact exec_budgetStatus
  case cap =>
    rintro p s q _ c h hj hresv hc hlo hhi rfl
    exact exec_pwrCapSet h hj hresv hc hlo hhi
  case config => intro p s q; exact exec_budgetConfig

end Sys2Proof.Machine
end

section
/-! Samples on their way to the hub, and the sequencer of a field die: its cycles, its results and its commands (R241 to R248, R252). -/

namespace Sys2Proof.Machine

open Sys2Proof Sys2Proof.Bits

/-! Samples (R246, R247). -/

theorem exec_sampleSend {k : Fin 4} {s : State} {x : TaggedSample} (hnext : s.dev.nextSample k.val = some x) :
    exec (.sampleSend k) s = .next (s.withDev ((s.dev.setSeq k.val
      { (s.dev.fld k.val).seq with waiting := (s.dev.fld k.val).seq.waiting.erase x }).sendSample k.val x)) := by
  change execSampleSend k s = _
  simp only [execSampleSend, hnext]

/-- A sample of die `k` that has landed is written to its point, if it names one (R246). -/
def Dev.writeSample (d : Dev) (k : Nat) (x : TaggedSample) : Dev :=
  match x.point with
  | some n => d.writePoint { id := n, value := x.value, time := w32 x.time, quality := x.quality, source := BitVec.ofNat 8 (0x50 + k), last := true }
  | none => d

theorem Dev.writeSample_named {d : Dev} {k n : Nat} {x : TaggedSample} (hpoint : x.point = some n) : d.writeSample k x =
    d.writePoint { id := n, value := x.value, time := w32 x.time, quality := x.quality, source := BitVec.ofNat 8 (0x50 + k), last := true } := by
  simp only [Dev.writeSample, hpoint]

theorem Dev.writeSample_unnamed {d : Dev} {k : Nat} {x : TaggedSample} (hpoint : x.point = none) : d.writeSample k x = d := by
  simp only [Dev.writeSample, hpoint]

/-- The oldest sample on its way leaves the queue and reaches the loops that read its channel and the point that it names. -/
theorem exec_sampleArrival {k : Fin 4} {s : State} {x : TaggedSample} {xs : List TaggedSample} {ns : Nat} {d d1 d2 d3 : Dev}
    (hqueue : s.dev.field.sampleQ.rd k.val = x :: xs) (hfree : s.dev.freeNs 600 1240 = (ns, d)) (hd1 : d.toRaw (x.sent + ns) = d1)
    (hd2 : { d1 with field := { d1.field with sampleQ := d1.field.sampleQ.wr k.val xs } } = d2)
    (hd3 : (if x.native = true ∧ d2.ctlUp = true then d2.toLoops (24 * k.val + x.chan) x else d2) = d3) :
    exec (.sampleArrival k) s = .next (s.withDev ((d3.writeSample k.val x).mon 0x04 k.val ((d3.writeSample k.val x).sampleLevel k.val))) := by
  subst hd1 hd2 hd3
  change execSampleArrival k s = _
  simp only [execSampleArrival, hqueue, hfree, Bool.and_eq_true]
  rfl

/-! Cycles and results (R242 to R245, R248, R252). -/

section CycleStart
variable {k : Fin 4} {s : State} {c : Nat} (hruns : s.dev.fldRuns k.val = true) (hdue : (s.dev.fld k.val).seq.due = some c)
include hruns hdue

theorem exec_seqCycleStart (hauto : (s.dev.fld k.val).seq.auto = false) :
    exec (.seqCycleStart k) s = .next (s.withDev (s.dev.startCycle k.val c)) := by
  change execSeqCycleStart k s = _
  simp only [execSeqCycleStart, hdue]
  exact congrArg Host.Outcome.next (if_neg (by simp [hruns, hauto]))

theorem exec_seqAutostart (hauto : (s.dev.fld k.val).seq.auto = true) :
    exec (.seqAutostart k) s = .next (s.withDev (s.dev.startCycle k.val c)) := by
  change execSeqAutostart k s = _
  simp only [execSeqAutostart, hdue]
  exact congrArg Host.Outcome.next (if_neg (by simp [hruns, hauto]))

end CycleStart

theorem exec_entryResult {k : Fin 4} {e : Fin 64} {codes : List Nat} {s : State} {f : Sequencer} {t : EntryTime} {ns : Nat} {d d1 d2 : Dev}
    (hf : (s.dev.fld k.val).seq = f) (ht : f.times.find? (fun t => t.e = e.val) = some t) (hruns : s.dev.fldRuns k.val = true)
    (hcycle : f.inCycle = true) (hended : f.ended.contains e.val = false) (hfree : s.dev.freeNs 200 600 = (ns, d))
    (hd1 : d.toCt (f.cycleStart + 500 * t.stop + ns) = d1)
    (hd2 : (if f.voided.contains e.val then d1 else d1.writeResult k.val (f.table.rd e.val) t codes) = d2) :
    exec (.entryResult k e codes) s = .next (s.withDev
      ((d2.setSeq k.val { (d2.fld k.val).seq with ended := e.val :: (d2.fld k.val).seq.ended }).cycleOver k.val)) := by
  subst hf hd1 hd2
  change execEntryResult k e codes s = _
  simp only [execEntryResult, ht]
  refine congrArg Host.Outcome.next ((if_neg (by simp only [hruns, hcycle, hended]; decide)).trans ?_)
  simp only [hfree]

/-! SEQ_WRITE (R239, R243). -/

/-- `n` entries or registers from number `first` on lie within the 64 of a die. -/
theorem entries_within {first n : Nat} (hlo : 1 ≤ n) (hhi : first + n ≤ 64) : (outside n 1 64 || decide (64 < first + n)) = false := by
  have hcount : outside n 1 64 = false := outside_eq_false_iff.mpr ⟨hlo, by omega⟩
  simp [hcount, hhi]

/-- The table that SEQ_WRITE `q` leaves: its entries over the staged table, or else over the active one. -/
def Sequencer.written (f : Sequencer) (q : QPacket) : Tbl SeqEntry :=
  (List.range (q.f 0 14 8)).foldl (fun (t : Tbl SeqEntry) j => t.wr (q.f 0 5 0 + j) (seqEntryOf q (1 + 4 * j))) (f.pendTable.getD f.table)

/-- The checks of the packet's entries, one kind after another over all of them, pass as those of each entry do. -/
theorem firstErr_flatMap_range {α : Type} {n : Nat} {f : Nat → α} {g : α → List (Bool × Nat × Nat)} (h : ∀ j, j < n → firstErr (g (f j)) = none) :
    firstErr (((List.range n).map f).flatMap g) = none :=
  firstErr_flatMap.mpr (List.forall_mem_map.mpr fun j hj => h j (List.mem_range.mp hj))

section SeqWrite
variable {p : Packet} {s : State} {q : QPacket} (h : Ready opSeqWrite p s q) (hj : Journals s q) (hresv : q.resv 0 0x17F3F = false)
  (hlo : 1 ≤ q.f 0 14 8) (hhi : q.f 0 5 0 + q.f 0 14 8 ≤ 64) (hwords : 1 + 4 * q.f 0 14 8 ≤ q.n)
  (hentries : ∀ j, j < q.f 0 14 8 → firstErr (seqEntryChecks s.dev p.inst q (1 + 4 * j)).1 = none ∧
    firstErr (seqEntryChecks s.dev p.inst q (1 + 4 * j)).2.1 = none ∧ firstErr (seqEntryChecks s.dev p.inst q (1 + 4 * j)).2.2 = none)
include h hresv hlo hhi hwords hentries

/-- With its checks passed, and no connected test DAC where it commits, SEQ_WRITE stages its table, takes it at once, or leaves it to a cycle start. -/
theorem opSeqWrite_body (hdac : q.b 0 16 = true → (s.dev.fld p.inst).seq.tdacChan = none) : opSeqWrite.body s q =
    if !q.b 0 16 then .ok s (s.dev.setSeq p.inst { (s.dev.fld p.inst).seq with pendTable := some ((s.dev.fld p.inst).seq.written q) })
    else if (s.dev.fld p.inst).seq.state = .stopped then .ok s (s.dev.setSeq p.inst
      { (s.dev.fld p.inst).seq with table := (s.dev.fld p.inst).seq.written q, pendTable := none, committed := none })
    else { st := s.withDev (s.dev.setSeq p.inst { (s.dev.fld p.inst).seq with
      pendTable := none, committed := some ((s.dev.fld p.inst).seq.written q), commitAt := s.dev.now + 100000 }), status := stOkPending } := by
  have hpkt := h.pkt
  subst hpkt
  have htest : ∀ b : Bool, (q.b 0 16 && (s.dev.fld q.pkt.inst).seq.tdacChan.isSome && b) = false := by
    intro b
    cases hcommit : q.b 0 16 with
    | false => rfl
    | true => simp [hdac hcommit]
  exact guarded_pass (firstErr_append.mpr ⟨firstErr_append.mpr ⟨firstErr_append.mpr ⟨firstErr_append.mpr
    ⟨firstErr_cons_none.mpr ⟨hresv, firstErr_cons_none.mpr ⟨entries_within hlo hhi, firstErr_cons_none.mpr
        ⟨decide_eq_false (Nat.not_lt.mpr hwords), firstErr_nil⟩⟩⟩,
      firstErr_flatMap_range fun j hlt => (hentries j hlt).1⟩,
    firstErr_flatMap_range fun j hlt => (hentries j hlt).2.1⟩,
    firstErr_flatMap_range fun j hlt => (hentries j hlt).2.2⟩,
    firstErr_cons_none.mpr ⟨htest _, firstErr_nil⟩⟩)

include hj

theorem exec_seqWrite_staged (hcommit : q.b 0 16 = false) : exec (.seqWrite p) s = .next (((s.withDev (s.dev.setSeq p.inst
    { (s.dev.fld p.inst).seq with pendTable := some ((s.dev.fld p.inst).seq.written q) })).entered 0x0711 q).finish q stOk 0 []) := by
  have hbody := opSeqWrite_body h hresv hlo hhi hwords hentries (by simp [hcommit])
  exact congrArg Host.Outcome.next
    (packetRow_entered h hj (hbody.trans (if_pos (by simp [hcommit]))) rfl (by decide) rfl (Dev.setSeq_slalom ..))

variable (hcommit : q.b 0 16 = true) (hdac : (s.dev.fld p.inst).seq.tdacChan = none)
include hcommit hdac

theorem exec_seqWrite_stopped (hstopped : (s.dev.fld p.inst).seq.state = .stopped) : exec (.seqWrite p) s = .next (((s.withDev (s.dev.setSeq p.inst
    { (s.dev.fld p.inst).seq with table := (s.dev.fld p.inst).seq.written q, pendTable := none, committed := none })).entered 0x0711 q).finish
    q stOk 0 []) := by
  have hbody := opSeqWrite_body h hresv hlo hhi hwords hentries (fun _ => hdac)
  exact congrArg Host.Outcome.next (packetRow_entered h hj
    (hbody.trans ((if_neg (by simp [hcommit])).trans (if_pos hstopped))) rfl (by decide) rfl (Dev.setSeq_slalom ..))

theorem exec_seqWrite_committed (hlive : (s.dev.fld p.inst).seq.state ≠ .stopped) : exec (.seqWrite p) s = .next (((s.withDev (s.dev.setSeq p.inst
    { (s.dev.fld p.inst).seq with
      pendTable := none, committed := some ((s.dev.fld p.inst).seq.written q), commitAt := s.dev.now + 100000 })).entered 0x0711 q).finish
    q stOkPending 0 []) := by
  have hbody := opSeqWrite_body h hresv hlo hhi hwords hentries (fun _ => hdac)
  exact congrArg Host.Outcome.next (packetRow_entered h hj
    (hbody.trans ((if_neg (by simp [hcommit])).trans (if_neg hlive))) rfl (by decide) rfl (Dev.setSeq_slalom ..))

end SeqWrite

/-! SEQ_START and SEQ_RESULT (R243, R245). -/

theorem exec_seqStart {p : Packet} {s : State} {q : QPacket} {f : Sequencer} {d : Dev} (h : Ready opSeqStart p s q) (hj : Journals s q)
    (hf : (s.dev.fld p.inst).seq = f) (hresv0 : q.resv 0 1 = false) (hresv1 : q.resv 1 0x7FFFFF = false) (hresv2 : q.resv 2 0x7FFFFF = false)
    (hticks : q.f 1 22 0 ≤ 6553600) (hfree : q.f 1 22 0 = 0 → q.f 2 22 0 = 0) (haligned : q.f 1 22 0 ≠ 0 → q.f 2 22 0 < q.f 1 22 0)
    (hd : s.dev.setSeq p.inst { f with
      startWait := some { ticks := q.f 1 22 0, phase := q.f 2 22 0 }, startAt := s.dev.now + 100000, savedRun := true, auto := false } = d) :
    exec (.seqStart p) s =
      .next (((s.withDev (if f.state = .stopping then d.seqState p.inst .running else d)).entered 0x0712 q).finish q stOkPending 0 []) := by
  have hpkt := h.pkt
  subst hpkt hf hd
  have hphase : (if q.f 1 22 0 = 0 then decide (q.f 2 22 0 ≠ 0) else decide (q.f 1 22 0 ≤ q.f 2 22 0)) = false := by
    by_cases hzero : q.f 1 22 0 = 0
    · simp [hzero, hfree hzero]
    · simp [hzero, haligned hzero]
  have hslalom : ∀ d : Dev, (if (s.dev.fld q.pkt.inst).seq.state = .stopping then d.seqState q.pkt.inst .running else d).slalom = d.slalom := by
    intro d
    split <;> simp
  exact congrArg Host.Outcome.next (packetRow_entered h hj (guarded_pass (firstErr_cons_none.mpr ⟨hresv0, firstErr_cons_none.mpr ⟨hresv1,
    firstErr_cons_none.mpr ⟨hresv2, firstErr_cons_none.mpr ⟨decide_eq_false (Nat.not_lt.mpr hticks), firstErr_cons_none.mpr ⟨hphase, firstErr_nil⟩⟩⟩⟩⟩))
    rfl (by decide) rfl (hslalom _))

/-- SEQ_RESULT answers four words of each register that it names (R245). -/
theorem exec_seqResult {p : Packet} {s : State} {q : QPacket} {n : Nat} (h : Ready opSeqResult p s q) (hresv : q.resv 0 0x7F3F = false)
    (hn : q.f 0 14 8 = n) (hlo : 1 ≤ n) (hhi : q.f 0 5 0 + n ≤ 64) : exec (.seqResult p) s =
      .next (s.finish q stOk 0 ((List.range n).flatMap (fun j => ((s.dev.fld p.inst).seq.results.rd (q.f 0 5 0 + j)).words))) := by
  have hpkt := h.pkt
  subst hpkt hn
  have hlength : ((List.range (q.f 0 14 8)).flatMap
      (fun j => ((s.dev.fld q.pkt.inst).seq.results.rd (q.f 0 5 0 + j)).words)).length = q.f 0 14 8 * 4 := by
    simp [List.length_flatMap, ResultReg.words]
  exact congrArg Host.Outcome.next
    (row_done h (guarded_pass (firstErr_cons_none.mpr ⟨hresv, firstErr_cons_none.mpr ⟨entries_within hlo hhi, firstErr_nil⟩⟩)) rfl
      (q.holds_short (by omega)) (.inl rfl))

/-! SEQ_START with STOP (R243). -/

section SeqStop
variable {p : Packet} {s : State} {q : QPacket} {f : Sequencer} {d : Dev} (h : Ready opSeqStop p s q) (hf : (s.dev.fld p.inst).seq = f)
  (hresv : q.resv 0 1 = false)
include h hf hresv

/-- A running sequence ends with its cycle, or at once between cycles; a waiting start is dropped; else nothing changes. -/
theorem opSeqStop_body (hd : s.dev.setSeq p.inst { f with startWait := none, auto := false, savedRun := false } = d) : opSeqStop.body s q =
    match f.state with
    | .stopped => if f.startWait.isSome then .ok s d else { st := s, status := stOkNoChange }
    | .running => { st := s.withDev (d.seqState p.inst (if f.inCycle then .stopping else .stopped)), status := stOkPending }
    | .stopping => { st := s, status := stOkNoChange } := by
  have hpkt := h.pkt
  subst hpkt hf hd
  refine (guarded_pass (firstErr_cons_none.mpr ⟨hresv, firstErr_nil⟩)).trans ?_
  cases (s.dev.fld q.pkt.inst).seq.inCycle <;> rfl

theorem exec_seqStop_idle (hstopped : f.state = .stopped) (hidle : f.startWait = none) :
    exec (.seqStop p) s = .next (s.finish q stOkNoChange 0 []) := by
  have hbody : opSeqStop.body s q = { st := s, status := stOkNoChange } := by
    rw [opSeqStop_body h hf hresv rfl, hstopped, hidle]
    rfl
  exact congrArg Host.Outcome.next (row_done h hbody rfl (q.holds_short (by simp)) (.inr rfl))

variable (hj : Journals s q) (hd : s.dev.setSeq p.inst { f with startWait := none, auto := false, savedRun := false } = d)
include hj hd

theorem exec_seqStop_running (hrunning : f.state = .running) : exec (.seqStop p) s =
    .next (((s.withDev (d.seqState p.inst (if f.inCycle then .stopping else .stopped))).entered 0x0712 q).finish q stOkPending 0 []) := by
  have hbody : opSeqStop.body s q =
      { st := s.withDev (d.seqState p.inst (if f.inCycle then .stopping else .stopped)), status := stOkPending } := by
    rw [opSeqStop_body h hf hresv hd, hrunning]
  have hslalom : (d.seqState p.inst (if f.inCycle then .stopping else .stopped)).slalom = s.dev.slalom := by
    rw [Dev.seqState_slalom, ← hd, Dev.setSeq_slalom]
  exact congrArg Host.Outcome.next (packetRow_entered h hj hbody rfl (by decide) rfl hslalom)

theorem exec_seqStop_waiting (hstopped : f.state = .stopped) (hwaits : f.startWait.isSome = true) :
    exec (.seqStop p) s = .next (((s.withDev d).entered 0x0712 q).finish q stOk 0 []) := by
  have hbody : opSeqStop.body s q = .ok s d := by
    rw [opSeqStop_body h hf hresv hd, hstopped]
    exact if_pos hwaits
  have hslalom : d.slalom = s.dev.slalom := by rw [← hd, Dev.setSeq_slalom]
  exact congrArg Host.Outcome.next (packetRow_entered h hj hbody rfl (by decide) rfl hslalom)

end SeqStop

/-- Settles O15: a landing sample by whether it names a point, a cycle by what starts it, a table by its commit and the run state, a stop by the run
state, the other packets by the checks that their hypotheses let pass. -/
theorem sequencerCommandsComplete : Obligations.SequencerCommandsComplete := by
  unfold Obligations.SequencerCommandsComplete
  refine ⟨?send, ?arrival, ?cycle, ?entry, ?write, ?start, ?stop, ?result⟩
  case send =>
    rintro k s x _ hnext rfl
    exact exec_sampleSend hnext
  case arrival =>
    intro k s x xs ns d d1 d2 d3 hqueue hfree hd1 hd2 hd3
    have harrival := exec_sampleArrival hqueue hfree hd1 hd2 hd3
    refine ⟨fun n hpoint => ?_, fun hpoint => ?_⟩
    · rwa [Dev.writeSample_named hpoint] at harrival
    · rwa [Dev.writeSample_unnamed hpoint] at harrival
  case cycle =>
    intro k s c hruns hdue
    exact ⟨exec_seqCycleStart hruns hdue, exec_seqAutostart hruns hdue⟩
  case entry => intro k e codes s f t ns d d1 d2; exact exec_entryResult
  case write =>
    rintro p s q _ _ _ h hj rfl hresv rfl hlo hhi hwords hentries rfl
    exact ⟨exec_seqWrite_staged h hj hresv hlo hhi hwords hentries, exec_seqWrite_stopped h hj hresv hlo hhi hwords hentries,
      exec_seqWrite_committed h hj hresv hlo hhi hwords hentries⟩
  case start => intro p s q f d; exact exec_seqStart
  case stop =>
    intro p s q f d h hf hresv hd
    exact ⟨fun hrunning hj => exec_seqStop_running h hf hresv hj hd hrunning,
      fun hstopped hwaits hj => exec_seqStop_waiting h hf hresv hj hd hstopped hwaits, exec_seqStop_idle h hf hresv⟩
  case result => intro p s q n; exact exec_seqResult

end Sys2Proof.Machine
end

section
/-! The analogue channels of a field die: their modes, their calibration, the test DAC and the faults of their outputs (R232, R237, R249, R251). -/

namespace Sys2Proof.Machine

open Sys2Proof Sys2Proof.Bits Sys2Proof.Float

/-! ACH_CONFIG (R232, R233). -/

/-- A channel whose mode has changed has no sensor fault; the event tells of one that was set (R235). -/
def Dev.clearSensorFault (d : Dev) (k c : Nat) : Dev :=
  if (d.ana k c).sensorFault then
    (d.setAna k c { d.ana k c with sensorFault := false }).raise 0x1013 (fldSrc k) .warn (c + 65536 * (d.ana k c).lastQuality.toNat)
  else d

theorem Dev.clearSensorFault_slalom (d : Dev) (k c : Nat) : (d.clearSensorFault k c).slalom = d.slalom := by
  unfold Dev.clearSensorFault
  split <;> rfl

section AchConfig
variable {p : Packet} {s : State} {q : QPacket} {a : AnaChan} {new : AnaCfg} (h : Ready opAchConfig p s q) (hj : Journals s q)
  (hchecks : firstErr (achChecks s q) = none) (ha : s.dev.ana p.inst p.sub = a)
  (hnew : { mode := BitVec.ofNat 4 (q.f 0 3 0), exc := q.b 0 4, threeWire := q.b 0 5, scale := q.par 1, offset := q.par 2 } = new)
include h hj hchecks ha hnew

theorem exec_achConfig_sameMode (hmode : new.mode = a.cfg.mode) : exec (.achConfig p) s =
    .next (((s.withDev (s.dev.setAna p.inst p.sub { a with cfg := new })).entered 0x0710 q).finish q stOk 0 []) := by
  have hpkt := h.pkt
  subst hpkt ha hnew
  exact congrArg Host.Outcome.next (packetRow_entered h hj
    ((guarded_pass hchecks).trans (congrArg (Ans.ok s) (if_pos hmode))) rfl (by decide) rfl (Dev.setAna_slalom ..))

/-- A new mode voids the channel's entries in progress, turns an output off and clears a sensor fault. -/
theorem exec_achConfig_newMode {d e : Dev} (hmode : new.mode ≠ a.cfg.mode)
    (hd : (s.dev.setAna p.inst p.sub { a with cfg := new }).voidEntries p.inst p.sub = d)
    (he : (if isAo a.cfg.mode || isAo new.mode then d.newFunction p.inst p.sub (isAo new.mode) else d) = e) : exec (.achConfig p) s =
    .next (((s.withDev (e.clearSensorFault p.inst p.sub)).entered 0x0710 q).finish q stOk 0 []) := by
  have hvoided : d.slalom = s.dev.slalom := by rw [← hd, Dev.voidEntries_slalom, Dev.setAna_slalom]
  have hturned : e.slalom = s.dev.slalom := by
    rw [← he]
    split <;> simp [hvoided]
  have hpkt := h.pkt
  subst hpkt ha hnew hd he
  exact congrArg Host.Outcome.next (packetRow_entered h hj
    ((guarded_pass hchecks).trans (congrArg (Ans.ok s) (if_neg hmode))) rfl (by decide) rfl ((Dev.clearSensorFault_slalom ..).trans hturned))

end AchConfig

/-! CAL_WRITE (R251). -/

/-- A gain within its bounds, a finite offset and an unused word of 0 pass, after checks that pass. -/
theorem firstErr_gainOffset {q : QPacket} {cs : List (Bool × Nat × Nat)} {n : Nat} (hcs : firstErr cs = none) (hgain : gainIn (q.par 1) n = true)
    (hofs : fin32 (q.par 2) = true) (hzero : q.par 3 = 0) :
    firstErr (cs ++ [rangeIf (!gainIn (q.par 1) n) 1, rangeIf (!fin32 (q.par 2)) 2, rangeIf (decide (q.par 3 ≠ 0)) 3]) = none :=
  firstErr_append.mpr ⟨hcs, firstErr_cons_none.mpr ⟨by simp [hgain], firstErr_cons_none.mpr ⟨by simp [hofs],
    firstErr_cons_none.mpr ⟨by simp [hzero], firstErr_nil⟩⟩⟩⟩

theorem exec_calChannelTrim {p : Packet} {s : State} {q : QPacket} {a : AnaChan} (h : Ready opCalChannelTrim p s q) (hj : Journals s q)
    (hchecks : firstErr (calChecks q) = none) (hgain : gainIn (q.par 1) 100 = true) (hofs : fin32 (q.par 2) = true) (hzero : q.par 3 = 0)
    (ha : s.dev.ana p.inst p.sub = a) : exec (.calChannelTrim p) s = .next (((s.withDev (s.dev.setAna p.inst p.sub
      { a with cal := { a.cal with chGain := q.par 1, chOfs := q.par 2 } })).entered 0x0714 q).finish q stOk 0 []) := by
  have hpkt := h.pkt
  subst hpkt ha
  exact congrArg Host.Outcome.next (packetRow_entered h hj
    (guarded_pass (firstErr_gainOffset hchecks hgain hofs hzero)) rfl (by decide) rfl (Dev.setAna_slalom ..))

theorem exec_calNtc {p : Packet} {s : State} {q : QPacket} {a : AnaChan} (h : Ready opCalNtc p s q) (hj : Journals s q)
    (hchecks : firstErr (calChecks q) = none) (hA : fin32 (q.par 1) = true) (hB : fin32 (q.par 2) = true) (hC : fin32 (q.par 3) = true)
    (ha : s.dev.ana p.inst p.sub = a) : exec (.calNtc p) s = .next (((s.withDev (s.dev.setAna p.inst p.sub
      { a with cal := { a.cal with ntcA := q.par 1, ntcB := q.par 2, ntcC := q.par 3 } })).entered 0x0714 q).finish q stOk 0 []) := by
  have hpkt := h.pkt
  subst hpkt ha
  have hfinite : firstErr [rangeIf (!fin32 (q.par 1)) 1, rangeIf (!fin32 (q.par 2)) 2, rangeIf (!fin32 (q.par 3)) 3] = none := by
    simp [rangeIf, hA, hB, hC]
  exact congrArg Host.Outcome.next (packetRow_entered h hj
    (guarded_pass (firstErr_append.mpr ⟨hchecks, hfinite⟩)) rfl (by decide) rfl (Dev.setAna_slalom ..))

theorem exec_calAoTrim {p : Packet} {s : State} {q : QPacket} {a : AnaChan} (h : Ready opCalAoTrim p s q) (hj : Journals s q)
    (hchecks : firstErr (calChecks q) = none) (hgain : gainIn (q.par 1) 100 = true) (hofs : fin32 (q.par 2) = true) (hzero : q.par 3 = 0)
    (ha : s.dev.ana p.inst p.sub = a) : exec (.calAoTrim p) s = .next (((s.withDev (s.dev.setAna p.inst p.sub
      { a with cal := { a.cal with uGain := q.par 1, uOfs := q.par 2 } })).entered 0x0714 q).finish q stOk 0 []) := by
  have hpkt := h.pkt
  subst hpkt ha
  exact congrArg Host.Outcome.next (packetRow_entered h hj
    (guarded_pass (firstErr_gainOffset hchecks hgain hofs hzero)) rfl (by decide) rfl (Dev.setAna_slalom ..))

theorem exec_calHbManual {p : Packet} {s : State} {q : QPacket} {f : FieldDie} (h : Ready opCalHbManual p s q) (hj : Journals s q)
    (hchecks : firstErr (calChecks q) = none) (hrange : q.f 0 5 4 ≠ 0) (hgain : gainIn (q.par 1) 10 = true) (hofs : fin32 (q.par 2) = true)
    (hzero : q.par 3 = 0) (hf : s.dev.fld p.inst = f) : exec (.calHbManual p) s = .next (((s.withDev (s.dev.setFld p.inst
      { f with cal := { f.cal with hbGain := Tbl.wrD one32 f.cal.hbGain (q.f 0 5 4 - 1) (q.par 1),
                                   hbOfs := f.cal.hbOfs.wr (q.f 0 5 4 - 1) (q.par 2) } })).entered 0x0714 q).finish q stOk 0 []) := by
  have hpkt := h.pkt
  subst hpkt hf
  have hnamed : firstErr (calChecks q ++ [rangeIf (decide (q.f 0 5 4 = 0)) 0]) = none :=
    firstErr_append.mpr ⟨hchecks, firstErr_cons_none.mpr ⟨decide_eq_false hrange, firstErr_nil⟩⟩
  exact congrArg Host.Outcome.next (packetRow_entered h hj
    (guarded_pass (firstErr_gainOffset hnamed hgain hofs hzero)) rfl (by decide) rfl (Dev.setFld_slalom ..))

/-- HB_AUTO measures the three ranges after its free time, with the sequencer stopped. -/
theorem exec_calHbAuto {p : Packet} {s : State} {q : QPacket} {ns : Nat} {d e : Dev} (h : Ready opCalHbAuto p s q) (hj : Journals s q)
    (hchecks : firstErr (calChecks q) = none) (hstopped : (s.dev.fld p.inst).seq.state = .stopped) (hfree : s.dev.freeNs 600000 2200000 = (ns, d))
    (he : (((d.pass ns).hbMeasure p.inst 0).hbMeasure p.inst 1).hbMeasure p.inst 2 = e) :
    exec (.calHbAuto p) s = .next (((s.withDev e).entered 0x0714 q).finish q stOk 0 []) := by
  have hpkt := h.pkt
  obtain ⟨rfl, rfl⟩ := Prod.mk.inj hfree
  subst hpkt he
  exact congrArg Host.Outcome.next (packetRow_entered h hj
    (guarded_pass (firstErr_append.mpr ⟨hchecks, firstErr_cons_none.mpr ⟨by simp [hstopped], firstErr_nil⟩⟩)) rfl (by decide) rfl (by simp))

section UserDefaults
variable {p : Packet} {s : State} {q : QPacket} (h : Ready opCalUserDefaults p s q) (hj : Journals s q) (hchecks : firstErr (calChecks q) = none)
include h hj hchecks

theorem exec_calUserDefaults_channel {a : AnaChan} (hsub : p.sub ≠ 0xFF) (ha : s.dev.ana p.inst p.sub = a) :
    exec (.calUserDefaults p) s = .next (((s.withDev (s.dev.setAna p.inst p.sub
      { a with cal := a.cal.userDefaults (decide (p.sub < 8)) })).entered 0x0714 q).finish q stOk 0 []) := by
  have hpkt := h.pkt
  subst hpkt ha
  exact congrArg Host.Outcome.next (packetRow_entered h hj
    ((guarded_pass hchecks).trans (if_pos hsub)) rfl (by decide) rfl (Dev.setAna_slalom ..))

theorem exec_calUserDefaults_die {d : Dev} (hsub : p.sub = 0xFF) (hd : (List.range 24).foldl (Dev.calDefaults p.inst) s.dev = d) :
    exec (.calUserDefaults p) s = .next (((s.withDev (d.setFld p.inst
      { d.fld p.inst with cal := { (d.fld p.inst).cal with hbGain := [], hbOfs := [] } })).entered 0x0714 q).finish q stOk 0 []) := by
  have hpkt := h.pkt
  subst hpkt hd
  exact congrArg Host.Outcome.next (packetRow_entered h hj ((guarded_pass hchecks).trans (if_neg (not_not.mpr hsub))) rfl (by decide) rfl
    ((Dev.setFld_slalom ..).trans (Dev.calDefaults_all_slalom ..)))

end UserDefaults

/-! TESTDAC_SET (R249). -/

section TestDac
variable {p : Packet} {s : State} {q : QPacket} {f : Sequencer} (h : Ready opTestdacSet p s q) (hresv : q.resv 0 0x1F1FFF = false)
  (hchan : q.f 0 20 16 < 24) (hf : (s.dev.fld p.inst).seq = f) (hruns : s.dev.fldRuns p.inst = true)
include h hresv hchan hf hruns

/-- With its checks passed TESTDAC_SET sets the code and connects or releases a channel; a connection that ends leaves its instant. -/
theorem opTestdacSet_body (htests : q.b 0 12 = true → f.table.any (fun x => x.2.enable && x.2.test) = false) : opTestdacSet.body s q =
    .ok s (s.dev.setSeq p.inst { f with
      tdacCode := q.f 0 11 0
      tdacChan := if q.b 0 12 then some (q.f 0 20 16) else none
      tdacRel := match f.tdacChan with
        | some old => if q.b 0 12 = true ∧ old = q.f 0 20 16 then f.tdacRel else some (old, s.dev.now)
        | none => f.tdacRel }) := by
  have hpkt := h.pkt
  subst hpkt hf
  have hfree : (q.b 0 12 && (s.dev.fld q.pkt.inst).seq.table.any (fun x => x.2.enable && x.2.test)) = false := by
    simpa only [Bool.and_eq_false_imp] using htests
  exact guarded_pass (firstErr_cons_none.mpr ⟨hresv, firstErr_cons_none.mpr ⟨decide_eq_false (Nat.not_le.mpr hchan),
    firstErr_cons_none.mpr ⟨hfree, firstErr_cons_none.mpr ⟨by simp [hruns], firstErr_nil⟩⟩⟩⟩)

theorem exec_testdacSet_on (hon : q.b 0 12 = true) (htests : f.table.any (fun x => x.2.enable && x.2.test) = false) :
    exec (.testdacSet p) s = .next ((s.withDev (s.dev.setSeq p.inst { f with
      tdacCode := q.f 0 11 0, tdacChan := some (q.f 0 20 16)
      tdacRel := match f.tdacChan with
        | some old => if old = q.f 0 20 16 then f.tdacRel else some (old, s.dev.now)
        | none => f.tdacRel })).finish q stOk 0 []) := by
  have hbody := opTestdacSet_body h hresv hchan hf hruns (fun _ => htests)
  simp only [hon, true_and, if_true] at hbody
  exact congrArg Host.Outcome.next (packetRow_changed h hbody rfl)

theorem exec_testdacSet_off {old : Nat} (hoff : q.b 0 12 = false) (hold : f.tdacChan = some old) :
    exec (.testdacSet p) s = .next ((s.withDev (s.dev.setSeq p.inst
      { f with tdacCode := q.f 0 11 0, tdacChan := none, tdacRel := some (old, s.dev.now) })).finish q stOk 0 []) := by
  have hbody := opTestdacSet_body h hresv hchan hf hruns (by simp [hoff])
  simp only [hoff, hold, Bool.false_eq_true, false_and, if_false] at hbody
  exact congrArg Host.Outcome.next (packetRow_changed h hbody rfl)

end TestDac

/-! Output faults (R237). -/

section AoFault
variable {k : Fin 4} {c : Fin 24} {short : Bool} {s : State} (hruns : s.dev.fldRuns k.val = true)
include hruns

theorem exec_aoFaultDetect (hkind : (s.dev.ana k.val c.val).faultKind short = true) (hdrives : (s.dev.dig k.val c.val).driving = true)
    (hclear : (if short then (s.dev.ana k.val c.val).aoShort else (s.dev.ana k.val c.val).aoOpen) = false) :
    exec (.aoFaultDetect k c short) s = .next (s.withDev (s.dev.aoFault k.val c.val short true)) :=
  congrArg Host.Outcome.next (if_neg (by simp only [hruns, hkind, hdrives, hclear]; decide))

theorem exec_aoFaultClear (hset : (if short then (s.dev.ana k.val c.val).aoShort else (s.dev.ana k.val c.val).aoOpen) = true) :
    exec (.aoFaultClear k c short) s = .next (s.withDev (s.dev.aoFault k.val c.val short false)) :=
  congrArg Host.Outcome.next (if_neg (by simp only [hruns, hset]; decide))

end AoFault

/-- Settles O16: a configuration by whether the mode changes, the defaults by channel or die, the test DAC by whether it is connected, each packet by
the checks that its hypotheses let pass. -/
theorem analogueCommandsComplete : Obligations.AnalogueCommandsComplete := by
  unfold Obligations.AnalogueCommandsComplete
  refine ⟨?config, ?trim, ?ntc, ?aoTrim, ?hbManual, ?hbAuto, ?defaults, ?testdac, ?detect, ?clear⟩
  case config =>
    intro p s q a new h hj hchecks ha hnew
    exact ⟨exec_achConfig_sameMode h hj hchecks ha hnew, fun d e => exec_achConfig_newMode h hj hchecks ha hnew⟩
  case trim => intro p s q a; exact exec_calChannelTrim
  case ntc => intro p s q a; exact exec_calNtc
  case aoTrim => intro p s q a; exact exec_calAoTrim
  case hbManual => intro p s q f; exact exec_calHbManual
  case hbAuto => intro p s q ns d e; exact exec_calHbAuto
  case defaults =>
    intro p s q h hj hchecks
    exact ⟨fun a => exec_calUserDefaults_channel h hj hchecks, fun d => exec_calUserDefaults_die h hj hchecks⟩
  case testdac =>
    intro p s q f h hresv hchan hf hruns
    exact ⟨exec_testdacSet_on h hresv hchan hf hruns, fun old => exec_testdacSet_off h hresv hchan hf hruns⟩
  case detect => intro k c short s; exact exec_aoFaultDetect
  case clear => intro k c short s; exact exec_aoFaultClear

end Sys2Proof.Machine
end

section
/-! The step and the queue: a step is one command or one CK_NET edge, and the queue is worked off from its front (log entry 5, R302). -/

namespace Sys2Proof.Machine

open Sys2Proof

theorem step_command (c : Instr) (cs : List Instr) (s : State) : step { s with pending := c :: cs } = exec c { s with pending := cs } := rfl

theorem step_edge {s : State} (hempty : s.pending = []) : step s = .next s.tick := by rw [step, hempty]

theorem exec_answers (c : Instr) (s : State) : ∃ t, exec c s = .next t ∧ t.pending = s.pending := by
  obtain ⟨t, ht, hpending, -⟩ := exec_keeps c s
  exact ⟨t, ht, hpending⟩

/-- Settles O36: the queue of the step is not empty. -/
theorem stepRunsFrontCommand : Obligations.StepRunsFrontCommand := step_command

/-- Settles O37: the step is the edge, in which only the time base and what counts with it move. -/
theorem stepOnEmptyQueueIsOneEdge : Obligations.StepOnEmptyQueueIsOneEdge := by
  intro s hempty
  exact ⟨s.tick, step_edge hempty, rfl, s.dev.pass_raw 8, s.dev.pass_out 8, s.tick_frameBank, s.tick_reqBank, s.tick_pending.trans hempty⟩

/-- Settles O38: the row that Table 02-20 gives the command is the one that its meaning runs. -/
theorem packetCommandsRunTheInterpreter : Obligations.PacketCommandsRunTheInterpreter := fun _ _ _ s h => exec_packetOf h s

/-- Settles O39: the law of the command's row. -/
theorem everyCommandAnswersANextState : Obligations.EveryCommandAnswersANextState := exec_answers

/-- Settles O40, by induction on the number of steps. -/
theorem queueIsFirstInFirstOut : Obligations.QueueIsFirstInFirstOut := by
  intro k
  induction k with
  | zero => intro s _; exact ⟨s, rfl, rfl⟩
  | succ k ih =>
    intro s hk
    cases hpending : s.pending with
    | nil => simp [hpending] at hk
    | cons c cs =>
      obtain ⟨t, ht, hleft⟩ := exec_answers c { s with pending := cs }
      have hstep : step s = .next t := by rw [step, hpending]; exact ht
      have hshort : k ≤ t.pending.length := by
        rw [hpending, List.length_cons] at hk
        rw [hleft]
        exact Nat.le_of_succ_le_succ hk
      obtain ⟨u, hrun, hdrop⟩ := ih t hshort
      exact ⟨u, (run_next k s t hstep).trans hrun, by rw [hdrop, hleft, List.drop_succ_cons]⟩

end Sys2Proof.Machine
end

section
/-! The test access port comes to Test-Logic-Reset (R433). -/

namespace Sys2Proof.Machine

open Sys2Proof

/-- From every state of the controller five edges with TMS = 1 lead to Test-Logic-Reset. -/
theorem TapState.next_five (t : TapState) : ((((t.next true).next true).next true).next true).next true = .testLogicReset := by
  cases t <;> rfl

/-- `e` is `d` but for the TAP and the pin levels drawn. -/
def Dev.TapOnly (d e : Dev) : Prop := e = { d with tap := e.tap, free := e.free }

theorem Dev.TapOnly.trans {d e f : Dev} (hde : d.TapOnly e) (hef : e.TapOnly f) : d.TapOnly f := by
  unfold Dev.TapOnly at hde hef
  rw [hde] at hef
  exact hef

theorem Dev.TapOnly.foldl {f : Dev → Bool → Dev} (h : ∀ (d : Dev) (b : Bool), d.TapOnly (f d b)) (bs : List Bool) (d : Dev) :
    d.TapOnly (bs.foldl f d) := by
  induction bs generalizing d with
  | nil => exact rfl
  | cons b bs ih => exact (h d b).trans (ih (f d b))

/-- Capture-DR loads the register that the instruction selects. -/
theorem Dev.tapCapture_tapOnly (d : Dev) : d.TapOnly d.tapCapture := by
  unfold Dev.TapOnly Dev.tapCapture
  dsimp only
  split <;> rfl

theorem Dev.tapCapture_state (d : Dev) : d.tapCapture.tap.state = d.tap.state := by
  unfold Dev.tapCapture
  dsimp only
  split <;> rfl

theorem Dev.tapCapture_tck (d : Dev) : d.tapCapture.tap.tck = d.tap.tck := by
  unfold Dev.tapCapture
  dsimp only
  split <;> rfl

theorem Tap.shiftDr_state (t : Tap) (resetN tdi : Bool) : (t.shiftDr resetN tdi).state = t.state := by
  unfold Tap.shiftDr
  split <;> rfl

theorem Tap.shiftDr_tck (t : Tap) (resetN tdi : Bool) : (t.shiftDr resetN tdi).tck = t.tck := by
  unfold Tap.shiftDr
  split <;> rfl

theorem Dev.tapRise_tapOnly (d : Dev) (tms tdi : Bool) : d.TapOnly (d.tapRise tms tdi) := by
  unfold Dev.tapRise
  dsimp only
  split
  · exact d.tapCapture_tapOnly.trans rfl
  all_goals exact rfl

/-- Whatever the present state does at a rising edge, TMS chooses the next state. -/
theorem Dev.tapRise_state (d : Dev) (tms tdi : Bool) : (d.tapRise tms tdi).tap.state = d.tap.state.next tms := by
  unfold Dev.tapRise
  dsimp only
  split
  · rw [d.tapCapture_state]
  · rw [Tap.shiftDr_state]
  all_goals rfl

theorem Dev.tapRise_tck (d : Dev) (tms tdi : Bool) : (d.tapRise tms tdi).tap.tck = d.tap.tck := by
  unfold Dev.tapRise
  dsimp only
  split
  · exact d.tapCapture_tck
  · exact Tap.shiftDr_tck ..
  all_goals rfl

theorem Tap.fall_state (t : Tap) (resetN : Bool) : (t.fall resetN).state = t.state := by
  unfold Tap.fall
  split
  case h_1 h => exact h.symm
  case h_5 => split <;> rfl
  all_goals rfl

theorem Tap.fall_tck (t : Tap) (resetN : Bool) : (t.fall resetN).tck = t.tck := by
  unfold Tap.fall
  split
  case h_5 => split <;> rfl
  all_goals rfl

/-- The falling edge in Test-Logic-Reset selects IDCODE. -/
theorem Tap.fall_ir_of_reset {t : Tap} {resetN : Bool} (h : t.state = .testLogicReset) : (t.fall resetN).ir = 1 := by
  simp only [Tap.fall, h, Tap.reset]

/-- A low TCK rises and falls again with TMS = 1. -/
def Dev.tmsRise (d : Dev) (tdi : Bool) : Dev := (d.tapPins true true).tapRise true tdi

/-- The falling edge of that cycle. -/
def Dev.tmsFall (d : Dev) : Dev := { d.tapPins false true with tap := (d.tapPins false true).tap.fall d.power.resetN }

/-- One cycle of TCK with TMS = 1. -/
def Dev.tmsCycle (d : Dev) (tdi : Bool) : Dev := (d.tmsRise tdi).tmsFall

theorem Dev.tmsRise_tck (d : Dev) (tdi : Bool) : (d.tmsRise tdi).tap.tck = true := (d.tapPins true true).tapRise_tck true tdi

theorem Dev.tmsCycle_tapOnly (d : Dev) (tdi : Bool) : d.TapOnly (d.tmsCycle tdi) :=
  .trans (e := d.tapPins true true) rfl (((d.tapPins true true).tapRise_tapOnly true tdi).trans rfl)

theorem Dev.tmsCycle_tck (d : Dev) (tdi : Bool) : (d.tmsCycle tdi).tap.tck = false := Tap.fall_tck ..

theorem Dev.tmsCycle_state (d : Dev) (tdi : Bool) : (d.tmsCycle tdi).tap.state = d.tap.state.next true :=
  (Tap.fall_state ..).trans ((d.tapPins true true).tapRise_state true tdi)

theorem Dev.tmsCycle_ir {d : Dev} {tdi : Bool} (h : (d.tmsCycle tdi).tap.state = .testLogicReset) : (d.tmsCycle tdi).tap.ir = 1 :=
  Tap.fall_ir_of_reset ((Tap.fall_state ..).symm.trans h)

/-- The edges of TCK cycles with TMS = 1 and these levels of TDI. (The compiled code has no room for the number of this constructor.) -/
noncomputable def tmsEdges (bs : List Bool) : List Instr := bs.flatMap (fun b => [.tckEdge true true b true, .tckEdge false true b true])

/-- From a low TCK the edges run their cycles one after another. -/
theorem run_tmsEdges (bs : List Bool) (s : State) (hlow : s.dev.tap.tck = false) :
    Host.Core.run Sys2Proof.core (2 * bs.length) { s with pending := tmsEdges bs } =
      .next { s with dev := bs.foldl Dev.tmsCycle s.dev, pending := [] } := by
  induction bs generalizing s with
  | nil => rfl
  | cons b bs ih =>
    have hrise : step { s with pending := tmsEdges (b :: bs) } =
        .next { s with dev := s.dev.tmsRise b, pending := .tckEdge false true b true :: tmsEdges bs } :=
      exec_tckEdge_rise (s := { s with pending := .tckEdge false true b true :: tmsEdges bs }) (by simp [hlow])
    have hfall : step { s with dev := s.dev.tmsRise b, pending := .tckEdge false true b true :: tmsEdges bs } =
        .next { s with dev := s.dev.tmsCycle b, pending := tmsEdges bs } :=
      exec_tckEdge_fall (s := { s with dev := s.dev.tmsRise b, pending := tmsEdges bs }) (by simp [Dev.tmsRise_tck])
    exact (run_next _ _ _ hrise).trans ((run_next _ _ _ hfall).trans (ih { s with dev := s.dev.tmsCycle b } (Dev.tmsCycle_tck ..)))

/-- Settles O53: each cycle moves the controller by TMS alone, and TRST_N low resets it. -/
theorem fiveTmsEdgesResetTheTap : Obligations.FiveTmsEdgesResetTheTap := by
  unfold Obligations.FiveTmsEdgesResetTheTap
  refine ⟨?edges, ?trst⟩
  case edges =>
    intro s a b c d e hlow
    have hstate : ([a, b, c, d, e].foldl Dev.tmsCycle s.dev).tap.state = .testLogicReset := by
      simp only [List.foldl_cons, List.foldl_nil, Dev.tmsCycle_state]
      exact s.dev.tap.state.next_five
    have honly : s.dev.TapOnly _ := Dev.TapOnly.foldl Dev.tmsCycle_tapOnly [a, b, c, d, e] s.dev
    exact ⟨_, run_tmsEdges [a, b, c, d, e] s hlow, hstate, Dev.tmsCycle_ir hstate, congrArg (fun x => { s with dev := x, pending := [] }) honly⟩
  case trst => intro s r m i; exact ⟨_, exec_tckEdge_reset, rfl, rfl, rfl⟩

end Sys2Proof.Machine
end

section
/-! Corrected time is an exact formula, continuous across a change of RATE (R303, R304, R307). -/

namespace Sys2Proof.Machine

open Sys2Proof Sys2Proof.Bits

/-- The product with RATE is truncated towards minus infinity: less than one unit is lost (R303). -/
theorem NetTime.ctFix_truncates (t : NetTime) (raw : Nat) : ∃ e : Int, 0 ≤ e ∧ e < 2 ^ 24 ∧
    t.ctFix raw * 2 ^ 24 + e = (raw * 65536 + t.ofs) * 2 ^ 24 + t.rate * (raw - t.tRef) := by
  refine ⟨(t.rate * (raw - t.tRef)) % 16777216, Int.emod_nonneg _ (by decide), Int.emod_lt_of_pos _ (by decide), ?_⟩
  have hdiv := Int.mul_ediv_add_emod (t.rate * (raw - t.tRef)) 16777216
  unfold NetTime.ctFix
  linarith

/-- What is read is the formula's whole nanoseconds in 64 bits (R304). -/
theorem NetTime.ctAt_cast (t : NetTime) (raw : Nat) : ((t.ctAt raw : Nat) : Int) = (t.ctFix raw / 65536) % 2 ^ 64 :=
  Int.toNat_of_nonneg (Int.emod_nonneg _ (by decide))

theorem NetTime.ctAt_lt (t : NetTime) (raw : Nat) : t.ctAt raw < 2 ^ 64 := by
  have hread := t.ctAt_cast raw
  have hlt := Int.emod_lt_of_pos (t.ctFix raw / 65536) (show (0 : Int) < 2 ^ 64 by decide)
  omega

/-- The instant of a change lies on a CK_NET edge 2 to 10 µs ahead (log entry 93). -/
theorem Dev.changeInstant_spec (d : Dev) :
    (d.changeInstant).1 % 8 = 0 ∧ d.time.raw + 2000 ≤ (d.changeInstant).1 ∧ (d.changeInstant).1 ≤ d.time.raw + 10000 := by
  have hk := d.freeN_lt ((d.time.raw + 10000) / 8 + 1 - (d.time.raw + 2007) / 8) (by omega)
  simp only [Dev.changeInstant]
  omega

/-- The formula of a new RATE, rebased at its instant (R303). -/
def NetTime.rebased (t : NetTime) (rate : Int) (r : Nat) : TimeChange :=
  { instant := r, ofs := t.ofs + (t.rate * ((r : Int) - t.tRef)) / 16777216, rate := rate, tRef := r }

theorem Dev.sendRate_pending (d : Dev) (rate : Int) : (d.sendRate rate).time.pendingChg = some (d.time.rebased rate d.changeInstant.1) := rfl

/-- After the change corrected time goes on from its value at the instant, at the new RATE. -/
theorem Dev.timeChanged_rebased {e : Dev} {t : NetTime} (hofs : e.time.ofs = t.ofs) (hrate : e.time.rate = t.rate) (href : e.time.tRef = t.tRef)
    (rate : Int) (i r : Nat) : (e.timeChanged (t.rebased rate i)).time.ctFix r = e.time.ctFix i + (r - i) * 65536 + rate * (r - i) / 2 ^ 24 := by
  change (r : Int) * 65536 + (t.ofs + t.rate * (i - t.tRef) / 16777216) + rate * (r - i) / 16777216 =
    (i : Int) * 65536 + e.time.ofs + e.time.rate * (i - e.time.tRef) / 16777216 + (r - i) * 65536 + rate * (r - i) / 16777216
  rw [hofs, hrate, href]
  ring

/-- Settles O51: the truncation is a division, the instant a draw within its bounds, the rebased formula the old one at its instant. -/
theorem correctedTimeIsContinuousAcrossARate : Obligations.CorrectedTimeIsContinuousAcrossARate := by
  unfold Obligations.CorrectedTimeIsContinuousAcrossARate
  refine ⟨?formula, ?change, ?bounds⟩
  case formula =>
    intro t raw
    obtain ⟨e, hlo, hhi, hsum⟩ := t.ctFix_truncates raw
    exact ⟨e, hlo, hhi, hsum, t.ctAt_lt raw, (t.ctAt_cast raw).symm⟩
  case change =>
    intro d rate
    obtain ⟨hedge, hlo, hhi⟩ := d.changeInstant_spec
    refine ⟨_, d.sendRate_pending rate, rfl, rfl, rfl, hlo, hhi, hedge, fun e hofs hrate href => ⟨?_, fun r _ => ?_⟩⟩
    · exact (Dev.timeChanged_rebased hofs hrate href rate d.changeInstant.1 d.changeInstant.1).trans (by simp [NetTime.rebased])
    · exact Dev.timeChanged_rebased hofs hrate href rate _ r
  case bounds =>
    intro f
    unfold rateOf clampInt
    split
    · decide
    · split <;> omega

end Sys2Proof.Machine
end

section
/-! Digital inputs, the overloads and shorts of switches, PWM and clamp events of a field die (R255 to R266). -/

namespace Sys2Proof.Machine

open Sys2Proof Sys2Proof.Bits Sys2Proof.Float

/-! Digital inputs (R255 to R258). -/

/-- A change of the reported state counts as CNT_EDGE asks, and not while a wire break stands (R258). -/
theorem DigChan.counts_iff (x : DigChan) (rep : Bool) :
    (!x.wireBreak && (if rep then x.cfg.cntEdge = 1 || x.cfg.cntEdge = 3 else x.cfg.cntEdge = 2 || x.cfg.cntEdge = 3)) = true ↔
      x.wireBreak = false ∧ ((rep = true ∧ (x.cfg.cntEdge = 1 ∨ x.cfg.cntEdge = 3)) ∨ (rep = false ∧ (x.cfg.cntEdge = 2 ∨ x.cfg.cntEdge = 3))) := by
  cases rep <;> simp

section Inputs
variable {k : Fin 4} {c : Fin 24} {s : State} {x : DigChan} (hdi : s.dev.isDi k.val c.val = true) (hx : s.dev.dig k.val c.val = x)
include hdi hx

theorem exec_diEdgeAccept {y : DigChan} {t : Nat} (ht : s.dev.now - (x.cfg.debounceNs + 479) / 480 * 480 = t)
    (hy : { x with raw := !x.diState, diState := !x.diState, tEdge := t, stateTime := t } = y) :
    exec (.diEdgeAccept k c) s = .next (s.withDev ((s.dev.setDig k.val c.val { y with
      state := y.reported
      count := if x.wireBreak = false ∧ ((y.reported = true ∧ (x.cfg.cntEdge = 1 ∨ x.cfg.cntEdge = 3)) ∨
          (y.reported = false ∧ (x.cfg.cntEdge = 2 ∨ x.cfg.cntEdge = 3)))
        then x.count + 1 else x.count }).diPoint k.val c.val)) := by
  subst hx ht hy
  refine congrArg Host.Outcome.next ((if_neg (by simp [hdi])).trans ?_)
  simp only [DigChan.counts_iff]

theorem exec_diPointRefresh {d : Dev} (hpoint : x.cfg.toPoint = true) (hrefresh : x.cfg.refreshMs ≠ 0)
    (hd : s.dev.toRaw (x.sentAt + x.cfg.refreshMs * 1000000) = d) :
    exec (.diPointRefresh k c) s = .next (s.withDev ((d.setDig k.val c.val { d.dig k.val c.val with sentAt := d.time.raw }).diPoint k.val c.val)) := by
  subst hx hd
  exact congrArg Host.Outcome.next (if_neg (by simp [hdi, hpoint, hrefresh]))

/-- The sample goes out for the first of the ticks of the loops that read the channel. -/
theorem exec_diLoopSample {t : Nat} {ts : List Nat}
    (hticks : (s.dev.loops.slot.filter (fun l => l.2.reads (24 * k.val + c.val))).map (fun l => l.2.tickAfter s.dev.now x.loopAt) = t :: ts) :
    exec (.diLoopSample k c) s = .next (s.withDev (((s.dev.toCt (ts.foldl min t - 1000)).setDig k.val c.val
      { x with loopAt := ts.foldl min t - 1000 }).offerSample k.val (x.sample c.val (ts.foldl min t - 1000) true))) := by
  subst hx
  change execDiLoopSample k c s = _
  simp only [execDiLoopSample, hticks, hdi]
  rfl

end Inputs

section WireBreak
variable {k : Fin 4} {c : Fin 24} {s : State} (hdi : s.dev.isDi k.val c.val = true)
include hdi

theorem exec_wireBreakDeclare (hwatched : (s.dev.dig k.val c.val).cfg.wbEn = true) (hwhole : (s.dev.dig k.val c.val).wireBreak = false) :
    exec (.wireBreakDeclare k c) s = .next (s.withDev (s.dev.wireBreak k.val c.val true)) :=
  congrArg Host.Outcome.next (if_neg (by simp [hdi, hwatched, hwhole]))

theorem exec_wireBreakClear (hbroken : (s.dev.dig k.val c.val).wireBreak = true) :
    exec (.wireBreakClear k c) s = .next (s.withDev (s.dev.wireBreak k.val c.val false)) :=
  congrArg Host.Outcome.next (if_neg (by simp [hdi, hbroken]))

end WireBreak

theorem exec_countAccumulate {s : State} {d : Dev} (hub : s.dev.hubUp = true)
    (hd : (List.range 96).foldl (fun (acc : Dev) g => if acc.fldRuns (g / 24) then acc.accumulate g else acc)
      (s.dev.toRaw (s.dev.field.countAt + 1000000)) = d) :
    exec .countAccumulate s = .next (s.withDev { d with field := { d.field with countAt := d.time.raw } }) := by
  change execCountAccumulate s = _
  simp only [execCountAccumulate, hub, hd]
  rfl

/-! Overloads, shorts and open loads of a switch (R260, R263, R264). -/

section Switch
variable {k : Fin 4} {c : Fin 24} {s : State} {l : Nat} {x : DigChan} (hswitch : s.dev.isSwitch k.val c.val = true)
  (hl : s.dev.lead k.val c.val = l) (hx : s.dev.dig k.val l = x)
include hswitch hl hx

theorem exec_outputFoldback (hon : x.on = true) (hfolded : x.folded = false) (hcool : x.overtemp = false) (hclosed : x.overloadOff = false) :
    exec (.outputFoldback k c) s = .next (s.withDev (s.dev.foldBack k.val c.val)) := by
  subst hl hx
  exact congrArg Host.Outcome.next (if_neg (by simp [hswitch, hon, hfolded, hcool, hclosed]))

section Retry
variable {d : Dev} (hlimited : x.folded = true ∨ x.overtemp = true) (hclosed : x.overloadOff = false)
  (hd : s.dev.toRaw (x.foldAt + x.cfg.retryMs * 1000000) = d)
include hlimited hclosed hd

/-- What passes the checks of a retry goes on at its instant. -/
theorem exec_outputRetry_due (b : Bool) : exec (.outputRetry k c b) s = .next (
    if x.cfg.retryMax = 0 then s.withDev (d.overloadOff k.val c.val)
    else if b then
      if x.cfg.retryMax ≠ 255 ∧ x.cfg.retryMax < x.retries + 1 then
        s.withDev (((d.pass 1000000).setDig k.val l { (d.pass 1000000).dig k.val l with
          retries := min 255 (x.retries + 1), foldAt := (d.pass 1000000).time.raw }).overloadOff k.val c.val)
      else s.withDev ((d.pass 1000000).setDig k.val l { (d.pass 1000000).dig k.val l with
        retries := min 255 (x.retries + 1), foldAt := (d.pass 1000000).time.raw })
    else
      s.withDev (
        let e := (((d.pass 1000000).setDig k.val l { (d.pass 1000000).dig k.val l with
          retries := 0, folded := false }).dchFault k.val c.val 10 false).dchFault k.val c.val 12 false
        if x.overtemp && decide ((e.fld k.val).outState = .armed) then e.applyCmd k.val l else e)) := by
  subst hl hx hd
  have hdue : ((s.dev.dig k.val (s.dev.lead k.val c.val)).folded || (s.dev.dig k.val (s.dev.lead k.val c.val)).overtemp) = true := by
    rw [Bool.or_eq_true]; exact hlimited
  exact congrArg Host.Outcome.next (if_neg (by simp only [hswitch, hdue, hclosed]; decide))

theorem exec_outputRetry_none (hmax : x.cfg.retryMax = 0) (b : Bool) :
    exec (.outputRetry k c b) s = .next (s.withDev (d.overloadOff k.val c.val)) := by
  rw [exec_outputRetry_due hswitch hl hx hlimited hclosed hd, if_pos hmax]

theorem exec_outputRetry_still {e : Dev} (hmax : x.cfg.retryMax ≠ 0)
    (he : (d.pass 1000000).setDig k.val l { (d.pass 1000000).dig k.val l with
      retries := min 255 (x.retries + 1), foldAt := (d.pass 1000000).time.raw } = e) :
    exec (.outputRetry k c true) s =
      .next (s.withDev (if x.cfg.retryMax ≠ 255 ∧ x.cfg.retryMax < x.retries + 1 then e.overloadOff k.val c.val else e)) := by
  rw [exec_outputRetry_due hswitch hl hx hlimited hclosed hd, if_neg hmax, if_pos rfl, he, apply_ite s.withDev]

theorem exec_outputRetry_gone {e : Dev} (hmax : x.cfg.retryMax ≠ 0)
    (he : (((d.pass 1000000).setDig k.val l { (d.pass 1000000).dig k.val l with
      retries := 0, folded := false }).dchFault k.val c.val 10 false).dchFault k.val c.val 12 false = e) :
    exec (.outputRetry k c false) s =
      .next (s.withDev (if x.overtemp = true ∧ (e.fld k.val).outState = .armed then e.applyCmd k.val l else e)) := by
  rw [exec_outputRetry_due hswitch hl hx hlimited hclosed hd, if_neg hmax, if_neg Bool.false_ne_true, he]
  simp only [Bool.and_eq_true, decide_eq_true_eq]

end Retry

theorem exec_outputOvertemp {d : Dev} (hcool : x.overtemp = false) (hd : s.dev.switchOff k.val l = d) : exec (.outputOvertemp k c) s =
    .next (s.withDev ((d.setDig k.val l { d.dig k.val l with foldAt := d.time.raw }).dchFault k.val c.val 12 true)) := by
  subst hl hx hd
  exact congrArg Host.Outcome.next (if_neg (by simp [hswitch, hcool]))

theorem exec_openLoadDetect (hwatched : x.cfg.olEn = true) (hon : x.on = true) :
    exec (.openLoadDetect k c) s = .next (s.withDev (s.dev.dchFault k.val c.val 17 true)) := by
  subst hl hx
  exact congrArg Host.Outcome.next (if_neg (by simp [hswitch, hwatched, hon]))

theorem exec_shortToSupplyDetect (hoff : x.on = false) :
    exec (.shortToSupplyDetect k c) s = .next (s.withDev (s.dev.dchFault k.val c.val 8 true)) := by
  subst hl hx
  exact congrArg Host.Outcome.next (if_neg (by simp [hswitch, hoff]))

theorem exec_externalDriveDetect (hon : x.on = true) :
    exec (.externalDriveDetect k c) s = .next (s.withDev (s.dev.dchFault k.val c.val 9 true)) := by
  subst hl hx
  exact congrArg Host.Outcome.next (if_neg (by simp [hswitch, hon]))

end Switch

section Cleared
variable {k : Fin 4} {c : Fin 24} {s : State} (hswitch : s.dev.isSwitch k.val c.val = true)
include hswitch

theorem exec_openLoadClear : exec (.openLoadClear k c) s = .next (s.withDev (s.dev.dchFault k.val c.val 17 false)) :=
  congrArg Host.Outcome.next (if_neg (by simp [hswitch]))

theorem exec_shortToSupplyClear : exec (.shortToSupplyClear k c) s = .next (s.withDev (s.dev.dchFault k.val c.val 8 false)) :=
  congrArg Host.Outcome.next (if_neg (by simp [hswitch]))

theorem exec_externalDriveClear : exec (.externalDriveClear k c) s = .next (s.withDev (s.dev.dchFault k.val c.val 9 false)) :=
  congrArg Host.Outcome.next (if_neg (by simp [hswitch]))

end Cleared

/-! PWM and clamp events (R261, R266). -/

section PwmPeriod
variable {k : Fin 4} {c : Fin 24} {s : State} {n : Nat} {d : Dev} {x : DigChan} (hruns : s.dev.fldRuns k.val = true)
  (hmode : (s.dev.dig k.val c.val).cfg.mode = 3) (hn : (s.dev.dig k.val c.val).cfg.pwmPeriod = n)
  (hd : s.dev.toCt (gridAt (max s.dev.now (s.dev.fld k.val).pwmFrom) (n * 10000) 0) = d) (hx : d.dig k.val c.val = x)
include hruns hmode hn hd hx

/-- At a period's start a driving output without a fault takes its new duty, and any other is off. -/
theorem exec_pwmPeriodStart {on : Bool} (hon : (x.driving && !(x.overloadOff || x.overtemp || x.clampOver)) = on) :
    exec (.pwmPeriodStart k c) s = .next (s.withDev (d.setDig k.val c.val { x with
      applied := if on then x.pwmNext.getD x.applied else x.applied, pwmNext := none
      onCycles := if on then (b32.toInt (x.pwmNext.getD x.applied).toNat (500 * n)).toNat else 0 })) := by
  subst hn hd hx hon
  exact congrArg Host.Outcome.next (if_neg (by simp [hruns, hmode]))

theorem exec_pwmPeriodStart_drives (hdrives : x.driving = true) (hclosed : x.overloadOff = false) (hcool : x.overtemp = false)
    (hclamp : x.clampOver = false) : exec (.pwmPeriodStart k c) s = .next (s.withDev (d.setDig k.val c.val { x with
      applied := x.pwmNext.getD x.applied, pwmNext := none
      onCycles := (b32.toInt (x.pwmNext.getD x.applied).toNat (500 * n)).toNat })) :=
  exec_pwmPeriodStart hruns hmode hn hd hx (on := true) (by simp [hdrives, hclosed, hcool, hclamp])

theorem exec_pwmPeriodStart_idle (hidle : x.driving = false) :
    exec (.pwmPeriodStart k c) s = .next (s.withDev (d.setDig k.val c.val { x with pwmNext := none, onCycles := 0 })) :=
  exec_pwmPeriodStart hruns hmode hn hd hx (on := false) (by simp [hidle])

end PwmPeriod

theorem exec_clampEventStart {k : Fin 4} {c : Fin 24} {s : State} {f : FieldDie} (hf : s.dev.fld k.val = f) (hhead : f.clampQ.head? = some c.val) :
    exec (.clampEventStart k c) s = .next (s.withDev
      ((s.dev.toRaw ((f.lastClampStart.map (fun t => t + 250000)).getD s.dev.time.raw)).clampStart k.val c.val)) := by
  subst hf
  exact congrArg Host.Outcome.next (if_pos hhead)

theorem exec_clampEventEnd {k : Fin 4} {c : Fin 24} {uj : Nat} {s : State} {x : DigChan} {f : FieldDie} (hx : s.dev.dig k.val c.val = x)
    (hstarted : x.clampStart.isSome = true) (hf : s.dev.fld k.val = f) : exec (.clampEventEnd k c uj) s =
    .next (s.withDev (((s.dev.setFld k.val { f with
        eWin := (s.dev.time.raw, uj) :: f.eWin.filter (fun e => decide (s.dev.time.raw < e.1 + 100000000)) }).setDig k.val c.val { x with
        clampStart := none, clampEst := 0, clampOver := x.clampOver || decide (200000 * x.cfg.members < uj) }).raiseIf
      (decide (200000 * x.cfg.members < uj)) 0x1021 (fldSrc k.val) .crit (c.val + 65536 * satN 16 (uj / 1000)))) := by
  subst hx hf
  exact congrArg Host.Outcome.next (if_neg (by simpa [Option.isSome_iff_ne_none] using hstarted))

theorem exec_cycleHoldRelease {k : Fin 4} {c : Fin 24} {s : State} {x : DigChan} (hx : s.dev.dig k.val c.val = x) (hheld : x.held = true) :
    exec (.cycleHoldRelease k c) s = .next (s.withDev
      ((s.dev.toRaw ((x.lastClamp.map (fun t => t + 100000000)).getD s.dev.time.raw)).setDig k.val c.val
        { x with held := false, applied := one32, driving := true })) := by
  subst hx
  exact congrArg Host.Outcome.next (if_neg (by simp [hheld]))

/-- Settles O17: each event by the checks that its hypotheses let pass, a retry by RETRY_MAX and its outcome, a PWM period by whether the output drives. -/
theorem digitalInputAndSwitchCommandsComplete : Obligations.DigitalInputAndSwitchCommandsComplete := by
  unfold Obligations.DigitalInputAndSwitchCommandsComplete
  refine ⟨?edge, ?refresh, ?sample, ?wire, ?count, ?switch, ?pwm, ?clampStart, ?clampEnd, ?hold⟩
  case edge => intro k c s x y t hdi hx ht hy; exact exec_diEdgeAccept hdi hx ht hy
  case refresh => intro k c s x d hdi hx; exact exec_diPointRefresh hdi hx
  case sample => intro k c s x t ts hdi hx; exact exec_diLoopSample hdi hx
  case wire => intro k c s hdi; exact ⟨exec_wireBreakDeclare hdi, exec_wireBreakClear hdi⟩
  case count => intro s d; exact exec_countAccumulate
  case switch =>
    intro k c s l x hswitch hl hx
    refine ⟨exec_outputFoldback hswitch hl hx, fun d hlimited hclosed hd => ?retry, fun d => exec_outputOvertemp hswitch hl hx,
      exec_openLoadDetect hswitch hl hx, exec_openLoadClear hswitch, exec_shortToSupplyDetect hswitch hl hx, exec_shortToSupplyClear hswitch,
      exec_externalDriveDetect hswitch hl hx, exec_externalDriveClear hswitch⟩
    exact ⟨exec_outputRetry_none hswitch hl hx hlimited hclosed hd, fun e => exec_outputRetry_still hswitch hl hx hlimited hclosed hd,
      fun e => exec_outputRetry_gone hswitch hl hx hlimited hclosed hd⟩
  case pwm =>
    intro k c s n d x hruns hmode hn hd hx
    exact ⟨exec_pwmPeriodStart_drives hruns hmode hn hd hx, exec_pwmPeriodStart_idle hruns hmode hn hd hx⟩
  case clampStart => intro k c s f; exact exec_clampEventStart
  case clampEnd => intro k c uj s x f; exact exec_clampEventEnd
  case hold => intro k c s x; exact exec_cycleHoldRelease

end Sys2Proof.Machine
end

section
/-! The safe state and the outputs of a field die: the Snowplough, refreshes, arming, FIELD resets and the digital commands (R253 to R275, R439). -/

namespace Sys2Proof.Machine

open Sys2Proof Sys2Proof.Bits Sys2Proof.Float

/-! The Snowplough and the refreshes (R269, R270). -/

section Snowplough
variable {k : Fin 4} {s : State} {f : FieldDie} (hf : s.dev.fld k.val = f) (hruns : s.dev.fldRuns k.val = true)
include hf hruns

theorem exec_snowploughTimeout (harmed : f.outState = .armed) : exec (.snowploughTimeout k) s = .next (s.withDev
    ((s.dev.toRaw ((f.refreshRaw.map (fun t => t + f.safeCfg.timeoutMs * 1000000)).getD s.dev.time.raw)).enterSnow k.val)) := by
  subst hf
  exact congrArg Host.Outcome.next (if_neg (by simp [hruns, harmed]))

theorem exec_snowploughResume {t : Nat} (hsnow : f.outState = .snowplough) (hauto : f.safeCfg.resumeAuto = true) (hback : f.refreshBack = some t) :
    exec (.snowploughResume k) s = .next (s.withDev ((s.dev.toCt (baseTick (t + 1000000) * 10000)).leaveSnow k.val)) := by
  subst hf
  change execSnowploughResume k s = _
  simp only [execSnowploughResume, hback, hruns, hsnow, hauto]
  rfl

theorem exec_refreshReceive {t ns : Nat} {d : Dev} (hsent : f.refreshSent = some t) (hfree : s.dev.freeNs 600 1240 = (ns, d)) :
    exec (.refreshReceive k) s = .next (s.withDev ((d.toRaw (t + ns)).refreshAt k.val)) := by
  subst hf
  change execRefreshReceive k s = _
  simp only [execRefreshReceive, hsent, hruns, hfree]
  rfl

end Snowplough

theorem exec_refreshSend {s : State} {d : Dev} (hctl : s.dev.ctlUp = true) (hd : s.dev.toRaw s.dev.field.refreshNext = d) :
    exec .refreshSend s = .next (s.withDev ((List.range 4).foldl (fun (acc : Dev) k =>
      if acc.fldUp k then ((acc.setFld k { acc.fld k with refreshSent := some acc.time.raw }).emit (.refresh k)).through 0x02 k else acc)
      { d with field := { d.field with refreshNext := d.time.raw + 250000 } })) := by
  change execRefreshSend s = _
  simp only [execRefreshSend, hctl, hd]
  rfl

/-! Arming (R268). -/

/-- The event of a change to or from ARMED. -/
def Dev.tellArm (d : Dev) (k : Nat) : Dev := d.raise 0x1023 (fldSrc k) .info (d.fld k).outState.num

/-- An arming (`arm`) or a disarming that takes effect. -/
def Dev.takeArm (d : Dev) (k : Nat) (arm : Bool) : Dev :=
  if !arm then (if (d.fld k).outState = .disarmed then d else ((d.allOff k).setOutState k .disarmed).tellArm k)
  else match (d.fld k).outState with
    | .armed => d
    | .disarmed => if d.silent k then d.enterSnow k else ((d.setOutState k .armed).allCmd k).tellArm k
    | .snowplough => if d.silent k then d else (d.leaveSnow k).tellArm k

section TakeArm
variable {d : Dev} {k : Nat}

theorem Dev.takeArm_off (h : (d.fld k).outState ≠ .disarmed) : d.takeArm k false = ((d.allOff k).setOutState k .disarmed).tellArm k :=
  if_neg h

theorem Dev.takeArm_silent (h : (d.fld k).outState = .disarmed) (hsilent : d.silent k = true) : d.takeArm k true = d.enterSnow k := by
  simp only [Dev.takeArm, h, hsilent]
  rfl

theorem Dev.takeArm_on (h : (d.fld k).outState = .disarmed) (hheard : d.silent k = false) :
    d.takeArm k true = ((d.setOutState k .armed).allCmd k).tellArm k := by
  simp only [Dev.takeArm, h, hheard]
  rfl

theorem Dev.takeArm_resumes (h : (d.fld k).outState = .snowplough) (hheard : d.silent k = false) : d.takeArm k true = (d.leaveSnow k).tellArm k := by
  simp only [Dev.takeArm, h, hheard]
  rfl

end TakeArm

theorem exec_armTakeEffect {k : Fin 4} {s : State} {arm : Bool} {t : Nat} {d : Dev} (harmAt : (s.dev.fld k.val).armAt = some (arm, t))
    (hruns : s.dev.fldRuns k.val = true) (hd : (s.dev.toCt t).setFld k.val { (s.dev.toCt t).fld k.val with armAt := none } = d) :
    exec (.armTakeEffect k) s = .next (s.withDev (d.takeArm k.val arm)) := by
  subst hd
  change execArmTakeEffect k s = _
  simp only [execArmTakeEffect, harmAt, hruns]
  rfl

/-! FIELD resets (R275, R439). -/

theorem exec_fieldResetTakeHold {k : Fin 4} {s : State} {d : Dev} {c : Nat} (hwait : (s.dev.fld k.val).run = .resetWait)
    (hd : Dev.clampDrain k.val 24 s.dev = d) (hc : (d.fld k.val).resetCause = c) : exec (.fieldResetTakeHold k) s = .next (s.withDev
      ((d.fieldReset k.val .inReset).causeRecord .field (fieldCause c) k.val 0 0 (if c = 11 then 3 + k.val else 0))) := by
  subst hd hc
  exact congrArg Host.Outcome.next (if_neg (not_not.mpr hwait))

theorem exec_fieldResetRelease {k : Fin 4} {s : State} {ns : Nat} {d e : Dev} (hreset : (s.dev.fld k.val).run = .inReset)
    (hfree : s.dev.fieldHeld k.val = false) (hns : s.dev.freeNs 1000000 1200000 = (ns, d)) (he : d.toRaw ((d.fld k.val).stageAt + ns) = e) :
    exec (.fieldResetRelease k) s =
      .next (s.withDev (e.setFld k.val { e.fld k.val with run := .released, stageAt := e.time.raw, pllLost := false })) := by
  subst he
  refine congrArg Host.Outcome.next ((if_neg (by simp [hreset, hfree])).trans ?_)
  simp only [hns]

theorem exec_fieldDieConfigured {k : Fin 4} {s : State} {ns : Nat} {d e : Dev} {f : FieldDie} (hreleased : (s.dev.fld k.val).run = .released)
    (hub : s.dev.hubUp = true) (hfree : s.dev.fieldHeld k.val = false) (hns : s.dev.freeNs 20000000 100000000 = (ns, d))
    (he : d.toRaw ((d.fld k.val).stageAt + ns) = e) (hf : e.fld k.val = f) :
    exec (.fieldDieConfigured k) s = .next (s.withDev ((List.range 24).foldl (fun acc c => if (acc.dig k.val c).cfg.mode = 1 then acc.diInit k.val c else acc)
      (e.setFld k.val { f with
        run := .run, outState := .disarmed, stageAt := e.time.raw, resetCause := 0
        seq := if f.seq.savedRun then { f.seq with startWait := some f.seq.set, startAt := e.now + 1000000, auto := true } else f.seq }))) := by
  subst he hf
  refine congrArg Host.Outcome.next ((if_neg (by simp [hreleased, hub, hfree])).trans ?_)
  simp only [hns]

/-! The digital commands (Table 12-5). -/

theorem exec_dchConfig {p : Packet} {s : State} {q : QPacket} (h : Ready opDchConfig p s q) (hj : Journals s q)
    (hchecks : firstErr (dchChecks s q) = none) :
    exec (.dchConfig p) s = .next (((s.withDev (s.dev.dchApply p.inst p.sub (dchCfgOf q))).entered 0x0701 q).finish q stOk 0 []) := by
  have hpkt := h.pkt
  subst hpkt
  exact congrArg Host.Outcome.next (packetRow_entered h hj (guarded_pass hchecks) rfl (by decide) rfl (Dev.dchApply_slalom ..))

theorem exec_safeConfig {p : Packet} {s : State} {q : QPacket} (h : Ready opSafeConfig p s q) (hj : Journals s q)
    (hchecks : firstErr (safeChecks s q) = none) : exec (.safeConfig p) s = .next (((s.withDev (s.dev.setFld p.inst
      { s.dev.fld p.inst with safeCfg := safeCfgOf q })).entered 0x0705 q).finish q stOk 0 []) := by
  have hpkt := h.pkt
  subst hpkt
  exact congrArg Host.Outcome.next (packetRow_entered h hj (guarded_pass hchecks) rfl (by decide) rfl (Dev.setFld_slalom ..))

/-- The checks of a block of `n` channels or counters from `first` pass within its bounds. -/
theorem firstErr_block {b : Bool} {first n lim : Nat} (hresv : b = false) (hlo : 1 ≤ n) (hhi : first + n ≤ lim) :
    firstErr [encIf b 0, rangeIf (outside n 1 lim || decide (lim < first + n)) 0] = none :=
  firstErr_cons_none.mpr ⟨hresv, firstErr_cons_none.mpr ⟨Bool.or_eq_false_iff.mpr ⟨outside_eq_false_iff.mpr ⟨hlo, by omega⟩,
    decide_eq_false (Nat.not_lt.mpr hhi)⟩, firstErr_nil⟩⟩

theorem FieldDie.length_chanWords (f : FieldDie) (c now : Nat) : (f.chanWords c now).length = 4 := rfl

theorem exec_dchStatus {p : Packet} {s : State} {q : QPacket} {n : Nat} {d : Dev} (h : Ready opDchStatus p s q) (hresv : q.resv 0 0x1F1F = false)
    (hn : q.f 0 12 8 = n) (hlo : 1 ≤ n) (hhi : q.f 0 4 0 + n ≤ 24)
    (hd : ((List.range n).map (fun i => q.f 0 4 0 + i)).foldl (fun (acc : Dev) c => acc.measureChan p.inst c) s.dev = d) :
    exec (.dchStatus p) s = .next ((s.withDev d).finish q stOk 0
      (((List.range n).map (fun i => q.f 0 4 0 + i)).flatMap (fun c => (d.fld p.inst).chanWords c d.now))) := by
  have hpkt := h.pkt
  subst hpkt hn hd
  have hwords : ∀ (f : FieldDie) (now : Nat), (((List.range (q.f 0 12 8)).map (fun i => q.f 0 4 0 + i)).flatMap (fun c => f.chanWords c now)).length =
      4 * q.f 0 12 8 := by
    intro f now
    simp [List.length_flatMap, FieldDie.length_chanWords, Function.comp_def, Nat.mul_comm]
  exact congrArg Host.Outcome.next (row_done h (guarded_pass (firstErr_block hresv hlo hhi)) rfl (q.holds_short (by rw [hwords]; omega)) (.inl rfl))

theorem exec_counterRead {p : Packet} {s : State} {q : QPacket} {n : Nat} (h : Ready opCounterRead p s q) (hresv : q.resv 0 0x7F7F = false)
    (hn : q.f 0 14 8 = n) (hlo : 1 ≤ n) (hhi : q.f 0 6 0 + n ≤ 96) :
    exec (.counterRead p) s = .next (s.finish q stOk 0 ((List.range n).map (fun i => s.dev.field.countAcc.rd (q.f 0 6 0 + i)))) := by
  subst hn
  exact congrArg Host.Outcome.next (row_done h (guarded_pass (firstErr_block hresv hlo hhi)) rfl
    (q.holds_short (by rw [List.length_map, List.length_range]; omega)) (.inl rfl))

section ArmOutputs
variable {p : Packet} {s : State} {q : QPacket} {arm dis : List Nat} (h : Ready opArmOutputs p s q) (hresv : q.resv 0 0xFF = false)
  (hapart : (bitsOf (q.f 0 3 0) 4).any (fun k => (bitsOf (q.f 0 7 4) 4).contains k) = false)
  (hrun : (bitsOf (q.f 0 3 0) 4).any (fun k => !s.dev.fldRuns k || s.dev.fieldTested k) = false)
  (harm : (bitsOf (q.f 0 3 0) 4).filter (fun k => (s.dev.fld k).outState ≠ .armed) = arm)
  (hdis : (bitsOf (q.f 0 7 4) 4).filter (fun k => s.dev.fldRuns k && decide ((s.dev.fld k).outState ≠ .disarmed)) = dis)
include h hresv hapart hrun harm hdis

omit h in
theorem opArmOutputs_body : opArmOutputs.body s q = if arm = [] ∧ dis = [] then { st := s, status := stOkNoChange } else
    { st := s.withDev (dis.foldl (fun (acc : Dev) k => acc.setFld k { acc.fld k with armAt := some (false, baseTick (s.dev.now + 50000) * 10000) })
        (arm.foldl (fun (acc : Dev) k => acc.setFld k { acc.fld k with armAt := some (true, baseTick (s.dev.now + 50000) * 10000) }) s.dev))
      status := stOkPending } := by
  subst harm hdis
  exact guarded_pass (firstErr_cons_none.mpr ⟨hresv, firstErr_cons_none.mpr ⟨hapart, firstErr_cons_none.mpr ⟨hrun, firstErr_nil⟩⟩⟩)

theorem exec_armOutputs_idle (hnoArm : arm = []) (hnoDis : dis = []) : exec (.armOutputs p) s = .next (s.finish q stOkNoChange 0 []) :=
  congrArg Host.Outcome.next (row_done h ((opArmOutputs_body hresv hapart hrun harm hdis).trans (if_pos ⟨hnoArm, hnoDis⟩)) rfl
    (q.holds_short (by simp)) (.inl rfl))

theorem exec_armOutputs_pending {t : Nat} (ht : baseTick (s.dev.now + 50000) * 10000 = t) (hsome : ¬(arm = [] ∧ dis = [])) :
    exec (.armOutputs p) s = .next ((s.withDev
      (dis.foldl (fun (acc : Dev) k => acc.setFld k { acc.fld k with armAt := some (false, t) })
        (arm.foldl (fun (acc : Dev) k => acc.setFld k { acc.fld k with armAt := some (true, t) }) s.dev))).finish q stOkPending 0 []) := by
  subst ht
  exact congrArg Host.Outcome.next (packetRow_pending h ((opArmOutputs_body hresv hapart hrun harm hdis).trans (if_neg hsome)) rfl)

end ArmOutputs

/-- The value of an OUTPUT_SET passes where the channel's mode takes it. -/
theorem outputSet_inRange {m : BitVec 4} {v : Word} (hfinite : fin32 v = true) (hdo : m = 2 → isZero32 v = true ∨ v = one32)
    (hpwm : m = 3 → le32 0 v = true ∧ le32 v one32 = true) :
    (!fin32 v || (decide (m = 2) && !(isZero32 v || decide (v = one32))) || (decide (m = 3) && !(le32 0 v && le32 v one32))) = false := by
  have hswitch : (decide (m = 2) && !(isZero32 v || decide (v = one32))) = false := by
    simpa only [Bool.and_eq_false_imp, decide_eq_true_eq, Bool.not_eq_false', Bool.or_eq_true] using hdo
  have hduty : (decide (m = 3) && !(le32 0 v && le32 v one32)) = false := by
    simpa only [Bool.and_eq_false_imp, decide_eq_true_eq, Bool.not_eq_false', Bool.and_eq_true] using hpwm
  rw [hfinite, hswitch, hduty]
  rfl

theorem exec_outputSet {p : Packet} {s : State} {q : QPacket} {x : DigChan} {v : Word} (h : Ready opOutputSet p s q) (hv : q.par 0 = v)
    (hx : s.dev.dig p.inst p.sub = x) (hfinite : fin32 v = true) (hdo : x.cfg.mode = 2 → isZero32 v = true ∨ v = one32)
    (hpwm : x.cfg.mode = 3 → le32 0 v = true ∧ le32 v one32 = true) (hout : s.dev.isOut p.inst p.sub = true)
    (hfree : s.dev.owned (24 * p.inst + p.sub) = false) :
    exec (.outputSet p) s = .next ((s.withDev (Dev.sendOutput
      (if x.overloadOff || x.clampOver then (s.dev.setDig p.inst p.sub { x with clampOver := false, retries := 0 }).dchFault p.inst p.sub 11 false else s.dev)
      p.inst p.sub v (baseTick (s.dev.now + 50000)) none false)).finish q stOkPending 0 []) := by
  have hpkt := h.pkt
  subst hpkt hv hx
  exact congrArg Host.Outcome.next (packetRow_pending h (guarded_pass (firstErr_cons_none.mpr ⟨outputSet_inRange hfinite hdo hpwm,
    firstErr_cons_none.mpr ⟨by simp [hout, hfree], firstErr_nil⟩⟩)) rfl)

/-- Settles O18: an arming by OUT_STATE and the silence, ARM_OUTPUTS by whether it changes a die, each other event and packet by the checks that its
hypotheses let pass. -/
theorem outputCommandsComplete : Obligations.OutputCommandsComplete := by
  unfold Obligations.OutputCommandsComplete
  refine ⟨?snow, ?send, ?arm, ?hold, ?release, ?configured, ?config, ?status, ?armOutputs, ?set, ?safe, ?counter⟩
  case snow =>
    intro k s f hf hruns
    exact ⟨exec_snowploughTimeout hf hruns, fun t => exec_snowploughResume hf hruns, fun t ns d => exec_refreshReceive hf hruns⟩
  case send => intro s d; exact exec_refreshSend
  case arm =>
    intro k s arm t d harmAt hruns hd
    have heffect := exec_armTakeEffect harmAt hruns hd
    refine ⟨?off, ?silent, ?on, ?resumes⟩
    case off => rintro rfl hstate _ rfl; rwa [Dev.takeArm_off hstate] at heffect
    case silent => rintro rfl hstate hsilent; rwa [Dev.takeArm_silent hstate hsilent] at heffect
    case on => rintro rfl hstate hheard _ rfl; rwa [Dev.takeArm_on hstate hheard] at heffect
    case resumes => rintro rfl hstate hheard _ rfl; rwa [Dev.takeArm_resumes hstate hheard] at heffect
  case hold => intro k s d c; exact exec_fieldResetTakeHold
  case release => intro k s ns d e; exact exec_fieldResetRelease
  case configured => intro k s ns d e f; exact exec_fieldDieConfigured
  case config => intro p s q; exact exec_dchConfig
  case status => intro p s q n d; exact exec_dchStatus
  case armOutputs =>
    intro p s q arm dis t h hresv hapart hrun harm hdis ht
    exact ⟨exec_armOutputs_idle h hresv hapart hrun harm hdis, exec_armOutputs_pending h hresv hapart hrun harm hdis ht⟩
  case set => intro p s q x v; exact exec_outputSet
  case safe => intro p s q; exact exec_safeConfig
  case counter => intro p s q n; exact exec_counterRead

end Sys2Proof.Machine
end

section
/-! The twin control dies: streams, heartbeats, hard faults, the Glide's end, recovery and the synchronisation of a cold die (R278 to R293). -/

namespace Sys2Proof.Machine

open Sys2Proof Sys2Proof.Bits

/-! Streams (R282). -/

section Streams
variable {s : State} (hctl : s.dev.ctlUp = true)
include hctl

theorem exec_loopStream : exec .loopStream s = .next (s.withDev ((s.dev.toCt s.dev.streamDue).stream s.dev.streamDue)) :=
  congrArg Host.Outcome.next (if_neg (by simp [hctl]))

theorem exec_streamLate {d : Dev} (hd : s.dev.toCt (s.dev.streamDue + 2000000) = d) :
    exec .streamLate s = .next (s.withDev (d.raise 0x510A 0x5100 .warn d.streamAgeUs)) := by
  subst hd
  exact congrArg Host.Outcome.next (if_neg (by simp [hctl]))

end Streams

/-! Heartbeats (R278). -/

section Heartbeats
variable {s : State} {k : Nat} (hactive : s.dev.activeDie = some k)
include hactive

theorem exec_heartbeatSend (hlocked : s.dev.fabric.ctlPll.rd k = false) : exec .heartbeatSend s =
    .next (s.withDev ((s.dev.setTwin { s.dev.twin with hbTx := s.dev.twin.hbTx + 1 }).emit
      (.heartbeat (w32 ((s.dev.twin.hbTx + 1).toNat + 2 ^ 16 * (s.dev.frame.frameNum % 65536)))))) := by
  change execHeartbeatSend s = _
  simp only [execHeartbeatSend, hactive, hlocked]
  rfl

theorem exec_heartbeatReceive_valid {q : BitVec 32} (hlink : (s.dev.fabric.ctlLink.rd k).up = true)
    (hseq : q.toNat % 65536 = (s.dev.twin.hbSeq.toNat + 1) % 65536) : exec (.heartbeatReceive q) s = .next (s.withDev (s.dev.setTwin { s.dev.twin with
      hbSeq := w32 (q.toNat % 65536), hbAt := s.dev.time.raw, hbLateSent := false, arbAgree := true })) := by
  change execHeartbeatReceive q s = _
  simp only [execHeartbeatReceive, hactive]
  rw [if_neg (by simp [hlink, hseq])]

theorem exec_heartbeatReceive_stray {q : BitVec 32} (hseq : q.toNat % 65536 ≠ (s.dev.twin.hbSeq.toNat + 1) % 65536) :
    exec (.heartbeatReceive q) s = .next s := by
  change execHeartbeatReceive q s = _
  simp only [execHeartbeatReceive, hactive]
  rw [if_pos (.inr hseq)]

theorem exec_heartbeatLate {d : Dev} {n : Nat} (hfirst : s.dev.twin.hbLateSent = false) (hd : s.dev.toRaw (s.dev.twin.hbAt + 600000) = d)
    (hn : bump 16 s.dev.twin.hbLate = n) : exec .heartbeatLate s = .next (s.withDev
      (((d.setTwin { s.dev.twin with hbLate := n, hbLateSent := true }).satAt 0x51 16 n).raise 0x5109 0x5100 .info
        ((s.dev.twin.hbSeq.toNat + 1) % 65536))) := by
  subst hd hn
  refine congrArg Host.Outcome.next ((if_neg (by simp [hactive, hfirst])).trans ?_)
  simp only [Dev.toRaw_twin]

theorem exec_heartbeatTimeout :
    exec .heartbeatTimeout s = .next (s.withDev ((s.dev.toRaw (s.dev.twin.hbAt + 1750000)).declare k .heartbeat)) := by
  change execHeartbeatTimeout s = _
  simp only [execHeartbeatTimeout, hactive]

end Heartbeats

/-! Hard faults (R279, R287, R293, R296). -/

section HardFault
variable {s : State} {k : Nat} {c : TakeCause} {d : Dev} (hd : s.dev.updCtl k (fun c => { c with lineHard := true }) = d)
include hd

theorem Dev.hardFault_active (hstate : (d.ctl k).state = .active) : s.dev.hardFault k c = d.declare k c := by
  subst hd
  simp only [Dev.hardFault, hstate]

theorem Dev.hardFault_recovering (hstate : (d.ctl k).state = .recovering) :
    s.dev.hardFault k c = (d.updCtl k (fun c => { c with noAuto := true, restart := false })).dieTo k .failed := by
  subst hd
  simp only [Dev.hardFault, hstate]

/-- A die that wakes for a swap fails with the swap. -/
theorem Dev.hardFault_waking_swap {a : Dev} (hstate : (d.ctl k).state = .waking) (hactive : (d.activeDie.isSome || d.twin.tH.isSome) = true)
    (hbreath : d.power.lbAt = none) (ha : d.updCtl k (fun c => { c with resetOwed := true }) = a) :
    s.dev.hardFault k c = (a.dieTo k .failed).swapAbort k := by
  subst hd ha
  simp only [Dev.hardFault, hstate, hactive, hbreath]
  rfl

/-- A die that wakes to take over leaves no die to do so. -/
theorem Dev.hardFault_waking_glide {a : Dev} (hstate : (d.ctl k).state = .waking) (hnone : (d.activeDie.isSome || d.twin.tH.isSome) = false)
    (hbreath : d.power.lbAt = none) (ha : (d.updCtl k (fun c => { c with resetOwed := false })).dieTo k .failed = a) :
    s.dev.hardFault k c = (a.setTwin { a.twin with restoredAt := none }).singleDie k := by
  subst hd ha
  simp only [Dev.hardFault, hstate, hnone, hbreath]
  rfl

theorem Dev.hardFault_idle (hstate : (d.ctl k).state ∈ [CtlDieState.off, .cold, .coldSynced, .failed]) : s.dev.hardFault k c = d := by
  subst hd
  unfold Dev.hardFault
  dsimp only
  split
  case h_1 h => simp [h] at hstate
  case h_2 h => simp [h] at hstate
  case h_3 h => simp [h] at hstate
  case h_4 => rfl

end HardFault

theorem exec_hardFaultLine {k : Fin 2} {c : TakeCause} {s : State} (hub : s.dev.hubUp = true) :
    exec (.hardFaultLine k c) s = .next (s.withDev (s.dev.hardFault k.val c)) := congrArg Host.Outcome.next (if_pos hub)

theorem exec_arbiterDisagreement {s : State} {h n : Nat} {d : Dev} (hub : s.dev.hubUp = true) (hagree : s.dev.twin.arbAgree = true)
    (hfree : s.dev.freeN 2 = (h, d)) (hn : bump 16 s.dev.twin.arbMismatch = n) : exec .arbiterDisagreement s =
    .next (s.withDev (((d.setTwin { s.dev.twin with arbAgree := false, arbMismatch := n }).satAt 0x51 16 n).raise 0x5108 0x5100 .crit h)) := by
  obtain ⟨rfl, rfl⟩ := Prod.mk.inj hfree
  subst hn
  exact congrArg Host.Outcome.next (if_neg (by simp [hub, hagree]))

/-! The end of the Glide and of the gap of a swap (R285, R286, R295). -/

section Restore
variable {s : State} {k ns : Nat} {d e : Dev} (hwaking : s.dev.wakingDie = some k) (hnone : s.dev.activeDie = none)
  (hopen : s.dev.twin.restoredAt = none)
include hwaking hnone hopen

theorem exec_stateRestoreDone_glide (hglide : s.dev.twin.tH = none) (hfree : s.dev.freeNs 9000000 36000000 = (ns, d))
    (he : d.toRaw ((s.dev.twin.glideStart.getD s.dev.time.raw) + ns) = e) :
    exec .stateRestoreDone s = .next (s.withDev (e.setTwin { e.twin with restoredAt := some e.time.raw })) := by
  subst he
  refine congrArg Host.Outcome.next ((if_neg (by simp [hwaking, hnone, hopen])).trans ?_)
  simp only [hglide, hfree]

theorem exec_stateRestoreDone_swap {t : Nat} (hgap : s.dev.twin.tH = some t) (hfree : s.dev.freeNs 0 8400000 = (ns, d))
    (he : d.toCt (t + ns) = e) : exec .stateRestoreDone s = .next (s.withDev (e.setTwin { e.twin with restoredAt := some e.time.raw })) := by
  subst he
  refine congrArg Host.Outcome.next ((if_neg (by simp [hwaking, hnone, hopen])).trans ?_)
  simp only [hgap, hfree]

end Restore

theorem exec_releaseInstant {s : State} {k r : Nat} {d : Dev} (hwaking : s.dev.wakingDie = some k) (hrestored : s.dev.twin.restoredAt = some r)
    (hd : s.dev.toCt (gridAt (s.dev.time.ctAt r + 500000) 1000000 0) = d) :
    exec .releaseInstant s = .next (s.withDev (if s.dev.twin.tH.isSome then d.swapOver k else d.takeOver k)) := by
  subst hd
  change execReleaseInstant s = _
  simp only [execReleaseInstant, hwaking, hrestored, Dev.toCt_twin]

/-! Recovery (R291 to R293). -/

theorem exec_recoveryStart {k : Fin 2} {s : State} {c : CtlDie} (hub : s.dev.hubUp = true) (hctl : s.dev.ctlUp = true) (hc : s.dev.ctl k.val = c)
    (hfailed : c.state = .failed) (hrail : c.railOk = true) (hasked : c.recoverAsked = true) (hroom : s.dev.bistRoom 1 1 = true)
    (hcool : s.dev.slalom.temps.rd (1 + k.val) < (s.dev.slalom.cfg.thermStart : Int) - 10) :
    exec (.recoveryStart k) s = .next (s.withDev (((s.dev.dieReset k.val true).updCtl k.val (fun c => { c with
      noAuto := false, recoverAsked := false, lineHard := false, bistOk := false })).dieTo k.val .recovering)) := by
  subst hc
  refine congrArg Host.Outcome.next ((if_neg (by simp [hub, hctl, hfailed, hrail, hasked, hroom, hcool])).trans ?_)
  simp only [hasked, true_or, if_true]

section RecoveryBist
variable {k : Fin 2} {s : State} {d : Dev} (hrecovering : (s.dev.ctl k.val).state = .recovering)
include hrecovering

theorem exec_recoveryBistDone_pass (hd : (s.dev.updCtl k.val (fun c =>
      { (c.freshSlices s.dev.recorder.opTime) with bistOk := true, restart := false })).dieTo k.val .cold = d) :
    exec (.recoveryBistDone k true) s =
      .next (s.withDev (if d.twin.restarting && d.wakingDie.isNone && d.activeDie.isNone then d.dieTo k.val .waking else d)) := by
  subst hd
  exact congrArg Host.Outcome.next ((if_neg (not_not.mpr hrecovering)).trans (if_pos rfl))

theorem exec_recoveryBistDone_fail {n : Nat} (hfree : s.dev.freeN 320 = (n, d)) : exec (.recoveryBistDone k false) s =
    .next (s.withDev (((d.updCtl k.val (fun c => { c with noAuto := true, restart := false })).dieTo k.val .failed).sliceFail k.val n false)) := by
  obtain ⟨rfl, rfl⟩ := Prod.mk.inj hfree
  exact congrArg Host.Outcome.next ((if_neg (not_not.mpr hrecovering)).trans (if_neg Bool.false_ne_true))

end RecoveryBist

theorem exec_coldSyncComplete {k : Fin 2} {s : State} (hctl : s.dev.ctlUp = true) (hcold : (s.dev.ctl k.val).state = .cold)
    (hretry : (s.dev.ctl k.val).retry = none) (hbank : s.dev.twin.bank.isSome = true) :
    exec (.coldSyncComplete k) s = .next (s.withDev ((s.dev.updCtl k.val (fun c => { c with bistOk := true })).dieTo k.val .coldSynced)) :=
  congrArg Host.Outcome.next (if_neg (by simp [hctl, hcold, hretry, Option.isSome_iff_ne_none.mp hbank]))

/-- Settles O22: a hard fault by the state of its die, the end of a restore by whether a swap's gap is open, a BIST by its result, each other event by
the checks that its hypotheses let pass. -/
theorem twinDieCommandsComplete : Obligations.TwinDieCommandsComplete := by
  unfold Obligations.TwinDieCommandsComplete
  refine ⟨?streams, ?beats, ?fault, ?arbiter, ?restore, ?release, ?recovery, ?bist, ?sync⟩
  case streams => intro s hctl; exact ⟨exec_loopStream hctl, fun d => exec_streamLate hctl⟩
  case beats =>
    rintro s k _ hactive rfl
    exact ⟨exec_heartbeatSend hactive, fun q => exec_heartbeatReceive_valid hactive, fun q => exec_heartbeatReceive_stray hactive,
      fun d n => exec_heartbeatLate hactive, exec_heartbeatTimeout hactive⟩
  case fault =>
    intro k c s d hub hd
    rw [exec_hardFaultLine hub]
    refine ⟨fun hstate => ?_, fun hstate => ?_, fun a hstate hactive hbreath ha => ?_, fun a hstate hnone hbreath ha => ?_, fun hstate => ?_⟩
    · rw [Dev.hardFault_active hd hstate]
    · rw [Dev.hardFault_recovering hd hstate]
    · rw [Dev.hardFault_waking_swap hd hstate hactive hbreath ha]
    · rw [Dev.hardFault_waking_glide hd hstate hnone hbreath ha]
    · rw [Dev.hardFault_idle hd hstate]
  case arbiter => intro s h n d; exact exec_arbiterDisagreement
  case restore =>
    intro s k hwaking hnone hopen
    exact ⟨fun ns d e => exec_stateRestoreDone_glide hwaking hnone hopen, fun t ns d e => exec_stateRestoreDone_swap hwaking hnone hopen⟩
  case release => intro s k r d; exact exec_releaseInstant
  case recovery => intro k s c; exact exec_recoveryStart
  case bist =>
    intro k s hrecovering
    exact ⟨fun d => exec_recoveryBistDone_pass hrecovering, fun n d => exec_recoveryBistDone_fail hrecovering⟩
  case sync => intro k s; exact exec_coldSyncComplete

end Sys2Proof.Machine
end

section
/-! The twin commands and the self-test commands (R276, R294 to R300, R415 to R420). -/

namespace Sys2Proof.Machine

open Sys2Proof Sys2Proof.Bits

/-! The planned swap (R294 to R296). -/

section Swap
variable {p : Packet} {s : State} {q : QPacket} {k : Nat} (h : Ready opSwap p s q) (hresv : q.resv 1 1 = false) (henabled : s.dev.twin.enabled = true)
  (hidle : s.dev.twin.swapPending = false) (htest : s.dev.test.state = .running → 2 ≤ s.dev.test.die) (hstandby : s.dev.standby = some k)
  (heligible : s.dev.eligible k = true)
include h hresv henabled hidle htest hstandby heligible

/-- A swap that may be asked for waits for its frame, or for its instant while frames are STOPPED. -/
theorem exec_swap (hframe : s.dev.frame.state = .stopped ∨ (q.par 0).toNat = 0 ∨ s.dev.frame.frameNum + 2 ≤ (q.par 0).toNat) :
    exec (.swap p) s = .next ((s.withDev (s.dev.setTwin { s.dev.twin with
      swapPending := true, swapStopped := decide (s.dev.frame.state = .stopped), swapAt := s.dev.now + 50000000
      swapFrame := if decide (s.dev.frame.state = .stopped) = true then (q.par 0).toNat
        else if (q.par 0).toNat = 0 then s.dev.frame.frameNum + 2 else (q.par 0).toNat })).finish q stOkPending 0 []) := by
  have hrange : (!decide (s.dev.frame.state = .stopped) && decide ((q.par 0).toNat ≠ 0 ∧ (q.par 0).toNat < s.dev.frame.frameNum + 2)) = false := by
    rcases hframe with hstopped | hzero | hahead
    · simp [hstopped]
    · simp [hzero]
    · simp [Nat.not_lt.mpr hahead]
  have hfree : (s.dev.twin.swapPending || (s.dev.test.state = .running && decide (s.dev.test.die < 2))) = false := by
    simpa only [hidle, Bool.false_or, Bool.and_eq_false_imp, decide_eq_true_eq, decide_eq_false_iff_not, Nat.not_lt] using htest
  exact congrArg Host.Outcome.next (packetRow_pending h (guarded_pass (firstErr_cons_none.mpr ⟨hresv, firstErr_cons_none.mpr ⟨hrange,
    firstErr_cons_none.mpr ⟨by simp [henabled], firstErr_cons_none.mpr ⟨hfree, firstErr_cons_none.mpr
      ⟨by simp [hstandby, heligible], firstErr_nil⟩⟩⟩⟩⟩)) rfl)

theorem exec_swap_stopped (hstopped : s.dev.frame.state = .stopped) : exec (.swap p) s = .next ((s.withDev (s.dev.setTwin { s.dev.twin with
    swapPending := true, swapStopped := true, swapAt := s.dev.now + 50000000, swapFrame := (q.par 0).toNat })).finish q stOkPending 0 []) := by
  rw [exec_swap h hresv henabled hidle htest hstandby heligible (.inl hstopped), decide_eq_true hstopped, if_pos rfl]

theorem exec_swap_next (hruns : s.dev.frame.state ≠ .stopped) (hzero : (q.par 0).toNat = 0) : exec (.swap p) s =
    .next ((s.withDev (s.dev.setTwin { s.dev.twin with
      swapPending := true, swapStopped := false, swapAt := s.dev.now + 50000000, swapFrame := s.dev.frame.frameNum + 2 })).finish q stOkPending 0 []) := by
  rw [exec_swap h hresv henabled hidle htest hstandby heligible (.inr (.inl hzero)), decide_eq_false hruns, if_neg Bool.false_ne_true, if_pos hzero]

theorem exec_swap_frame (hruns : s.dev.frame.state ≠ .stopped) (hahead : s.dev.frame.frameNum + 2 ≤ (q.par 0).toNat) : exec (.swap p) s =
    .next ((s.withDev (s.dev.setTwin { s.dev.twin with
      swapPending := true, swapStopped := false, swapAt := s.dev.now + 50000000, swapFrame := (q.par 0).toNat })).finish q stOkPending 0 []) := by
  rw [exec_swap h hresv henabled hidle htest hstandby heligible (.inr (.inr hahead)), decide_eq_false hruns, if_neg Bool.false_ne_true,
    if_neg (by omega)]

end Swap

section SwapCancel
variable {p : Packet} {s : State} {q : QPacket} (h : Ready opSwapCancel p s q) (hresv : q.resv 1 1 = false)
include h hresv

theorem exec_swapCancel_pending (hpending : s.dev.twin.swapPending = true) (hearly : s.dev.wakingDie = none) : exec (.swapCancel p) s =
    .next ((s.withDev (s.dev.setTwin { s.dev.twin with swapPending := false, swapFrame := 0, swapStopped := false })).finish q stOk 0 []) :=
  congrArg Host.Outcome.next (packetRow_changed h ((guarded_pass (firstErr_cons_none.mpr ⟨hresv,
    firstErr_cons_none.mpr ⟨by simp [hearly], firstErr_nil⟩⟩)).trans (if_pos hpending)) rfl)

theorem exec_swapCancel_idle (hidle : s.dev.twin.swapPending = false) : exec (.swapCancel p) s = .next (s.finish q stOkNoChange 0 []) :=
  congrArg Host.Outcome.next (row_done h ((guarded_pass (firstErr_cons_none.mpr ⟨hresv,
    firstErr_cons_none.mpr ⟨by simp [hidle], firstErr_nil⟩⟩)).trans (if_neg (by simp [hidle]))) rfl (q.holds_short (by simp)) (.inr rfl))

end SwapCancel

section SwapPrepare
variable {s : State} {k : Nat} {d : Dev} (hstandby : s.dev.standby = some k) (hpending : s.dev.twin.swapPending = true)
  (hearly : s.dev.wakingDie = none) (hd : (s.dev.toCt (s.dev.swapInstant - 40000000)).abortSlice = d)
include hstandby hpending hearly hd

theorem exec_swapPrepare :
    exec .swapPrepare s = .next (s.withDev (if d.eligible k then d.dieTo k .waking else d.swapAbort k)) := by
  subst hd
  change execSwapPrepare s = _
  simp only [execSwapPrepare, hstandby]
  rw [if_neg (by simp [hpending, hearly])]

theorem exec_swapPrepare_wakes (heligible : d.eligible k = true) : exec .swapPrepare s = .next (s.withDev (d.dieTo k .waking)) := by
  rw [exec_swapPrepare hstandby hpending hearly hd, if_pos heligible]

theorem exec_swapPrepare_aborts (hunfit : d.eligible k = false) : exec .swapPrepare s = .next (s.withDev (d.swapAbort k)) := by
  rw [exec_swapPrepare hstandby hpending hearly hd, if_neg (by simp [hunfit])]

end SwapPrepare

theorem exec_swapHandover {s : State} {a t : Nat} {d : Dev} (hactive : s.dev.activeDie = some a) (hpending : s.dev.twin.swapPending = true)
    (hwaking : s.dev.wakingDie.isSome = true) (hready : s.dev.twin.swapStopped = true ∨ s.dev.twin.swapFrame ≤ s.dev.frame.checkpointed + 1)
    (ht : gridAt (max s.dev.now s.dev.swapInstant) 1000000 0 = t)
    (hd : ((((Dev.applyUpTo (t / 10000) 4096 s.dev).toCt t).stream t).abortDie a).dieTo a .coldSynced = d) :
    exec .swapHandover s = .next (s.withDev { d with
      twin := { d.twin with tH := some t, restoredAt := none }
      power := { d.power with noActiveSince := some d.time.raw, noActiveExpired := false } }) := by
  have hdue : (!s.dev.twin.swapStopped && decide (s.dev.frame.checkpointed + 1 < s.dev.twin.swapFrame)) = false := by
    rcases hready with hstopped | hstored
    · simp [hstopped]
    · simp [Nat.not_lt.mpr hstored]
  subst ht hd
  change execSwapHandover s = _
  simp only [execSwapHandover, hactive]
  rw [if_neg (by simp [hpending, Option.isSome_iff_ne_none.mp hwaking, hdue])]

/-! The twin page and its settings (R276, R300). -/

theorem exec_twinStatus {p : Packet} {s : State} {q : QPacket} (h : Ready opTwinStatus p s q) :
    exec (.twinStatus p) s = .next (s.finish q stOk 0 ((List.range 13).map (fun i => s.dev.twinWord (4 * i)))) :=
  congrArg Host.Outcome.next (row_done h rfl rfl (q.holds_short (by simp)) (.inl rfl))

section TwinConfig
variable {p : Packet} {s : State} {q : QPacket} {d : Dev} (h : Ready opTwinConfig p s q) (hj : Journals s q) (hresv : q.resv 0 0xFFFF = false)
  (hop : q.f 0 1 0 = 0) (hmax : q.f 0 7 4 ≠ 0) (hlo : 1 ≤ q.f 0 15 8) (hhi : q.f 0 15 8 ≤ 168)
  (hd : s.dev.setTwin { s.dev.twin with enabled := q.b 0 2, rejoinAuto := q.b 0 3, maxRecover := q.f 0 7 4, coverH := q.f 0 15 8 } = d)

/-- What the settings make of the standby: OFF without twin operation, COLD where it was OFF and has its rail. -/
def Dev.twinStandby (d : Dev) (en : Bool) : Dev :=
  match d.standby with
  | some k =>
    if !en then (if (d.twin.slice.map (fun x => x.1)) = some k then d.abortSlice else d).dieTo k .off
    else if (d.ctl k).state = .off ∧ (d.ctl k).railOk then d.dieTo k .cold
    else d
  | none => d

theorem Dev.twinStandby_slalom (d : Dev) (en : Bool) : (d.twinStandby en).slalom = d.slalom := by
  unfold Dev.twinStandby
  split
  · split
    · split <;> simp
    · split <;> simp
  · rfl

theorem Dev.twinStandby_off {k : Nat} (hstandby : d.standby = some k) :
    d.twinStandby false = (if (d.twin.slice.map (fun x => x.1)) = some k then d.abortSlice else d).dieTo k .off := by
  simp only [Dev.twinStandby, hstandby]
  rfl

theorem Dev.twinStandby_cold {k : Nat} (hstandby : d.standby = some k) (hoff : (d.ctl k).state = .off) (hrail : (d.ctl k).railOk = true) :
    d.twinStandby true = d.dieTo k .cold := by
  simp only [Dev.twinStandby, hstandby, hoff, hrail]
  rfl

theorem Dev.twinStandby_stays (hstays : ∀ k, d.standby = some k → ¬((d.ctl k).state = .off ∧ (d.ctl k).railOk = true)) : d.twinStandby true = d := by
  unfold Dev.twinStandby
  split
  case h_1 k hk => rw [if_neg (by decide), if_neg (hstays k hk)]
  case h_2 => rfl

include h hj hresv hop hmax hlo hhi hd

theorem exec_twinConfig (hfits : (q.b 0 2 && (decide (s.dev.host.revCtlA ≠ s.dev.host.revCtlB) ||
      (List.range 4).any (fun k => decide ((s.dev.fld k).safeCfg.timeoutMs < 60)))) = false)
    (hidle : (!q.b 0 2 && (s.dev.twin.swapPending || s.dev.wakingDie.isSome || s.dev.activeDie.isNone)) = false) : exec (.twinConfig p) s =
    .next (((s.withDev (d.twinStandby (q.b 0 2))).entered 0x0C12 q).finish q stOk 0 []) := by
  have hbody : opTwinConfig.body s q = .ok s (d.twinStandby (q.b 0 2)) := by
    refine (guarded_pass (firstErr_cons_none.mpr ⟨by simp [hresv, hop], firstErr_cons_none.mpr ⟨?range, firstErr_cons_none.mpr ⟨hfits,
      firstErr_cons_none.mpr ⟨hidle, firstErr_nil⟩⟩⟩⟩)).trans ?ok
    case range => simp [hmax, outside_eq_false_iff.mpr ⟨hlo, hhi⟩]
    case ok =>
      simp only [hd, Dev.twinStandby]
      cases d.standby with
      | none => rfl
      | some k => simp only [apply_ite (Ans.ok s)]
  refine congrArg Host.Outcome.next (packetRow_entered h hj hbody rfl (by decide) rfl ?_)
  rw [Dev.twinStandby_slalom, ← hd]
  rfl

theorem exec_twinConfig_on (hen : q.b 0 2 = true) (hrev : s.dev.host.revCtlA = s.dev.host.revCtlB)
    (htimeout : ∀ k < 4, 60 ≤ (s.dev.fld k).safeCfg.timeoutMs) : exec (.twinConfig p) s =
    .next (((s.withDev (d.twinStandby true)).entered 0x0C12 q).finish q stOk 0 []) := by
  have hlong : (List.range 4).any (fun k => decide ((s.dev.fld k).safeCfg.timeoutMs < 60)) = false := by
    simpa using htimeout
  rw [exec_twinConfig h hj hresv hop hmax hlo hhi hd (by rw [hlong]; simp [hrev]) (by simp [hen]), hen]

theorem exec_twinConfig_off {k : Nat} (hen : q.b 0 2 = false) (hidle : s.dev.twin.swapPending = false) (hnone : s.dev.wakingDie = none)
    (hstandby : d.standby = some k) : exec (.twinConfig p) s = .next (((s.withDev
      ((if d.twin.slice.map (fun x => x.1) = some k then d.abortSlice else d).dieTo k .off)).entered 0x0C12 q).finish q stOk 0 []) := by
  have hactive : s.dev.activeDie.isSome = true := by
    rw [← hd] at hstandby
    exact Option.isSome_map.symm.trans (congrArg Option.isSome hstandby)
  rw [exec_twinConfig h hj hresv hop hmax hlo hhi hd (by simp [hen]) (by simp [hidle, hnone, Option.isNone_eq_false_iff.mpr hactive]), hen,
    Dev.twinStandby_off hstandby]

end TwinConfig

theorem exec_twinRecover {p : Packet} {s : State} {q : QPacket} (h : Ready opTwinRecover p s q) (hresv : q.resv 0 0x1FFFF = false)
    (hfailed : (s.dev.ctl (q.f 0 16 16)).state = .failed) : exec (.twinRecover p) s =
    .next ((s.withDev (s.dev.updCtl (q.f 0 16 16) (fun c => { c with recoverAsked := true }))).finish q stOk 0 []) :=
  congrArg Host.Outcome.next (packetRow_changed h (guarded_pass (firstErr_cons_none.mpr ⟨hresv,
    firstErr_cons_none.mpr ⟨by simp [hfailed], firstErr_nil⟩⟩)) rfl)

/-! A slice of the standby (R297, R298). -/

/-- The standby after slice `n`: a pass goes on, and a pass of a retry ends COLD; a first failure is tried again, a second one fails the die. -/
def Dev.sliceVerdict (d : Dev) (k n : Nat) (pass retry : Bool) : Dev :=
  if pass then
    let e := d.updCtl k (fun c => { c with nextSlice := if n = c.nextSlice then (n + 1) % 320 else c.nextSlice, retry := none })
    if retry then e.dieTo k .coldSynced else e
  else
    let e := d.sliceFail k n retry
    if retry then (e.updCtl k (fun c => { c with retry := none, noAuto := true })).dieTo k .failed
    else (e.updCtl k (fun c => { c with retry := some n })).dieTo k .cold

theorem exec_standbySliceEnd {sig : BitVec 64} {s : State} {k n ns : Nat} {d0 d a e : Dev} (hslice : s.dev.twin.slice = some (k, n))
    (hfree : s.dev.sliceNs (decide (sliceKind n = 1)) = (ns, d0)) (hd : d0.toRaw (((d0.ctl k).sliceAt.getD d0.time.raw) + ns) = d)
    (ha : (d.recordSlice k n (d.slicePasses k n sig) sig).sliceSample (sliceKind n) = a)
    (he : (a.setSlm { a.slalom with lastSliceEnd := some a.slalom.evalMs }).setTwin { a.twin with slice := none } = e) :
    exec (.standbySliceEnd sig) s =
      .next (s.withDev (e.sliceVerdict k n (d.slicePasses k n sig) (decide ((d.ctl k).retry = some n)))) := by
  subst hd ha he
  change execStandbySliceEnd sig s = _
  simp only [execStandbySliceEnd, hslice, hfree]
  rfl

/-! Self-test runs (R415 to R420). -/

section SelftestRun
variable {p : Packet} {s : State} {q : QPacket} {t : TestUnit} (h : Ready opSelftestRun p s q) (hresv : q.resv 0 0x07FF01FF = false)
  (hcount : q.f 0 8 0 + q.f 0 24 16 ≤ (if q.pkt.inst < 2 then 320 else 8)) (hkind : (q.b 0 25 || q.b 0 26) = true)
  (hrev : s.dev.revTested q.pkt.inst = true) (hstate : s.dev.testState q.pkt.inst = none) (ht : s.dev.testStart q = t)
include hresv hcount hkind hrev hstate ht

theorem opSelftestRun_body : opSelftestRun.body s q =
    if testSlices q = [] then
      { st := s.withDev (s.dev.setTest { t with state := .done, elapsedUs := 0, runs := bump 16 t.runs, pkt := none }), words := t.words false }
    else { st := s.withDev (if q.pkt.inst < 2 then s.dev.setTest t
      else (s.dev.setTest t).setFld (q.pkt.inst - 2) { s.dev.fld (q.pkt.inst - 2) with run := .inReset, stageAt := s.dev.time.raw }), later := true } := by
  subst ht
  exact guarded_pass (firstErr_cons_none.mpr ⟨hresv, firstErr_cons_none.mpr ⟨by rw [hkind, decide_eq_false (Nat.not_lt.mpr hcount)]; rfl,
    firstErr_cons_none.mpr ⟨by simp [hrev], firstErr_cons_none.mpr ⟨by simp [hstate], firstErr_nil⟩⟩⟩⟩)

include h

theorem exec_selftestRun_started (hslices : testSlices q ≠ []) : exec (.selftestRun p) s = .next ((s.withDev
    (if q.pkt.inst < 2 then s.dev.setTest t
      else (s.dev.setTest t).setFld (q.pkt.inst - 2) { s.dev.fld (q.pkt.inst - 2) with run := .inReset, stageAt := s.dev.time.raw })).started q) :=
  congrArg Host.Outcome.next (row_later h ((opSelftestRun_body hresv hcount hkind hrev hstate ht).trans (if_neg hslices)) rfl
    (q.holds_short (by simp)) rfl)

theorem exec_selftestRun_ctl (hslices : testSlices q ≠ []) (hctl : q.pkt.inst < 2) :
    exec (.selftestRun p) s = .next ((s.withDev (s.dev.setTest t)).started q) := by
  rw [exec_selftestRun_started h hresv hcount hkind hrev hstate ht hslices, if_pos hctl]

theorem exec_selftestRun_fld {k : Nat} (hslices : testSlices q ≠ []) (hfld : q.pkt.inst = k + 2) : exec (.selftestRun p) s =
    .next ((s.withDev ((s.dev.setTest t).setFld k { s.dev.fld k with run := .inReset, stageAt := s.dev.time.raw })).started q) := by
  rw [exec_selftestRun_started h hresv hcount hkind hrev hstate ht hslices, if_neg (by omega), hfld, Nat.add_sub_cancel]

theorem exec_selftestRun_empty (hslices : testSlices q = []) : exec (.selftestRun p) s = .next ((s.withDev (s.dev.setTest { t with
    state := .done, elapsedUs := 0, runs := bump 16 t.runs, pkt := none })).finish q stOk 0 (t.words false)) :=
  congrArg Host.Outcome.next (row_done h ((opSelftestRun_body hresv hcount hkind hrev hstate ht).trans (if_pos hslices)) rfl
    (q.holds_short (by simp [TestUnit.words])) (.inl rfl))

end SelftestRun

/-- The run after a slice: the next slice, or its end, which a field die leaves with a FIELD reset. -/
def Dev.runVerdict (d : Dev) (inst : Nat) (rest : List Nat) : Dev :=
  if rest ≠ [] then d
  else if inst < 2 then d.endRun false
  else (d.endRun false).endFieldRun (inst - 2) (decide (0 < d.test.failed))

theorem exec_selftestSliceEnd {sig : BitVec 64} {s : State} {n : Nat} {rest : List Nat} {d0 d e : Dev} {ns w : Nat}
    (htodo : s.dev.test.todo = n :: rest) (hruns : s.dev.test.state = .running)
    (hroom : s.dev.test.die < 2 → s.dev.bistRoom (sliceKind n) 1 = true) (hns : s.dev.sliceNs (memSlice s.dev.test.die n) = (ns, d0))
    (hw : (if s.dev.test.ran = 0 then d0.freeNs 50000 1000000 else (0, d0)) = (w, d)) (he : (d.pass (ns + w)).runSlice s.dev.test.die n sig = e) :
    exec (.selftestSliceEnd sig) s = .next (s.withDev (e.runVerdict s.dev.test.die rest)) := by
  subst he
  have hgo : ¬(s.dev.test.state ≠ .running ∨ (s.dev.test.die < 2 ∧ (!s.dev.bistRoom (sliceKind n) 1) = true)) := by
    rintro (hidle | ⟨hctl, hfull⟩)
    · exact hidle hruns
    · simp [hroom hctl] at hfull
  change execSelftestSliceEnd sig s = _
  simp only [execSelftestSliceEnd, htodo]
  rw [if_neg hgo]
  simp only [hns, hw]
  rfl

/-! Results (R297, R415). -/

theorem SliceResult.block_checked {c f lim : Nat} (hsome : c ≠ 0) (hend : f + c ≤ lim) : decide (c = 0 ∨ lim < f + c) = false :=
  decide_eq_false (not_or.mpr ⟨hsome, Nat.not_lt.mpr hend⟩)

theorem exec_selftestResult {p : Packet} {s : State} {q : QPacket} {ws : List Word} (h : Ready opSelftestResult p s q)
    (hresv : q.resv 0 0x01FF01FF = false) (hsome : q.f 0 24 16 ≠ 0) (hend : q.f 0 8 0 + q.f 0 24 16 ≤ (if q.pkt.inst < 2 then 320 else 8))
    (hws : (List.range (q.f 0 24 16)).flatMap (fun i => (if q.pkt.inst < 2 then (s.dev.ctl q.pkt.inst).slices.rd (q.f 0 8 0 + i)
      else (s.dev.test.fieldSlices.rd (q.pkt.inst - 2)).rd (q.f 0 8 0 + i)).words q.pkt.inst (q.f 0 8 0 + i) s.dev.recorder.opTime) = ws)
    (hfit : q.holds ws.length) : exec (.selftestResult p) s = .next (s.finish q stOk 0 ws) := by
  subst hws
  exact congrArg Host.Outcome.next (row_done h (guarded_pass (firstErr_cons_none.mpr ⟨hresv,
    firstErr_cons_none.mpr ⟨SliceResult.block_checked hsome hend, firstErr_nil⟩⟩)) rfl hfit (.inl rfl))

theorem exec_healthReport {p : Packet} {s : State} {q : QPacket} {ws : List Word} (h : Ready opHealthReport p s q)
    (hresv0 : q.resv 0 0x01FF01FF = false) (hresv1 : q.resv 1 1 = false) (hsome : q.f 0 24 16 ≠ 0) (hend : q.f 0 8 0 + q.f 0 24 16 ≤ 320)
    (hws : (List.range (q.f 0 24 16)).flatMap (fun i => ((s.dev.ctl (q.f 1 0 0)).slices.rd (q.f 0 8 0 + i)).words (q.f 1 0 0) (q.f 0 8 0 + i)
      s.dev.recorder.opTime) = ws) (hfit : q.holds ws.length) : exec (.healthReport p) s = .next (s.finish q stOk 0 ws) := by
  subst hws
  exact congrArg Host.Outcome.next (row_done h (guarded_pass (firstErr_cons_none.mpr ⟨hresv0, firstErr_cons_none.mpr ⟨hresv1,
    firstErr_cons_none.mpr ⟨SliceResult.block_checked hsome hend, firstErr_nil⟩⟩⟩)) rfl hfit (.inl rfl))

/-- Settles O23: a swap by whether frames are STOPPED, TWIN_CONFIG by what it makes of the standby, a slice by its verdict, a run by its die and whether
it is over, each other event and packet by the checks that its hypotheses let pass. -/
theorem swapAndSelfTestCommandsComplete : Obligations.SwapAndSelfTestCommandsComplete := by
  unfold Obligations.SwapAndSelfTestCommandsComplete
  refine ⟨?swap, ?cancel, ?prepare, ?handover, ?status, ?config, ?recover, ?slice, ?run, ?runSlice, ?result, ?health⟩
  case swap =>
    rintro p s q _ k _ h hresv rfl rfl henabled hidle htest hstandby heligible
    exact ⟨exec_swap_stopped h hresv henabled hidle htest hstandby heligible, exec_swap_next h hresv henabled hidle htest hstandby heligible,
      exec_swap_frame h hresv henabled hidle htest hstandby heligible⟩
  case cancel => intro p s q h hresv; exact ⟨exec_swapCancel_pending h hresv, exec_swapCancel_idle h hresv⟩
  case prepare =>
    intro s k d hstandby hpending hearly hd
    exact ⟨exec_swapPrepare_wakes hstandby hpending hearly hd, exec_swapPrepare_aborts hstandby hpending hearly hd⟩
  case handover => intro s a t d; exact exec_swapHandover
  case status => intro p s q; exact exec_twinStatus
  case config =>
    rintro p s q _ d h hj hresv hop hmax hlo hhi rfl hd
    refine ⟨?cold, ?stays, ?off⟩
    case cold =>
      intro k hen hrev htimeout hstandby hoff hrail
      rw [exec_twinConfig_on h hj hresv hop hmax hlo hhi hd hen hrev htimeout, Dev.twinStandby_cold hstandby hoff hrail]
    case stays =>
      intro hen hrev htimeout hstays
      rw [exec_twinConfig_on h hj hresv hop hmax hlo hhi hd hen hrev htimeout, Dev.twinStandby_stays hstays]
    case off => intro k; exact exec_twinConfig_off h hj hresv hop hmax hlo hhi hd
  case recover => intro p s q; exact exec_twinRecover
  case slice =>
    intro sig s k n ns d0 d a e hslice hfree hd ha he
    have hend := exec_standbySliceEnd hslice hfree hd ha he
    refine ⟨?pass, ?fail⟩
    case pass =>
      rintro _ rfl hpass
      refine ⟨fun hretry => ?_, fun hfirst => ?_⟩
      · rwa [hpass, decide_eq_true hretry] at hend
      · rwa [hpass, decide_eq_false hfirst] at hend
    case fail =>
      intro hfail
      refine ⟨fun hretry => ?_, fun hfirst => ?_⟩
      · rwa [hfail, decide_eq_true hretry] at hend
      · rwa [hfail, decide_eq_false hfirst] at hend
  case run =>
    intro p s q t h hresv hcount hkind hrev hstate ht
    exact ⟨exec_selftestRun_ctl h hresv hcount hkind hrev hstate ht, fun k => exec_selftestRun_fld h hresv hcount hkind hrev hstate ht,
      exec_selftestRun_empty h hresv hcount hkind hrev hstate ht⟩
  case runSlice =>
    intro sig s n rest d0 d e ns w htodo hruns hroom hns hw he
    have hend := exec_selftestSliceEnd htodo hruns hroom hns hw he
    refine ⟨fun hmore => ?_, fun hlast hctl => ?_, fun hlast hfld => ?_⟩
    · rwa [Dev.runVerdict, if_pos hmore] at hend
    · rwa [Dev.runVerdict, if_neg (not_not.mpr hlast), if_pos hctl] at hend
    · rwa [Dev.runVerdict, if_neg (not_not.mpr hlast), if_neg (Nat.not_lt.mpr hfld)] at hend
  case result =>
    rintro p s q _ _ h hresv rfl rfl hsome hend ws hws hfit
    exact exec_selftestResult h hresv hsome hend hws hfit
  case health =>
    rintro p s q _ _ h hresv0 hresv1 rfl rfl hsome hend ws hws hfit
    exact exec_healthReport h hresv0 hresv1 hsome hend hws hfit

end Sys2Proof.Machine
end

section
/-! The rails: the sequencer, the loss and the return of a rail in service, and the hub's mux (R279, R299, R391 to R395). -/

namespace Sys2Proof.Machine

open Sys2Proof Sys2Proof.Bits

/-! The sequencer (R394). -/

section RailStep
variable {pg : BitVec 6} {s : State} {n : Nat} {on : List Nat} {d : Dev} {t : Power} (hseq : s.dev.power.sequencing = true)
  (hn : s.dev.power.nextStep s.dev.power.stepNext = n)
  (hon : (if (s.dev.power.stepRails n).any (fun r => s.dev.power.railEn.getLsbD r && !s.dev.power.railPg.getLsbD r) then []
    else s.dev.power.toEnable n) = on)
  (hd : (on.foldl (fun acc r => acc.pmbusSet r) s.dev).pass (on.foldl (fun a r => max a (s.dev.power.rail r).delayMs) 0 * 1000000) = d)
  (ht : { d.power with
    railEn := d.power.railEn ||| railBits on, railPg := (pg ||| d.power.railPg) &&& (d.power.railEn ||| railBits on), stepNext := n } = t)
include hseq hn hon hd ht

theorem exec_railStep :
    exec (.railStep pg) s = .next (s.withDev (d.setPwr (if n = 6 then { t with stepNext := 6 } else t.endStep n))) := by
  subst ht
  refine congrArg Host.Outcome.next ((if_neg (by simp [hseq])).trans ?_)
  simp only [hn, hon, hd]

theorem exec_railStep_last (hlast : n = 6) : exec (.railStep pg) s = .next (s.withDev (d.setPwr { t with stepNext := 6 })) := by
  rw [exec_railStep hseq hn hon hd ht, if_pos hlast]

theorem exec_railStep_more (hmore : n ≠ 6) : exec (.railStep pg) s = .next (s.withDev (d.setPwr (t.endStep n))) := by
  rw [exec_railStep hseq hn hon hd ht, if_neg hmore]

end RailStep

section RailPgTimeout
variable {r : Fin 6} {s : State} {d : Dev} (hseq : s.dev.power.sequencing = true) (hstep : (s.dev.power.rail r.val).stepNo = s.dev.power.stepNext)
  (hen : s.dev.power.railEn.getLsbD r.val = true) (hbad : s.dev.power.railPg.getLsbD r.val = false)
  (hd : s.dev.pass ((s.dev.power.rail r.val).pgToMs * 1000000) = d)
include hseq hstep hen hbad hd

theorem exec_railPgTimeout : exec (.railPgTimeout r) s = .next (
    if s.dev.power.spares r.val then s.withDev (d.setPwr (((d.power.holdFail r.val).railOff r.val).endStep s.dev.power.stepNext))
    else
      let e := (d.setPwr (d.power.holdFail r.val)).railsOff
      s.withDev (e.setPwr { e.power with stepNext := 7, attempts := s.dev.power.attempts + 1 })) := by
  subst hd
  exact congrArg Host.Outcome.next (if_neg (by simp [-BitVec.getLsbD_eq_getElem, hseq, hstep, hen, hbad]))

theorem exec_railPgTimeout_spared (hspares : s.dev.power.spares r.val = true) : exec (.railPgTimeout r) s =
    .next (s.withDev (d.setPwr (((d.power.holdFail r.val).railOff r.val).endStep s.dev.power.stepNext))) := by
  rw [exec_railPgTimeout hseq hstep hen hbad hd, if_pos hspares]

theorem exec_railPgTimeout_fails {e : Dev} (hneeded : s.dev.power.spares r.val = false) (he : (d.setPwr (d.power.holdFail r.val)).railsOff = e) :
    exec (.railPgTimeout r) s = .next (s.withDev (e.setPwr { e.power with stepNext := 7, attempts := s.dev.power.attempts + 1 })) := by
  rw [exec_railPgTimeout hseq hstep hen hbad hd, if_neg (by simp [hneeded]), he]

end RailPgTimeout

theorem exec_railSequenceRetry {s : State} {d : Dev} (hfailed : s.dev.power.stepNext = 7) (hleft : s.dev.power.attempts < 3)
    (hon : s.dev.power.on = true) (hd : s.dev.pass 1000000000 = d) :
    exec .railSequenceRetry s = .next (s.withDev (d.setPwr { d.power with stepNext := 0 })) := by
  subst hd
  exact congrArg Host.Outcome.next (if_neg (by simp [hfailed, hleft, hon]))

/-! Rails in service (R299, R395). -/

section RailPgLoss
variable {r : Fin 6} {s : State} {d : Dev} {f : BitVec 7} (hub : s.dev.hubUp = true) (hgood : s.dev.power.railPg.getLsbD r.val = true)
  (hbreath : s.dev.power.lbAt = none) (hd : s.dev.setPwr { s.dev.power with railPg := s.dev.power.railPg &&& ~~~ railBits [r.val] } = d)
  (hf : (d.power.rail r.val).func = f)
include hub hgood hbreath hd hf

/-- Without a rail that carries `f` the device cannot run (R395). -/
theorem exec_railPgLoss_por (hpor : (f.getLsbD 0 || f.getLsbD 1 || f.getLsbD 4 ||
      ((f.getLsbD 2 || f.getLsbD 3) && !d.power.good 2 && !d.power.good 3 && !d.power.saveOn)) = true) :
    exec (.railPgLoss r) s = .next (s.after (d.por .railPg r.val false true)) := by
  subst hd hf
  exact congrArg Host.Outcome.next ((if_neg (by simp [hub, hgood, hbreath])).trans (if_pos hpor))

/-- The control dies whose cores the rail carries lose them. -/
theorem exec_railPgLoss_ctl (hgoes : (f.getLsbD 0 || f.getLsbD 1 || f.getLsbD 4 ||
      ((f.getLsbD 2 || f.getLsbD 3) && !d.power.good 2 && !d.power.good 3 && !d.power.saveOn)) = false) {e : Dev}
    (he : (if f.getLsbD 5 then d.ctlRailLost 0 else d) = e) :
    exec (.railPgLoss r) s = .next (s.withDev (if f.getLsbD 6 then e.ctlRailLost 1 else e)) := by
  subst hd hf he
  exact congrArg Host.Outcome.next ((if_neg (by simp [hub, hgood, hbreath])).trans (if_neg (Bool.eq_false_iff.mp hgoes)))

end RailPgLoss

theorem exec_railPgReturn {r : Fin 6} {s : State} {d e : Dev} {f : BitVec 7} (hub : s.dev.hubUp = true)
    (hen : s.dev.power.railEn.getLsbD r.val = true) (hbad : s.dev.power.railPg.getLsbD r.val = false)
    (hd : s.dev.setPwr { s.dev.power with railPg := s.dev.power.railPg ||| railBits [r.val] } = d) (hf : (d.power.rail r.val).func = f)
    (he : (if f.getLsbD 5 then d.ctlRailBack 0 else d) = e) :
    exec (.railPgReturn r) s = .next (s.withDev (if f.getLsbD 6 then e.ctlRailBack 1 else e)) := by
  subst hd hf he
  exact congrArg Host.Outcome.next (if_neg (by simp [-BitVec.getLsbD_eq_getElem, hub, hen, hbad]))

/-! The hub's mux (R391). -/

section HubMux
variable {va vb a b : Nat} {s : State} {d : Dev} (hub : s.dev.hubUp = true) (ha : satN 16 va = a) (hb : satN 16 vb = b)
  (hd : s.dev.setPwr { s.dev.power with vhaMv := a, vhbMv := b } = d)
include hub ha hb hd

theorem exec_hubMuxSwitch_saved (hsave : d.power.saveOn = true) : exec (.hubMuxSwitch va vb) s = .next (s.withDev d) := by
  subst ha hb hd
  exact congrArg Host.Outcome.next ((if_neg (by simp [hub])).trans (if_pos hsave))

theorem exec_hubMuxSwitch_por (hsave : d.power.saveOn = false) (hlowA : a < 780) (hlowB : b < 780) :
    exec (.hubMuxSwitch va vb) s = .next (s.after (d.por .hubCoreUv 0 false true)) := by
  subst ha hb hd
  exact congrArg Host.Outcome.next ((if_neg (by simp [hub])).trans ((if_neg (Bool.eq_false_iff.mp hsave)).trans (if_pos ⟨hlowA, hlowB⟩)))

section OneGood
variable {vs vo : Nat} (hsave : d.power.saveOn = false) (hgood : 780 ≤ a ∨ 780 ≤ b) (hsel : (if d.power.hubSelB then (b, a) else (a, b)) = (vs, vo))
include hsave hgood hsel

/-- The mux stays while its rail is good enough. -/
theorem exec_hubMuxSwitch_stays (hstays : ¬(vs + 20 < vo ∨ (vs < 800 ∧ 820 ≤ vo))) : exec (.hubMuxSwitch va vb) s = .next (s.withDev d) := by
  subst ha hb
  refine congrArg Host.Outcome.next ((if_neg (by simp [hub])).trans ?_)
  simp only [hd, hsel]
  rw [if_neg (Bool.eq_false_iff.mp hsave), if_neg (by omega), if_neg hstays]

theorem exec_hubMuxSwitch_moves {x : Nat × Dev} {n : Nat} (hmoves : vs + 20 < vo ∨ (vs < 800 ∧ 820 ≤ vo)) (hx : d.freeNs 0 1000 = x)
    (hn : bump 16 (x.2.pass x.1).power.muxSwitchCnt = n) : exec (.hubMuxSwitch va vb) s =
    .next (s.withDev ((((x.2.pass x.1).setPwr { (x.2.pass x.1).power with
      hubSelB := !(x.2.pass x.1).power.hubSelB, muxSwitchCnt := n }).satAt 0x50 16 n).raise 0x5005 0x5000 .warn
      (b1 (!(x.2.pass x.1).power.hubSelB) + 2 ^ 16 * vs + 2 ^ 32 * vo))) := by
  subst ha hb hn
  refine congrArg Host.Outcome.next ((if_neg (by simp [hub])).trans ?_)
  simp only [hd, hsel, hx]
  rw [if_neg (Bool.eq_false_iff.mp hsave), if_neg (by omega), if_pos hmoves]

end OneGood
end HubMux

/-- Settles O31: a step by whether rails are left, a timeout by whether the sequence can do without the rail, a loss by what the rail carries, the mux
by its readings. -/
theorem railEventsComplete : Obligations.RailEventsComplete := by
  unfold Obligations.RailEventsComplete
  refine ⟨?step, ?timeout, ?retry, ?loss, ?back, ?mux⟩
  case step =>
    rintro pg s _ n on d t rfl hseq hn hon hd ht
    exact ⟨exec_railStep_last hseq hn hon hd ht, exec_railStep_more hseq hn hon hd ht⟩
  case timeout =>
    rintro r s _ d rfl hseq hstep hen hbad hd
    exact ⟨exec_railPgTimeout_spared hseq hstep hen hbad hd, fun e => exec_railPgTimeout_fails hseq hstep hen hbad hd⟩
  case retry => intro s d; exact exec_railSequenceRetry
  case loss =>
    rintro r s d f hub hgood hbreath hd hf b hb
    refine ⟨fun hpor => exec_railPgLoss_por hub hgood hbreath hd hf (hb.trans hpor), ?_, ?_, ?_, ?_⟩
    all_goals
      intro hgoes h5 h6
      rw [exec_railPgLoss_ctl hub hgood hbreath hd hf (hb.trans hgoes) rfl]
      simp only [h5, h6, Bool.false_eq_true, if_true, if_false]
  case back =>
    intro r s d e f hub hen hbad hd hf he
    have hback := exec_railPgReturn hub hen hbad hd hf he
    exact ⟨fun h6 => by rwa [if_pos h6] at hback, fun h6 => by rwa [if_neg (Bool.eq_false_iff.mp h6)] at hback⟩
  case mux =>
    intro va vb a b s d hub ha hb hd
    exact ⟨exec_hubMuxSwitch_saved hub ha hb hd, exec_hubMuxSwitch_por hub ha hb hd, fun vs vo hsave hgood hsel =>
      ⟨exec_hubMuxSwitch_stays hub ha hb hd hsave hgood hsel, fun x n => exec_hubMuxSwitch_moves hub ha hb hd hsave hgood hsel⟩⟩

end Sys2Proof.Machine
end

section
/-! The feeds, the save supply, the last breath, KEEP's wake, thermal trips and PMBus in service (R387 to R395, R403, R408, R409). -/

namespace Sys2Proof.Machine

open Sys2Proof Sys2Proof.Bits

/-! The feeds of a field die (R387, R388). -/

theorem exec_feedLowWarn {k : Fin 4} {b low : Bool} {mv m : Nat} {s : State} {f : FeedState} (hseen : s.dev.feedSeen k.val = true)
    (hf : s.dev.power.feeds.rd k.val = f) (hm : satN 16 mv = m) (hchange : (if b then f.lowB else f.lowA) ≠ low)
    (hlevel : if low = true then m < s.dev.power.table.feedWarn * 100 else s.dev.power.table.feedWarn * 100 + 500 ≤ m) :
    exec (.feedLowWarn k b low mv) s = .next (s.withDev
      ((s.dev.updFeed k.val (fun f => if b then { f.read b m with lowB := low } else { f.read b m with lowA := low })).feedEvent k.val 0x5002
        .warn (b1 b + 2 ^ 8 * b1 low + 2 ^ 16 * m))) := by
  have hholds : (if low then decide (m < s.dev.power.table.feedWarn * 100) else decide (s.dev.power.table.feedWarn * 100 + 500 ≤ m)) = true := by
    cases low with
    | true => exact decide_eq_true hlevel
    | false => exact decide_eq_true hlevel
  subst hf hm
  exact congrArg Host.Outcome.next (if_neg (by rw [hseen, hholds, beq_false_of_ne hchange]; decide))

section Overvoltage
variable {k : Fin 4} {b : Bool} {mv m : Nat} {s : State} (hseen : s.dev.feedSeen k.val = true) (hm : satN 16 mv = m)
include hseen hm

theorem exec_feedOvervoltage {o : Bool} {d : Dev} (hover : (if o then 36000 else 33000) < m)
    (hd : s.dev.updFeed k.val (fun f =>
      if b then { f.read b m with overB := true, openB := f.openB || o } else { f.read b m with overA := true, openA := f.openA || o }) = d) :
    exec (.feedOvervoltage k b o mv) s = .next (s.withDev
      (if (if b then (s.dev.power.feeds.rd k.val).overB else (s.dev.power.feeds.rd k.val).overA) then d
      else d.feedEvent k.val 0x5002 .warn (b1 b + 2 ^ 9 + 2 ^ 16 * m))) := by
  subst hm hd
  exact congrArg Host.Outcome.next (if_neg (by rw [hseen]; simpa using hover))

theorem exec_feedOvervoltageClear (hbelow : m < 33000) : exec (.feedOvervoltageClear k b mv) s = .next (s.withDev (s.dev.updFeed k.val (fun f =>
    if b then { f.read b m with overB := false, openB := false } else { f.read b m with overA := false, openA := false }))) := by
  subst hm
  exact congrArg Host.Outcome.next (if_neg (by rw [hseen]; simpa using hbelow))

end Overvoltage

theorem exec_feedLoss {k : Fin 4} {av bv a b : Nat} {s : State} {d : Dev} (hseen : s.dev.feedSeen k.val = true) (ha : satN 16 av = a)
    (hb : satN 16 bv = b) (hlowA : a < 16000) (hlowB : b < 16000) (hfirst : (s.dev.power.feeds.rd k.val).lost = false)
    (hbreath : s.dev.power.lbAt = none)
    (hd : (((s.dev.updFeed k.val (fun f => { f with aMv := a, bMv := b, lost := true })).allPowerFail k.val).setOutState k.val .disarmed).feedEvent
      k.val 0x5003 .crit (a + 2 ^ 16 * b) = d) :
    exec (.feedLoss k av bv) s = .next (s.withDev (d.raise 0x1023 (fldSrc k.val) .info OutState.disarmed.num)) := by
  subst ha hb hd
  exact congrArg Host.Outcome.next (if_neg (by simp [hseen, hlowA, hlowB, hfirst, hbreath]))

section FeedReturn
variable {k : Fin 4} {b : Bool} {mv m : Nat} {s : State} (hm : satN 16 mv = m) (hback : 18000 < m)
include hm hback

/-- After a last breath a feed starts the device. -/
theorem exec_feedReturn_start (hoff : s.dev.power.phase = .poweredOff) (hkeep : s.dev.power.keep = false) :
    exec (.feedReturn k b mv) s = .next (s.after (s.dev.por .lastBreath 0 s.dev.power.lbDone false)) := by
  subst hm
  exact congrArg Host.Outcome.next ((if_neg (Nat.not_le.mpr hback)).trans ((if_pos hoff).trans (if_neg (Bool.eq_false_iff.mp hkeep))))

/-- A die that had lost its feeds, without a reset, has its outputs off. -/
theorem exec_feedReturn {d e : Dev} (hon : s.dev.power.phase ≠ .poweredOff) (hbreath : s.dev.power.lbAt = none)
    (hd : s.dev.updFeed k.val (fun f => { f.read b m with lost := false }) = d)
    (he : d.setPwr { d.power with fieldFeed := d.power.fieldFeed.wr k.val false } = e) : exec (.feedReturn k b mv) s = .next (s.withDev
      (if (s.dev.power.feeds.rd k.val).lost && !s.dev.power.fieldFeed.rd k.val && e.fldRuns k.val then e.allOff k.val else e)) := by
  subst hm hd he
  exact congrArg Host.Outcome.next ((if_neg (Nat.not_le.mpr hback)).trans ((if_neg hon).trans (if_neg (by simp [hbreath]))))

end FeedReturn

theorem exec_feedReset {k : Fin 4} {s : State} (hbreath : s.dev.power.lbAt = none) (hfirst : s.dev.power.fieldFeed.rd k.val = false) :
    exec (.feedReset k) s = .next (s.withDev
      ((s.dev.setPwr { s.dev.power with fieldFeed := s.dev.power.fieldFeed.wr k.val true }).orderFieldReset k.val 14)) :=
  congrArg Host.Outcome.next (if_neg (by simp [hbreath, hfirst]))

/-! The save supply, the last breath and KEEP (R392, R408, R409). -/

theorem exec_saveSupplyStart {s : State} {n : Nat} {d : Dev} (hub : s.dev.hubUp = true) (hidle : s.dev.power.saveOn = false)
    (hfree : s.dev.freeNs 0 20000 = (n, d)) : exec .saveSupplyStart s =
    .next (s.withDev ((d.pass n).setPwr { (d.pass n).power with saveOn := true, saveAt := (d.pass n).time.raw })) := by
  obtain ⟨rfl, rfl⟩ := Prod.mk.inj hfree
  exact congrArg Host.Outcome.next (if_neg (by simp [hub, hidle]))

theorem exec_saveSupplyRelease {s : State} (hsave : s.dev.power.saveOn = true) (hbreath : s.dev.power.lbAt = none) :
    exec .saveSupplyRelease s = .next (s.withDev (s.dev.setPwr { s.dev.power with saveOn := false })) :=
  congrArg Host.Outcome.next (if_pos ⟨hsave, by simp [hbreath]⟩)

theorem exec_lastBreathConfirm {s : State} (hub : s.dev.hubUp = true) (hsave : s.dev.power.saveOn = true) (hbreath : s.dev.power.lbAt = none) :
    exec .lastBreathConfirm s = .next (s.withDev ((s.dev.toRaw (s.dev.power.saveAt + 1000000)).lastBreath)) :=
  congrArg Host.Outcome.next (if_neg (by simp [hub, hsave, hbreath]))

theorem exec_lastBreathDone {s : State} {t n us : Nat} {d e f : Dev} (hbreath : s.dev.power.lbAt = some t) (hopen : s.dev.power.lbDone = false)
    (hub : s.dev.hubUp = true) (hfree : s.dev.freeNs 0 (4000000 + 2000 * s.dev.slalom.journalUsed) = (n, d)) (he : (d.toRaw (t + n)).saveAll = e)
    (hus : satN 16 ((e.time.raw - t) / 10000) = us) (hf : (e.setPwr { e.power with lbDone := true, lbLastUs := us }).railsOff = f) :
    exec .lastBreathDone s = .next (s.after (f.setPwr { f.power with phase := .poweredOff, saveOn := false, lbAt := none })) := by
  subst he hus hf
  change execLastBreathDone s = _
  simp only [execLastBreathDone, hbreath]
  rw [if_neg (by simp [hopen, hub])]
  simp only [hfree]

section KeepWake
variable {s : State} (hoff : s.dev.power.phase = .poweredOff) (hkeep : s.dev.power.keep = true)
include hoff hkeep

theorem exec_keepWake_resetN : exec (.keepWake none) s = .next (s.after (s.dev.por .keepWake 0 true true)) :=
  congrArg Host.Outcome.next (if_neg (by simp [hoff, hkeep]))

theorem exec_keepWake_source {b : Fin 5} (hmask : s.dev.power.wakeMask.getLsbD b.val = true) :
    exec (.keepWake (some b)) s = .next (s.after (s.dev.por .keepWake (8 + b.val) true true)) :=
  congrArg Host.Outcome.next ((if_neg (by simp [hoff, hkeep])).trans (if_pos hmask))

end KeepWake

/-! Temperature (R403). -/

section ThermalTrip
variable {s : State} (hub : s.dev.hubUp = true) (hbreath : s.dev.power.lbAt = none)
include hub hbreath

/-- A trip of the hub is a DEVICE reset that holds the control-die rails off. -/
theorem exec_dieThermalTrip_hub {d : Dev} {f : List Nat} (hd : s.dev.deviceReset .thermal 0 true false = d)
    (hf : (List.range 6).filter (fun r => decide ((d.power.rail r).func.getLsbD 5 = true ∨ (d.power.rail r).func.getLsbD 6 = true)) = f) :
    exec (.dieThermalTrip 0) s = .next (s.after (d.setPwr { d.power with
      thermalHold := true, railEn := d.power.railEn &&& ~~~ railBits f, railPg := d.power.railPg &&& ~~~ railBits f })) := by
  subst hd hf
  exact congrArg Host.Outcome.next (if_neg (by simp [hub, hbreath]))

theorem exec_dieThermalTrip_ctl {i : Fin 7} (hctl : i.val = 1 ∨ i.val = 2) :
    exec (.dieThermalTrip i) s = .next (s.withDev (s.dev.hardFault (i.val - 1) .thermal)) :=
  congrArg Host.Outcome.next ((if_neg (by simp [hub, hbreath])).trans ((if_neg (by omega)).trans (if_pos (by omega))))

theorem exec_dieThermalTrip_fld {i : Fin 7} (hfld : 3 ≤ i.val) (hfirst : s.dev.power.fieldThermal.rd (i.val - 3) = false) :
    exec (.dieThermalTrip i) s = .next (s.withDev
      ((s.dev.setPwr { s.dev.power with fieldThermal := s.dev.power.fieldThermal.wr (i.val - 3) true }).orderFieldReset (i.val - 3) 11)) :=
  congrArg Host.Outcome.next ((if_neg (by simp [hub, hbreath])).trans ((if_neg (by omega)).trans ((if_neg (by omega)).trans
    (if_neg (Bool.eq_false_iff.mp hfirst)))))

end ThermalTrip

theorem exec_thermalRecover_hub {s : State} (hheld : s.dev.power.thermalHold = true) : exec (.thermalRecover 0) s =
    .next (s.withDev (s.dev.setPwr { s.dev.power with
      thermalHold := false, stepNext := min (s.dev.power.stepOf 5) (s.dev.power.stepOf 6) })) :=
  congrArg Host.Outcome.next (if_pos hheld)

theorem exec_thermalRecover_fld {s : State} {i : Fin 7} (hfld : 3 ≤ i.val) : exec (.thermalRecover i) s =
    .next (s.withDev (s.dev.setPwr { s.dev.power with fieldThermal := s.dev.power.fieldThermal.wr (i.val - 3) false })) :=
  congrArg Host.Outcome.next ((if_neg (by omega)).trans (if_neg (by omega)))

/-! PMBus in service (R395). -/

section Pmbus
variable {s : State} (hub : s.dev.hubUp = true)
include hub

theorem exec_pmbusTelemetry {l : List (Option (Nat × Nat))} {d : Dev} (hen : s.dev.power.table.telemEn = true)
    (hd : s.dev.pmbusAll [0x8B, 0x8C] = d) : exec (.pmbusTelemetry l) s =
    .next (s.withDev (d.setPwr ((List.range 6).foldl (fun p r => p.telemetry r (l.getD r none)) d.power))) := by
  change execPmbusTelemetry l s = _
  simp only [execPmbusTelemetry, hub, hen, hd]
  rfl

theorem exec_pmbusGainAdjust {l : List Int} (hen : s.dev.power.table.telemEn = true) : exec (.pmbusGainAdjust l) s =
    .next (s.withDev (s.dev.setPwr { s.dev.power with
      gains := (List.range 6).foldl (fun t r => if (s.dev.power.rail r).pmAddr = 0 then t
        else t.wr r (t.rd r + clampInt (-50) 50 (l.getD r (t.rd r) - t.rd r))) s.dev.power.gains })) := by
  change execPmbusGainAdjust l s = _
  simp only [execPmbusGainAdjust, hub, hen]
  rfl

theorem exec_pmbusAlert {l : List (Option (BitVec 16))} : exec (.pmbusAlert l) s =
    .next (s.withDev ((List.range 6).foldl (fun acc r => acc.pmbusStatus r (l.getD r none)) (s.dev.pmbusAll [0x79]))) := by
  change execPmbusAlert l s = _
  simp only [execPmbusAlert, hub]
  rfl

end Pmbus

/-- Settles O32: a feed by what it was before, its return by whether the device is off, a trip and its end by the die, each other event by the checks
that its hypotheses let pass. -/
theorem feedAndSupplyEventsComplete : Obligations.FeedAndSupplyEventsComplete := by
  unfold Obligations.FeedAndSupplyEventsComplete
  refine ⟨?low, ?overvoltage, ?overClear, ?loss, ?back, ?reset, ?start, ?release, ?confirm, ?done, ?wake, ?trip, ?recover, ?pmbus⟩
  case low => intro k b low mv m s f; exact exec_feedLowWarn
  case overvoltage =>
    rintro k b o mv m s _ d hseen rfl hm hover hd
    have hevent := exec_feedOvervoltage hseen hm hover hd
    exact ⟨fun hwas => by rwa [if_pos hwas] at hevent, fun hnew => by rwa [if_neg (Bool.eq_false_iff.mp hnew)] at hevent⟩
  case overClear => intro k b mv m s; exact exec_feedOvervoltageClear
  case loss => intro k av bv a b s d; exact exec_feedLoss
  case back =>
    intro k b mv m s hm hback
    refine ⟨exec_feedReturn_start hm hback, fun d e hon hbreath hd he => ?_⟩
    have hreturn := exec_feedReturn hm hback hon hbreath hd he
    exact ⟨fun hoff => by rwa [if_pos hoff] at hreturn, fun hstays => by rwa [if_neg (Bool.eq_false_iff.mp hstays)] at hreturn⟩
  case reset => intro k s; exact exec_feedReset
  case start => intro s n d; exact exec_saveSupplyStart
  case release => intro s; exact exec_saveSupplyRelease
  case confirm => intro s; exact exec_lastBreathConfirm
  case done => intro s t n us d e f; exact exec_lastBreathDone
  case wake => intro s hoff hkeep; exact ⟨exec_keepWake_resetN hoff hkeep, fun b => exec_keepWake_source hoff hkeep⟩
  case trip =>
    intro s hub hbreath
    exact ⟨fun d f => exec_dieThermalTrip_hub hub hbreath, fun i => exec_dieThermalTrip_ctl hub hbreath,
      fun i => exec_dieThermalTrip_fld hub hbreath⟩
  case recover => rintro s _ rfl; exact ⟨exec_thermalRecover_hub, fun i => exec_thermalRecover_fld⟩
  case pmbus =>
    intro s d hub
    exact ⟨fun l => exec_pmbusTelemetry hub, fun l => exec_pmbusGainAdjust hub, fun l => exec_pmbusAlert hub⟩

end Sys2Proof.Machine
end

section
/-! The servo, corrected time and its commands (R303, R306, R307, R312 to R316, R322, R324, Tables 14-3 to 14-8). -/

namespace Sys2Proof.Machine

open Sys2Proof Sys2Proof.Bits

/-! The samples of the servo and its holdover (R313 to R315). -/

theorem exec_servoSample {θ : Int} {s : State} (hhub : s.dev.hubUp = true) (hsource : s.dev.time.cfg.source = 1) : exec (.servoSample θ) s =
    .next (s.withDev ((s.dev.setTime { s.dev.time with sampleQ := s.dev.time.sampleQ.erase θ }).servoArrive θ)) :=
  congrArg Host.Outcome.next (if_neg (by simp [hhub, hsource]))

theorem exec_servoHoldover {s : State} {t : NetTime} {d : Dev} (ht : s.dev.time = t) (hservo : t.servo = .acquiring ∨ t.servo = .locked)
    (hidle : t.pendingChg = none) (hd : (s.dev.toRaw ((t.lastSample.getD t.raw) + 1000000 * t.cfg.holdMs)).setServo .holdover = d) :
    exec .servoHoldover s = .next (s.withDev (d.sendRate (rateOf (-ratOf d.time.acc)))) := by
  subst ht hd
  have hruns : ¬((s.dev.time.servo ≠ .acquiring ∧ s.dev.time.servo ≠ .locked) ∨ s.dev.time.pendingChg.isSome = true) := by
    rcases hservo with hservo | hservo <;> simp [hservo, hidle]
  exact congrArg Host.Outcome.next (if_neg hruns)

/-! A change of corrected time at its raw instant (R307, R317). -/

section TimeChange
variable {s : State} {c : TimeChange} {d : Dev} (hhub : s.dev.hubUp = true) (hchange : s.dev.time.pendingChg = some c)
  (hd : s.dev.toRaw c.instant = d)
include hhub hchange hd

theorem exec_timeChangeApply_rate (hrate : c.step = none) : exec .timeChangeApply s =
    .next (s.withDev (Dev.servoDrain ((d.timeChanged c).time.heldQ.length + 1) (d.timeChanged c))) := by
  subst hd
  change execTimeChangeApply s = _
  simp only [execTimeChangeApply, hchange, hhub, hrate]
  rfl

theorem exec_timeChangeApply_step {e : Dev} (hstep : c.step.isSome = true) (he : (d.timeChanged c).timeStepped d.now (d.timeChanged c).now = e) :
    exec .timeChangeApply s = .next (s.withDev (Dev.servoDrain (e.time.heldQ.length + 1) e)) := by
  subst hd he
  change execTimeChangeApply s = _
  simp only [execTimeChangeApply, hchange, hhub, hstep]
  rfl

end TimeChange

/-! TIME_READ and the modes of TIME_ADJUST (R306, R322). -/

theorem exec_timeRead {p : Packet} {s : State} {q : QPacket} (h : Ready opTimeRead p s q) : exec (.timeRead p) s = .next (s.finish q stOk 0
    [w32 s.dev.now, w32 (s.dev.now / 2 ^ 32), w32 s.dev.time.raw, w32 (s.dev.time.raw / 2 ^ 32),
     pack [(s.dev.time.servo.num, 0), (s.dev.time.stepGen.toNat, 16)]]) :=
  congrArg Host.Outcome.next (row_done h rfl rfl (q.holds_short (by simp)) (.inl rfl))

theorem exec_timeAdjustOffset {p : Packet} {s : State} {q : QPacket} (h : Ready opTimeAdjustOffset p s q) (hresv : q.resv 0 3 = false)
    (hsource : s.dev.time.cfg.source = 2) (hpar : q.par 2 = 0) :
    exec (.timeAdjustOffset p) s = .next ((s.withDev (s.dev.servoArrive (sgn 32 (q.par 1).toNat))).finish q stOk 0 []) :=
  congrArg Host.Outcome.next (packetRow_changed h (guarded_pass (firstErr_cons_none.mpr ⟨hresv, firstErr_cons_none.mpr
    ⟨by simp [hsource], firstErr_cons_none.mpr ⟨by simp [hpar], firstErr_nil⟩⟩⟩)) rfl)

/-- The change of corrected time that a commanded step of `v` ns at raw instant `r` makes (R322). -/
def NetTime.stepChange (t : NetTime) (r : Nat) (v : Int) : TimeChange :=
  { instant := r, ofs := t.ofs + v * 65536, rate := t.rate, tRef := t.tRef, step := some v, acquire := decide (t.cfg.source = 2) }

/-- A commanded step that stays within its bound is pending from now on, at the instant the device fixes (R322). -/
theorem stepAns_fits {s : State} {q : QPacket} {amount : NetTime → Nat → Int} {r : Nat} {d : Dev} {v : Int} (hresv : q.resv 0 3 = false)
    (hsource : s.dev.time.cfg.source ≠ 1) (hidle : s.dev.time.pendingChg = none) (hinstant : s.dev.changeInstant = (r, d))
    (hv : amount s.dev.time r = v) (hfits : s.dev.time.stepFits v = true) :
    stepAns s q amount = { st := s.withDev (d.setTime { d.time with pendingChg := some (s.dev.time.stepChange r v) }), status := stOkPending } := by
  subst hv
  refine (guarded_pass (firstErr_cons_none.mpr ⟨hresv, firstErr_cons_none.mpr ⟨decide_eq_false hsource, firstErr_nil⟩⟩)).trans ?_
  simp only [hidle, hinstant, hfits]
  rfl

section TimeStep
variable {p : Packet} {s : State} {q : QPacket} {t : NetTime} {r : Nat} {d : Dev} {v : Int}

theorem exec_timeAdjustStep (h : Ready opTimeAdjustStep p s q) (hresv : q.resv 0 3 = false) (ht : s.dev.time = t) (hsource : t.cfg.source ≠ 1)
    (hidle : t.pendingChg = none) (hinstant : s.dev.changeInstant = (r, d)) (hv : sgn 64 q.v64 = v) (hfits : t.stepFits v = true) :
    exec (.timeAdjustStep p) s =
      .next ((s.withDev (d.setTime { d.time with pendingChg := some (t.stepChange r v) })).finish q stOkPending 0 []) := by
  subst ht
  have hbody := stepAns_fits (q := q) (amount := fun _ _ => sgn 64 q.v64) hresv hsource hidle hinstant hv hfits
  exact congrArg Host.Outcome.next (packetRow_pending h hbody rfl)

theorem exec_timeAdjustSet (h : Ready opTimeAdjustSet p s q) (hresv : q.resv 0 3 = false) (ht : s.dev.time = t) (hsource : t.cfg.source ≠ 1)
    (hidle : t.pendingChg = none) (hinstant : s.dev.changeInstant = (r, d)) (hv : (q.v64 : Int) - t.ctAt r = v) (hfits : t.stepFits v = true) :
    exec (.timeAdjustSet p) s =
      .next ((s.withDev (d.setTime { d.time with pendingChg := some (t.stepChange r v) })).finish q stOkPending 0 []) := by
  subst ht
  have hbody := stepAns_fits (q := q) (amount := fun t r => (q.v64 : Int) - t.ctAt r) hresv hsource hidle hinstant hv hfits
  exact congrArg Host.Outcome.next (packetRow_pending h hbody rfl)

end TimeStep

theorem exec_timeAdjustFreq {p : Packet} {s : State} {q : QPacket} {r : Int} (h : Ready opTimeAdjustFreq p s q) (hresv : q.resv 0 3 = false)
    (hsource : s.dev.time.cfg.source = 2) (hidle : s.dev.time.pendingChg = none) (hr : sgn 32 (q.par 1).toNat = r) (hbound : r.natAbs ≤ 549755813)
    (hpar : q.par 2 = 0) : exec (.timeAdjustFreq p) s = .next ((s.withDev ((s.dev.setServo .manual).sendRate r)).finish q stOk 0 []) := by
  subst hr
  exact congrArg Host.Outcome.next (packetRow_changed h ((guarded_pass (firstErr_cons_none.mpr ⟨hresv, firstErr_cons_none.mpr
    ⟨by simp [hsource], firstErr_cons_none.mpr ⟨decide_eq_false (Nat.not_lt.mpr hbound), firstErr_cons_none.mpr
      ⟨by simp [hpar], firstErr_nil⟩⟩⟩⟩)).trans (if_neg (by simp [hidle]))) rfl)

/-! SERVO_CONFIG (R324, Table 14-7). -/

theorem Dev.setServo_slalom (d : Dev) (v : ServoState) : (d.setServo v).slalom = d.slalom := by
  unfold Dev.setServo
  dsimp only
  split <;> rfl

section ServoConfig
variable {p : Packet} {s : State} {q : QPacket} {c : ServoCfg} (h : Ready opServoConfig p s q) (hj : Journals s q)
  (hchecks : firstErr (servoChecks q) = none) (hc : servoCfgOf q = c)
include h hj hchecks hc

theorem exec_servoConfig_same (hsame : c.source = s.dev.time.cfg.source) : exec (.servoConfig p) s =
    .next (((s.withDev (s.dev.setTime { s.dev.time with cfg := c })).entered 0x0805 q).finish q stOk 0 []) := by
  subst hc
  exact congrArg Host.Outcome.next (packetRow_entered h hj ((guarded_pass hchecks).trans (if_pos hsame)) rfl (by decide) rfl rfl)

theorem exec_servoConfig_new (hnew : c.source ≠ s.dev.time.cfg.source) : exec (.servoConfig p) s =
    .next (((s.withDev ((s.dev.setTime { s.dev.time with
      cfg := c, acc := 0, firstSample := true, outliers := [], sampleQ := [], heldQ := [] }).setServo .free)).entered 0x0805 q).finish q stOk 0 []) := by
  subst hc
  exact congrArg Host.Outcome.next (packetRow_entered h hj ((guarded_pass hchecks).trans (if_neg hnew)) rfl (by decide) rfl
    (Dev.setServo_slalom _ _))

end ServoConfig

/-! The reads that latch or clear (R306, R312). -/

section LatchingReads
variable {s : State} (hhub : s.dev.hubUp = true)
include hhub

theorem exec_timeLoRead : exec .timeLoRead s = .next (s.withDev ((s.dev.setTime { s.dev.time with
    shTimeHi := w32 (s.dev.now / 2 ^ 32), shFrac := w32 (((s.dev.time.ctFix s.dev.time.raw) % 65536).toNat) }).emit
      (.regRead 0x01000A08 (w32 s.dev.now)))) :=
  congrArg Host.Outcome.next (if_neg (by simp [hhub]))

theorem exec_rawLoRead : exec .rawLoRead s = .next (s.withDev ((s.dev.setTime { s.dev.time with shRawHi := w32 (s.dev.time.raw / 2 ^ 32) }).emit
    (.regRead 0x01000A00 (w32 s.dev.time.raw)))) :=
  congrArg Host.Outcome.next (if_neg (by simp [hhub]))

theorem exec_residMaxNsRead {k : Fin 3} {x : PtpPort} (hx : s.dev.time.port.rd k.val = x) : exec (.residMaxNsRead k) s =
    .next (s.withDev ((s.dev.setTime { s.dev.time with port := s.dev.time.port.wr k.val { x with residMaxNs := 0 } }).emit
      (.regRead (0x3000041C + 65536 * k.val) (pack [(x.badMsg, 0), (x.residMaxNs, 16)])))) := by
  subst hx
  exact congrArg Host.Outcome.next (if_neg (by simp [hhub]))

end LatchingReads

/-- Settles O24: each clause is the lemma about its command. -/
theorem timeBaseCommandsComplete : Obligations.TimeBaseCommandsComplete := by
  unfold Obligations.TimeBaseCommandsComplete
  refine ⟨?sample, ?holdover, ?change, ?read, ?adjustOffset, ?adjustStep, ?adjustSet, ?adjustFreq, ?config, ?reads⟩
  case sample => intro θ s hhub hsource; exact exec_servoSample hhub hsource
  case holdover => intro s t d ht hservo hidle hd; exact exec_servoHoldover ht hservo hidle hd
  case change =>
    intro s c d hhub hchange hd
    exact ⟨exec_timeChangeApply_rate hhub hchange hd, fun e => exec_timeChangeApply_step hhub hchange hd⟩
  case read => intro p s q h; exact exec_timeRead h
  case adjustOffset => intro p s q h hresv hsource hpar; exact exec_timeAdjustOffset h hresv hsource hpar
  case adjustStep =>
    intro p s q t r d v h hresv ht hsource hidle hinstant hv hfits
    exact exec_timeAdjustStep h hresv ht hsource hidle hinstant hv hfits
  case adjustSet =>
    intro p s q t r d v h hresv ht hsource hidle hinstant hv hfits
    exact exec_timeAdjustSet h hresv ht hsource hidle hinstant hv hfits
  case adjustFreq =>
    intro p s q r h hresv hsource hidle hr hbound hpar
    exact exec_timeAdjustFreq h hresv hsource hidle hr hbound hpar
  case config =>
    intro p s q c h hj hchecks hc
    exact ⟨exec_servoConfig_same h hj hchecks hc, exec_servoConfig_new h hj hchecks hc⟩
  case reads =>
    intro s hhub
    exact ⟨exec_timeLoRead hhub, exec_rawLoRead hhub, fun k x => exec_residMaxNsRead hhub⟩

end Sys2Proof.Machine
end

section
/-! PTP: messages that arrive, messages that a port sends, the two timeouts and the commands (R308 to R313, R323, Tables 14-6 and 14-8). -/

namespace Sys2Proof.Machine

open Sys2Proof Sys2Proof.Bits

/-! A message arrives (R309, R312, R313). -/

section MessageReceive
variable {k : Fin 3} {m : List Byte} {s : State} {x : PtpPort} (hhub : s.dev.hubUp = true) (hx : s.dev.time.port.rd k.val = x)
  (hen : x.cfg.enable = true)
include hhub hx hen

theorem exec_ptpMessageReceive_bad (hbad : ptpLen (ptpType m) = 0 ∨ m.length < ptpLen (ptpType m) ∨ pn m 2 2 < ptpLen (ptpType m)) :
    exec (.ptpMessageReceive k m) s =
      .next (s.withDev ((s.dev.setPtp k.val { x with badMsg := bump 16 x.badMsg }).satAt 0x30 16 (bump 16 x.badMsg))) := by
  subst hx
  exact congrArg Host.Outcome.next ((if_pos hhub).trans (congrArg s.withDev ((if_neg (by simp [hen])).trans (if_pos hbad))))

section Good
variable {d : Dev} (htype : ptpLen (ptpType m) ≠ 0) (hlen : ptpLen (ptpType m) ≤ m.length) (hfield : ptpLen (ptpType m) ≤ pn m 2 2)
  (hd : (if ptpType m < 4 then s.dev.setPtp k.val { x with rxEvent := x.rxEvent + 1 } else s.dev) = d)
include htype hlen hfield hd

theorem exec_ptpMessageReceive_foreign (hdomain : pb m 4 ≠ x.cfg.domain.toNat) : exec (.ptpMessageReceive k m) s = .next (s.withDev d) := by
  subst hx hd
  exact congrArg Host.Outcome.next ((if_pos hhub).trans (congrArg s.withDev ((if_neg (by simp [hen])).trans ((if_neg (by omega)).trans (if_pos hdomain)))))

/-- A good message of the port's domain is forwarded, and delivered to the peer delay mechanism and the ordinary clock where the port has them. -/
theorem exec_ptpMessageReceive_own {e f : Dev} (hdomain : pb m 4 = x.cfg.domain.toNat)
    (he : (d.tcPorts k.val m).foldl (fun acc o => acc.tcForward k.val o m) d = e) (hf : (if x.cfg.p2p then e.peerReceive k.val m else e) = f) :
    exec (.ptpMessageReceive k m) s = .next (s.withDev (if x.cfg.oc then f.ocReceive k.val m else f)) := by
  subst hx hd he hf
  exact congrArg Host.Outcome.next ((if_pos hhub).trans (congrArg s.withDev ((if_neg (by simp [hen])).trans
    ((if_neg (by omega)).trans (if_neg (not_not.mpr hdomain))))))

end Good

end MessageReceive

/-! A port sends by itself (R310, R311). -/

section TransmitTimer
variable {k : Fin 3} {s : State} {x y : PtpPort} {d : Dev} {e : Int}

/-- What a port whose interval of type `t` has passed sends, at stamp `e`, its port being `y` there. -/
def Dev.ptpSends (d : Dev) (p t : Nat) (y : PtpPort) (e : Int) : Dev :=
  match t with
  | 0 =>
    (d.setPtp p { y with syncSeq := y.syncSeq + 1 }).ptpSend p (d.ptpHead p 0 y.syncSeq.toNat y.cfg.logSync (e % 65536) ++ ptpTime (stampNs e))
  | 11 =>
    (d.setPtp p { y with annSeq := y.annSeq + 1 }).ptpSend p
      (d.ptpHead p 11 y.annSeq.toNat y.cfg.logAnnounce 0 ++ ptpTime 0 ++ beBytes 2 y.cfg.utcOffset.toNat ++ beBytes 1 0 ++ beBytes 1 y.cfg.prio1.toNat ++
        beBytes 1 y.cfg.clockClass.toNat ++ beBytes 1 0xFE ++ beBytes 2 0xFFFF ++ beBytes 1 y.cfg.prio2.toNat ++ beBytes 8 d.clockId ++ beBytes 2 0 ++
        beBytes 1 0xA0)
  | _ =>
    (d.setPtp p { y with reqSeq := y.reqSeq + 1, t3 := e, pdWait := none }).ptpSend p
      (d.ptpHead p t y.reqSeq.toNat 127 0 ++ ptpTime 0 ++ (if t = 2 then beBytes 10 0 else []))

theorem exec_ptpTransmitTimer {t : BitVec 4} (hhub : s.dev.hubUp = true) (hx : s.dev.time.port.rd k.val = x) (hsends : x.sends t.toNat = true)
    (hd : s.dev.toRaw (x.txAt.rd t.toNat + x.cfg.interval t.toNat) = d) (hy : { x with txAt := x.txAt.wr t.toNat d.time.raw } = y)
    (he : d.txStamp y = e) : exec (.ptpTransmitTimer k t) s = .next (s.withDev (d.ptpSends k.val t.toNat y e)) := by
  subst hx hd hy he
  exact congrArg Host.Outcome.next ((if_pos hhub).trans (congrArg s.withDev (if_neg (by simp [hsends]))))

end TransmitTimer

/-! The two timeouts (R308, R313). -/

theorem exec_announceReceiptTimeout {k : Fin 3} {s : State} {x : PtpPort} {d : Dev} (hhub : s.dev.hubUp = true) (hx : s.dev.time.port.rd k.val = x)
    (hen : x.cfg.enable = true) (hoc : x.cfg.oc = true) (hstate : x.state ≠ some .master)
    (hd : s.dev.toRaw (x.annAt + x.cfg.announceTo * logNs x.cfg.logAnnounce) = d) : exec (.announceReceiptTimeout k) s =
      .next (s.withDev ((d.setPtp k.val { x with parent := none, syncWait := none, haveSync := false, annAt := d.time.raw }).ptpState k.val
        (some (if x.cfg.masterCap then .master else .listening)))) := by
  subst hx hd
  exact congrArg Host.Outcome.next ((if_pos hhub).trans (congrArg s.withDev (if_neg (by simp [hen, hoc, hstate]))))

theorem exec_followupTimeout {k : Fin 3} {s : State} {x : PtpPort} (hhub : s.dev.hubUp = true) (hx : s.dev.time.port.rd k.val = x)
    (hwait : x.syncWait.isSome = true) :
    exec (.followupTimeout k) s = .next (s.withDev ((s.dev.toRaw (x.syncRaw + 1000000000)).setPtp k.val { x with syncWait := none })) := by
  subst hx
  exact congrArg Host.Outcome.next ((if_pos hhub).trans (congrArg s.withDev (if_neg (by simpa [Option.isSome_iff_ne_none] using hwait))))

/-! The commands (R323, Tables 14-6 and 14-8). -/

theorem exec_ptpConfig {p : Packet} {s t : State} {q : QPacket} (h : Ready opPtpConfig p s q) (hj : Journals s q) (hchecks : firstErr (ptpChecks s q) = none)
    (ht : (s.entered 0x0803 q).finish q stOk 0 [] = t) : exec (.ptpConfig p) s =
      .next (t.withDev ((t.dev.setPtp q.pkt.inst { t.dev.time.port.rd q.pkt.inst with cfg := ptpCfgOf q }).ptpRestart q.pkt.inst)) := by
  subst ht
  exact congrArg Host.Outcome.next (packetRow_entered h hj (guarded_pass hchecks) rfl (by decide) rfl rfl)

theorem exec_ptpStatus {p : Packet} {s : State} {q : QPacket} (h : Ready opPtpStatus p s q) : exec (.ptpStatus p) s = .next (s.finish q stOk 0
    ((List.range 9).map (s.dev.time.port.rd q.pkt.inst).word ++ [s.dev.time.word 9, s.dev.time.word 10, s.dev.time.word 11])) :=
  congrArg Host.Outcome.next (row_done h rfl rfl (q.holds_short (by simp)) (.inl rfl))

/-- Settles O25: each clause is the lemma about its command. -/
theorem ptpCommandsComplete : Obligations.PtpCommandsComplete := by
  unfold Obligations.PtpCommandsComplete
  refine ⟨?receive, ?transmit, ?announce, ?followup, ?config, ?status⟩
  case receive =>
    intro k m s x hhub hx hen
    refine ⟨exec_ptpMessageReceive_bad hhub hx hen, fun d htype hlen hfield hd =>
      ⟨exec_ptpMessageReceive_foreign hhub hx hen htype hlen hfield hd, fun e f hdomain he hf => ?_⟩⟩
    have hown := exec_ptpMessageReceive_own hhub hx hen htype hlen hfield hd hdomain he hf
    exact ⟨fun hoc => by rw [hown, hoc]; rfl, fun hoc => by rw [hown, hoc]; rfl⟩
  case transmit =>
    intro k t s x y d e hhub hx hsends hd hy he
    have hsent := exec_ptpTransmitTimer hhub hx hsends hd hy he
    refine ⟨fun ht => ?_, fun ht => ?_, fun ht => ?_⟩
    · subst ht; exact hsent
    · subst ht; exact hsent
    · rcases ht with rfl | rfl <;> exact hsent
  case announce => intro k s x d hhub hx hen hoc hstate hd; exact exec_announceReceiptTimeout hhub hx hen hoc hstate hd
  case followup => intro k s x hhub hx hwait; exact exec_followupTimeout hhub hx hwait
  case config => intro p s t q h hj hchecks ht; exact exec_ptpConfig h hj hchecks ht
  case status => intro p s q h; exact exec_ptpStatus h

end Sys2Proof.Machine
end

section
/-! The real-time clock: its loads, its alarm, its commands and its synchronisation (R329 to R337, R343, Tables 15-1 and 15-3). -/

namespace Sys2Proof.Machine

open Sys2Proof Sys2Proof.Bits

/-! The load that waits, at its edge or at its instant (R330, R331, R336). -/

section LoadEdge
variable {s : State} {l : RtcLoad} {d : Dev} (hload : s.dev.backup.load = some l) (hedge : l.atTime = none)
  (hd : s.dev.toRaw (xtalRaw (xtalAt s.dev.time.raw + (l.edge - s.dev.backup.edgeNo))) = d)
include hload hedge hd

theorem exec_rtcLoad_edge (hpkt : l.pkt = none) : exec .rtcLoad s = .next (s.withDev (d.loadCount l.count l.bySync)) := by
  subst hd
  change execRtcLoad s = _
  simp only [execRtcLoad, hload, hedge, hpkt]

theorem exec_rtcLoad_packet {q : QPacket} (hpkt : l.pkt = some q) :
    exec .rtcLoad s = .next (s.withDev ((d.loadCount l.count l.bySync).finish q stOk 0 [])) := by
  subst hd
  change execRtcLoad s = _
  simp only [execRtcLoad, hload, hedge, hpkt]

end LoadEdge

theorem exec_rtcLoad_time {s : State} {l : RtcLoad} {d e : Dev} {t k : Nat} (hload : s.dev.backup.load = some l) (htime : l.atTime = some t)
    (hon : s.dev.power.on = true)
    (hk : (if xtalRaw (xtalAt (s.dev.time.rawOf t)) = s.dev.time.rawOf t then xtalAt (s.dev.time.rawOf t) else xtalAt (s.dev.time.rawOf t) + 1) = k)
    (hd : s.dev.toRaw (xtalRaw k) = d) (he : d.setBackup { d.backup with loadDelayNs := satN 16 ((d.backup.edgeCt.getD d.now) - t) } = e) :
    exec .rtcLoad s = .next (s.withDev (if l.bySync then e.syncLoad l.sets else e.loadCount l.count false)) := by
  subst hk hd he
  change execRtcLoad s = _
  simp only [execRtcLoad, hload, htime, hon]
  rfl

/-! The alarm's match (R334). -/

section AlarmMatch
variable {s : State} {a : RtcAlarm} {g : Nat} (halarm : s.dev.backup.alarm = some a) (hg : a.toNat - s.dev.backup.count.toNat = g)
include halarm hg

theorem exec_alarmMatch_now (hzero : g = 0) : exec .alarmMatch s = .next (s.withDev (s.dev.alarmFire a false)) := by
  change execAlarmMatch s = _
  simp only [execAlarmMatch, halarm, hg, hzero]
  rfl

theorem exec_alarmMatch_edges {n : Nat} (hgap : g ≠ 0) (hn : s.dev.backup.edgesTo a.toNat 80 0 (g + g / 8000 + 4) = n) (hlater : n ≠ 0) :
    exec .alarmMatch s = .next (s.withDev ((s.dev.toRaw (xtalRaw (xtalAt s.dev.time.raw + n))).alarmFire a false)) := by
  change execAlarmMatch s = _
  simp only [execAlarmMatch, halarm, hg, if_neg hgap, hn, if_neg hlater]

end AlarmMatch

/-! READ_RTC and WRITE_RTC (R329, R330, R343). -/

theorem exec_readRtc {p : Packet} {s : State} {q : QPacket} {b : Backup} (h : Ready opReadRtc p s q) (hb : s.dev.backup = b) :
    exec (.readRtc p) s = .next (s.finish q stOk 0
      [w32 b.count.sec.toNat, pack [(b.count.sec.toNat / 2 ^ 32, 0), (b.count.frac.toNat, 8), (b1 b.onVbat, 24), (b1 b.invalid, 25)],
       w32 (b.edgeCt.getD 0), w32 (eraOf (b.edgeCt.getD 0))]) := by
  subst hb
  exact congrArg Host.Outcome.next (row_done h rfl rfl (q.holds_short (by simp)) (.inl rfl))

/-- The checks that both modes of WRITE_RTC share pass while no load waits and the clock is not synchronised. -/
theorem firstErr_writeRtc {s : State} {q : QPacket} {late : Bool} (hresv : q.resv 0 3 = false) (hmode : q.f 0 1 0 ≤ 1)
    (hcount : q.resv 2 0x7FFFFF = false) (hlate : late = false) (hidle : s.dev.backup.load = none) (hsync : s.dev.backup.sync.en = false) :
    firstErr (writeRtcChecks s q late) = none :=
  firstErr_cons_none.mpr ⟨by simp [hresv, hmode], firstErr_cons_none.mpr ⟨hcount, firstErr_cons_none.mpr ⟨hlate, firstErr_cons_none.mpr
    ⟨by simp [hidle], firstErr_cons_none.mpr ⟨hsync, firstErr_nil⟩⟩⟩⟩⟩

theorem exec_writeRtcNextEdge {p : Packet} {s : State} {q : QPacket} (h : Ready opWriteRtcNextEdge p s q) (hresv : q.resv 0 3 = false)
    (hmode : q.f 0 1 0 ≤ 1) (hcount : q.resv 2 0x7FFFFF = false) (hpar3 : q.par 3 = 0) (hpar4 : q.par 4 = 0) (hidle : s.dev.backup.load = none)
    (hsync : s.dev.backup.sync.en = false) : exec (.writeRtcNextEdge p) s =
      .next ((s.withDev (s.dev.setBackup { s.dev.backup with load := some { count := countOf (q.par 1) (q.par 2), edge := s.dev.backup.edgeNo + 1,
                                                                            pkt := some { q with started := true } } })).started q) := by
  exact congrArg Host.Outcome.next (row_later h ((guarded_pass (firstErr_append.mpr ⟨firstErr_writeRtc hresv hmode hcount rfl hidle hsync,
    firstErr_cons_none.mpr ⟨by simp [hpar3], firstErr_cons_none.mpr ⟨by simp [hpar4], firstErr_nil⟩⟩⟩)).trans (if_neg (by simp [hidle]))) rfl
    (q.holds_short (by simp)) rfl)

theorem exec_writeRtcAtTime {p : Packet} {s : State} {q : QPacket} {t : Int} (h : Ready opWriteRtcAtTime p s q) (hresv : q.resv 0 3 = false)
    (hcount : q.resv 2 0x7FFFFF = false) (hera : q.resv 4 0xFFFF = false) (ht : nearEra s.dev.now (q.par 3) (q.f 4 15 0) = t)
    (hlo : (s.dev.now : Int) + 100000 ≤ t) (hhi : t < (s.dev.now : Int) + 2147483648) (hidle : s.dev.backup.load = none)
    (hsync : s.dev.backup.sync.en = false) : exec (.writeRtcAtTime p) s =
      .next ((s.withDev (s.dev.setBackup { s.dev.backup with load := some { count := countOf (q.par 1) (q.par 2), atTime := some t.toNat } })).finish q
        stOkPending 0 []) := by
  subst ht
  have hpkt := h.pkt
  subst hpkt
  have hmode : q.f 0 1 0 ≤ 1 := (of_decide_eq_true h.2.1).le
  have hlate := decide_eq_false (not_or.mpr ⟨Int.not_lt.mpr hlo, Int.not_le.mpr hhi⟩)
  exact congrArg Host.Outcome.next (packetRow_pending h ((guarded_pass (firstErr_append.mpr ⟨firstErr_writeRtc hresv hmode hcount hlate hidle hsync,
    firstErr_cons_none.mpr ⟨hera, firstErr_nil⟩⟩)).trans (if_neg (by simp [hidle]))) rfl)

/-! RTC_TRIM and RTC_ALARM (R332, R333, R336, R337). -/

theorem exec_rtcTrimSet {p : Packet} {s : State} {q : QPacket} {d : Dev} (h : Ready opRtcTrimSet p s q) (hresv : q.resv 0 3 = false)
    (hop : q.f 0 1 0 ≤ 1) (htrim : q.resv 1 0x1FFF = false) (hbound : (sgn 13 (q.f 1 12 0)).natAbs ≤ 4095)
    (hd : s.dev.setTrim (sgn 13 (q.f 1 12 0)) false = d) :
    exec (.rtcTrimSet p) s = .next ((s.withDev (d.setBackup { d.backup with refT := none })).finish q stOk 0 []) := by
  subst hd
  exact congrArg Host.Outcome.next (packetRow_changed h (guarded_pass (firstErr_cons_none.mpr ⟨by simp [hresv, hop], firstErr_cons_none.mpr
    ⟨htrim, firstErr_cons_none.mpr ⟨decide_eq_false (Nat.not_lt.mpr hbound), firstErr_nil⟩⟩⟩)) rfl)

theorem exec_rtcSyncConfig {p : Packet} {s : State} {q : QPacket} {c : SyncCfg} {b : Backup} (h : Ready opRtcSyncConfig p s q) (hj : Journals s q)
    (hresv0 : q.resv 0 3 = false) (hresv1 : q.resv 1 0xFFFF0007 = false) (hresv3 : q.resv 3 0xFF = false) (hresv4 : q.resv 4 0xFFFFF = false)
    (hc : syncCfgOf q = c) (hperiod : c.syncS ≠ 0) (hlo : 31 ≤ c.tolUs) (hhi : c.tolUs ≤ 1000000) (hb : s.dev.backup = b) :
    exec (.rtcSyncConfig p) s = .next (((s.withDev (s.dev.setBackup { b with
      sync := c, syncHeld := b.syncHeld && !c.backOk, refT := if c.en && !b.sync.en then none else b.refT })).entered 0x0812 q).finish q stOk 0 []) := by
  subst hc hb
  exact congrArg Host.Outcome.next (packetRow_entered h hj (guarded_pass (firstErr_cons_none.mpr ⟨hresv0, firstErr_cons_none.mpr ⟨hresv1,
    firstErr_cons_none.mpr ⟨decide_eq_false hperiod, firstErr_cons_none.mpr ⟨hresv3, firstErr_cons_none.mpr ⟨hresv4, firstErr_cons_none.mpr
      ⟨outside_eq_false_iff.mpr ⟨hlo, hhi⟩, firstErr_nil⟩⟩⟩⟩⟩⟩)) rfl (by decide) rfl rfl)

theorem exec_rtcAlarmSet {p : Packet} {s : State} {q : QPacket} {a : RtcAlarm} (h : Ready opRtcAlarmSet p s q) (hresv : q.resv 0 7 = false)
    (hop : q.f 0 1 0 ≤ 1) (hcount : q.resv 2 0x7FFFFF = false)
    (ha : { sec := (countOf (q.par 1) (q.par 2)).sec, frac := (countOf (q.par 1) (q.par 2)).frac, suppress := q.b 0 2 } = a)
    (hsuppress : a.suppress = true → s.dev.oldFirmware = false) (hahead : s.dev.backup.count.toNat + 2 ≤ a.toNat) :
    exec (.rtcAlarmSet p) s = .next ((s.withDev (s.dev.setBackup { s.dev.backup with alarm := some a, alarmReg := a })).finish q stOk 0 []) := by
  subst ha
  have hfirst : (q.resv 0 7 || decide (1 < q.f 0 1 0) || (q.b 0 2 && s.dev.oldFirmware)) = false := by
    simpa [hresv, hop] using hsuppress
  exact congrArg Host.Outcome.next (packetRow_changed h (guarded_pass (firstErr_cons_none.mpr ⟨hfirst, firstErr_cons_none.mpr ⟨hcount,
    firstErr_cons_none.mpr ⟨decide_eq_false (Nat.not_lt.mpr hahead), firstErr_nil⟩⟩⟩)) rfl)

section AlarmCancel
variable {p : Packet} {s : State} {q : QPacket} (h : Ready opRtcAlarmCancel p s q) (hresv : q.resv 0 7 = false)
include h hresv

theorem exec_rtcAlarmCancel_none (hnone : s.dev.backup.alarm = none) : exec (.rtcAlarmCancel p) s = .next (s.finish q stOkNoChange 0 []) :=
  congrArg Host.Outcome.next (row_done h ((guarded_pass (firstErr_cons_none.mpr ⟨hresv, firstErr_nil⟩)).trans (if_pos (by simp [hnone]))) rfl
    (q.holds_short (by simp)) (.inr rfl))

theorem exec_rtcAlarmCancel_armed (harmed : s.dev.backup.alarm.isSome = true) : exec (.rtcAlarmCancel p) s =
    .next ((s.withDev (s.dev.setBackup { s.dev.backup with alarm := none })).finish q stOk 0 []) :=
  congrArg Host.Outcome.next (packetRow_changed h ((guarded_pass (firstErr_cons_none.mpr ⟨hresv, firstErr_nil⟩)).trans
    (if_neg (by simpa [Option.isSome_iff_ne_none] using harmed))) rfl)

end AlarmCancel

/-! The latching read, the flags and a measurement of the synchronisation (R329, R335). -/

section Registers
variable {s : State} {b : Backup} (hhub : s.dev.hubUp = true) (hb : s.dev.backup = b)
include hhub hb

theorem exec_rtcSecLoRead : exec .rtcSecLoRead s =
    .next (s.withDev ((s.dev.setBackup { b with shadow := b.count }).emit (.regRead 0x40000000 (w32 b.count.sec.toNat)))) := by
  subst hb
  exact congrArg Host.Outcome.next (if_neg (by simp [hhub]))

theorem exec_rtcFlagsWrite {v : Word} : exec (.rtcFlagsWrite v) s = .next (s.withDev (s.dev.setBackup { b with
    alarmFired := b.alarmFired && !bit v 3, alarmSkipped := b.alarmSkipped && !bit v 4 })) := by
  subst hb
  exact congrArg Host.Outcome.next (if_pos hhub)

end Registers

section SyncMeasure
variable {s : State} {t : Nat} {d : Dev} (hhub : s.dev.hubUp = true) (hen : s.dev.backup.sync.en = true)
  (ht : gridAt (max s.dev.now (s.dev.backup.lastMeas + 1)) (s.dev.backup.sync.syncS * 1000000000) 0 = t)
  (hd : (s.dev.toCt t).setBackup { (s.dev.toCt t).backup with lastMeas := t } = d)
include hhub hen ht hd

theorem exec_rtcSyncMeasure_unlocked (hservo : d.time.servo ≠ .locked) :
    exec .rtcSyncMeasure s = .next (s.withDev (d.setBackup { d.backup with refT := none })) := by
  subst ht hd
  exact congrArg Host.Outcome.next ((if_neg (by simp [hhub, hen])).trans (if_pos hservo))

theorem exec_rtcSyncMeasure_locked {e : Int} {r : Bool} {f : Dev} (hservo : d.time.servo = .locked)
    (he : d.backup.error t (d.backup.edgeCt.getD t) = e)
    (hf : (d.setBackup { d.backup with lastSyncErrUs := satI 32 (divRoundEven e 64000) }).autoTrim t e = (r, f)) :
    exec .rtcSyncMeasure s = .next (s.withDev (f.syncDecide t e r)) := by
  obtain ⟨rfl, rfl⟩ := Prod.mk.inj hf
  subst ht hd he
  exact congrArg Host.Outcome.next ((if_neg (by simp [hhub, hen])).trans (if_neg (not_not.mpr hservo)))

end SyncMeasure

/-- Settles O26: each clause is the lemma about its command. -/
theorem rtcCommandsComplete : Obligations.RtcCommandsComplete := by
  unfold Obligations.RtcCommandsComplete
  refine ⟨?load, ?alarm, ?read, ?nextEdge, ?atTime, ?trim, ?sync, ?alarmSet, ?cancel, ?registers, ?measure⟩
  case load =>
    intro s l d hload
    refine ⟨fun hedge hd => ⟨exec_rtcLoad_edge hload hedge hd, fun q => exec_rtcLoad_packet hload hedge hd⟩, fun t k e htime hon hk hd he => ?_⟩
    have htimed := exec_rtcLoad_time hload htime hon hk hd he
    exact ⟨fun hsync => by rw [htimed, hsync]; rfl, fun hsync => by rw [htimed, hsync]; rfl⟩
  case alarm =>
    intro s a g n halarm hg
    exact ⟨exec_alarmMatch_now halarm hg, exec_alarmMatch_edges halarm hg⟩
  case read => intro p s q b h hb; exact exec_readRtc h hb
  case nextEdge =>
    intro p s q h hresv hmode hcount hpar3 hpar4 hidle hsync
    exact exec_writeRtcNextEdge h hresv hmode hcount hpar3 hpar4 hidle hsync
  case atTime =>
    intro p s q t h hresv hcount hera ht hlo hhi hidle hsync
    exact exec_writeRtcAtTime h hresv hcount hera ht hlo hhi hidle hsync
  case trim => intro p s q d h hresv hop htrim hbound hd; exact exec_rtcTrimSet h hresv hop htrim hbound hd
  case sync =>
    intro p s q c b h hj hresv0 hresv1 hresv3 hresv4 hc hperiod hlo hhi hb
    exact exec_rtcSyncConfig h hj hresv0 hresv1 hresv3 hresv4 hc hperiod hlo hhi hb
  case alarmSet =>
    intro p s q a h hresv hop hcount ha hsuppress hahead
    exact exec_rtcAlarmSet h hresv hop hcount ha hsuppress hahead
  case cancel => intro p s q h hresv; exact ⟨exec_rtcAlarmCancel_none h hresv, exec_rtcAlarmCancel_armed h hresv⟩
  case registers => intro s v b hhub hb; exact ⟨exec_rtcSecLoRead hhub hb, exec_rtcFlagsWrite hhub hb⟩
  case measure =>
    intro s t d hhub hen ht hd
    exact ⟨exec_rtcSyncMeasure_unlocked hhub hen ht hd, fun e r f => exec_rtcSyncMeasure_locked hhub hen ht hd⟩

end Sys2Proof.Machine
end

section
/-! The backup domain's supplies and the event inputs (R326, R327, R339 to R341, R377, R401, Tables 15-3 and 15-4). -/

namespace Sys2Proof.Machine

open Sys2Proof Sys2Proof.Bits

/-! The supplies (R326, R327, R401). -/

theorem exec_backupSupplySwitch {v : Bool} {s : State} {b : Backup} {n : Nat} (hb : s.dev.backup = b) (hnew : b.onVbat ≠ v)
    (hn : bump 16 b.switchCnt = n) : exec (.backupSupplySwitch v) s =
      .next (s.withDev (((s.dev.setBackup { b with onVbat := v, switchCnt := n }).satAt 0x40 16 n).backupEvent 0x4006 0x4000 .info (b1 v + 2 ^ 16 * b.vbatMv)
        (fun p w => { p with supply := some w }))) := by
  subst hb hn
  exact congrArg Host.Outcome.next (if_neg hnew)

section VbatMeasure
variable {mv v : Nat} {s : State} {b : Backup} (hhub : s.dev.hubUp = true) (hb : s.dev.backup = b) (hv : satN 16 mv = v)
include hhub hb hv

/-- A reading below 2,200 mV begins RTC_VBAT_LOW (R327). -/
theorem exec_vbatMeasure_falls (hgood : b.vbatLow = false) (hlow : v < 2200) : exec (.vbatMeasure mv) s =
    .next (s.withDev ((s.dev.setBackup { b with vbatMv := v, vbatLow := true }).raise 0x4007 0x4000 .warn (1 + 2 ^ 16 * v))) := by
  subst hb hv
  change execVbatMeasure mv s = _
  simp only [execVbatMeasure, hhub, hgood, hlow]
  rfl

/-- A reading above 2,300 mV ends it. -/
theorem exec_vbatMeasure_rises (hbad : b.vbatLow = true) (hhigh : 2300 < v) : exec (.vbatMeasure mv) s =
    .next (s.withDev ((s.dev.setBackup { b with vbatMv := v, vbatLow := false }).raise 0x4007 0x4000 .warn (2 ^ 16 * v))) := by
  subst hb hv
  change execVbatMeasure mv s = _
  simp [execVbatMeasure, hhub, hbad, Nat.not_le.mpr hhigh, Dev.raiseIf, b1]

/-- Any other reading is only noted. -/
theorem exec_vbatMeasure_same (hsame : b.vbatLow = false ∧ 2200 ≤ v ∨ b.vbatLow = true ∧ v ≤ 2300) :
    exec (.vbatMeasure mv) s = .next (s.withDev (s.dev.setBackup { b with vbatMv := v })) := by
  subst hb hv
  change execVbatMeasure mv s = _
  rcases hsame with ⟨hgood, hhigh⟩ | ⟨hbad, hlow⟩
  · simp [execVbatMeasure, hhub, hgood, Nat.not_lt.mpr hhigh, Dev.raiseIf]
  · simp [execVbatMeasure, hhub, hbad, hlow, Dev.raiseIf]

end VbatMeasure

/-- What the loss of both supplies leaves of the device (R327, R401): class B at its defaults, class Z zeroed, the clock INVALID. -/
def Dev.backupLost (d : Dev) : Dev :=
  { d with
    backup := { edgeCt := d.backup.edgeCt, syncHeld := d.backup.syncHeld, loadDelayNs := d.backup.loadDelayNs, vbatMv := d.backup.vbatMv,
                vbatLow := d.backup.vbatLow, lastSyncErrUs := d.backup.lastSyncErrUs, driftPpb := d.backup.driftPpb, sync := d.backup.sync,
                lastMeas := d.backup.lastMeas, refT := d.backup.refT, refE := d.backup.refE, cor := d.backup.cor, invalid := true }
    power := { d.power with tableB := {}, table := {}, stepNext := 0, attempts := 0, railPend := [], alertPend := [], keep := false, wakeMask := 0,
                            backupRec := !d.hubUp }
    keys := { d.keys with root := none, rootFp := 0, pend := 0, pendInput := 0, xtalEdges := 0 } }

theorem exec_backupLoss_up {s : State} (hhub : s.dev.hubUp = true) :
    exec .backupLoss s = .next (s.withDev (s.dev.backupLost.causeRecord .backupLoss .backup 0 0 0 0)) :=
  congrArg (fun d => Host.Outcome.next (s.withDev d)) (if_pos hhub)

theorem exec_backupLoss_down {s : State} (hdown : s.dev.hubUp = false) : exec .backupLoss s = .next (s.withDev s.dev.backupLost) :=
  congrArg (fun d => Host.Outcome.next (s.withDev d)) (if_neg (by simp [hdown]))

/-! An accepted edge and a tamper edge (R339 to R341, R377). -/

section EdgeAccept
variable {i : Fin 4} {r : Bool} {s : State} {e : Evin} {c : RtcCount} {x : EvinEntry} (he : s.dev.backup.evin.rd i.val = e)
  (hselects : e.cfg.selects r = true) (hc : s.dev.backup.countBack e.cfg.filt = c)
  (hx : { count := c, rising := r, ct := if s.dev.power.on && decide (e.cfg.filt ≤ xtalAt s.dev.time.raw) then
          some (s.dev.time.ctAt (xtalRaw (xtalAt s.dev.time.raw - e.cfg.filt))) else none } = x)
include he hselects hc hx

/-- An edge that finds room stands in the FIFO, and raises its event where that is enabled. -/
theorem exec_evinEdgeAccept_room {d : Dev} (hroom : e.fifo.length < 4) (hd : s.dev.setEvin i.val { e with fifo := e.fifo ++ [x], level := r } = d) :
    exec (.evinEdgeAccept i r) s = .next (s.withDev (d.raiseIf (e.cfg.eventEn && s.dev.power.on) 0x4008 (0x4000 + i.val) .info
      (c.sec.toNat + 2 ^ 40 * c.frac.toNat + 2 ^ 55 * b1 r))) := by
  subst he hc hx hd
  exact congrArg Host.Outcome.next ((if_neg (by simp [hselects])).trans (if_pos hroom))

omit hx in
/-- An edge that finds the FIFO full is counted. -/
theorem exec_evinEdgeAccept_full {n : Nat} (hfull : 4 ≤ e.fifo.length) (hn : bump 16 e.ovfCnt = n) : exec (.evinEdgeAccept i r) s =
    .next (s.withDev (((s.dev.setEvin i.val { e with overflow := true, ovfCnt := n, level := r }).satAt 0x40 16 n).backupEvent 0x4009 (0x4000 + i.val)
      .warn n (fun p w => { p with overflow := p.overflow.wr i.val w }))) := by
  subst he hn
  exact congrArg Host.Outcome.next ((if_neg (by simp [hselects])).trans (if_neg (Nat.not_lt.mpr hfull)))

end EdgeAccept

theorem exec_evinTamperEdge {i : Fin 4} {r : Bool} {s : State} {e : Evin} (he : s.dev.backup.evin.rd i.val = e) (htamper : e.cfg.tamper = true)
    (hselects : e.cfg.selects r = true) : exec (.evinTamperEdge i r) s =
      .next (s.withDev (((s.dev.setEvin i.val { e with tamperHit := true }).zeroiseCore 1 i.val).backupEvent 0x400A
        (0x4000 + i.val) .crit i.val (fun p w => { p with tamper := some w }))) := by
  subst he
  exact congrArg Host.Outcome.next (if_neg (by simp [htamper, hselects]))

/-! The status word and the commands (R340, R341). -/

theorem exec_evinStatusWrite {i : Fin 4} {v : Word} {s : State} {e : Evin} (hhub : s.dev.hubUp = true) (he : s.dev.backup.evin.rd i.val = e) :
    exec (.evinStatusWrite i v) s = .next (s.withDev (s.dev.setEvin i.val
      { e with overflow := e.overflow && !bit v 3, tamperHit := e.tamperHit && !bit v 4, ovfCnt := fld v 31 16 })) := by
  subst he
  exact congrArg Host.Outcome.next (if_pos hhub)

theorem exec_evinConfig {p : Packet} {s : State} {q : QPacket} {e : Evin} {c : EvinCfg} (h : Ready opEvinConfig p s q) (hresv : q.resv 0 0xFF0F = false)
    (he : s.dev.backup.evin.rd q.pkt.inst = e)
    (hc : { edges := BitVec.ofNat 2 (q.f 0 1 0), tamper := q.b 0 2, eventEn := q.b 0 3, filt := q.f 0 15 8 } = c)
    (hauth : c.tamper ≠ e.cfg.tamper → q.pkt.transport = .pcie → q.tagged = true) (hedges : c.tamper = true → c.edges ≠ 0) :
    exec (.evinConfig p) s = .next ((s.withDev (s.dev.setEvin q.pkt.inst { e with cfg := c })).finish q stOk 0 []) := by
  have htagged : (decide (c.tamper ≠ e.cfg.tamper ∧ q.pkt.transport = .pcie) && !q.tagged) = false := by
    simpa only [Bool.and_eq_false_imp, decide_eq_true_eq, and_imp, Bool.not_eq_false'] using hauth
  have hedge : (c.tamper && decide (c.edges = 0)) = false := by
    simpa only [Bool.and_eq_false_imp, decide_eq_false_iff_not] using hedges
  subst he hc
  exact congrArg Host.Outcome.next (packetRow_changed h (guarded_pass (firstErr_cons_none.mpr ⟨hresv, firstErr_cons_none.mpr ⟨htagged,
    firstErr_cons_none.mpr ⟨hedge, firstErr_nil⟩⟩⟩)) rfl)

section EvinRead
variable {p : Packet} {s : State} {q : QPacket} {e : Evin} (h : Ready opEvinRead p s q) (hresv : q.resv 0 1 = false)
  (he : s.dev.backup.evin.rd q.pkt.inst = e) (hfit : q.holds (1 + 4 * e.fifo.length))
include h hresv he hfit

/-- A status word and four words for each entry. -/
theorem exec_evinRead : exec (.evinRead p) s = .next ((if q.b 0 0 then s.withDev (s.dev.setEvin q.pkt.inst { e with fifo := [] }) else s).finish q stOk 0
    (e.status :: e.fifo.flatMap EvinEntry.words)) := by
  have hlen : (e.status :: e.fifo.flatMap EvinEntry.words).length = 1 + 4 * e.fifo.length := by
    simp [List.length_flatMap, EvinEntry.words, Nat.mul_comm, Nat.add_comm]
  subst he
  exact congrArg Host.Outcome.next (row_done h (guarded_pass (firstErr_cons_none.mpr ⟨hresv, firstErr_nil⟩)) rfl (hlen ▸ hfit) (.inl rfl))

theorem exec_evinRead_keep (hkeep : q.b 0 0 = false) :
    exec (.evinRead p) s = .next (s.finish q stOk 0 (e.status :: e.fifo.flatMap EvinEntry.words)) := by
  rw [exec_evinRead h hresv he hfit, if_neg (by simp [hkeep])]

theorem exec_evinRead_pop (hpop : q.b 0 0 = true) : exec (.evinRead p) s = .next ((s.withDev (s.dev.setEvin q.pkt.inst { e with fifo := [] })).finish q
    stOk 0 (e.status :: e.fifo.flatMap EvinEntry.words)) := by
  rw [exec_evinRead h hresv he hfit, if_pos hpop]

end EvinRead

/-- Settles O27: each clause is the lemma about its command. -/
theorem backupAndEventInputCommandsComplete : Obligations.BackupAndEventInputCommandsComplete := by
  unfold Obligations.BackupAndEventInputCommandsComplete
  refine ⟨?supply, ?vbat, ?loss, ?edge, ?tamper, ?status, ?config, ?read⟩
  case supply => intro v s b n hb hnew hn; exact exec_backupSupplySwitch hb hnew hn
  case vbat =>
    intro mv v s b hhub hb hv
    exact ⟨exec_vbatMeasure_falls hhub hb hv, exec_vbatMeasure_rises hhub hb hv, exec_vbatMeasure_same hhub hb hv⟩
  case loss =>
    intro s d hd
    subst hd
    exact ⟨exec_backupLoss_up, exec_backupLoss_down⟩
  case edge =>
    intro i r s e c x he hselects hc hx
    refine ⟨fun d hroom hd => ?_, fun n => exec_evinEdgeAccept_full he hselects hc⟩
    have hin := exec_evinEdgeAccept_room he hselects hc hx hroom hd
    exact ⟨fun hevent => by rw [hin, hevent]; rfl, fun hquiet => by rw [hin, hquiet]; rfl⟩
  case tamper => intro i r s e he htamper hselects; exact exec_evinTamperEdge he htamper hselects
  case status => intro i v s e hhub he; exact exec_evinStatusWrite hhub he
  case config =>
    intro p s q e c h hresv he hc hauth hedges
    exact exec_evinConfig h hresv he hc hauth hedges
  case read => intro p s q e h hresv he hfit; exact ⟨exec_evinRead_keep h hresv he hfit, exec_evinRead_pop h hresv he hfit⟩

end Sys2Proof.Machine
end

section
/-! The happenings of the CAN controllers: frames, errors, clashes, recovery, reference cycles and the maps' timeouts (R347 to R354, R356, R358). -/

namespace Sys2Proof.Machine

open Sys2Proof Sys2Proof.Bits

/-! A frame received (R347 to R349, R355). -/

section FrameReceived
variable {k : Fin 4} {f : CanFrame} {n : Nat} {s : State} {d e : Dev} (hhub : s.dev.hubUp = true) (hd : s.dev.toRaw n = d)
  (hon : (d.canAt k.val).on = true) (hbus : (d.canAt k.val).off = false) (he : d.canReceive k.val f (d.time.ctAt n) = e)
include hhub hd hon hbus he

theorem exec_canFrameReceived : exec (.canFrameReceived k f n) s =
    .next (s.withDev ((if (d.canAt k.val).cfg.mode = 2 then e else e.recvOk k.val).canIdle k.val)) := by
  subst hd he
  exact congrArg Host.Outcome.next ((if_pos hhub).trans (congrArg s.withDev (if_neg (by simp [hon, hbus]))))

theorem exec_canFrameReceived_monitor (hmode : (d.canAt k.val).cfg.mode = 2) :
    exec (.canFrameReceived k f n) s = .next (s.withDev (e.canIdle k.val)) := by
  rw [exec_canFrameReceived hhub hd hon hbus he, if_pos hmode]

theorem exec_canFrameReceived_counts (hmode : (d.canAt k.val).cfg.mode ≠ 2) :
    exec (.canFrameReceived k f n) s = .next (s.withDev ((e.recvOk k.val).canIdle k.val)) := by
  rw [exec_canFrameReceived hhub hd hon hbus he, if_neg hmode]

end FrameReceived

/-! A frame sent (R349, R350, R354). -/

section TxComplete
variable {k : Fin 4} {b : Fin 33} {n : Nat} {s : State} {d e : Dev} {x y : CanCtl} {t : CanTx} (hhub : s.dev.hubUp = true)
  (hd : s.dev.toRaw n = d) (hx : d.canAt k.val = x) (hsends : x.sends = true) (ht : x.tx.rd b.val = t) (hpending : t.pending = true)
  (hfree : t.suspended = false)
  (hy : { x with tx := x.tx.wr b.val { t with pending := false, clash := 0, cancel := false }, txOk := x.txOk + 1 } = y)
include hhub hd hx hsends ht hpending hfree hy

/-- The frame of a buffer, or the reference message, is on the bus; in LOOPBACK the controller receives it. -/
theorem exec_canTxComplete_buffer (hb : b.val ≠ 32) (he : ((d.setCan k.val y).canCount k.val (x.tec - 1) x.recCnt).canConfine k.val = e) :
    exec (.canTxComplete k b n) s = .next (s.withDev ((if x.cfg.mode = 3 then e.canReceive k.val t.frame (d.time.ctAt n)
      else e.emit (.canFrame k.val t.frame)).canIdle k.val)) := by
  subst hd hx ht hy he
  change execCanTxComplete k b n s = _
  simp only [execCanTxComplete, if_neg hb]
  exact congrArg Host.Outcome.next ((if_pos hhub).trans (congrArg s.withDev (if_neg (by simp [hsends, hpending, hfree]))))

theorem exec_canTxComplete_reference (hb : b.val = 32)
    (he : ((d.setCan k.val { y with refSent := y.refSent + 1, cycle := BitVec.ofNat 16 ((x.refDue.getD 0) % 65536), refDue := none }).canCount
        k.val (x.tec - 1) x.recCnt).canConfine k.val = e) :
    exec (.canTxComplete k b n) s = .next (s.withDev ((if x.cfg.mode = 3 then e.canReceive k.val (x.refFrame (d.time.ctAt n)) (d.time.ctAt n)
      else e.emit (.canFrame k.val (x.refFrame (d.time.ctAt n)))).canIdle k.val)) := by
  subst hd hx ht hy he
  change execCanTxComplete k b n s = _
  simp only [execCanTxComplete, if_pos hb]
  exact congrArg Host.Outcome.next ((if_pos hhub).trans (congrArg s.withDev (if_neg (by simp [hsends, hpending, hfree]))))

end TxComplete

/-! A bus error (R351 to R353). -/

section BusError
variable {k : Fin 4} {lec : BitVec 3} {post : Bool} {s : State} {x : CanCtl} (hhub : s.dev.hubUp = true) (hx : s.dev.canAt k.val = x)
  (hon : x.on = true) (hbus : x.off = false)
include hhub hx hon hbus

theorem exec_canBusError_monitor {tx : Option (Fin 33)} (hmode : x.cfg.mode = 2) : exec (.canBusError k lec tx post) s =
    .next (s.withDev ((s.dev.setCan k.val { x with lec := lec }).canIdle k.val)) := by
  subst hx
  exact congrArg Host.Outcome.next ((if_pos hhub).trans (congrArg s.withDev ((if_neg (by simp [hon, hbus])).trans (if_pos hmode))))

theorem exec_canBusError_receiver (hmode : x.cfg.mode ≠ 2) : exec (.canBusError k lec none post) s =
    .next (s.withDev ((((s.dev.setCan k.val { x with lec := lec }).canCount k.val x.tec
      (min 255 (x.recCnt + (if post then 8 else 1)))).canConfine k.val).canIdle k.val)) := by
  subst hx
  exact congrArg Host.Outcome.next ((if_pos hhub).trans (congrArg s.withDev ((if_neg (by simp [hon, hbus])).trans (if_neg hmode))))

theorem exec_canBusError_sender {b : Fin 33} {t : CanTx} (hmode : x.cfg.mode ≠ 2) (ht : x.tx.rd b.val = t) (hpending : t.pending = true)
    (hfree : t.suspended = false) : exec (.canBusError k lec (some b) post) s = .next (s.withDev ((((s.dev.setCan k.val { x with
      lec := lec
      tx := x.tx.wr b.val { t with
        clash := if post = true ∧ (lec = 4 ∨ lec = 5) then min 4 (t.clash + 1) else 0, pending := !(t.oneShot || t.cancel), cancel := false } }).canCount
      k.val (if lec = 3 ∧ x.err = .passive then x.tec else x.tec + 8) x.recCnt).canConfine k.val).canIdle k.val)) := by
  subst hx ht
  exact congrArg Host.Outcome.next ((if_pos hhub).trans (congrArg s.withDev ((if_neg (by simp [hon, hbus])).trans ((if_neg hmode).trans
    (if_neg (by simp [hpending, hfree]))))))

end BusError

/-! The fourth clash and the end of a recovery (R352, R353, R356). -/

section ClashLimit
variable {k : Fin 4} {b : Fin 33} {s : State} {x : CanCtl} {t : CanTx} {n : Nat} {d : Dev} (hhub : s.dev.hubUp = true) (hx : s.dev.canAt k.val = x)
  (ht : x.tx.rd b.val = t) (hclash : 4 ≤ t.clash) (hfree : t.suspended = false) (hn : bump 16 x.clashCnt = n)
  (hd : (s.dev.setCan k.val { x with tx := x.tx.wr b.val { t with suspended := true }, clashCnt := n }).satAt 0x31 16 n = d)
include hhub hx ht hclash hfree hn hd

theorem exec_canClashLimit_reference (hb : b.val = 32) : exec (.canClashLimit k b) s = .next (s.withDev ((d.raise 0x3107 (canSrc k.val) .crit
    (0xFF + 2 ^ 8 * (x.tcfg.refId + x.tcfg.prio) + 2 ^ 40 * min 255 x.tec)).canTime k.val .suspended)) := by
  subst hx ht hn hd
  change execCanClashLimit k b s = _
  simp only [execCanClashLimit, if_pos hb]
  exact congrArg Host.Outcome.next ((if_pos hhub).trans (congrArg s.withDev (if_neg (by simp [hclash, hfree]))))

theorem exec_canClashLimit_buffer (hb : b.val ≠ 32) : exec (.canClashLimit k b) s = .next (s.withDev (d.raise 0x3107 (canSrc k.val) .crit
    (b.val + 2 ^ 8 * t.frame.id + 2 ^ 40 * min 255 x.tec))) := by
  subst hx ht hn hd
  change execCanClashLimit k b s = _
  simp only [execCanClashLimit, if_neg hb]
  exact congrArg Host.Outcome.next ((if_pos hhub).trans (congrArg s.withDev (if_neg (by simp [hclash, hfree]))))

end ClashLimit

section BusoffRecovered
variable {k : Fin 4} {s : State} {d : Dev} (hhub : s.dev.hubUp = true) (herr : (s.dev.canAt k.val).err = .busOff)
  (hd : (s.dev.canCount k.val 0 0).canErr k.val .active = d)
include hhub herr hd

theorem exec_canBusoffRecovered_plain (hrole : (d.canAt k.val).tcfg.role = 0) : exec (.canBusoffRecovered k) s = .next (s.withDev d) := by
  subst hd
  exact congrArg Host.Outcome.next ((if_pos hhub).trans (congrArg s.withDev ((if_neg (not_not.mpr herr)).trans (if_pos hrole))))

theorem exec_canBusoffRecovered_follows (hrole : (d.canAt k.val).tcfg.role ≠ 0) : exec (.canBusoffRecovered k) s =
    .next (s.withDev ((d.setCan k.val { d.canAt k.val with
      yielded := decide ((d.canAt k.val).tcfg.role = 1), pendTime := none }).canTime k.val .following)) := by
  subst hd
  exact congrArg Host.Outcome.next ((if_pos hhub).trans (congrArg s.withDev ((if_neg (not_not.mpr herr)).trans (if_neg hrole))))

end BusoffRecovered

/-! Reference cycles, late references and silence (R354, R356). -/

section RefCycle
variable {k : Fin 4} {s : State} {x : CanCtl} {c : Nat} {d e : Dev} (hhub : s.dev.hubUp = true) (hx : s.dev.canAt k.val = x)
  (hrole : x.tcfg.role ≠ 0) (hon : x.on = true)
  (hc : max ((s.dev.now + x.tcfg.cycleUs * 1000 - 1) / (x.tcfg.cycleUs * 1000)) (x.cycleNow + 1) = c)
  (hd : (s.dev.toCt (c * (x.tcfg.cycleUs * 1000))).setCan k.val { x with cycleNow := c, pendTime := none } = d)
  (he : (x.pendTime = none ∧ d = e) ∨ ∃ v, x.pendTime = some v ∧ d.canTime k.val v = e)
include hhub hx hrole hon hc hd he

/-- The cycle begins and a pending role takes effect; a master requests its reference message. -/
theorem exec_canRefCycle : exec (.canRefCycle k) s = .next (s.withDev
    (if (e.canAt k.val).time = .mastering ∧ ((!(e.canAt k.val).tcfg.requireLock) = true ∨ e.time.servo = .locked) then e.setCan k.val { e.canAt k.val with
        refDue := some c, tx := (e.canAt k.val).tx.wr 32 { (e.canAt k.val).tx.rd 32 with pending := true } }
      else e)) := by
  have hruns : ¬(x.tcfg.role = 0 ∨ (!x.on) = true) := not_or.mpr ⟨hrole, by simp [hon]⟩
  subst hx hc hd
  change execCanRefCycle k s = _
  rcases he with ⟨hnone, rfl⟩ | ⟨v, hsome, rfl⟩
  · simp only [execCanRefCycle, hubStep, hhub, if_true, if_neg hruns, hnone]
  · simp only [execCanRefCycle, hubStep, hhub, if_true, if_neg hruns, hsome]

theorem exec_canRefCycle_masters (hmaster : (e.canAt k.val).time = .mastering ∧ ((e.canAt k.val).tcfg.requireLock = false ∨ e.time.servo = .locked)) :
    exec (.canRefCycle k) s = .next (s.withDev (e.setCan k.val { e.canAt k.val with
      refDue := some c, tx := (e.canAt k.val).tx.wr 32 { (e.canAt k.val).tx.rd 32 with pending := true } })) := by
  rw [exec_canRefCycle hhub hx hrole hon hc hd he, if_pos (by simpa using hmaster)]

theorem exec_canRefCycle_quiet (hquiet : ¬((e.canAt k.val).time = .mastering ∧ ((e.canAt k.val).tcfg.requireLock = false ∨ e.time.servo = .locked))) :
    exec (.canRefCycle k) s = .next (s.withDev e) := by
  rw [exec_canRefCycle hhub hx hrole hon hc hd he, if_neg (by simpa using hquiet)]

end RefCycle

theorem exec_canRefLateTimeout {k : Fin 4} {s : State} {x : CanCtl} {c n : Nat} (hhub : s.dev.hubUp = true) (hx : s.dev.canAt k.val = x)
    (hdue : x.refDue = some c) (hn : bump 16 x.refLate = n) : exec (.canRefLateTimeout k) s =
      .next (s.withDev ((((s.dev.toCt (c * (x.tcfg.cycleUs * 1000) + x.tcfg.cycleUs * 500)).setCan k.val { x with
        refDue := none, refLate := n, tx := x.tx.wr 32 { x.tx.rd 32 with pending := false } }).satAt 0x31 16 n).raise 0x3109 (canSrc k.val) .warn
        (c % 65536))) := by
  subst hx hn
  change execCanRefLateTimeout k s = _
  simp only [execCanRefLateTimeout, hubStep, hhub, hdue]
  rfl

theorem exec_canSilenceTimeout {k : Fin 4} {s : State} {x : CanCtl} {c : Nat} {d : Dev} (hhub : s.dev.hubUp = true) (hx : s.dev.canAt k.val = x)
    (htime : x.time = .following) (hbus : x.off = false) (hmay : (x.tcfg.backup || x.yielded) = true)
    (hc : max ((List.range x.tcfg.prio).foldl (fun acc i => max acc (x.heard.rd i - 1)) x.followC + x.tcfg.silence + 1)
      ((s.dev.now + x.tcfg.cycleUs * 1000 - 1) / (x.tcfg.cycleUs * 1000)) = c)
    (hd : s.dev.toCt (c * (x.tcfg.cycleUs * 1000)) = d) : exec (.canSilenceTimeout k) s =
      .next (s.withDev ((d.setCan k.val { d.canAt k.val with yielded := false }).canTime k.val .mastering)) := by
  have hready : ¬(x.time ≠ .following ∨ x.off = true ∨ (!(x.tcfg.backup || x.yielded)) = true) := by
    simp only [htime, hbus, hmay]
    simp
  subst hx hc hd
  exact congrArg Host.Outcome.next ((if_pos hhub).trans (congrArg s.withDev (if_neg hready)))

theorem exec_canMapTimeoutCheck {s : State} {d : Dev} (hhub : s.dev.hubUp = true) (hd : s.dev.toRaw ((s.dev.time.raw / 1000000 + 1) * 1000000) = d) :
    exec .canMapTimeoutCheck s =
      .next (s.withDev ((List.range 4).foldl (fun acc k => (acc.canAt k).maps.foldl (Dev.mapTimeout k) acc) d)) := by
  subst hd
  exact congrArg Host.Outcome.next (if_pos hhub)

/-- Settles O28: each clause is the lemma about its command. -/
theorem canBusEventsComplete : Obligations.CanBusEventsComplete := by
  unfold Obligations.CanBusEventsComplete
  refine ⟨?received, ?sent, ?error, ?clash, ?recovered, ?cycle, ?late, ?silence, ?maps⟩
  case received =>
    intro k f n s d e hhub hd hon hbus he
    exact ⟨exec_canFrameReceived_monitor hhub hd hon hbus he, exec_canFrameReceived_counts hhub hd hon hbus he⟩
  case sent =>
    intro k b n s d x t y hhub hd hx hsends ht hpending hfree hy
    refine ⟨fun e hb he => ?_, fun e hb he => ?_⟩
    · have hsent := exec_canTxComplete_buffer hhub hd hx hsends ht hpending hfree hy hb he
      exact ⟨fun hmode => by rw [hsent, if_pos hmode], fun hmode => by rw [hsent, if_neg hmode]⟩
    · have hsent := exec_canTxComplete_reference hhub hd hx hsends ht hpending hfree hy hb he
      exact ⟨fun hmode => by rw [hsent, if_pos hmode], fun hmode => by rw [hsent, if_neg hmode]⟩
  case error =>
    intro k lec post s x hhub hx hon hbus
    exact ⟨fun tx => exec_canBusError_monitor hhub hx hon hbus, exec_canBusError_receiver hhub hx hon hbus,
      fun b t => exec_canBusError_sender hhub hx hon hbus⟩
  case clash =>
    intro k b s x t n d hhub hx ht hclash hfree hn hd
    exact ⟨exec_canClashLimit_reference hhub hx ht hclash hfree hn hd, exec_canClashLimit_buffer hhub hx ht hclash hfree hn hd⟩
  case recovered =>
    intro k s d hhub herr hd
    exact ⟨exec_canBusoffRecovered_plain hhub herr hd, exec_canBusoffRecovered_follows hhub herr hd⟩
  case cycle =>
    intro k s x c d e hhub hx hrole hon hc hd he
    exact ⟨exec_canRefCycle_masters hhub hx hrole hon hc hd he, exec_canRefCycle_quiet hhub hx hrole hon hc hd he⟩
  case late => intro k s x c n hhub hx hdue hn; exact exec_canRefLateTimeout hhub hx hdue hn
  case silence =>
    intro k s x c d hhub hx htime hbus hmay hc hd
    exact exec_canSilenceTimeout hhub hx htime hbus hmay hc hd
  case maps => intro s d hhub hd; exact exec_canMapTimeoutCheck hhub hd

end Sys2Proof.Machine
end

section
/-! The CAN opcodes (R346, R347, R350, R352 to R359, Tables 16-5 to 16-11). -/

namespace Sys2Proof.Machine

open Sys2Proof Sys2Proof.Bits

/-! CAN_CONFIG and CAN_FILTER (R346, R347, R359). -/

section CanConfig
variable {p : Packet} {s : State} {q : QPacket} {x : CanCtl} {c : CanCfg} {k : Nat} (h : Ready opCanConfig p s q) (hj : Journals s q)
  (hchecks : firstErr (canConfigChecks s q) = none) (hk : q.pkt.inst = k) (hx : s.dev.canAt k = x) (hc : canCfgOf q = c)
include h hj hchecks hk hx hc

omit h hj in
theorem opCanConfig_off (hoff : c.mode = 0) (hon : x.cfg.mode ≠ 0) : opCanConfig.body s q = .ok s (if s.dev.freeB.1 then
    s.dev.freeB.2.setCan k { x with cfg := c, offWait := s.dev.freeB.1 }
    else (s.dev.freeB.2.setCan k { x with cfg := c, offWait := s.dev.freeB.1 }).mapAllBad k) := by
  subst hk hx hc
  exact (guarded_pass hchecks).trans (if_pos ⟨hoff, hon⟩)

/-- A change to OFF waits for the bus while a frame is on it. -/
theorem exec_canConfig_waits (hoff : c.mode = 0) (hon : x.cfg.mode ≠ 0) (hbusy : s.dev.freeB.1 = true) : exec (.canConfig p) s =
    .next (((s.withDev (s.dev.freeB.2.setCan k { x with cfg := c, offWait := true })).entered 0x0901 q).finish q stOk 0 []) := by
  have hbody := opCanConfig_off hchecks hk hx hc hoff hon
  rw [if_pos hbusy, hbusy] at hbody
  exact congrArg Host.Outcome.next (packetRow_entered h hj hbody rfl (by decide) rfl rfl)

/-- A change to OFF on an idle bus takes effect at once. -/
theorem exec_canConfig_off {d : Dev} (hoff : c.mode = 0) (hon : x.cfg.mode ≠ 0) (hidle : s.dev.freeB.1 = false)
    (hd : (s.dev.freeB.2.setCan k { x with cfg := c, offWait := false }).mapAllBad k = d) (hthrough : d.slalom.writeThrough = false) :
    exec (.canConfig p) s = .next (((s.withDev d).entered 0x0901 q).finish q stOk 0 []) := by
  have hbody := opCanConfig_off hchecks hk hx hc hoff hon
  rw [if_neg (by simp [hidle]), hidle, hd] at hbody
  exact congrArg Host.Outcome.next (row_classN h hbody rfl (q.holds_short (by simp)) rfl (by decide) hj hthrough)

theorem exec_canConfig_set (hmode : c.mode ≠ 0 ∨ x.cfg.mode = 0) : exec (.canConfig p) s =
    .next (((s.withDev (s.dev.setCan k { x with cfg := c, offWait := x.offWait && decide (c.mode = 0) })).entered 0x0901 q).finish q stOk 0 []) := by
  subst hk hx hc
  exact congrArg Host.Outcome.next (packetRow_entered h hj ((guarded_pass hchecks).trans (if_neg (by tauto))) rfl (by decide) rfl rfl)

end CanConfig

theorem exec_canFilter {p : Packet} {s : State} {q : QPacket} (h : Ready opCanFilter p s q) (hj : Journals s q)
    (hchecks : firstErr (canFilterChecks s q) = none) : exec (.canFilter p) s =
      .next (((s.withDev (s.dev.setCan q.pkt.inst ((s.dev.canAt q.pkt.inst).withFilters q))).entered 0x0902 q).finish q stOk 0 []) :=
  congrArg Host.Outcome.next (packetRow_entered h hj (guarded_pass hchecks) rfl (by decide) rfl rfl)

/-! CAN_SEND and its cancel (R350, R353, R359). -/

section CanSend
variable {p : Packet} {s : State} {q : QPacket} {x : CanCtl} {k b : Nat} {t : CanTx} (h : Ready opCanSend p s q) (hk : q.pkt.inst = k)
  (hx : s.dev.canAt k = x) (hb : q.f 0 4 0 = b) (ht : x.tx.rd b = t)
include h hk hx hb ht

omit ht in
theorem exec_canSend_load (hload : q.b 0 9 = false) (hchecks : firstErr (canSendChecks s q) = none) :
    exec (.canSend p) s = .next ((s.withDev (s.dev.setCan k { x with
      tx := x.tx.wr b { frame := { sendFrame q with data := (sendFrame q).bytes (sendFrame q).len }, pending := true, oneShot := q.b 0 8 } })).finish q
      stOk 0 []) := by
  subst hk hx hb
  exact congrArg Host.Outcome.next (packetRow_changed h ((if_neg (by simp [hload])).trans (guarded_pass hchecks)) rfl)

section Cancel
variable (hcancel : q.b 0 9 = true) (hresv : q.resv 0 0x31F = false) (hon : x.cfg.mode ≠ 0) (hsends : x.cfg.mode ≠ 2)
include hcancel hresv hon hsends

theorem exec_canSend_cancelEmpty (hempty : t.pending = false) : exec (.canSend p) s = .next (s.finish q stOk 0 []) := by
  subst hk hx hb ht
  exact congrArg Host.Outcome.next (packetRow_changed h ((if_pos hcancel).trans ((guarded_pass (firstErr_cons_none.mpr ⟨hresv,
    firstErr_cons_none.mpr ⟨decide_eq_false (not_or.mpr ⟨hon, hsends⟩), firstErr_nil⟩⟩)).trans (if_pos (by simp [hempty])))) rfl)

/-- A buffer that may be on the bus is aborted only if its attempt fails. -/
theorem exec_canSend_cancel {o : Bool} (hpending : t.pending = true) (ho : (s.dev.freeB.1 && !t.suspended && x.sends) = o) :
    exec (.canSend p) s = .next ((s.withDev (s.dev.freeB.2.setCan k { x with
      tx := x.tx.wr b { t with pending := o, cancel := o, suspended := false, clash := 0 } })).finish q stOk 0 []) := by
  subst hk hx hb ht ho
  exact congrArg Host.Outcome.next (packetRow_changed h ((if_pos hcancel).trans ((guarded_pass (firstErr_cons_none.mpr ⟨hresv,
    firstErr_cons_none.mpr ⟨decide_eq_false (not_or.mpr ⟨hon, hsends⟩), firstErr_nil⟩⟩)).trans (if_neg (by simp [hpending])))) rfl)

end Cancel

end CanSend

/-! CAN_RECEIVE and CAN_STATUS (Tables 16-5, 16-8 and 16-11). -/

section CanReceive
variable {p : Packet} {s : State} {q : QPacket} {x : CanCtl} {l : List CanRx} {k n : Nat} {ws : List Word} (h : Ready opCanReceive p s q)
  (hk : q.pkt.inst = k) (hx : s.dev.canAt k = x) (hresv : q.resv 0 0xFF03 = false) (hn : q.f 0 15 8 = n) (hlo : 1 ≤ n) (hhi : n ≤ canMax q.pkt.transport)
  (hl : (if q.b 0 0 then x.prioBuf else x.fifo) = l)
  (hws : pack [((l.take n).length, 0), ((l.drop n).length, 8)] :: (l.take n).flatMap CanRx.words = ws) (hfit : q.holds ws.length)
include h hk hx hresv hn hlo hhi hl hws hfit

/-- The elements at the front of the buffer are returned, and with POP they leave it. -/
theorem exec_canReceive : exec (.canReceive p) s = .next ((s.withDev (s.dev.setCan k (if !q.b 0 1 then x
    else if q.b 0 0 then { x with prioBuf := l.drop n } else { x with fifo := l.drop n }))).finish q stOk 0 ws) := by
  subst hk hx hn hl hws
  exact congrArg Host.Outcome.next (row_done h (guarded_pass (firstErr_cons_none.mpr ⟨hresv, firstErr_cons_none.mpr
    ⟨outside_eq_false_iff.mpr ⟨hlo, hhi⟩, firstErr_nil⟩⟩)) rfl hfit (.inl rfl))

theorem exec_canReceive_keep (hkeep : q.b 0 1 = false) : exec (.canReceive p) s = .next ((s.withDev (s.dev.setCan k x)).finish q stOk 0 ws) := by
  rw [exec_canReceive h hk hx hresv hn hlo hhi hl hws hfit, if_pos (by simp [hkeep])]

theorem exec_canReceive_popPriority (hpop : q.b 0 1 = true) (hprio : q.b 0 0 = true) : exec (.canReceive p) s =
    .next ((s.withDev (s.dev.setCan k { x with prioBuf := l.drop n })).finish q stOk 0 ws) := by
  rw [exec_canReceive h hk hx hresv hn hlo hhi hl hws hfit, if_neg (by simp [hpop]), if_pos hprio]

theorem exec_canReceive_popFifo (hpop : q.b 0 1 = true) (hfifo : q.b 0 0 = false) : exec (.canReceive p) s =
    .next ((s.withDev (s.dev.setCan k { x with fifo := l.drop n })).finish q stOk 0 ws) := by
  rw [exec_canReceive h hk hx hresv hn hlo hhi hl hws hfit, if_neg (by simp [hpop]), if_neg (by simp [hfifo])]

end CanReceive

theorem exec_canStatus {p : Packet} {s : State} {q : QPacket} (h : Ready opCanStatus p s q) :
    exec (.canStatus p) s = .next (s.finish q stOk 0 ((List.range 14).map (s.dev.canAt q.pkt.inst).word)) :=
  congrArg Host.Outcome.next (row_done h rfl rfl (q.holds_short (by simp)) (.inl rfl))

/-! CAN_TIME_CONFIG and CAN_MAP (R355 to R359, Table 16-7). -/

theorem Dev.canTime_slalom (d : Dev) (k : Nat) (v : CanTime) : (d.canTime k v).slalom = d.slalom := by
  unfold Dev.canTime
  dsimp only
  split <;> rfl

section CanTimeConfig
variable {p : Packet} {s : State} {q : QPacket} {c : CanTimeCfg} {k : Nat} {d : Dev} (h : Ready opCanTimeConfig p s q) (hj : Journals s q)
  (hchecks : firstErr (canTimeChecks s q) = none) (hk : q.pkt.inst = k) (hc : canTimeCfgOf q = c)
  (hd : s.dev.setCan k { s.dev.canAt k with
    tcfg := c, pendTime := if c.role = 1 then some .mastering else none, yielded := false, heard := [], refDue := none, cycleNow := 0
    tx := (s.dev.canAt k).tx.wr 32 {} } = d)
include h hj hchecks hk hc hd

/-- The settings take effect, and a role that does not wait for its cycle begins. -/
theorem exec_canTimeConfig : exec (.canTimeConfig p) s = .next (((s.withDev
    (if c.role = 0 then d.canTime k .none else if c.role = 2 then d.canTime k .following else d)).entered 0x0906 q).finish q stOk 0 []) := by
  have hslalom : (if c.role = 0 then d.canTime k .none else if c.role = 2 then d.canTime k .following else d).slalom = s.dev.slalom := by
    subst hd
    split
    · exact Dev.canTime_slalom _ _ _
    · split
      · exact Dev.canTime_slalom _ _ _
      · rfl
  subst hk hc hd
  exact congrArg Host.Outcome.next (packetRow_entered h hj (guarded_pass hchecks) rfl (by decide) rfl hslalom)

theorem exec_canTimeConfig_none (hrole : c.role = 0) : exec (.canTimeConfig p) s =
    .next (((s.withDev (d.canTime k .none)).entered 0x0906 q).finish q stOk 0 []) := by
  rw [exec_canTimeConfig h hj hchecks hk hc hd, if_pos hrole]

theorem exec_canTimeConfig_follower (hrole : c.role = 2) : exec (.canTimeConfig p) s =
    .next (((s.withDev (d.canTime k .following)).entered 0x0906 q).finish q stOk 0 []) := by
  rw [exec_canTimeConfig h hj hchecks hk hc hd, if_neg (by simp [hrole]), if_pos hrole]

theorem exec_canTimeConfig_master (hrole : c.role = 1) : exec (.canTimeConfig p) s =
    .next (((s.withDev d).entered 0x0906 q).finish q stOk 0 []) := by
  rw [exec_canTimeConfig h hj hchecks hk hc hd, if_neg (by simp [hrole]), if_neg (by simp [hrole])]

end CanTimeConfig

theorem exec_canMap {p : Packet} {s : State} {q : QPacket} (h : Ready opCanMap p s q) (hj : Journals s q) (hchecks : firstErr (canMapChecks q) = none) :
    exec (.canMap p) s = .next (((s.withDev (s.dev.setCan q.pkt.inst { s.dev.canAt q.pkt.inst with
      maps := (s.dev.canAt q.pkt.inst).maps.wrAll (q.f 0 7 0) (mapsOf (q.from' 1)) })).entered 0x0907 q).finish q stOk 0 []) :=
  congrArg Host.Outcome.next (packetRow_entered h hj (guarded_pass hchecks) rfl (by decide) rfl rfl)

/-! CAN_RECOVER (R352, R353, R356). -/

section RecoverBus
variable {p : Packet} {s : State} {q : QPacket} (h : Ready opCanRecoverBus p s q) (hresv : q.resv 0 0xFF01 = false)
include h hresv

theorem exec_canRecoverBus_held (hheld : (s.dev.canAt q.pkt.inst).err = .busOffHeld) :
    exec (.canRecoverBus p) s = .next ((s.withDev (s.dev.canErr q.pkt.inst .busOff)).finish q stOk 0 []) :=
  congrArg Host.Outcome.next (packetRow_changed h ((guarded_pass (firstErr_cons_none.mpr ⟨hresv, firstErr_nil⟩)).trans (if_pos hheld)) rfl)

theorem exec_canRecoverBus_free (hfree : (s.dev.canAt q.pkt.inst).err ≠ .busOffHeld) :
    exec (.canRecoverBus p) s = .next (s.finish q stOkNoChange 0 []) :=
  congrArg Host.Outcome.next (row_done h ((guarded_pass (firstErr_cons_none.mpr ⟨hresv, firstErr_nil⟩)).trans (if_neg hfree)) rfl
    (q.holds_short (by simp)) (.inr rfl))

end RecoverBus

/-- What CAN_RECOVER OP BUFFER answers of buffer `b`, which stands as `t`. -/
def recoverBufferAns (s : State) (k b : Nat) (x : CanCtl) (t : CanTx) : Ans :=
  if !t.suspended then { st := s, status := stOkNoChange }
  else .ok s (if b = 32 then (s.dev.setCan k { x with
      tx := x.tx.wr b { t with suspended := false, clash := 0, pending := t.pending && decide (b ≠ 32) } }).canTime k .following
    else s.dev.setCan k { x with tx := x.tx.wr b { t with suspended := false, clash := 0, pending := t.pending && decide (b ≠ 32) } })

section RecoverBuffer
variable {p : Packet} {s : State} {q : QPacket} {x : CanCtl} {k b : Nat} {t : CanTx} (h : Ready opCanRecoverBuffer p s q)
  (hresv : q.resv 0 0xFF01 = false) (hk : q.pkt.inst = k) (hx : s.dev.canAt k = x)
  (hb : (q.f 0 15 8 = 0xFF ∧ b = 32) ∨ (q.f 0 15 8 = b ∧ b < 32)) (ht : x.tx.rd b = t)

include hresv hk hx hb ht

theorem opCanRecoverBuffer_body : opCanRecoverBuffer.body s q = recoverBufferAns s k b x t := by
  have hbuf : (if q.f 0 15 8 = 0xFF then 32 else q.f 0 15 8) = b := by split <;> omega
  have hrange : decide (32 < (if q.f 0 15 8 = 0xFF then 32 else q.f 0 15 8) ∨
      ((if q.f 0 15 8 = 0xFF then 32 else q.f 0 15 8) = 32 ∧ q.f 0 15 8 ≠ 0xFF)) = false := by
    rw [hbuf]
    exact decide_eq_false (by omega)
  have hbody : opCanRecoverBuffer.body s q = recoverBufferAns s q.pkt.inst (if q.f 0 15 8 = 0xFF then 32 else q.f 0 15 8) (s.dev.canAt q.pkt.inst)
      ((s.dev.canAt q.pkt.inst).tx.rd (if q.f 0 15 8 = 0xFF then 32 else q.f 0 15 8)) :=
    guarded_pass (firstErr_cons_none.mpr ⟨hresv, firstErr_cons_none.mpr ⟨hrange, firstErr_nil⟩⟩)
  rw [hbody, hbuf, hk, hx, ht]

include h

theorem exec_canRecoverBuffer_free (hfree : t.suspended = false) : exec (.canRecoverBuffer p) s = .next (s.finish q stOkNoChange 0 []) :=
  congrArg Host.Outcome.next (row_done h ((opCanRecoverBuffer_body hresv hk hx hb ht).trans (if_pos (by simp [hfree]))) rfl
    (q.holds_short (by simp)) (.inr rfl))

theorem exec_canRecoverBuffer_reference (hheld : t.suspended = true) (href : b = 32) :
    exec (.canRecoverBuffer p) s = .next ((s.withDev ((s.dev.setCan k { x with
      tx := x.tx.wr b { t with suspended := false, clash := 0, pending := false } }).canTime k .following)).finish q stOk 0 []) := by
  have hbody := opCanRecoverBuffer_body hresv hk hx hb ht
  simp only [recoverBufferAns, hheld, href] at hbody ⊢
  exact congrArg Host.Outcome.next (packetRow_changed h (hbody.trans (by simp)) rfl)

theorem exec_canRecoverBuffer_buffer (hheld : t.suspended = true) (hbuf : b < 32) :
    exec (.canRecoverBuffer p) s = .next ((s.withDev (s.dev.setCan k { x with
      tx := x.tx.wr b { t with suspended := false, clash := 0 } })).finish q stOk 0 []) := by
  have hbody := opCanRecoverBuffer_body hresv hk hx hb ht
  simp only [recoverBufferAns, hheld, if_neg hbuf.ne] at hbody
  exact congrArg Host.Outcome.next (packetRow_changed h (hbody.trans (by simp [hbuf.ne])) rfl)

end RecoverBuffer

/-- Settles O29: each clause is the lemma about its command. -/
theorem canCommandsComplete : Obligations.CanCommandsComplete := by
  unfold Obligations.CanCommandsComplete
  refine ⟨?config, ?filter, ?send, ?receive, ?status, ?timeConfig, ?map, ?recoverBus, ?recoverBuffer⟩
  case config =>
    intro p s q x c k h hj hchecks hk hx hc
    exact ⟨exec_canConfig_waits h hj hchecks hk hx hc, fun d => exec_canConfig_off h hj hchecks hk hx hc, exec_canConfig_set h hj hchecks hk hx hc⟩
  case filter => intro p s q h hj hchecks; exact exec_canFilter h hj hchecks
  case send =>
    intro p s q x k b t h hk hx hb ht
    exact ⟨exec_canSend_load h hk hx hb, fun hcancel hresv hon hsends =>
      ⟨exec_canSend_cancelEmpty h hk hx hb ht hcancel hresv hon hsends, fun o => exec_canSend_cancel h hk hx hb ht hcancel hresv hon hsends⟩⟩
  case receive =>
    intro p s q x l k n h hk hx hresv hn hlo hhi hl ws hws hfit
    exact ⟨exec_canReceive_keep h hk hx hresv hn hlo hhi hl hws hfit, exec_canReceive_popPriority h hk hx hresv hn hlo hhi hl hws hfit,
      exec_canReceive_popFifo h hk hx hresv hn hlo hhi hl hws hfit⟩
  case status => intro p s q h; exact exec_canStatus h
  case timeConfig =>
    intro p s q c k d h hj hchecks hk hc hd
    exact ⟨exec_canTimeConfig_none h hj hchecks hk hc hd, exec_canTimeConfig_follower h hj hchecks hk hc hd,
      exec_canTimeConfig_master h hj hchecks hk hc hd⟩
  case map => intro p s q h hj hchecks; exact exec_canMap h hj hchecks
  case recoverBus => intro p s q h hresv; exact ⟨exec_canRecoverBus_held h hresv, exec_canRecoverBus_free h hresv⟩
  case recoverBuffer =>
    intro p s q x k b t h hresv hk hx hb ht
    exact ⟨exec_canRecoverBuffer_free h hresv hk hx hb ht, exec_canRecoverBuffer_reference h hresv hk hx hb ht,
      exec_canRecoverBuffer_buffer h hresv hk hx hb ht⟩

end Sys2Proof.Machine
end

section
/-! The key store's opcodes and the tamper zeroise (R374, R376, R377, R379 to R385, Tables 18-2, 18-4 and 18-7). -/

namespace Sys2Proof.Machine

open Sys2Proof Sys2Proof.Bits Sys2Proof.Crypto

/-! KEY_PROVISION and KEY_DERIVE (R382 to R384). -/

theorem exec_keyProvision {p : Packet} {s : State} {q : QPacket} {k : List Byte} (h : Ready opKeyProvision p s q)
    (hchecks : firstErr (keyProvisionChecks s.dev q) = none) (hkey : s.dev.unwrapKey q = some k) :
    exec (.keyProvision p) s = .next ((s.withDev ((s.dev.useKey (q.f 0 13 8)).fillSlot (q.f 0 5 0)
      { purpose := BitVec.ofNat 3 (q.f 0 18 16), lifetime := BitVec.ofNat 2 (q.f 0 20 19), parent := q.f 0 13 8, usesLeft := q.f 1 15 0,
        genLast := q.f 1 31 16, key := k } false)).finish q stOk 0 []) := by
  have hbody : opKeyProvision.body s q = .ok s ((s.dev.useKey (q.f 0 13 8)).fillSlot (q.f 0 5 0)
      { purpose := BitVec.ofNat 3 (q.f 0 18 16), lifetime := BitVec.ofNat 2 (q.f 0 20 19), parent := q.f 0 13 8, usesLeft := q.f 1 15 0,
        genLast := q.f 1 31 16, key := k } false) := by
    refine (guarded_pass hchecks).trans ?_
    rw [hkey]
  exact congrArg Host.Outcome.next (packetRow_changed h hbody rfl)

theorem exec_keyDerive {p : Packet} {s : State} {q : QPacket} {k : List Byte} (h : Ready opKeyDerive p s q)
    (hchecks : firstErr (keyDeriveChecks s.dev q) = none)
    (hk : hkdf32 (s.dev.keys.slots.rd (q.f 0 13 8)).key s.dev.serialBytes
      (BitVec.ofNat 8 (q.f 0 18 16) :: (bytesAll ((q.from' 2).take 12)).take (q.f 0 29 24)) = k) :
    exec (.keyDerive p) s = .next ((s.withDev ((s.dev.useKey (q.f 0 13 8)).fillSlot (q.f 0 5 0)
      { purpose := BitVec.ofNat 3 (q.f 0 18 16), lifetime := BitVec.ofNat 2 (q.f 0 20 19), parent := q.f 0 13 8, usesLeft := q.f 1 15 0,
        genLast := (s.dev.keys.slots.rd (q.f 0 5 0)).genLast, key := k } true)).finish q stOk 0 [kcv k]) := by
  subst hk
  exact congrArg Host.Outcome.next (row_done h (guarded_pass hchecks) rfl (q.holds_short (by simp)) (.inl rfl))

/-! KEY_STATUS and KEY_CHALLENGE (R385, Table 18-4). -/

section KeyStatus
variable {p : Packet} {s : State} {q : QPacket} {k : KeySlot} (h : Ready opKeyStatus p s q) (hresv : q.resv 0 0x3F = false)
  (hk : s.dev.keys.slots.rd (q.f 0 5 0) = k)
include h hresv hk

/-- The slot's registers, and the check value of a key that is VALID. -/
theorem exec_keyStatus : exec (.keyStatus p) s =
    .next (s.finish q stOk 0 ((List.range 4).map k.word ++ [if k.state = .valid then kcv k.key else 0])) := by
  subst hk
  exact congrArg Host.Outcome.next (row_done h (guarded_pass (firstErr_cons_none.mpr ⟨hresv, firstErr_nil⟩)) rfl (q.holds_short (by simp)) (.inl rfl))

theorem exec_keyStatus_valid (hvalid : k.state = .valid) :
    exec (.keyStatus p) s = .next (s.finish q stOk 0 ((List.range 4).map k.word ++ [kcv k.key])) := by
  rw [exec_keyStatus h hresv hk, if_pos hvalid]

theorem exec_keyStatus_other (hother : k.state ≠ .valid) :
    exec (.keyStatus p) s = .next (s.finish q stOk 0 ((List.range 4).map k.word ++ [0])) := by
  rw [exec_keyStatus h hresv hk, if_neg hother]

end KeyStatus

theorem exec_keyChallenge {p : Packet} {s : State} {q : QPacket} {i n : Nat} {d : Dev} {ws : List Word} (h : Ready opKeyChallenge p s q)
    (hresv : q.resv 0 0x3F = false) (hi : q.f 0 5 0 = i) (husable : s.dev.keyRefusal i 3 = none) (hready : s.dev.keyWaits i = false)
    (hn : (s.dev.keys.slots.rd i).respCnt + 1 = n) (hbound : n < 2 ^ 32) (hd : s.dev.useKey i = d)
    (hws : wordsOf (hmac (s.dev.keys.slots.rd i).key (bytesAll ((q.from' 1).take 8) ++ s.dev.serialBytes ++ leBytes 4 n)) = ws)
    (hfit : q.holds (3 + ws.length)) : exec (.keyChallenge p) s =
      .next ((s.withDev ((d.setKeySlot i { d.keys.slots.rd i with respCnt := n }).satAt 0x42 32 n)).finish q stOk 0
        ([w32 n, s.dev.serialLo, s.dev.serialHi] ++ ws)) := by
  have hlen : 3 + ws.length = ([w32 n, s.dev.serialLo, s.dev.serialHi] ++ ws).length := by
    rw [List.length_append]
    rfl
  rw [hlen] at hfit
  subst hi hn hd hws
  exact congrArg Host.Outcome.next (row_done h (guarded_pass (firstErr_cons_none.mpr ⟨hresv, firstErr_cons_none.mpr ⟨by simp [husable],
    firstErr_cons_none.mpr ⟨decide_eq_false (Nat.not_le.mpr hbound), firstErr_cons_none.mpr ⟨hready, firstErr_nil⟩⟩⟩⟩)) rfl hfit (.inl rfl))

/-! KEY_ERASE (R379, R380). -/

section KeyErase
variable {p : Packet} {s : State} {q : QPacket} {i : Nat} (h : Ready opKeyErase p s q) (hresv : q.resv 0 0x3F = false) (hi : q.f 0 5 0 = i)
  (hslot : i ≠ 0) (hlive : (s.dev.keys.slots.rd i).state ≠ .exhausted)
include hresv hi hslot hlive

theorem opKeyErase_body : opKeyErase.body s q = if (s.dev.keys.slots.rd i).state = .empty then { st := s, status := stOkNoChange }
    else .ok s ((s.dev.cascade i true).chainChange s.dev.chainKey false) := by
  subst hi
  exact guarded_pass (firstErr_cons_none.mpr ⟨hresv, firstErr_cons_none.mpr ⟨decide_eq_false hslot, firstErr_cons_none.mpr
    ⟨decide_eq_false hlive, firstErr_nil⟩⟩⟩)

include h

theorem exec_keyErase_empty (hempty : (s.dev.keys.slots.rd i).state = .empty) : exec (.keyErase p) s = .next (s.finish q stOkNoChange 0 []) :=
  congrArg Host.Outcome.next (row_done h ((opKeyErase_body hresv hi hslot hlive).trans (if_pos hempty)) rfl (q.holds_short (by simp)) (.inr rfl))

theorem exec_keyErase_filled (hfilled : (s.dev.keys.slots.rd i).state ≠ .empty) : exec (.keyErase p) s =
    .next ((s.withDev ((s.dev.cascade i true).chainChange s.dev.chainKey false)).finish q stOk 0 []) :=
  congrArg Host.Outcome.next (packetRow_changed h ((opKeyErase_body hresv hi hslot hlive).trans (if_neg hfilled)) rfl)

end KeyErase

/-! The tamper zeroise (R376, R377). -/

/-- The source that acts now serves where none is latched. -/
theorem exec_tamperZeroise_now {v : BitVec 3} {s : State} {k : KeyStore} (hk : s.dev.keys = k) (hnone : k.pend = 0) : exec (.tamperZeroise v) s =
    .next (s.withDev (if s.dev.hubUp then s.dev.zeroise v.toNat 0 false else s.dev.zeroiseCore v.toNat 0)) := by
  subst hk
  change execTamperZeroise v s = _
  simp only [execTamperZeroise, if_pos hnone]

/-- A latched source goes before. -/
theorem exec_tamperZeroise_latched {v : BitVec 3} {s : State} {k : KeyStore} (hk : s.dev.keys = k) (hlatched : k.pend ≠ 0) :
    exec (.tamperZeroise v) s = .next (s.withDev (if s.dev.hubUp then s.dev.zeroise k.pend.toNat k.pendInput false
      else s.dev.zeroiseCore k.pend.toNat k.pendInput)) := by
  subst hk
  change execTamperZeroise v s = _
  simp only [execTamperZeroise, if_neg hlatched]

/-- Settles O30: each clause is the lemma about its command. -/
theorem keyCommandsComplete : Obligations.KeyCommandsComplete := by
  unfold Obligations.KeyCommandsComplete
  refine ⟨?provision, ?derive, ?status, ?challenge, ?erase, ?zeroise⟩
  case provision => intro p s q k h hchecks hkey; exact exec_keyProvision h hchecks hkey
  case derive => intro p s q k h hchecks hk; exact exec_keyDerive h hchecks hk
  case status => intro p s q k h hresv hk; exact ⟨exec_keyStatus_valid h hresv hk, exec_keyStatus_other h hresv hk⟩
  case challenge =>
    intro p s q i n d h hresv hi husable hready hn hbound hd ws hws hfit
    exact exec_keyChallenge h hresv hi husable hready hn hbound hd hws hfit
  case erase =>
    intro p s q i h hresv hi hslot hlive
    exact ⟨exec_keyErase_empty h hresv hi hslot hlive, exec_keyErase_filled h hresv hi hslot hlive⟩
  case zeroise =>
    intro v s k hk
    refine ⟨fun hup hnone => ?_, fun hup hlatched => ?_, fun hdown hnone => ?_, fun hdown hlatched => ?_⟩
    · rw [exec_tamperZeroise_now hk hnone, if_pos hup]
    · rw [exec_tamperZeroise_latched hk hlatched, if_pos hup]
    · rw [exec_tamperZeroise_now hk hnone, if_neg (by simp [hdown])]
    · rw [exec_tamperZeroise_latched hk hlatched, if_neg (by simp [hdown])]

end Sys2Proof.Machine
end

section
/-! The commands of the power unit (R390, R393, R408, R412, Tables 19-7 to 19-9). -/

namespace Sys2Proof.Machine

open Sys2Proof Sys2Proof.Bits

theorem exec_pwrStatus {p : Packet} {s : State} {q : QPacket} {d : Dev} (h : Ready opPwrStatus p s q) (hd : s.dev.measurePower = d) :
    exec (.pwrStatus p) s = .next ((s.withDev d).finish q stOk 0 ((List.range 12).map (fun i => d.power.word (4 * i)))) := by
  subst hd
  exact congrArg Host.Outcome.next (row_done h rfl rfl (q.holds_short (by simp)) (.inl rfl))

/-! LOWPOWER_SET (R408, R412). -/

section Run
variable {p : Packet} {s : State} {q : QPacket} (h : Ready opLowpowerSetRun p s q) (hresv : q.resv 0 0x1F03 = false) (hrun : q.f 0 1 0 = 0)

include hresv hrun in
theorem opLowpowerSetRun_body : opLowpowerSetRun.body s q =
    if s.dev.power.lp = .quiesce then .ok s s.dev.leaveQuiesce else { st := s, status := stOkNoChange } :=
  guarded_pass (firstErr_cons_none.mpr ⟨by simp [hresv, hrun], firstErr_nil⟩)

include h hresv hrun

theorem exec_lowpowerSetRun_leaves (hquiet : s.dev.power.lp = .quiesce) :
    exec (.lowpowerSetRun p) s = .next ((s.withDev s.dev.leaveQuiesce).finish q stOk 0 []) :=
  congrArg Host.Outcome.next (packetRow_changed h ((opLowpowerSetRun_body hresv hrun).trans (if_pos hquiet)) rfl)

theorem exec_lowpowerSetRun_runs (hruns : s.dev.power.lp ≠ .quiesce) : exec (.lowpowerSetRun p) s = .next (s.finish q stOkNoChange 0 []) :=
  congrArg Host.Outcome.next (row_done h ((opLowpowerSetRun_body hresv hrun).trans (if_neg hruns)) rfl (q.holds_short (by simp)) (.inr rfl))

end Run

section Quiesce
variable {p : Packet} {s : State} {q : QPacket} (h : Ready opLowpowerSetQuiesce p s q) (hresv : q.resv 0 0x1F03 = false)
  (hstopped : s.dev.frame.state = .stopped)

include hresv hstopped in
theorem opLowpowerSetQuiesce_body : opLowpowerSetQuiesce.body s q = if s.dev.power.lp = .quiesce then { st := s, status := stOkNoChange }
    else .ok s ((List.range 16).foldl (fun acc k => acc.park k) (s.dev.setLp .quiesce (q.f 0 12 8))) :=
  guarded_pass (firstErr_cons_none.mpr ⟨hresv, firstErr_cons_none.mpr ⟨decide_eq_false (not_not.mpr hstopped), firstErr_nil⟩⟩)

include h hresv hstopped

theorem exec_lowpowerSetQuiesce_same (hquiet : s.dev.power.lp = .quiesce) :
    exec (.lowpowerSetQuiesce p) s = .next (s.finish q stOkNoChange 0 []) :=
  congrArg Host.Outcome.next (row_done h ((opLowpowerSetQuiesce_body hresv hstopped).trans (if_pos hquiet)) rfl (q.holds_short (by simp)) (.inr rfl))

theorem exec_lowpowerSetQuiesce_parks (hruns : s.dev.power.lp ≠ .quiesce) : exec (.lowpowerSetQuiesce p) s =
    .next ((s.withDev ((List.range 16).foldl (fun acc k => acc.park k) (s.dev.setLp .quiesce (q.f 0 12 8)))).finish q stOk 0 []) :=
  congrArg Host.Outcome.next (packetRow_changed h ((opLowpowerSetQuiesce_body hresv hstopped).trans (if_neg hruns)) rfl)

end Quiesce

/-- KEEP is entered after the reply, with the frames STOPPED, every field die DISARMED and no eMRAM write under way. -/
theorem exec_lowpowerSetKeep {p : Packet} {s t : State} {q : QPacket} (h : Ready opLowpowerSetKeep p s q) (hresv : q.resv 0 0x1F03 = false)
    (hmagic : q.par 1 = 0x96160C21) (hstopped : s.dev.frame.state = .stopped) (hsafe : ∀ k < 4, (s.dev.fld k).outState = .disarmed)
    (hwrites : s.dev.eMramWrites = false) (ht : s.finish q stOk 0 [] = t) :
    exec (.lowpowerSetKeep p) s = .next (t.after (t.dev.enterKeep (q.f 0 12 8))) := by
  have hany : (List.range 4).any (fun k => decide ((s.dev.fld k).outState ≠ .disarmed)) = false := by
    simpa only [List.any_eq_false, List.mem_range, decide_eq_true_eq, not_not] using hsafe
  have hstate : (decide (s.dev.frame.state ≠ .stopped) || (List.range 4).any (fun k => decide ((s.dev.fld k).outState ≠ .disarmed)) ||
      s.dev.eMramWrites) = false := by
    rw [hany, hwrites, decide_eq_false (not_not.mpr hstopped)]
    rfl
  subst ht
  exact congrArg Host.Outcome.next (packetRow_changed h (guarded_pass (firstErr_cons_none.mpr ⟨hresv, firstErr_cons_none.mpr
    ⟨decide_eq_false (not_not.mpr hmagic), firstErr_cons_none.mpr ⟨hstate, firstErr_nil⟩⟩⟩)) rfl)

theorem exec_railConfig {p : Packet} {s : State} {q : QPacket} (h : Ready opRailConfig p s q) (hj : Journals s q)
    (hchecks : firstErr (railChecks q) = none) : exec (.railConfig p) s = .next (((s.withDev (s.dev.setPwr { s.dev.power with
      tableN := railTableOf q, tableB := railTableOf q })).entered 0x0C22 q).finish q stOk 0 []) :=
  congrArg Host.Outcome.next (packetRow_entered h hj (guarded_pass hchecks) rfl (by decide) rfl rfl)

/-- Settles O33: each clause is the lemma about its command. -/
theorem powerCommandsComplete : Obligations.PowerCommandsComplete := by
  unfold Obligations.PowerCommandsComplete
  refine ⟨?status, ?run, ?quiesce, ?keep, ?rails⟩
  case status => intro p s q d h hd; exact exec_pwrStatus h hd
  case run => intro p s q h hresv hrun; exact ⟨exec_lowpowerSetRun_leaves h hresv hrun, exec_lowpowerSetRun_runs h hresv hrun⟩
  case quiesce =>
    intro p s q h hresv hstopped
    exact ⟨exec_lowpowerSetQuiesce_same h hresv hstopped, exec_lowpowerSetQuiesce_parks h hresv hstopped⟩
  case keep =>
    intro p s t q h hresv hmagic hstopped hsafe hwrites ht
    exact exec_lowpowerSetKeep h hresv hmagic hstopped hsafe hwrites ht
  case rails => intro p s q h hj hchecks; exact exec_railConfig h hj hchecks

end Sys2Proof.Machine
end

section
/-! Resets and start-up (R377, R393 to R406, R411, R412, R421, R425). -/

namespace Sys2Proof.Machine

open Sys2Proof Sys2Proof.Bits

/-! Power-on reset by its cause (R400). -/

section PowerOnReset
variable {s : State} {p : Power} (hp : s.dev.power = p)

theorem exec_powerOnReset_powerUp : exec (.powerOnReset .powerUp) s = .next (s.after (s.dev.por .powerUp 0 false false)) := rfl

include hp

theorem exec_powerOnReset_hubCoreUv (hlb : p.lbAt = none) (hsave : p.saveOn = false) (hon : p.on = true) :
    exec (.powerOnReset .hubCoreUv) s = .next (s.after (s.dev.por .hubCoreUv 0 false true)) := by
  subst hp
  exact congrArg Host.Outcome.next (if_neg (by simp [hlb, hsave, hon]))

theorem exec_powerOnReset_railPg {n : Nat} {d : Dev} (hlb : p.lbAt = none) (hon : p.on = true) (hfree : s.dev.freeN 6 = (n, d)) :
    exec (.powerOnReset .railPg) s = .next (s.after (d.por .railPg n false true)) := by
  obtain ⟨rfl, rfl⟩ := Prod.mk.inj hfree
  subst hp
  exact congrArg Host.Outcome.next (if_neg (by simp [hlb, hon]))

/-- A last breath that has begun, or one from which the device went off for good, ends in a POR. -/
theorem exec_powerOnReset_lastBreath (hlast : p.lbAt.isSome = true ∨ (p.phase = .poweredOff ∧ p.keep = false)) :
    exec (.powerOnReset .lastBreath) s = .next (s.after (s.dev.por .lastBreath 0 p.lbDone false)) := by
  subst hp
  exact congrArg Host.Outcome.next (if_pos hlast)

theorem exec_powerOnReset_keepWake (hoff : p.phase = .poweredOff) (hkeep : p.keep = true) :
    exec (.powerOnReset .keepWake) s = .next (s.after (s.dev.por .keepWake 0 true true)) := by
  subst hp
  exact congrArg Host.Outcome.next (if_pos ⟨hoff, hkeep⟩)

end PowerOnReset

/-! The hub's release and the first ACTIVE die (R396, R397, R399). -/

theorem exec_hubResetRelease {s : State} {d : Dev} {b : BootPick} {w : Bool} (hphase : s.dev.power.phase = .sequencing ∨ s.dev.power.phase = .inReset)
    (hstep : s.dev.power.stepNext = 6) (hpin : s.dev.power.resetN = true) (hcool : s.dev.power.thermalHold = false)
    (hd : s.dev.releaseTime.pickHubRail = d) (hb : d.bootPick = b)
    (hw : d.warmStart b ((s.dev.power.pendKind.map (fun x => x.1)).getD .por) = w) : exec .hubResetRelease s =
      .next (s.withDev (((((((d.openRecord b w).runFirmware b w).startField).raiseHeld b).startKeys).startPorts).startDies)) := by
  subst hd hb hw
  exact congrArg Host.Outcome.next (if_neg (by simpa [hstep, hpin, hcool] using hphase.resolve_left))

section ActiveDieBist
variable {k : Fin 2} {s : State} {n : Nat} {d e : Dev} (hphase : s.dev.power.phase = .hubUp) (hboot : s.dev.power.boot ≠ .recovery)
  (hwait : s.dev.ctlUp = false) (hdie : s.dev.startDie = some k.val) (hfree : s.dev.freeNs 891700000 1954500000 = (n, d))
  (he : d.toRaw (s.dev.power.noActiveSince.getD s.dev.time.raw + n) = e)
include hphase hboot hwait hdie hfree he

theorem exec_activeDieBistDone_pass : exec (.activeDieBistDone k true) s = .next (s.withDev (e.startActive k.val)) := by
  change execActiveDieBistDone k true s = _
  simp only [execActiveDieBistDone, hfree, he]
  rw [if_neg (by simp [hphase, hboot, hwait, hdie]), if_pos trivial]

theorem exec_activeDieBistDone_fail {m : Nat} {f : Dev} (hblock : e.freeN 320 = (m, f)) : exec (.activeDieBistDone k false) s =
    .next (s.withDev (((f.updCtl k.val (fun c => { c with noAuto := true })).dieTo k.val .failed).sliceFail k.val m false)) := by
  change execActiveDieBistDone k false s = _
  simp only [execActiveDieBistDone, hfree, he, hblock]
  rw [if_neg (by simp [hphase, hboot, hwait, hdie]), if_neg Bool.false_ne_true]

end ActiveDieBist

theorem exec_noActiveWaitExpiry {s : State} {t : Nat} {d e : Dev} (hsince : s.dev.power.noActiveSince = some t) (hhub : s.dev.hubUp = true)
    (hwait : s.dev.ctlUp = false) (hfirst : s.dev.power.noActiveExpired = false) (hd : s.dev.toRaw (t + 2500000000) = d)
    (he : (d.host.queue.filter QPacket.waitsDie).foldl (fun acc q => acc.finish q stWrongState 0 []) d = e) :
    exec .noActiveWaitExpiry s = .next (s.withDev (e.setPwr { e.power with noActiveExpired := true })) := by
  subst hd he
  change execNoActiveWaitExpiry s = _
  simp only [execNoActiveWaitExpiry, hsince, hhub, hwait, hfirst]
  rfl

/-! The pin and the hub's watchdog (R394, R398, R402, R425). -/

section ResetPin
variable {s : State} {d : Dev} (hhigh : s.dev.power.resetN = true) (hd : s.dev.setPwr { s.dev.power with resetN := false } = d)
include hhigh hd

theorem exec_resetNLow_restarts (hphase : d.power.phase = .sequencing) (hgaveUp : d.power.stepNext = 7) :
    exec .resetNLow s = .next (s.withDev (d.setPwr { d.power with stepNext := 0, attempts := 0 })) := by
  subst hd
  exact congrArg Host.Outcome.next ((if_neg (by simp [hhigh])).trans (if_pos ⟨hphase, hgaveUp⟩))

theorem exec_resetNLow_resets (hruns : ¬(d.power.phase = .sequencing ∧ d.power.stepNext = 7)) :
    exec .resetNLow s = .next (s.after (d.deviceReset .resetPin 0 true false)) := by
  subst hd
  exact congrArg Host.Outcome.next ((if_neg (by simp [hhigh])).trans (if_neg hruns))

end ResetPin

theorem exec_resetNRise {s : State} {b : BitVec 2} (hlow : s.dev.power.resetN = false) : exec (.resetNRise b) s =
    .next (s.withDev (s.dev.setPwr { s.dev.power with resetN := true, bootPins := b })) :=
  congrArg Host.Outcome.next (if_neg (by simp [hlow]))

theorem exec_hubWatchdogExpiry {s : State} {lockstep : Bool} (hhub : s.dev.hubUp = true) : exec (.hubWatchdogExpiry lockstep) s =
    .next (s.after (s.dev.deviceReset .hubFault (if lockstep then 1 else 2) false false)) :=
  congrArg Host.Outcome.next (if_pos hhub)

/-! DEVICE_RESET and DIE_RESET (R402, R404, R412). -/

theorem exec_deviceReset {p : Packet} {s t : State} {q : QPacket} (h : Ready opDeviceReset p s q) (hmagic : q.par 0 = 0x96160102)
    (hresv : q.resv 1 1 = false) (ht : s.finish q stOk 0 [] = t) :
    exec (.deviceReset p) s = .next (t.after (t.dev.deviceReset .command 0 true (q.b 1 0))) := by
  subst ht
  exact congrArg Host.Outcome.next (packetRow_changed h (guarded_pass (firstErr_cons_none.mpr ⟨decide_eq_false (not_not.mpr hmagic),
    firstErr_cons_none.mpr ⟨hresv, firstErr_nil⟩⟩)) rfl)

/-- DIE_RESET is taken of die `k` in its present state (R404). -/
def Dev.dieResetOpen (d : Dev) (k : Nat) (force : Bool) : Bool :=
  match (d.ctl k).state with
  | .active => force || (d.twin.enabled && d.eligible (1 - k))
  | .cold | .coldSynced => true
  | _ => false

theorem Dev.dieResetOpen_iff_active {d : Dev} {k : Nat} {force : Bool} (hactive : (d.ctl k).state = .active) :
    d.dieResetOpen k force = true ↔ force = true ∨ (d.twin.enabled = true ∧ d.eligible (1 - k) = true) := by
  simp [Dev.dieResetOpen, hactive]

theorem Dev.dieResetOpen_cold {d : Dev} {k : Nat} {force : Bool} (hcold : (d.ctl k).state = .cold ∨ (d.ctl k).state = .coldSynced) :
    d.dieResetOpen k force = true := by
  rcases hcold with hcold | hcold <;> simp [Dev.dieResetOpen, hcold]

theorem Dev.dieResetOpen_other {d : Dev} {k : Nat} {force : Bool} (hother : (d.ctl k).state = .off ∨ (d.ctl k).state = .waking ∨
    (d.ctl k).state = .failed ∨ (d.ctl k).state = .recovering) : d.dieResetOpen k force = false := by
  rcases hother with hother | hother | hother | hother <;> simp [Dev.dieResetOpen, hother]

/-- A state other than OFF, which a table does not list, is the die's once it has moved there. -/
theorem Dev.dieTo_state {d : Dev} {k : Nat} {new : CtlDieState} (hon : new ≠ .off) : ((d.dieTo k new).ctl k).state = new := by
  unfold Dev.dieTo
  dsimp only
  split
  case isTrue hsame => exact hsame
  case isFalse =>
    have hlisted : ({ (d.coldPage new).ctl k with state := new } : CtlDie) ≠ default := fun hdefault => hon (congrArg CtlDie.state hdefault)
    exact congrArg CtlDie.state (Tbl.rd_wr_ne _ k _ hlisted)

section DieReset
variable {p : Packet} {s : State} {q : QPacket} {k : Nat} (h : Ready opDieReset p s q) (hresv : q.resv 0 1 = false) (hk : q.pkt.unit - 3 = k)
include h hresv hk

omit h in
theorem opDieReset_body : opDieReset.body s q = if s.dev.dieResetOpen k (q.b 0 0) then
    .ok s (if (s.dev.ctl k).state = .active then s.dev.declare k .command else s.dev.resetStandby k)
    else .err s stWrongState 0 := by
  subst hk
  have hblocked : (decide ((s.dev.ctl (q.pkt.unit - 3)).state ≠ .active ∧ (s.dev.ctl (q.pkt.unit - 3)).state ≠ .cold ∧
      (s.dev.ctl (q.pkt.unit - 3)).state ≠ .coldSynced) || (decide ((s.dev.ctl (q.pkt.unit - 3)).state = .active) && !q.b 0 0 &&
      !(s.dev.twin.enabled && s.dev.eligible (1 - (q.pkt.unit - 3))))) = !s.dev.dieResetOpen (q.pkt.unit - 3) (q.b 0 0) := by
    unfold Dev.dieResetOpen
    cases (s.dev.ctl (q.pkt.unit - 3)).state <;> simp
  simp only [opDieReset, guarded, encIf, stateIf, hresv, hblocked, firstErr_false]
  cases s.dev.dieResetOpen (q.pkt.unit - 3) (q.b 0 0) <;> rfl

/-- The active die is declared where a standby can take over, or by force. -/
theorem exec_dieReset_active (hactive : (s.dev.ctl k).state = .active)
    (hmay : q.b 0 0 = true ∨ (s.dev.twin.enabled = true ∧ s.dev.eligible (1 - k) = true)) :
    exec (.dieReset p) s = .next ((s.withDev (s.dev.declare k .command)).finish q stOk 0 []) := by
  have hbody := opDieReset_body (s := s) hresv hk
  rw [if_pos ((Dev.dieResetOpen_iff_active hactive).mpr hmay), if_pos hactive] at hbody
  exact congrArg Host.Outcome.next (packetRow_changed h hbody rfl)

/-- A standby that is cold recovers. -/
theorem exec_dieReset_standby (hcold : (s.dev.ctl k).state = .cold ∨ (s.dev.ctl k).state = .coldSynced) :
    exec (.dieReset p) s = .next ((s.withDev (s.dev.resetStandby k)).finish q stOk 0 []) := by
  have hstandby : (s.dev.ctl k).state ≠ .active := by
    rcases hcold with hcold | hcold <;> simp [hcold]
  have hbody := opDieReset_body (s := s) hresv hk
  rw [if_pos (Dev.dieResetOpen_cold hcold), if_neg hstandby] at hbody
  exact congrArg Host.Outcome.next (packetRow_changed h hbody rfl)

/-- Of any other die, and of an active one that nothing can follow, nothing is reset. -/
theorem exec_dieReset_refused (hshut : s.dev.dieResetOpen k (q.b 0 0) = false) :
    exec (.dieReset p) s = .next (s.finish q stWrongState 0 []) := by
  have hbody := opDieReset_body (s := s) hresv hk
  rw [if_neg (by simp [hshut])] at hbody
  exact congrArg Host.Outcome.next (row_rejected h hbody rfl (by decide))

end DieReset

/-! FIELD_RESET, FW_STAGE and FW_ACTIVATE (R405, R411, R412, R418). -/

section FieldReset
variable {p : Packet} {s : State} {q : QPacket} {k : Nat} (h : Ready opFieldReset p s q) (hk : q.pkt.inst = k) (hlb : s.dev.power.lbAt = none)
include h hk hlb

theorem exec_fieldReset_tested (htest : s.dev.fieldTested k = true) : exec (.fieldReset p) s =
    .next ((s.withDev (((s.dev.abortRun (2 + k)).fieldReset k .inReset).causeRecord .field .command k 0 0 0)).finish q stOk 0 []) := by
  subst hk
  exact congrArg Host.Outcome.next (packetRow_changed h ((if_neg (by simp [hlb])).trans (if_pos htest)) rfl)

theorem exec_fieldReset_ordered (hidle : s.dev.fieldTested k = false) (hruns : (s.dev.fld k).run = .run) :
    exec (.fieldReset p) s = .next ((s.withDev (s.dev.orderFieldReset k 7)).finish q stOk 0 []) := by
  subst hk
  exact congrArg Host.Outcome.next (packetRow_changed h ((if_neg (by simp [hlb])).trans ((if_neg (by simp [hidle])).trans
    (if_neg (not_not.mpr hruns)))) rfl)

theorem exec_fieldReset_held (hidle : s.dev.fieldTested k = false) (hheld : (s.dev.fld k).run ≠ .run) :
    exec (.fieldReset p) s = .next (s.finish q stOkNoChange 0 []) := by
  subst hk
  exact congrArg Host.Outcome.next (row_done h ((if_neg (by simp [hlb])).trans ((if_neg (by simp [hidle])).trans (if_pos hheld))) rfl
    (q.holds_short (by simp)) (.inr rfl))

end FieldReset

theorem exec_fwStage {p : Packet} {s : State} {q : QPacket} (h : Ready opFwStage p s q) (hresv0 : q.resv 0 3 = false) (hresv1 : q.resv 1 0xFFFFF = false)
    (hrange : q.f 1 19 0 + (q.n - 2) ≤ 1048576) (hslot : q.b 0 0 ≠ s.dev.power.runSlot) : exec (.fwStage p) s =
      .next ((s.withDev ((s.dev.setPwr { s.dev.power with stageBusy := true }).setSlm (s.dev.slalom.request .firmware))).started q) :=
  congrArg Host.Outcome.next (row_later h (guarded_pass (firstErr_cons_none.mpr ⟨hresv0, firstErr_cons_none.mpr ⟨hresv1,
    firstErr_cons_none.mpr ⟨decide_eq_false (Nat.not_lt.mpr hrange), firstErr_cons_none.mpr ⟨decide_eq_false hslot, firstErr_nil⟩⟩⟩⟩)) rfl
    (q.holds_short (by simp)) rfl)

/-- The image's VERSION is answered; with RESET the device is reset after the reply. -/
theorem exec_fwActivate {p : Packet} {s t : State} {q : QPacket} {v : Nat} (h : Ready opFwActivate p s q) (hj : Journals s q) (hresv : q.resv 0 3 = false)
    (himage : s.dev.power.image s.dev.host.revHub.toNat (q.f 0 0 0) = some v)
    (ht : ((s.withDev (s.dev.setPwr { s.dev.power with prefSlot := q.b 0 0 })).entered 0x0107 q).finish q stOk 0 [w32 v] = t) :
    exec (.fwActivate p) s = .next (if q.b 0 1 then t.after (t.dev.deviceReset .fwActivate 0 true false) else t) := by
  have hbody : opFwActivate.body s q = { st := s.withDev (s.dev.setPwr { s.dev.power with prefSlot := q.b 0 0 }), words := [w32 v] } := by
    refine (guarded_pass (firstErr_cons_none.mpr ⟨hresv, firstErr_cons_none.mpr ⟨?_, firstErr_nil⟩⟩)).trans ?_
    · rw [himage]
      rfl
    · rw [himage]
      rfl
  subst ht
  exact congrArg Host.Outcome.next (row_classN h hbody rfl (q.holds_short (by simp)) rfl (by decide) hj hj.2)

/-- Settles O34: each clause is the lemma about its command. -/
theorem resetCommandsComplete : Obligations.ResetCommandsComplete := by
  unfold Obligations.ResetCommandsComplete
  refine ⟨?por, ?release, ?bist, ?wait, ?pinLow, ?pinRise, ?watchdog, ?device, ?die, ?field, ?cause, ?stage, ?activate⟩
  case por =>
    intro s p hp
    exact ⟨exec_powerOnReset_powerUp, exec_powerOnReset_hubCoreUv hp, fun n d => exec_powerOnReset_railPg hp,
      fun hlast => exec_powerOnReset_lastBreath hp (.inl hlast), fun hoff hkeep => exec_powerOnReset_lastBreath hp (.inr ⟨hoff, hkeep⟩),
      exec_powerOnReset_keepWake hp⟩
  case release =>
    intro s d b w hphase hstep hpin hcool hd hb hw
    exact exec_hubResetRelease hphase hstep hpin hcool hd hb hw
  case bist =>
    intro k s n d e hphase hboot hwait hdie hfree he
    exact ⟨exec_activeDieBistDone_pass hphase hboot hwait hdie hfree he, fun m f => exec_activeDieBistDone_fail hphase hboot hwait hdie hfree he⟩
  case wait =>
    intro s t d e hsince hhub hwait hfirst hd he
    exact exec_noActiveWaitExpiry hsince hhub hwait hfirst hd he
  case pinLow => intro s d hhigh hd; exact ⟨exec_resetNLow_restarts hhigh hd, exec_resetNLow_resets hhigh hd⟩
  case pinRise => intro s b hlow; exact exec_resetNRise hlow
  case watchdog => intro s hhub; exact ⟨exec_hubWatchdogExpiry hhub, exec_hubWatchdogExpiry hhub⟩
  case device => intro p s t q h hmagic hresv ht; exact exec_deviceReset h hmagic hresv ht
  case die =>
    intro p s q k h hresv hk
    exact ⟨exec_dieReset_active h hresv hk, exec_dieReset_standby h hresv hk⟩
  case field =>
    intro p s q k h hk hlb
    exact ⟨exec_fieldReset_tested h hk hlb, exec_fieldReset_ordered h hk hlb, exec_fieldReset_held h hk hlb⟩
  case cause => intro p s q r h hresv hr; exact exec_resetCause h hresv hr
  case stage => intro p s q h hresv0 hresv1 hrange hslot; exact exec_fwStage h hresv0 hresv1 hrange hslot
  case activate =>
    intro p s t q v h hj hresv himage ht
    have hdone := exec_fwActivate h hj hresv himage ht
    exact ⟨fun hstay => by rw [hdone, if_neg (by simp [hstay])], fun hreset => by rw [hdone, if_pos hreset]⟩

/-- Settles O54: the row's answer is that of the die's state, and the move to RECOVERING is the standby's last change. -/
theorem dieResetFollowsTheDieState : Obligations.DieResetFollowsTheDieState := by
  unfold Obligations.DieResetFollowsTheDieState
  intro p s q k h hresv hk
  refine ⟨fun hactive => ⟨exec_dieReset_active h hresv hk hactive, fun hweak hnone => ?_⟩, fun hcold =>
    ⟨exec_dieReset_standby h hresv hk hcold, Dev.dieTo_state (by decide)⟩, fun hother => exec_dieReset_refused h hresv hk (Dev.dieResetOpen_other hother)⟩
  refine exec_dieReset_refused h hresv hk (Bool.eq_false_iff.mpr fun hopen => ?_)
  rcases (Dev.dieResetOpen_iff_active hactive).mp hopen with hforce | ⟨hen, heligible⟩
  · simp [hweak] at hforce
  · rcases hnone with hoff | hunfit
    · simp [hoff] at hen
    · simp [hunfit] at heligible

end Sys2Proof.Machine
end
